-- ==== Sys2Proof/Word.lean ====
section
/-! DEFINITION. Word sizes of the device's registers, records and samples (R11, Table 0.3). -/

namespace Sys2Proof

/-- One byte of a record, a frame or a memory granule. -/
abbrev Byte := BitVec 8

/-- A string of bytes in ascending offset order (R11). -/
abbrev Bytes := List Byte

/-- A 32-bit register word of the status and maintenance space (R13). -/
abbrev Word := BitVec 32

/-- A 16-bit audio sample of the 16 kHz output (R97). -/
abbrev Sample := BitVec 16

end Sys2Proof
end

