-- ==== Sys2Proof/Syntax.lean ====
section
/-! DEFINITION. The commands of the block: one constructor per row of spec/opcode_table.json, with the row's operands. An operand
carries what arrives from outside (bytes of a bus, a pin, a measurement) or what an undocumented program computed. -/

namespace Sys2Proof

/-- A command frame of Table 15.4 without its opcode, which the row names. -/
structure Frame where
  /-- session field -/
  session : Nat := 255
  /-- flags field -/
  flags : Nat := 0
  /-- seq field -/
  seq : Nat := 0
  /-- length field -/
  len : Nat := 0
  /-- payload bytes as sent -/
  payload : Bytes := []
  /-- crc field -/
  crc : Word := 0
  deriving DecidableEq, Repr

/-- How the ECC of a CSI-2 packet header came out (R113). -/
inductive Ecc where
  | ok | corrected | bad
  deriving DecidableEq, Repr

/-- The name of one live descriptor: graph, instance, index in graph order. -/
structure DescId where
  graph : Nat := 0
  inst : Nat := 0
  index : Nat := 0
  deriving DecidableEq, Repr

/-- What the image pipeline computed for a RAW frame in the stages whose parameters lie in the tuning blob, whose layout the manual
does not give (Table 5.2, steps 1 to 6). -/
structure IspFrame where
  /-- raw values after step 3, row by row -/
  mosaic : List Nat := []
  /-- absolute Laplacian after step 4, row by row -/
  laplacian : List Nat := []
  /-- channel values after step 6 in plane, row, column order, of the planes of the output format -/
  pixels : List Nat := []
  /-- the frame as step 1 left it for the next one, line by line in the packing of the link (R122) -/
  reference : List Bytes := []
  /-- granules of the raw buffer or of the reference that came back uncorrectable (R297), and those with a corrected word (R301) -/
  uncorrectable : List Nat := []
  corrected : List Nat := []
  deriving DecidableEq, Repr

/-- What happens at the edges of a tile's arrays while it advances, within the bounds of the rules named. -/
structure TileRun where
  /-- for each array cycle in which a wavefront is due, the feeders and the drains that stall, by row input and column output (R146,
  R147); none stalls after the last one listed -/
  stalls : List (List Nat × List Nat) := []
  /-- governor bubbles taken (R421) -/
  throttle : Nat := 0
  /-- line-buffer misses (R210) -/
  lbMiss : Nat := 0
  /-- backward attend tile: first slot of its key span in the page, which its descriptor does not name (R272) -/
  keyFirst : Nat := 0
  /-- granules that the tile read from the stacked store or DRAM and that came back uncorrectable (R297) -/
  uncorrectable : List Nat := []
  /-- granules that the tile read and in which a word was corrected, once for each (R301) -/
  corrected : List Nat := []
  deriving DecidableEq, Repr

/-- A record that a graph's tile composed in its output region (R364). -/
structure OutRec where
  /-- data type 0x30 to 0x33 -/
  dtype : Nat := 0x30
  /-- header kind, Table 15.11 -/
  kind : Nat := 4
  body : Bytes := []
  tainted : Bool := false
  deriving DecidableEq, Repr

/-- A wake request as its source issues it (Table 3.2 without what the route gives). -/
structure Wake where
  source : Nat := 0
  target : Nat := 1
  stream : Nat := 255
  cls : Nat := 0
  score : Nat := 65535
  onset : Nat := 0
  /-- it comes from a wake input of record 0x0205, so its onset counts events (R70) -/
  input : Bool := false
  deriving DecidableEq, Repr

/-- What a commit wrote and emitted, where a graph's program decides it. -/
structure CommitData where
  /-- records composed -/
  recs : List OutRec := []
  /-- wakes issued by a Point graph (R68) -/
  wakes : List Wake := []
  /-- the request's last record has been composed (R73) -/
  last : Bool := false
  /-- this tile enrols the item into that catalogue (R197) -/
  enrol : Option (Nat × Bytes) := none
  /-- scatter tile: its K and V maps hold bf16, not fp32 (R260) -/
  bf16 : Bool := false
  /-- wait in array cycles that ended with this boundary, where a pre-emption request stood -/
  waited : Nat := 0
  /-- array cycles from the tile's first ramp-up cycle to the end of commit (R315) -/
  cycles : Nat := 0
  /-- samples that this tile reads of a pre-roll tile: tier and arrival number of its request, first index, how many (R85, R86) -/
  preroll : Option (Nat × Nat × Int × Nat) := none
  deriving DecidableEq, Repr

/-- A query of R196: the detection it belongs to. -/
structure Query where
  graph : Nat := 0
  inst : Nat := 0
  frame : Nat := 0
  stream : Nat := 255
  box : Bytes := []
  score : Nat := 0
  detection : Nat := 0
  deriving DecidableEq, Repr

/-- The commands. -/
inductive Instr where
  | powerOn
  | brownOut (rail : Fin 2) (micros : Nat)
  | porstAssert (nanos : Nat)
  | porstRelease (straps : Fin 4) (rewritten : Option (List Bytes))
  | sfdpReadDone (density : Option Nat) (eraseKib : List (Nat × Nat))
  | headerReadDone (first second : Bytes)
  | manifestReadDone (bytes : Bytes)
  | recordReadDone (bytes : Bytes)
  | dramTrainingDone (passed : Bool) (mib : Nat) (goodBlocks : List (List Bool))
  | imageAcceptance (keyBlock : Bytes) (present : List Nat) (found : List (Fin 2 × Nat))
  | blobSegmentReadDone (entry : Nat) (segment : Option Nat) (bytes : Bytes) (corrected : List (List Nat))
      (uncorrectable : List (List (List Nat)))
  | errlogSpacingExpiry
  | flashWriteDone (same : Bool)
  | wakeArrival (w : Wake)
  | arbiterCycle
  | idleHoldExpiry (tier : Fin 3)
  | arriveCounterRead (tier : Fin 3)
  | audioSample (slot : Fin 8) (value : Int) (high : List Int)
  | pdmLineStuck (line : Fin 8)
  | pdmLineRecover (line : Fin 8)
  | tdmFrameSync (slots : List Int)
  | tdmLost
  | tdmLock
  | wakeInputEdge (input : Fin 16) (level : Bool)
  | sensorIbi (sensor : Fin 32) (payload : Bytes)
  | perkStep (arrival : Nat) (outputs : List Int) (busy latency : Nat)
  | perkSramUncorrectable (arrival : Nat)
  | snfIndexRead (slot : Fin 8)
  | csi2FrameStart (port : Fin 4) (vc : Fin 16) (fn : Nat) (ecc : Ecc)
  | csi2LongPacket (port : Fin 4) (vc : Fin 16) (dtype : Nat) (bytes : Bytes) (crcOk : Bool) (ecc : Ecc)
  | csi2FrameEnd (port : Fin 4) (vc : Fin 16) (ecc : Ecc)
  | streamIdle (stream : Fin 48)
  | pipe0LineDone (out : IspFrame)
  | pipe1FrameStart
  | pipe1FrameDone (out : IspFrame)
  | thumbnailReceived (stream : Fin 48) (fn : Nat) (lines : List Bytes) (crcOk : List Bool) (dropped corrected : Nat)
  | settingsBlockPost (sensor : Fin 32) (part : Fin 128) (settingsId : Nat) (entries : List (Nat × Nat))
  | settingsTransferDone (sensor : Fin 32) (ack : Bool)
  | sensorHotJoin (port : Fin 2) (pid : Nat)
  | csiFrameRead (stream : Fin 48)
  | requestBind (graph : Nat)
  | descriptorInstantiate (graph inst : Nat)
  | descriptorReady (d : DescId)
  | tileDispatch (unit : Fin 28) (latency : Nat)
  | affinityWaitExpiry (d : DescId)
  | tileAdvanceEnd (unit : Fin 28) (run : TileRun)
  | tileCommitEnd (unit : Fin 28) (out : CommitData)
  | tileFault (unit : Fin 28) (detector : Nat)
  | scaleTagMismatch (unit : Fin 28) (dataBlock kind tag seenKind : Nat) (poisoned : Bool)
  | hardStop (cluster : Fin 4)
  | hardStopRelease (cluster : Fin 4)
  | tilesCounterRead (core : Fin 24)
  | watchedCountClear (f : Frame)
  | queryJoin (slot : Fin 8) (q : Query)
  | batchWaitExpiry (slot : Fin 8)
  | sweepStart (slot : Fin 8)
  | clusterMergeDone (slot : Fin 8) (cluster : Fin 4)
  | deviceMergeDone (slot : Fin 8) (cycles : Nat)
  | sweepsCounterRead (slot : Fin 8)
  | resetMark (part : Fin 128) (seq : Fin 64) (step : Nat)
  | stateSwapInDone (block : Nat) (headerBlock headerChunks : Nat) (uncorrectable : List Nat) (waited : Nat)
  | stateSwapOutDone (block : Nat)
  | stateIdleExpiry (block : Nat)
  | chunkCounterRead (seq : Fin 64)
  | pageWalkStart (d : DescId) (walker : Fin 2)
  | pageWalkEnd (d : DescId) (poisoned : Bool)
  | allocate (d : DescId) (page : Nat)
  | fill (d : DescId)
  | truncate (part : Fin 128) (seq : Fin 256) (length : Nat)
  | release (part : Fin 128) (seq : Fin 256)
  | editApply (seq : Fin 256) (waited : Nat)
  | pageTableDirectWrite (master : Nat) (part : Fin 128) (seq : Fin 256)
  | attCounterRead (cluster : Fin 4)
  | transferGranuleDone (mover : Fin 4) (fault : Nat) (roundTrip held : Nat)
  | windowLoadStart (window : Fin 4)
  | windowLayerPresent (window : Fin 4) (stall : Nat)
  | windowLayerLate (window : Fin 4)
  | windowLayerFailed (window : Fin 4)
  | remoteBarrierSignal (cell : Fin 8192)
  | scrubPeriod (corrected : Nat) (uncorrectable : List Nat)
  | movCounterRead (mover : Fin 4)
  | windowCounterRead (window : Fin 4)
  | ddrCounterRead
  | budgetWindowStart (cluster : Fin 4)
  | quotaReached (cluster : Fin 4) (part : Fin 128) (charge : Nat)
  | coreLeaveSchedule (core : Fin 24)
  | stepStart (graph : Nat)
  | accessViolation (master : Nat) (part : Fin 128) (address : Nat)
  | prtResetReq (f : Frame)
  | partitionResetCommand (issuer target : Fin 128)
  | partitionResetComplete (part : Fin 128)
  | schedCounterRead
  | checkerParityFail (pool : Fin 7) (instance_ : Nat)
  | backstopExpiry (watch : Fin 6) (instance_ : Nat)
  | enec (events : Nat)
  | disec (events : Nat)
  | rstdaa
  | entdaa (address : Fin 128)
  | setdasa (staticAddr address : Fin 128)
  | getpid
  | getbcr
  | getdcr
  | getmxds
  | getstatus
  | rstact (action : Nat)
  | unsupportedCcc (direct : Bool)
  | hotJoinTimer
  | ibiSend (acked : Bool)
  | ibiSpacingExpiry
  | statusRead (f : Frame)
  | windowWrite (f : Frame)
  | badOpcode (opcode : Nat) (f : Frame)
  | responseRead (count : Nat)
  | attest (f : Frame)
  | sessionOpen (f : Frame)
  | sessionClose (f : Frame)
  | eventInjectWake (f : Frame)
  | eventInjectMark (f : Frame)
  | promptSubmit (f : Frame)
  | prerollRead (f : Frame)
  | prerollResponseReady
  | errlogSnapshot (f : Frame)
  | selfTestRequest (f : Frame)
  | lifecycleTransition (f : Frame)
  | lifecycleProgramDone
  | tensorDump (f : Frame)
  | recordSend (port : Fin 2) (held : Nat)
  | telemetryPeriod
  | i3tCounterRead
  | kennelReset (cause : Fin 3) (sealOpen : Bool)
  | kennelPowerupRecord
  | kennelReading (gross : Int) (otpError : Bool) (temperature : Int) (clock : Nat) (faults : Nat)
  | kennelZero (f : Frame)
  | kennelTareTake (f : Frame)
  | kennelTareClear (f : Frame)
  | kennelReadLatest (f : Frame)
  | kennelReadStable (f : Frame)
  | kennelStatusBlock (f : Frame)
  | kennelCertificate (f : Frame)
  | kennelBadRequest (f : Frame)
  | kennelStableReached
  | kennelStableTimeout
  | kennelAnswerTimeout
  | kennelLateAnswer
  | mailboxHeadAdvance
  | sealOpen (programmed : Bool)
  | sealClose
  | calibrationCommit
  | kenCounterRead
  | crystalStop
  | crystalRestart
  | pllLockLost (pll : Fin 5)
  | bootPointStepUp
  | governorPeriod (milliwatts : Nat) (base compute : Int)
  | governorStepDown
  | governorStepUp
  | operatingPointChangeDone
  | holdLevelExpiry (cluster : Fin 4)
  | thermalCapStep
  | thermalCapRecover
  | thermalShutdown
  | cooldownBootStart
  | watchdogExpiry
  | clusterReset (cluster : Fin 4) (cause : Nat) (fifos : Nat)
  | pwrCounterRead
  | injArm (f : Frame)
  | injDisarm (f : Frame)
  | errEntryClear (f : Frame)
  | errFirstClear (f : Frame)
  | selfTestPeriod
  | selfTestDone (pass : Bool)
  | abortWindowExpiry (core : Fin 24)
  | bankTestPeriod
  | bankSliceDone (uncorrectable : List Nat) (corrected : Nat)
  | ageingMeasure (readings : List Nat)
  | blankToTestTransition (linkKey certificate patch : Bytes)
  | calibrationParameterWrite (name : Nat) (value : Bytes)
  | commandResponseReady
  | stemCounterRead (cluster : Fin 4)
  deriving DecidableEq, Repr

end Sys2Proof
end

