-- ==== Sys2Proof/Config.lean ====
section
/-! DEFINITION. What the manual leaves to the cryptographic standards it cites, to programs it does not document, or
leaves open within a bound: constants without a body, so that no proof can see a value of them. -/

namespace Sys2Proof.Config

/-- A fresh 64-bit draw: the TRNG of R372, the Kennel's boot_id (R395), ephemeral keys (R386). Applied to State.freeCtr. -/
opaque freeWord : Nat → BitVec 64

/-- A free number for a value the manual leaves open; applied to State.freeCtr. -/
opaque freeNat : Nat → Nat

/-- Frames by which R99 delays the 48 kHz output of a TDM source behind its input; below 48 (Table 4.2: at most 1 ms). -/
opaque tdmDelay : Nat

/-- Where a scaled axis of m input pixels and n output pixels begins to read for output pixel i, after the pixel i × m ÷ n (Table 5.2,
step 7). -/
opaque scaleShift : (m n i : Nat) → Nat

/-- What bilinear scaling makes of the neighbourhood that it reads, for output pixel (x, y) of a crop (Table 5.2, step 7). -/
opaque bilinear : (cropW cropH outW outH x y : Nat) → List Nat → Nat

/-- Taps of the FIR that makes 16 kHz of a TDM slot's 48 kHz (Table 4.2), in 2⁻⁸, the newest frame's first. -/
opaque tdmTap : Nat → Int

/-- A YUV422 input holds studio-range samples (R121). -/
opaque bt601Studio : Bool

/-- A value of the matrix of BT.601 that is no integer goes to the next greater one (R121). -/
opaque bt601Up : (plane y u v : Nat) → Bool

/-- Where the red pixel stands in a Bayer quad, as the tuning blob says: its column in bit 0, its row in bit 1. -/
opaque bayer : Bytes → Nat

/-- The bytes of the blob that a blob-entry digest stands for (R44, Table 2.7), decrypted: SHA-256 gives a digest one blob. It serves
the class digests alone, which are fixed before the device has read the blobs (R385). -/
opaque blobOf : (digest : Bytes) → Bytes

/-- Bytes of the feature buffer of one instance of an audio Perk graph, which R110 counts and no table gives. -/
opaque featureBytes : Nat

/-- Whether a low pulse on PORST_N of this many nanoseconds, from 1 µs up to 10 µs, acts (R428). -/
opaque porstActs : Nat → Bool

/-- SHA-256 (R41, R44, R45), with the one property that the standard gives: a digest has 32 bytes. -/
structure Sha where
  hash : Bytes → Bytes
  size : ∀ m, (hash m).length = 32

/-- Such a function exists, so a constant of it may be named. -/
abbrev shaExists : Inhabited Sha := ⟨⟨fun _ => List.replicate 32 0, fun _ => rfl⟩⟩

/-- The function; nothing beyond its size can be proved of it. -/
opaque sha [Inhabited Sha] : Sha

/-- The digest of a message (R41, R44, R45). -/
def sha256 (m : Bytes) : Bytes := (@sha shaExists).hash m

/-- ECDSA over P-256 as the manual uses it (R41, R383): public key of a scalar, signature of a message under a scalar, and the
check of a signature under a key, with the one property that the standard gives: what a scalar signs, its public key verifies. -/
structure Ecdsa where
  pub : Bytes → Bytes
  sign : Bytes → Bytes → Bytes
  verify : Bytes → Bytes → Bytes → Bool
  sound : ∀ k m, verify (pub k) m (sign k m) = true
  sizes : ∀ k m, (pub k).length = 64 ∧ (sign k m).length = 64

/-- Such a scheme exists, so a constant of it may be named. -/
abbrev ecdsaExists : Inhabited Ecdsa :=
  ⟨⟨fun _ => List.replicate 64 0, fun _ _ => List.replicate 64 0, fun _ _ _ => true, fun _ _ => rfl,
    fun _ _ => ⟨rfl, rfl⟩⟩⟩

/-- The scheme; nothing beyond its two properties can be proved of it. -/
opaque ecdsa [Inhabited Ecdsa] : Ecdsa

/-- ECDSA check: key, message, signature (R41, R48, R379, R386). -/
def ecdsaVerify (k m sg : Bytes) : Bool := (@ecdsa ecdsaExists).verify k m sg

/-- ECDSA signature of a message under a private scalar (R383, R404). -/
def ecdsaSign (k m : Bytes) : Bytes := (@ecdsa ecdsaExists).sign k m

/-- The P-256 public key of a private scalar (R371). -/
def publicKey (k : Bytes) : Bytes := (@ecdsa ecdsaExists).pub k

/-- x-coordinate of an ECDH of a private scalar and a public key (Table 16.2). -/
opaque ecdhX : Bytes → Bytes → Bytes

/-- HKDF-SHA256: key material, salt, info, output length (R372). -/
opaque hkdf : Bytes → Bytes → Bytes → Nat → Bytes

/-- AES-256-GCM as the manual uses it (R387, R390): sealing gives ciphertext then a 16-byte tag; opening undoes it. -/
structure Gcm where
  seal' : Bytes → Bytes → Bytes → Bytes → Bytes
  open' : Bytes → Bytes → Bytes → Bytes → Option Bytes
  sound : ∀ k iv aad p, open' k iv aad (seal' k iv aad p) = some p
  size : ∀ k iv aad p, (seal' k iv aad p).length = p.length + 16

/-- Such a cipher exists. -/
abbrev gcmExists : Inhabited Gcm :=
  ⟨⟨fun _ _ _ p => p ++ List.replicate 16 0, fun _ _ _ c => some (c.take (c.length - 16)), fun _ _ _ p => by simp,
    fun _ _ _ p => by simp⟩⟩

/-- The cipher; nothing beyond its two properties can be proved of it. -/
opaque gcm [Inhabited Gcm] : Gcm

/-- AES-256-GCM: key, IV, additional data, plaintext; ciphertext followed by the 16-byte tag (R387, R390). -/
def gcmSeal (k iv aad p : Bytes) : Bytes := (@gcm gcmExists).seal' k iv aad p

/-- AES-256-GCM opening: key, IV, additional data, ciphertext and tag; none when the tag does not verify (R388). -/
def gcmOpen (k iv aad c : Bytes) : Option Bytes := (@gcm gcmExists).open' k iv aad c

/-- AES-256-XTS as the manual uses it (R299): a key pair of 64 bytes, a tweak of 16, a data unit; decryption undoes encryption, and the
length stays. -/
structure Xts where
  enc : Bytes → Bytes → Bytes → Bytes
  dec : Bytes → Bytes → Bytes → Bytes
  sound : ∀ k t p, dec k t (enc k t p) = p
  size : ∀ k t p, (enc k t p).length = p.length

/-- Such a cipher exists. -/
abbrev xtsExists : Inhabited Xts := ⟨⟨fun _ _ p => p, fun _ _ p => p, fun _ _ _ => rfl, fun _ _ _ => rfl⟩⟩

/-- The cipher; nothing beyond its two properties can be proved of it. -/
opaque xts [Inhabited Xts] : Xts

/-- AES-256-XTS encryption: key pair, tweak, data unit (R299). -/
def xtsEncrypt (k t p : Bytes) : Bytes := (@xts xtsExists).enc k t p

/-- AES-256-XTS decryption: key pair, tweak, ciphertext (R299). -/
def xtsDecrypt (k t c : Bytes) : Bytes := (@xts xtsExists).dec k t c

/-- Check byte of eight ciphertext bytes (R300): a SECDED code that the manual does not give. -/
opaque checkByte : Bytes → Byte

/-- The check byte of eight ciphertext bytes of a poisoned granule: the reserved pattern, which no single or double bit error of a good
word gives, so that it differs from the word's own check byte (R300). -/
opaque poisonByte : Bytes → Byte

/-- RFC 3394 unwrap under a key; none when the integrity check value is wrong (R376). -/
opaque keyUnwrap : Bytes → Bytes → Option Bytes

/-- AES-256-CTR of R374: content key, blob_id, segment, bytes. -/
opaque ctrDecrypt : Bytes → Nat → Nat → Bytes → Bytes

/-- The maker's public key (R48, R382). -/
opaque makerKey : Bytes

/-- The maker key hash held in ROM (Table 16.1). -/
def makerKeyHash : Bytes := sha256 makerKey

/-- SHA-256 of the boot ROM (Table 16.8). -/
opaque romDigest : Bytes

/-- The Lomdor intermediate certificate in ROM (Table 16.1). -/
opaque intermediateCert : Bytes

/-- The Kennel's ROM (R394). -/
opaque kennelRom : Bytes

/-- The Kennel's firmware version (Table 17.6). -/
opaque kennelFwVersion : Word

/-- An element-wise program of a blob, in an encoding the manual does not document (Table 6.7), on fp32 encodings. -/
opaque elementWise : Nat → List Word → List Word

/-- A fresh 64-bit draw of the Kennel's own entropy source, applied to Kennel.draws (Table 17.1). -/
opaque kennelWord : Nat → BitVec 64

/-- Key certificate that Lomdor signs for a Kennel public key (Table 17.6). -/
opaque kennelCert : Bytes → Bytes

/-- What device_id reads as on a part that holds no identity key, which R371 does not say; 32 bytes of it are used. -/
opaque noDeviceId : Bytes

/-- What the numbered calibration field of a Kennel without a valid slot holds, which R407 and R408 do not say. -/
opaque noCalib : Nat → Nat

/-- Whether a bilinear stage, a cost or another fact that the manual does not state holds, applied to State.freeCtr. -/
opaque freeBool : Nat → Bool

/-- A YUV420 pass-through frame holds studio-range samples (R365). -/
opaque yuvStudio : Bool

/-- A value of the matrix from RGB to YUV of BT.601 that is no integer goes to the next greater one (R365). -/
opaque yuvUp : (plane r g b : Nat) → Bool

/-- The colour sample that YUV420 keeps of those of a 2 × 2 block of pixels (R365). -/
opaque chroma : List Nat → Nat

/-- A pass-through frame in YUV420 8-bit of a luma or a raw4 output, whose colour the manual does not give (R365): width, height, planes
of 8-bit values. -/
opaque yuv420 : Nat → Nat → List Nat → Bytes

/-- How far a result of the exponential stands from the largest fp32 value that does not exceed the true one: 0 to 3 of it modulo 4
stand for one unit below to two above (R266). -/
opaque expError : Word → Nat

/-- The same of the logarithm, by magnitude. -/
opaque lnError : Word → Nat

end Sys2Proof.Config
end

