-- ==== Sys2Proof/Machine/Bits.lean ====
section
/-! DEFINITION. Byte-order helpers (R11), register field helpers (R10), CRC-32 (R64), saturating counters, and the sparse table
that holds numbered things. -/

namespace Sys2Proof

/-- A table of numbered things: entries in ascending number, an unlisted number holding the default its reader names. -/
structure Tab (α : Type) where
  /-- entries, keys strictly rising -/
  cells : List (Nat × α) := []
  deriving DecidableEq, Repr

end Sys2Proof

namespace Sys2Proof.Machine

variable {α : Type}

/-- Insert or overwrite in an ascending list. -/
def insertKey (k : Nat) (v : α) : List (Nat × α) → List (Nat × α)
  | [] => [(k, v)]
  | (j, w) :: r => if k < j then (k, v) :: (j, w) :: r else if k = j then (k, v) :: r else (j, w) :: insertKey k v r

/-- Look a key up. -/
def lookupKey (k : Nat) : List (Nat × α) → Option α
  | [] => none
  | (j, w) :: r => if k = j then some w else lookupKey k r

/-- The entry of a table, if listed. -/
def tabGet? (t : Tab α) (k : Nat) : Option α := lookupKey k t.cells

/-- The entry of a table, or the default. -/
def tabGet (t : Tab α) (k : Nat) (d : α) : α := (tabGet? t k).getD d

/-- Set an entry. -/
def tabSet (t : Tab α) (k : Nat) (v : α) : Tab α := ⟨insertKey k v t.cells⟩

/-- Take an entry out. -/
def tabDrop (t : Tab α) (k : Nat) : Tab α := ⟨t.cells.filter (fun c => c.1 != k)⟩

/-- Change an entry. -/
def tabMod (t : Tab α) (k : Nat) (d : α) (f : α → α) : Tab α := tabSet t k (f (tabGet t k d))

/-- Apply a function to every listed entry. -/
def tabMap (t : Tab α) (f : Nat → α → α) : Tab α := ⟨t.cells.map (fun c => (c.1, f c.1 c.2))⟩

/-- Byte at an offset; 0 past the end. -/
def u8 (b : Bytes) (o : Nat) : Nat := (b.getD o 0).toNat

/-- Little-endian 16-bit field (R11). -/
def u16 (b : Bytes) (o : Nat) : Nat := u8 b o + 256 * u8 b (o + 1)

/-- Little-endian 32-bit field. -/
def u32 (b : Bytes) (o : Nat) : Nat := u16 b o + 65536 * u16 b (o + 2)

/-- Little-endian 64-bit field. -/
def u64 (b : Bytes) (o : Nat) : Nat := u32 b o + 4294967296 * u32 b (o + 4)

/-- Big-endian 64-bit field (the counter of R387). -/
def be64 (b : Bytes) : Nat := b.foldl (fun a x => 256 * a + x.toNat) 0

/-- Two's complement reading of an n-bit field. -/
def signed (n v : Nat) : Int := if v < 2 ^ (n - 1) then (v : Int) else (v : Int) - (2 ^ n : Nat)

/-- A run of bytes. -/
def slice (b : Bytes) (o n : Nat) : Bytes := (b.drop o).take n

/-- The n low bytes of a number, little-endian. -/
def le (n v : Nat) : Bytes := (List.range n).map (fun i => BitVec.ofNat 8 (v / 256 ^ i))

/-- The n low bytes of a number, big-endian. -/
def be (n v : Nat) : Bytes := (le n v).reverse

/-- n bytes of 0. -/
def zeros (n : Nat) : Bytes := List.replicate n 0

/-- n bytes, cut or padded with 0. -/
def fit (n : Nat) (b : Bytes) : Bytes := (b ++ zeros n).take n

/-- Every byte of a field is 0 (a reserved field, R12). -/
def zeroField (b : Bytes) (o n : Nat) : Bool := (slice b o n).all (fun x => x == 0)

/-- Cut a body into entries of a size. -/
def entriesFrom (size : Nat) : Nat → Bytes → List Bytes
  | 0, _ => []
  | n + 1, b => b.take size :: entriesFrom size n (b.drop size)

/-- The whole entries of a body. -/
def entries (size : Nat) (b : Bytes) : List Bytes := entriesFrom size (b.length / size) b

/-- Bit n of a number. -/
def bit (v n : Nat) : Bool := v.testBit n

/-- A Bool as a register bit. -/
def b2n (b : Bool) : Nat := if b then 1 else 0

/-- Bits [hi:lo] of a word as a number (R10). -/
def fieldOf (w : Word) (hi lo : Nat) : Nat := w.toNat / 2 ^ lo % 2 ^ (hi + 1 - lo)

/-- A register word from its fields: (lowest bit, width, value). -/
def pack (fs : List (Nat × Nat × Nat)) : Word := BitVec.ofNat 32 (fs.foldl (fun a f => a + (f.2.2 % 2 ^ f.2.1) * 2 ^ f.1) 0)

/-- A bit map from the numbers below n that hold. -/
def mapBits (n : Nat) (p : Nat → Bool) : Nat := (List.range n).foldl (fun a i => a + b2n (p i) * 2 ^ i) 0

/-- A number as a counter word; wraps (R111, R137, R158). -/
def w32 (n : Nat) : Word := BitVec.ofNat 32 n

/-- Add to a wrapping counter. -/
def addW (w : Word) (n : Nat) : Word := w + BitVec.ofNat 32 n

/-- Add to a counter that saturates at a bound. -/
def satAdd (bound v n : Nat) : Nat := min bound (v + n)

/-- (a − b) mod 2³² is below 2³¹: the wait test of R295. -/
def reached (count target : Word) : Bool := (count - target).toNat < 2147483648

/-- One CRC-32 bit step (IEEE 802.3, reflected). -/
def crcBit (c : Word) : Word := if c.getLsbD 0 then (c >>> 1) ^^^ 0xEDB88320#32 else c >>> 1

/-- One CRC-32 byte step. -/
def crcByte (c : Word) (b : Byte) : Word :=
  crcBit (crcBit (crcBit (crcBit (crcBit (crcBit (crcBit (crcBit (c ^^^ (b.setWidth 32)))))))))

/-- CRC-32 with the IEEE 802.3 polynomial (Table 2.19, R352). -/
def crc32 (b : Bytes) : Word := ~~~ (b.foldl crcByte 0xFFFFFFFF#32)

/-- ceil(a ÷ b). -/
def ceilDiv (a b : Nat) : Nat := (a + b - 1) / b

/-- Round an exact quotient n ÷ d, d > 0, to nearest with ties to even (Number formats and quantisation). -/
def roundHalfEven (n : Int) (d : Nat) : Int :=
  let q := n / (d : Int)
  let r := n % (d : Int)
  if 2 * r < d then q else if 2 * r > d then q + 1 else if q % 2 = 0 then q else q + 1

/-- Clamp (saturate) into a range. -/
def clampInt (lo hi v : Int) : Int := max lo (min hi v)

/-- Keep the first entries of each key, in order. -/
def dedup [DecidableEq α] (l : List α) : List α := l.foldl (fun a x => if x ∈ a then a else a ++ [x]) []

/-- No entry twice. -/
def distinct [DecidableEq α] : List α → Bool
  | [] => true
  | x :: r => !(r.contains x) && distinct r

end Sys2Proof.Machine
end

