-- ==== Sys2Proof/Machine/Image.lean ====
section
/-! DEFINITION. What a Glijo image configures: the header, the manifest's entries and the bodies of the control records, each
field under the manual's name for it, shortened. Field widths and offsets are in Machine/Record.lean. -/

namespace Sys2Proof.Machine

/-- Image header (02_image_and_boot R40, R41, R61, Table 2.3). -/
structure ImgHeader where
  magic : Nat := 0
  version : Nat := 0
  hlen : Nat := 0
  mode : Nat := 0
  clock : Nat := 0
  dummy : Nat := 0
  readOp : Nat := 0
  switchOp : Nat := 0
  switchVal : Nat := 0
  switchAddr : Nat := 0
  manifestOffset : Nat := 0
  manifestLength : Nat := 0
  securityVersion : Nat := 0
  nandDevices : Nat := 0
  signer : Bytes := []
  signature : Bytes := []
  raw : Bytes := []
  deriving DecidableEq, Repr

/-- Record entry of the manifest (Table 2.6). -/
structure RecEntry where
  ty : Nat := 0
  version : Nat := 0
  length : Nat := 0
  offset : Nat := 0
  reserved : Nat := 0
  digest : Bytes := []
  deriving DecidableEq, Repr

/-- Blob entry of the manifest (Table 2.7). -/
structure BlobEntry where
  id : Nat := 0
  medium : Nat := 0
  flags : Nat := 0
  reserved : Nat := 0
  offset : Nat := 0
  length : Nat := 0
  digest : Bytes := []
  deriving DecidableEq, Repr

/-- Record 0x0103, boot policy (Table 2.12). -/
structure BootPolicy where
  marginOffset : Nat := 0
  errlogOffset : Nat := 0
  eraseKib : Nat := 0
  retries : Nat := 0
  errorAction : Nat := 0
  spacingLog2 : Nat := 0
  advanceFloor : Nat := 0
  deriving DecidableEq, Repr

/-- Record 0x0104, SPI-NAND geometry (Table 2.13). -/
structure NandGeom where
  pageBytes : Nat := 0
  spareBytes : Nat := 0
  pagesPerBlock : Nat := 0
  blocks : Nat := 0
  readMode : Nat := 0
  clock : Nat := 0
  dummy : Nat := 0
  markerPages : Nat := 0
  deriving DecidableEq, Repr

/-- Record 0x0201, tier parameters (Table 3.7). -/
structure TierRec where
  tier : Nat := 0
  total : Nat := 0
  shared : Nat := 0
  d0 : Nat := 0
  d1 : Nat := 0
  d2 : Nat := 0
  d3 : Nat := 0
  idleHold : Nat := 0
  deriving DecidableEq, Repr

/-- Record 0x0202 entry, credit floors (Table 3.8). -/
structure FloorRec where
  part : Nat := 0
  f1 : Nat := 0
  f2 : Nat := 0
  f3 : Nat := 0
  deriving DecidableEq, Repr

/-- Record 0x0203 entry, route (Table 3.9). -/
structure Route where
  target : Nat := 0
  stream : Nat := 0
  cls : Nat := 0
  prio : Nat := 0
  part : Nat := 0
  graph : Nat := 0
  deriving DecidableEq, Repr

/-- Record 0x0204 entry, pre-roll policy (Table 3.10). -/
structure PrePolicy where
  part : Nat := 0
  flags : Nat := 0
  pre : Nat := 0
  post : Nat := 0
  deriving DecidableEq, Repr

/-- Record 0x0205 entry, wake input (Table 3.11). -/
structure WakeInput where
  input : Nat := 0
  mode : Nat := 0
  stream : Nat := 0
  cls : Nat := 0
  deriving DecidableEq, Repr

/-- Record 0x0301, audio inputs (Table 4.4). -/
structure AudioIn where
  pdmLines : Nat := 0
  pdmClocks : Nat := 0
  tdmEnable : Nat := 0
  tdmSlots : Nat := 0
  slotBits : Nat := 0
  tdmFlags : Nat := 0
  deriving DecidableEq, Repr

/-- Record 0x0302, audio stream (Table 4.5). -/
structure AudioRec where
  stream : Nat := 0
  slot : Nat := 0
  kind : Nat := 0
  source : Nat := 0
  gain : Int := 0
  flags : Nat := 0
  hold : Nat := 0
  threshold : Nat := 0
  fall : Nat := 0
  rise : Nat := 0
  cls : Nat := 0
  floorInit : Int := 0
  deriving DecidableEq, Repr

/-- Record 0x0303, Perk graph (Table 4.6). -/
structure PerkGraph where
  graph : Nat := 0
  inputKind : Nat := 0
  outputs : Nat := 0
  maxSteps : Nat := 0
  lookback : Nat := 0
  sramOffset : Nat := 0
  sramBytes : Nat := 0
  blob : Nat := 0
  wakeScore : Nat := 0
  classBase : Nat := 0
  deriving DecidableEq, Repr

/-- Record 0x0401, receive port (Table 5.5). -/
structure RxPort where
  port : Nat := 0
  lanes : Nat := 0
  rate : Nat := 0
  flags : Nat := 0
  deriving DecidableEq, Repr

/-- Record 0x0402, camera stream (Table 5.6). -/
structure CamRec where
  stream : Nat := 0
  port : Nat := 0
  vc : Nat := 0
  dt : Nat := 0
  width : Nat := 0
  height : Nat := 0
  period : Nat := 0
  idleFrames : Nat := 0
  pipe : Nat := 0
  rawBuffers : Nat := 0
  sensor : Nat := 0
  latency : Nat := 0
  fnMode : Nat := 0
  fnWrap : Nat := 0
  region : Nat := 0
  tuning : Nat := 0
  deriving DecidableEq, Repr

/-- Record 0x0403, tensor output (Table 5.7). -/
structure TensorOut where
  stream : Nat := 0
  format : Nat := 0
  pad : Nat := 0
  flags : Nat := 0
  cropX : Nat := 0
  cropY : Nat := 0
  cropW : Nat := 0
  cropH : Nat := 0
  outW : Nat := 0
  outH : Nat := 0
  mean : Nat := 0
  scale : Nat := 0
  region : Nat := 0
  deriving DecidableEq, Repr

/-- Record 0x0404, sensor table entry (Table 5.8). -/
structure SensorRec where
  sensor : Nat := 0
  port : Nat := 0
  flags : Nat := 0
  staticAddr : Nat := 0
  dynAddr : Nat := 0
  holdOn : Nat := 0
  holdOff : Nat := 0
  pid : Nat := 0
  pidMask : Nat := 0
  holdReg : Nat := 0
  initBlob : Nat := 0
  deriving DecidableEq, Repr

/-- Record 0x0405, controller port (Table 5.9). -/
structure CtrlPort where
  port : Nat := 0
  flags : Nat := 0
  sdrKhz : Nat := 0
  i2cKhz : Nat := 0
  deriving DecidableEq, Repr

/-- Record 0x0501, core configuration (Table 6.6). -/
structure CoreRec where
  core : Nat := 0
  act : Nat := 10
  wt : Nat := 8
  acc : Nat := 4
  state : Nat := 2
  ramp : Nat := 1
  deriving DecidableEq, Repr

/-- Record 0x0502 entry, tile template (Table 6.7). -/
structure Template where
  id : Nat := 0
  dataflow : Nat := 0
  shape : Nat := 0
  wFormat : Nat := 0
  aFormat : Nat := 0
  cellOp : Nat := 0
  flags : Nat := 0
  kBlocks : Nat := 0
  rows : Nat := 0
  planned : Nat := 0
  commit : Nat := 0
  outElements : Nat := 0
  requant : Nat := 0
  ewBlob : Nat := 0
  deriving DecidableEq, Repr

/-- Requantisation entry (Table 7.6). -/
structure RqEntry where
  mult : Nat := 0
  bias : Nat := 0
  shift : Nat := 0
  zero : Int := 0
  deriving DecidableEq, Repr

/-- Record 0x0601, requantisation table (Table 7.5). -/
structure RqTable where
  id : Nat := 0
  mode : Nat := 0
  format : Nat := 0
  flags : Nat := 0
  channels : Nat := 0
  statsRegion : Nat := 0
  statsOffset : Nat := 0
  entries : List RqEntry := []
  deriving DecidableEq, Repr

/-- Record 0x0602, codebook set (Table 7.7). -/
structure Codebook where
  id : Nat := 0
  indexBits : Nat := 0
  format : Nat := 0
  granularity : Nat := 0
  tables : Nat := 0
  reduction : Nat := 0
  blob : Nat := 0
  deriving DecidableEq, Repr

/-- Record 0x0603 entry, template format options (Table 7.8). -/
structure FmtOpt where
  template : Nat := 0
  wVariant : Nat := 0
  aVariant : Nat := 0
  groupLog2 : Nat := 0
  scaleFlags : Nat := 0
  codebook : Nat := 0
  deriving DecidableEq, Repr

/-- Record 0x0604 entry, watched channel (Table 7.9). -/
structure Watched where
  core : Nat := 0
  slot : Nat := 0
  channel : Nat := 0
  table : Nat := 0
  deriving DecidableEq, Repr

/-- Record 0x0605 entry, camera clip statistics (Table 7.10). -/
structure ClipStat where
  stream : Nat := 0
  region : Nat := 0
  offset : Nat := 0
  deriving DecidableEq, Repr

/-- Record 0x0701, catalogue (Table 8.4). -/
structure CatRec where
  slot : Nat := 0
  part : Nat := 0
  cellOp : Nat := 0
  direction : Nat := 0
  dims : Nat := 0
  k : Nat := 0
  itemBytes : Nat := 0
  baseCount : Nat := 0
  capacity : Nat := 0
  region : Nat := 0
  baseOffset : Nat := 0
  blob : Nat := 0
  template : Nat := 0
  batchWait : Nat := 0
  acceptScore : Int := 0
  minMargin : Nat := 0
  queryMask : Nat := 0
  deriving DecidableEq, Repr

/-- Record 0x0801 entry, convolution operator (Table 9.4). -/
structure ConvOp where
  template : Nat := 0
  kind : Nat := 0
  padMode : Nat := 0
  inH : Nat := 0
  inW : Nat := 0
  inC : Nat := 0
  outC : Nat := 0
  groups : Nat := 0
  kh : Nat := 0
  kw : Nat := 0
  sh : Nat := 0
  sw : Nat := 0
  dh : Nat := 0
  dw : Nat := 0
  padTop : Nat := 0
  padBottom : Nat := 0
  padLeft : Nat := 0
  padRight : Nat := 0
  outPadH : Nat := 0
  outPadW : Nat := 0
  padValue : Nat := 0
  outH : Nat := 0
  outW : Nat := 0
  inLayout : Nat := 0
  outLayout : Nat := 0
  flags : Nat := 0
  deriving DecidableEq, Repr

/-- Record 0x0802 entry, pool operator (Table 9.5). -/
structure PoolOp where
  id : Nat := 0
  kind : Nat := 0
  format : Nat := 0
  inH : Nat := 0
  inW : Nat := 0
  channels : Nat := 0
  kh : Nat := 0
  kw : Nat := 0
  sh : Nat := 0
  sw : Nat := 0
  padTop : Nat := 0
  padBottom : Nat := 0
  padLeft : Nat := 0
  padRight : Nat := 0
  outH : Nat := 0
  outW : Nat := 0
  planned : Nat := 0
  commit : Nat := 0
  outElements : Nat := 0
  flags : Nat := 0
  deriving DecidableEq, Repr

/-- Record 0x0803 entry, compressed output (Table 9.6). -/
structure ZcOut where
  producer : Nat := 0
  statsRegion : Nat := 0
  statsOffset : Nat := 0
  deriving DecidableEq, Repr

/-- Record 0x0901 entry, scan operator (Table 10.3). -/
structure ScanOp where
  id : Nat := 0
  direction : Nat := 0
  format : Nat := 0
  steps : Nat := 0
  slice : Nat := 0
  flags : Nat := 0
  elements : Nat := 0
  planned : Nat := 0
  commit : Nat := 0
  requant : Nat := 0
  ewBlob : Nat := 0
  initBlob : Nat := 0
  deriving DecidableEq, Repr

/-- Record 0x0902 entry, state block (Table 10.4). -/
structure BlockRec where
  id : Nat := 0
  scan : Nat := 0
  seq : Nat := 0
  core : Nat := 0
  spillTier : Nat := 0
  first : Nat := 0
  count : Nat := 0
  slotOffset : Nat := 0
  storeRegion : Nat := 0
  storeOffset : Nat := 0
  dramRegion : Nat := 0
  dramOffset : Nat := 0
  deriving DecidableEq, Repr

/-- Record 0x0903 entry, sequence (Table 10.5). -/
structure SeqRec where
  seq : Nat := 0
  stream : Nat := 0
  part : Nat := 0
  flags : Nat := 0
  forward : Nat := 0
  backward : Nat := 0
  lookahead : Nat := 0
  idleCycles : Nat := 0
  deriving DecidableEq, Repr

/-- Record 0x0A01 entry, attention operator (Table 11.7). -/
structure AttnOp where
  id : Nat := 0
  kind : Nat := 0
  format : Nat := 0
  headDim : Nat := 0
  kvHeads : Nat := 0
  qPerKv : Nat := 0
  scale : Nat := 0
  span : Nat := 0
  flags : Nat := 0
  planned : Nat := 0
  commit : Nat := 0
  requant : Nat := 0
  deriving DecidableEq, Repr

/-- Record 0x0A02 entry, key-value sequence (Table 11.8). -/
structure KvRec where
  seq : Nat := 0
  part : Nat := 0
  format : Nat := 0
  flags : Nat := 0
  headDim : Nat := 0
  kvHeads : Nat := 0
  layers : Nat := 0
  tablePages : Nat := 0
  pool : Nat := 0
  region : Nat := 0
  offset : Nat := 0
  deriving DecidableEq, Repr

/-- Record 0x0A03 entry, page pool (Table 11.9). -/
structure PagePool where
  pool : Nat := 0
  format : Nat := 0
  headDim : Nat := 0
  kvHeads : Nat := 0
  region : Nat := 0
  offset : Nat := 0
  pages : Nat := 0
  shared : Nat := 0
  deriving DecidableEq, Repr

/-- Record 0x0A04 entry, pool floor (Table 11.10). -/
structure PageFloor where
  pool : Nat := 0
  part : Nat := 0
  floor : Nat := 0
  deriving DecidableEq, Repr

/-- Record 0x0B01 entry, region (Table 12.6). -/
structure Region where
  id : Nat := 0
  part : Nat := 0
  kind : Nat := 0
  flags : Nat := 0
  base : Nat := 0
  pages : Nat := 0
  blob : Nat := 0
  backing : Nat := 0
  deriving DecidableEq, Repr

/-- Record 0x0B02, memory configuration (Table 12.7). -/
structure MemCfg where
  rate : Nat := 0
  ranks : Nat := 0
  flags : Nat := 0
  shareRead : Nat := 0
  shareWrite : Nat := 0
  shareRemote : Nat := 0
  scrubLog2 : Nat := 0
  retainMask : Nat := 0
  deriving DecidableEq, Repr

/-- Record 0x0B03 entry, tag floors (Table 12.8). -/
structure TagFloor where
  part : Nat := 0
  read : Nat := 0
  write : Nat := 0
  s0 : Nat := 0
  s1 : Nat := 0
  s2 : Nat := 0
  s3 : Nat := 0
  deriving DecidableEq, Repr

/-- Window layer entry (Table 12.9). -/
structure WinLayer where
  offset : Nat := 0
  bytes : Nat := 0
  deriving DecidableEq, Repr

/-- Record 0x0B04, weight window (Table 12.9). -/
structure WindowRec where
  window : Nat := 0
  part : Nat := 0
  depth : Nat := 0
  home : Nat := 0
  layers : Nat := 0
  windowRegion : Nat := 0
  slotBytes : Nat := 0
  sourceRegion : Nat := 0
  timeout : Nat := 0
  entries : List WinLayer := []
  deriving DecidableEq, Repr

/-- Record 0x0B05 entry, barrier cells (Table 12.10). -/
structure CellRange where
  cluster : Nat := 0
  part : Nat := 0
  first : Nat := 0
  count : Nat := 0
  deriving DecidableEq, Repr

/-- Record 0x0C01 entry, partition (Table 13.7). -/
structure PartRec where
  part : Nat := 0
  flags : Nat := 0
  affinityWait : Nat := 0
  streams : Nat := 0
  quota : Nat := 0
  sram : Nat := 0
  deriving DecidableEq, Repr

/-- Record 0x0C03 entry, descriptor pool (Table 13.9). -/
structure DescPool where
  pool : Nat := 0
  part : Nat := 0
  region : Nat := 0
  offset : Nat := 0
  slots : Nat := 0
  deriving DecidableEq, Repr

/-- Record 0x0C04 entry, graph (Table 13.10). -/
structure Graph where
  id : Nat := 0
  part : Nat := 0
  pool : Nat := 0
  instances : Nat := 0
  batchShape : Nat := 0
  regionCount : Nat := 0
  prio : Nat := 0
  descriptors : Nat := 0
  blob : Nat := 0
  barrierBase : Nat := 0
  barrierCells : Nat := 0
  instanceFloor : Nat := 0
  sramStride : Nat := 0
  memStride : Nat := 0
  regions : List Nat := []
  deriving DecidableEq, Repr

/-- Record 0x0D01, host interfaces (Table 15.14). -/
structure HostIf where
  txLanes : Nat := 0
  txFlags : Nat := 0
  txRate : Nat := 0
  ibiSpacing : Nat := 0
  telemetryPeriod : Nat := 0
  gpioFunction : Bytes := []
  gpioPolarity : Nat := 0
  telemetryWords : Nat := 0
  offsets : List Nat := []
  deriving DecidableEq, Repr

/-- Record 0x0D02 entry, output channel (Table 15.15). -/
structure Channel where
  part : Nat := 0
  port : Nat := 0
  vc : Nat := 0
  types : Nat := 0
  stream : Nat := 0
  format : Nat := 0
  region : Nat := 0
  deriving DecidableEq, Repr

/-- Record 0x0D03 entry, host policy (Table 15.16). -/
structure HostPolicy where
  part : Nat := 0
  flags : Nat := 0
  ibiMask : Nat := 0
  deriving DecidableEq, Repr

/-- Weight key entry of record 0x0E01 (Table 16.13). -/
structure KeyEntry where
  blob : Nat := 0
  index : Nat := 0
  deriving DecidableEq, Repr

/-- Record 0x0E01, weight keys (Table 16.13). -/
structure KeyRec where
  offset : Nat := 0
  keyCount : Nat := 0
  count : Nat := 0
  entries : List KeyEntry := []
  deriving DecidableEq, Repr

/-- Record 0x0E02 entry, session authentication (Table 16.14). -/
structure AuthRec where
  part : Nat := 0
  hash : Bytes := []
  deriving DecidableEq, Repr

/-- Record 0x0E03, return unlock (Table 16.15). -/
structure UnlockRec where
  deviceId : Bytes := []
  signature : Bytes := []
  deriving DecidableEq, Repr

/-- Record 0x0F01, Kennel interface (Table 17.9). -/
structure KenRec where
  part : Nat := 0
  flags : Nat := 0
  deriving DecidableEq, Repr

/-- Record 0x1001, power (Table 18.8). -/
structure PowerRec where
  limit : Nat := 10000
  topPoint : Nat := 0
  watchdog : Nat := 250
  deriving DecidableEq, Repr

/-- Record 0x1101, reliability policy (Table 19.7). -/
structure RelRec where
  selftestLog2 : Nat := 0
  bankLog2 : Nat := 0
  measureLog2 : Nat := 36
  retireAborts : Nat := 0
  abortLog2 : Nat := 0
  baseAllow : Nat := 64
  g0 : Nat := 20
  g1 : Nat := 15
  g2 : Nat := 10
  d0 : Nat := 16
  d1 : Nat := 24
  d2 : Nat := 32
  u0 : Nat := 4
  u1 : Nat := 6
  u2 : Nat := 8
  deriving DecidableEq, Repr

/-- The loaded image: header, manifest and the bodies of its control records (R45 to R47). A record that the image does not
hold stands as none or the empty list; the defaults of R17, R432 and R459 are the structures' own. -/
structure Image where
  header : ImgHeader := {}
  imageId : Nat := 0
  chainFinal : Bytes := []
  recs : List RecEntry := []
  counts : List Nat := []
  blobs : List BlobEntry := []
  fwVersion : Nat := 0
  fwDigest : Bytes := []
  dramMin : Nat := 0
  boot : Option BootPolicy := none
  nand : Option NandGeom := none
  tiers : List TierRec := []
  floors : List FloorRec := []
  routes : List Route := []
  prePolicies : List PrePolicy := []
  wakeInputs : List WakeInput := []
  audioIn : Option AudioIn := none
  audio : List AudioRec := []
  perk : List PerkGraph := []
  rxPorts : List RxPort := []
  cams : List CamRec := []
  outs : List TensorOut := []
  sensors : List SensorRec := []
  ctrlPorts : List CtrlPort := []
  cores : List CoreRec := []
  templates : List Template := []
  requants : List RqTable := []
  codebooks : List Codebook := []
  fmtOpts : List FmtOpt := []
  watched : List Watched := []
  clipStats : List ClipStat := []
  cats : List CatRec := []
  convs : List ConvOp := []
  pools : List PoolOp := []
  zcOuts : List ZcOut := []
  scans : List ScanOp := []
  blocks : List BlockRec := []
  seqs : List SeqRec := []
  attns : List AttnOp := []
  kvs : List KvRec := []
  pagePools : List PagePool := []
  pageFloors : List PageFloor := []
  regions : List Region := []
  mem : Option MemCfg := none
  tagFloors : List TagFloor := []
  windows : List WindowRec := []
  cellRanges : List CellRange := []
  parts : List PartRec := []
  window : Nat := 0
  descPools : List DescPool := []
  graphs : List Graph := []
  hostIf : Option HostIf := none
  channels : List Channel := []
  policies : List HostPolicy := []
  keys : Option KeyRec := none
  auths : List AuthRec := []
  unlock : Option UnlockRec := none
  ken : Option KenRec := none
  power : PowerRec := {}
  rel : RelRec := {}
  injMask : Nat := 0
  deriving DecidableEq, Repr

end Sys2Proof.Machine
end

