-- ==== Sys2Proof/Machine/State.lean ====
section
/-! DEFINITION. Everything the manual gives the machine, as plain data. A field's docstring names what it is and its width, the
chapter and rule, and its reset value. A numbered family (a core's counters, a stream's) is a table whose unlisted entries hold
the defaults of their structure. -/

namespace Sys2Proof.Machine

/-- Why a command stops with a fault: no command does. -/
inductive Fault where
  deriving DecidableEq, Repr

/-- Why a command is refused. -/
inductive Refusal where
  /-- no meaning is written for the command yet. Raised by Machine/Dispatch.lean alone. Safe. -/
  | notModelled (mnemonic : String)
  deriving DecidableEq, Repr

/-! ## Errors -/

/-- One entry of the error record (Table 19.10). -/
structure ErrEntry where
  /-- set (1) | 19 R439 | 0 -/
  used : Bool := false
  /-- injected (1) | 19 R439 | 0 -/
  injected : Bool := false
  /-- cause (8) | 19 R439 | 0 -/
  cause : Nat := 0
  /-- count (16, saturating) | 19 R439 | 0 -/
  count : Nat := 0
  /-- partition of the last occurrence, if any (7) | 19 R439 | 0 -/
  part : Option Nat := none
  deriving DecidableEq, Repr

/-- The first-error capture (R441). -/
structure ErrFirst where
  /-- injected (1) | 19 R441 | 0 -/
  injected : Bool := false
  /-- cause (8) | 19 R441 | 0 -/
  cause : Nat := 0
  /-- partition charged (7) | 19 R441 | 0 -/
  part : Option Nat := none
  /-- kind and instance of ERR_FIRST_DETAIL (8, 24) | 19 R441 | 0 -/
  detail : Nat × Nat := (0, 0)
  /-- address (40) | 19 R441 | 0 -/
  addr : Option Nat := none
  deriving DecidableEq, Repr

/-- The error record, injection and its registers. -/
structure Err where
  /-- the 64 entries ERR_ENTRY_e | 19 R439 | all free -/
  entries : Tab ErrEntry := {}
  /-- ERR_FIRST_CAUSE, DETAIL, ADDR | 19 R441 | not valid -/
  first : Option ErrFirst := none
  /-- ERR_OVERFLOW (32) | 19 R440 | 0 -/
  overflow : Word := 0
  /-- overflow bit of ERR_STATUS (1) | 19 R440 | 0 -/
  overSet : Bool := false
  /-- INJ_ID (16) | 19 R444 | 0 -/
  injId : Nat := 0
  /-- mode of INJ_CTRL (2) | 19 R444 | 0 -/
  injMode : Nat := 0
  /-- armed injection: ID and mode | 19 R444 | none -/
  armed : Option (Nat × Nat) := none
  /-- denied of INJ_STATUS (1) | 19 R445 | 0 -/
  denied : Bool := false
  /-- INJ_FIRED (32) | 19 R446 | 0 -/
  fired : Word := 0
  /-- INJ_LAST (16) and its valid bit | 19 R446 | not valid -/
  last : Option Nat := none
  deriving DecidableEq, Repr

/-! ## Flash regions that the device writes -/

/-- One copy of a device-written region (Table 2.19). -/
structure Copy where
  /-- kind (32) | 02 R64 | 0xFFFFFFFF, DESIGN CHOICE, log 6 -/
  kind : Nat := 4294967295
  /-- sequence (32) | 02 R64 | 0xFFFFFFFF, DESIGN CHOICE, log 6 -/
  seq : Nat := 4294967295
  /-- payload_length (32) | 02 R64 | 0xFFFFFFFF, DESIGN CHOICE, log 6 -/
  len : Nat := 4294967295
  /-- payload_crc (32) | 02 R64 | 0xFFFFFFFF, DESIGN CHOICE, log 6 -/
  crc : Nat := 4294967295
  /-- payload bytes | 19 R443, R457 | empty, DESIGN CHOICE, log 6 -/
  payload : Bytes := []
  deriving DecidableEq, Repr

/-- The attached flash, as far as the device writes it, and the writes in progress. -/
structure Flash where
  /-- margin plan, copy A | 02 R63 | erased, DESIGN CHOICE, log 6 -/
  planA : Copy := {}
  /-- margin plan, copy B | 02 R63 | erased, DESIGN CHOICE, log 6 -/
  planB : Copy := {}
  /-- error log, copy A | 02 R63 | erased, DESIGN CHOICE, log 6 -/
  logA : Copy := {}
  /-- error log, copy B | 02 R63 | erased, DESIGN CHOICE, log 6 -/
  logB : Copy := {}
  /-- XSPI_RESET_N is high (1): low while PORST_N is low | 20 R471 | low -/
  resetN : Bool := false
  /-- write in progress: error log or margin plan, copy B or A, contents | 02 R65 | none -/
  writing : Option (Bool × Bool × Copy) := none
  /-- margin-plan payload waiting for the write in progress | 02 R67 | none -/
  planDue : Option Bytes := none
  /-- the spacing of error-log writes runs | 02 R67 | no -/
  spacing : Bool := false
  /-- reason of the merged error-log write that falls due at the end of the spacing | 02 R67 | none -/
  logDue : Option Nat := none
  deriving DecidableEq, Repr

/-! ## OTP -/

/-- Fuses and OTP of the device. -/
structure Otp where
  /-- lifecycle state word: five groups of 8 bits, TEST first (40) | 16 R380 | 0, BLANK: DESIGN CHOICE, log 5 -/
  state : List Byte := [0, 0, 0, 0, 0]
  /-- lifecycle intent word (40) | 16 R380 | 0: DESIGN CHOICE, log 5 -/
  intent : List Byte := [0, 0, 0, 0, 0]
  /-- new_owner_key_hash of the accepted request, held for its action (256) | 16 R379 | zero -/
  request : Bytes := []
  /-- owner key hash (256) | 16 Table 16.1 | zero, unprogrammed: DESIGN CHOICE, log 5 -/
  ownerHash : Bytes := List.replicate 32 0
  /-- device identity key (256) | 16 Table 16.1 | zero, unprogrammed: DESIGN CHOICE, log 5 -/
  identity : Bytes := List.replicate 32 0
  /-- device root secret (256) | 16 Table 16.1 | zero, unprogrammed: DESIGN CHOICE, log 5 -/
  root : Bytes := List.replicate 32 0
  /-- link integrity key (256) | 16 Table 16.1 | zero, unprogrammed: DESIGN CHOICE, log 5 -/
  link : Bytes := List.replicate 32 0
  /-- device identity certificate, DER (up to 1,024 B) | 16 Table 16.1 | empty: DESIGN CHOICE, log 5 -/
  cert : Bytes := []
  /-- rollback floor, thermometer of 64 steps | 02 R43 | 0 -/
  floor : Nat := 0
  /-- temperature grade, DEV_ID[7:4] (4) | 01 Table 1.8 | 0: DESIGN CHOICE, log 5 -/
  grade : Nat := 0
  deriving DecidableEq, Repr

/-! ## Boot -/

/-- What the boot sequence waits for (Table 2.15). -/
inductive BootStep where
  /-- PORST_N low or the device held in reset -/
  | held
  /-- after a 0x94 reset, until the sensor has cooled (R424) -/
  | cooling
  /-- step 3, the SFDP table -/
  | sfdp
  /-- step 3, the header -/
  | header
  /-- step 4 -/
  | manifest
  /-- step 5 -/
  | records
  /-- step 6 -/
  | training
  /-- step 7 -/
  | acceptance
  /-- steps 8 and 9 -/
  | loading
  /-- phase 0x9 -/
  | running
  /-- the halted state (R54) -/
  | halted
  deriving DecidableEq, Repr

/-- Progress of one blob entry (R51). -/
structure BlobState where
  /-- checked segment table | 02 R44 | none -/
  table : Option Bytes := none
  /-- next segment to check | 02 R51 | 0 -/
  next : Nat := 0
  /-- every segment checked | 02 R51 | no -/
  done : Bool := false
  /-- checked bytes as stored, until the blob is placed | 02 R44 | empty -/
  stored : Bytes := []
  /-- checked, decrypted and placed | 02 R51 | no -/
  placed : Bool := false
  /-- decrypted bytes once placed | 02 R44, 16 R374 | empty -/
  bytes : Bytes := []
  deriving DecidableEq, Repr

/-- Boot state and DEV boot registers. -/
structure Boot where
  /-- what boot waits for | 02 Table 2.15 | held -/
  step : BootStep := .held
  /-- DEV_BOOT_STATE phase (4) | 02 Table 2.17 | 0x0 -/
  phase : Nat := 0
  /-- DEV_BOOT_STATE attempts (8, saturating) | 02 Table 2.17 | 0 -/
  attempts : Nat := 0
  /-- sniff_ready (1) | 02 Table 2.17 | 0 -/
  sniff : Bool := false
  /-- point_ready (1) | 02 Table 2.17 | 0 -/
  point : Bool := false
  /-- fetch_ready (1) | 02 Table 2.17 | 0 -/
  fetch : Bool := false
  /-- dram_trained (1) | 02 Table 2.17 | 0 -/
  trained : Bool := false
  /-- DEV_BOOT_FAIL cause (8) | 02 Table 2.18 | 0 -/
  failCause : Nat := 0
  /-- DEV_BOOT_FAIL kind (1) | 02 Table 2.18 | 0 -/
  failKind : Nat := 0
  /-- DEV_BOOT_FAIL entry (15) | 02 Table 2.18 | 0 -/
  failEntry : Nat := 0
  /-- DEV_BOOT_FAIL_SEG (32) | 02 Table 2.18 | 0 -/
  failSeg : Nat := 0
  /-- DEV_NVM_CORRECTED (32, saturating) | 02 Table 2.18 | 0 -/
  corrected : Nat := 0
  /-- DEV_IMAGE_DIGEST (256) | 02 R41 | zero -/
  digest : Bytes := List.replicate 32 0
  /-- retries made of the present boot | 02 R53 | 0 -/
  retries : Nat := 0
  /-- boot_retries and device_error_action hold: the policy record has passed validation | 02 R53 | no -/
  policyOk : Bool := false
  /-- the boot policy record that has passed validation | 02 R53 | none -/
  policy : BootPolicy := {}
  /-- the running phase has been reached since power-on, PORST_N or a watchdog reset | 02 R55 | no -/
  reached : Bool := false
  /-- device-initiated resets that failed to reach the running phase (always-on domain) | 02 R55 | 0 -/
  failedResets : Nat := 0
  /-- flash density from SFDP, bytes | 02 R35 | none -/
  density : Option Nat := none
  /-- erase commands that SFDP names: block size in KiB, opcode | 02 R35 | none -/
  erase : List (Nat × Nat) := []
  /-- the command bytes last sent to the xSPI flash: the opcode, and its inverse in the 8-bit modes | 02 R37 | empty -/
  sent : Bytes := []
  /-- next record of the manifest | 02 R45 | 0 -/
  nextRec : Nat := 0
  /-- record digest chain so far (256) | 02 R45 | zero -/
  chain : Bytes := List.replicate 32 0
  /-- trained capacity, MiB | 02 R49 | 0 -/
  mib : Nat := 0
  /-- by SPI-NAND device, its blocks without a factory bad-block marker, ascending | 02 R38, R40 | none -/
  goodBlocks : List (List Nat) := []
  /-- the SPI-NAND pages of the last read: device, block, page of the block | 02 R38 | none -/
  nandPages : List (Nat × Nat × Nat) := []
  /-- boot_salt (128) | 16 R372 | zero -/
  salt : Bytes := List.replicate 16 0
  /-- link key of this boot, in the always-on key store (256) | 16 R373 | zero -/
  linkKey : Bytes := List.replicate 32 0
  /-- DRAM XTS key pair of this boot (512) | 16 R373 | zero -/
  xtsKeys : Bytes := List.replicate 64 0
  /-- RETURN unlocked (1) | 16 R382 | 0 -/
  unlocked : Bool := false
  /-- last_target of SEC_LIFECYCLE (4) | 16 Table 16.17 | 0xF -/
  lastTarget : Nat := 15
  /-- ROM step 2 of a boot is due: draw boot_salt, complete a transition | 16 R372, R381 | no -/
  romDue : Bool := false
  /-- unwrapped content keys | 16 R376 | none -/
  keys : List Bytes := []
  /-- SEC_KEYBLOCK unwrapped (7) | 16 Table 16.17 | 0 -/
  unwrapped : Nat := 0
  /-- progress of each blob entry | 02 R51 | none -/
  blobs : Tab BlobState := {}
  /-- straps I3T_SA1, I3T_SA0 as last sampled (2) | 15 Table 15.1 | 0: DESIGN CHOICE, log 5 -/
  straps : Nat := 0
  /-- the image has been accepted | 02 R50 | no -/
  accepted : Bool := false
  /-- the header of the present boot has been checked (step 4 passed) | 16 Table 16.8 | no -/
  verified : Bool := false
  deriving DecidableEq, Repr

/-! ## Requests and the cascade -/

/-- A routed wake request waiting or admitted. -/
structure WReq where
  /-- the request of Table 3.2 | 03 R69 | - -/
  w : Wake := {}
  /-- partition of the route (7) | 03 R72 | - -/
  part : Nat := 0
  /-- priority of the route (2) | 03 R72 | - -/
  prio : Nat := 0
  /-- graph of the route (16) | 03 R72 | - -/
  graph : Nat := 0
  /-- arrival number (32) | 03 R75 | - -/
  arrival : Nat := 0
  /-- session and turn of a prompt | 15 R359 | - -/
  turn : Option (Nat × Nat) := none
  deriving DecidableEq, Repr

/-- A granted pre-roll window (R85). -/
structure Grant where
  /-- window_start, signed (64) | 03 R85 | - -/
  start : Int := 0
  /-- places of the window | 03 R85 | - -/
  size : Nat := 0
  /-- samples copied so far, the pre-roll tile | 03 R85 | - -/
  tile : List Int := []
  /-- audio slot | 03 R85 | - -/
  slot : Nat := 0
  deriving DecidableEq, Repr

/-- An admitted request (R73), until its last record or its placeholder has been emitted. -/
structure Req where
  /-- tier 1 to 3 | 03 R68 | - -/
  tier : Nat := 1
  /-- the routed wake request | 03 R69 | - -/
  q : WReq := {}
  /-- the credit came from the shared remainder | 03 R73 | - -/
  shared : Bool := false
  /-- order of admission, one count over all tiers | 14 R343 | - -/
  order : Nat := 0
  /-- session sequence number, the session lane key | 15 R359 | - -/
  sessKey : Nat := 0
  /-- its session has closed, and the keys are destroyed | 16 R389 | no -/
  keyless : Bool := false
  /-- bound instance | 13 R304 | - -/
  inst : Option Nat := none
  /-- bound batch slot | 13 R320 | - -/
  slot : Option Nat := none
  /-- records composed and not yet in an output queue | 14 R343 | - -/
  recs : List OutRec := []
  /-- records emitted (16, saturating) | 14 Table 14.6 | - -/
  emitted : Nat := 0
  /-- identifications that earlier ones hold back: frame, detection, record | 08 R200 | none -/
  idents : List ((Nat × Nat) × OutRec) := []
  /-- how it has ended: 0 by its last record, else the cause | 14 R344 | - -/
  ended : Option Nat := none
  /-- the grant | 03 R84 | - -/
  grant : Option Grant := none
  /-- zero_filled of the wake descriptor (32) | 03 R85 | - -/
  zeroFilled : Nat := 0
  /-- wake descriptor handed to the woken graph (256) | 03 R86, Table 3.6 | - -/
  descriptor : Bytes := []
  /-- samples that its tiles last read of its pre-roll tile | 03 R86 | none -/
  samples : List Int := []
  /-- stall cycles (32) | 12 R292 | - -/
  stall : Nat := 0
  /-- latency measured | 03 R80 | - -/
  measured : Bool := false
  /-- token IDs that the turn read from the prompt buffer | 15 R358 | - -/
  prompt : List Nat := []
  /-- lengths of its key-value sequences before the present step | 12 R293 | - -/
  kvBefore : List (Nat × Nat) := []
  deriving DecidableEq, Repr

/-- The wake arbiter's state for one tier. -/
structure Tier where
  /-- floor credits held, by partition | 03 R73 | 0 -/
  held : Tab Nat := {}
  /-- shared credits held | 03 R73 | 0 -/
  sharedHeld : Nat := 0
  /-- credits returned and not yet taken in (partition, shared) | 03 R76 | none -/
  returned : List (Nat × Bool) := []
  /-- the four priority queues | 03 R74 | empty -/
  queues : Tab (List WReq) := {}
  /-- full pending slots, by stream | 03 R74 | none -/
  pending : List WReq := []
  /-- next arrival number (32) | 03 R75 | 0 -/
  next : Nat := 0
  /-- highest onset that has arrived, by stream | 14 R342 | none -/
  highest : Tab Nat := {}
  /-- ARRIVE (32) | 03 R83 | 0 -/
  arrive : Word := 0
  /-- ADMIT (32) | 03 R83 | 0 -/
  admits : Word := 0
  /-- COALESCE (32) | 03 R83 | 0 -/
  coalesce : Word := 0
  /-- SHED (32) | 03 R83 | 0 -/
  shed : Word := 0
  /-- LAT_MAX (32) | 03 R80 | 0 -/
  latMax : Word := 0
  /-- LATE (32) | 03 R80 | 0 -/
  late : Word := 0
  /-- CLAMP (32) | 03 R85 | 0 -/
  clamp : Word := 0
  /-- UNROUTED (32) | 03 R72 | 0 -/
  unrouted : Word := 0
  /-- idle_hold cycles have passed since the tier last became idle | 03 R88 | no -/
  idle : Bool := false
  deriving DecidableEq, Repr

/-! ## Audio and Perk -/

/-- Memory of the device: DRAM, the stacked store and the SRAMs. -/
structure Mem where
  /-- bytes that differ from 0, by device physical address, ascending (8 each) | 12 R276 | reads 0: DESIGN CHOICE, log 8 -/
  cells : List Host.Cell := []
  /-- poisoned granules, ascending, as address / 64 | 12 R297 | none -/
  poison : List Nat := []
  deriving DecidableEq, Repr

/-- One audio slot (R95 to R106). -/
structure AudioSlot where
  /-- holds an active stream | 04 R95 | 0 -/
  active : Bool := false
  /-- the settings of record 0x0302 in force | 04 R100 | image -/
  cfg : AudioRec := {}
  /-- PDM clock code, or the TDM fields of record 0x0301, in force | 04 R100 | image -/
  clock : Nat × AudioIn := (0, {})
  /-- samples produced, INDEX (48) | 04 R98 | 0 -/
  index : Nat := 0
  /-- index of the next 48 kHz sample (48), when that output runs | 04 R99 | 0 -/
  index48 : Nat := 0
  /-- pre-roll region: sample at index mod 32768 | 04 R105 | reads 0 -/
  preroll : Tab Int := {}
  /-- sum of squares of the frame so far | 04 R102 | 0 -/
  energy : Nat := 0
  /-- the frame so far holds a replacement sample | 04 R102 | no -/
  skip : Bool := false
  /-- floor F, 16 fraction bits | 04 R103 | floor_init, image -/
  floor : Int := 0
  /-- armed | 04 R103 | true -/
  armed : Bool := true
  /-- run | 04 R103 | 0 -/
  run : Nat := 0
  /-- first frame of the run | 04 R103 | 0 -/
  runFrame : Nat := 0
  /-- level E of the last frame not skipped | 04 Table 4.8 | -1024 (0xFC00) -/
  level : Int := -1024
  /-- DECIDE (32) | 04 R111 | 0 -/
  decide : Word := 0
  /-- FILLED (32) | 04 R111 | 0 -/
  filled : Word := 0
  /-- SATURATED (32) | 04 R111 | 0 -/
  saturated : Word := 0
  /-- TDM frames since the last sample, up to 3 | 04 R96 | 0 -/
  frames : Nat := 0
  /-- the last three outputs of the 48 kHz output, newest first | 04 R99 | 0 -/
  last48 : List Int := [0, 0, 0]
  deriving DecidableEq, Repr

/-- A Perk instance (R107). -/
structure PerkInst where
  /-- arrival number of its T1 request | 04 R107 | - -/
  arrival : Nat := 0
  /-- Perk graph | 04 R107 | - -/
  graph : Nat := 0
  /-- start h of the first hop | 04 R107 | - -/
  start : Nat := 0
  /-- steps made | 04 R108 | - -/
  steps : Nat := 0
  /-- thumbnails of the stream that had arrived at admission | 04 R107 | - -/
  seen : Nat := 0
  deriving DecidableEq, Repr

/-- The two thumbnail buffers of a stream (R120); thumbnail n, counted from 0, goes to buffer n mod 2. -/
structure Thumbs where
  /-- thumbnails received | 05 R120 | 0 -/
  received : Nat := 0
  /-- bit b: the thumbnail in buffer b has been read, or the buffer is empty (2) | 05 R120 | 3 -/
  read : BitVec 2 := 3
  deriving DecidableEq, Repr

/-- Sniff, Perk and the wake inputs. -/
structure Audio where
  /-- the eight audio slots | 04 R95 | inactive -/
  slots : Tab AudioSlot := {}
  /-- pdm_stuck of SNF_STATUS (8) | 04 R101 | 0 -/
  stuck : BitVec 8 := 0
  /-- tdm_locked (1) | 04 R101 | 0 -/
  tdmLocked : Bool := false
  /-- the inputs' settings in force: record 0x0301 of the image last accepted | 04 R94, R100 | none -/
  input : AudioIn := {}
  /-- consecutive good TDM frames, up to 16 | 04 R101 | 0 -/
  tdmGood : Nat := 0
  /-- slots of the TDM frames received last, 24 bits each, newest first, as many as an output may still take | 04 R94, R99 | none -/
  tdm : List (List Int) := []
  /-- levels of the GPIO pins (16) | 03 Table 3.11 | 0, inactive: DESIGN CHOICE, log 5 -/
  gpio : BitVec 16 := 0
  /-- events per wake input (48) | 03 R70 | 0 -/
  events : Tab Nat := {}
  /-- live Perk instances | 04 R107 | none -/
  insts : List PerkInst := []
  /-- arrival number of the instance that made the last step, from which the turns go on | 04 R107 | none -/
  turn : Option Nat := none
  /-- PRK_WAKES (32) | 04 R111 | 0 -/
  wakes : Word := 0
  /-- PRK_EXPIRED (32) | 04 R111 | 0 -/
  expired : Word := 0
  /-- PRK_ERRORS (32) | 04 R111 | 0 -/
  errors : Word := 0
  /-- PRK_OVERRUN (32) | 04 R111 | 0 -/
  overrun : Word := 0
  /-- PRK_BUSY (32) | 04 R111 | 0 -/
  busy : Word := 0
  /-- thumbnail buffers by stream | 05 R120 | empty -/
  thumbs : Tab Thumbs := {}
  /-- Perk SRAM (1 MiB): the thumbnail buffers | 04 Table 4.3, 05 R120 | reads 0 -/
  sram : Mem := {}
  deriving DecidableEq, Repr

/-! ## Camera -/

/-- Counters of a receive port. -/
structure CamPort where
  /-- ECC_CORR (32) | 05 R113 | 0 -/
  eccCorr : Word := 0
  /-- ECC_DROP (32) | 05 R113 | 0 -/
  eccDrop : Word := 0
  /-- CRC_ERR (32) | 05 R113 | 0 -/
  crcErr : Word := 0
  /-- UNMATCHED (32) | 05 R115 | 0 -/
  unmatched : Word := 0
  deriving DecidableEq, Repr

/-- A CSI-2 frame in reception on a port and virtual channel (R115). -/
structure CsiFrame where
  /-- frame number field of the frame start (16) | 05 R118 | - -/
  fn : Nat := 0
  /-- some long packet matched a record | 05 R115 | - -/
  matched : Bool := false
  /-- embedded data of the frame, if any came | 05 R115 | - -/
  embedded : Option Bytes := none
  /-- streams whose frame has opened in it | 05 R115, R132 | - -/
  opened : List Nat := []
  /-- streams of pipe 1 that had no free raw buffer at its frame start, each with the number of the frame that gives way to its own,
  or none where its own is dropped whole | 05 R124 | - -/
  claims : List (Nat × Option Nat) := []
  /-- a later frame start was lost, so that packets belong to no frame until the next one | 05 R113 | no -/
  lost : Bool := false
  deriving DecidableEq, Repr

/-- A stream's frame from its opening to its descriptor. -/
structure RawFrame where
  /-- stream | 05 R117 | - -/
  stream : Nat := 0
  /-- frame number (48) | 05 R117 | - -/
  number : Nat := 0
  /-- sensor_fn (16) | 05 Table 5.3 | - -/
  sensorFn : Nat := 0
  /-- raw buffer of a pipe-1 frame | 05 R124 | - -/
  buf : Nat := 0
  /-- lines as received: the bytes, unless they lie in the raw buffer in memory, and the poisoned granules | 05 R113, R114 | - -/
  lines : List (Bytes × List Nat) := []
  /-- some line was short or failed its CRC | 05 R114 | - -/
  flawed : Bool := false
  /-- crc_error | 05 R113 | - -/
  crcError : Bool := false
  /-- truncated | 05 R114 | - -/
  truncated : Bool := false
  /-- gap_before | 05 R118 | - -/
  gap : Bool := false
  /-- joined | 05 Table 5.3 | - -/
  joined : Bool := false
  /-- settings_missed | 05 R132 | - -/
  missed : Bool := false
  /-- embedded data attached to the frame | 05 R115 | - -/
  embedded : Option Bytes := none
  /-- dropped whole at intake | 05 R124 | - -/
  dropped : Bool := false
  /-- lines missing: lost at pipe 0, or not received before the close | 05 R114, R123 | - -/
  missing : Nat := 0
  /-- lines of it that pipe 0 still holds after its close | 05 R123 | - -/
  left : Nat := 0
  deriving DecidableEq, Repr

/-- A camera stream's entry of the stream table. -/
structure CamStream where
  /-- state: 0 unseen, 1 active, 2 idle (2) | 05 R116 | 0 -/
  state : Nat := 0
  /-- joins (8, saturating) | 05 R116 | 0 -/
  joins : Nat := 0
  /-- leaves (8, saturating) | 05 R116 | 0 -/
  leaves : Nat := 0
  /-- frame number of the last frame (48) | 05 R117 | 0 -/
  frame : Nat := 0
  /-- a frame has been numbered | 05 R117 | no -/
  seen : Bool := false
  /-- frame number field of the previous frame (16) | 05 R118 | 0 -/
  prevFn : Nat := 0
  /-- GAPS (32) | 05 R118 | 0 -/
  gaps : Word := 0
  /-- TRUNC (32) | 05 R114 | 0 -/
  trunc : Word := 0
  /-- DROPPED (32) | 05 R124 | 0 -/
  dropped : Word := 0
  /-- SET_MISS (32) | 05 R132 | 0 -/
  setMiss : Word := 0
  /-- the open frame | 05 R115 | none -/
  openFrame : Option RawFrame := none
  /-- frame number of the temporal-noise reference | 05 R122 | none -/
  ref : Option Nat := none
  /-- returns of raw buffers that a checker holds | 14 R333 | 0 -/
  heldBufs : Nat := 0
  deriving DecidableEq, Repr

/-- A settings block (R131). -/
structure SetBlock where
  /-- settings_id (32) | 05 R131 | - -/
  id : Nat := 0
  /-- register address and value of each entry | 05 R131 | - -/
  entries : List (Nat × Nat) := []
  deriving DecidableEq, Repr

/-- An operation on an I3C controller port (R130, R131). -/
inductive BusOp where
  /-- SETDASA: a target of this static address takes this dynamic one -/
  | setdasa (port static dyn : Nat)
  /-- ENTDAA: the target of this provisional ID takes this dynamic address -/
  | entdaa (port pid dyn : Nat)
  /-- DISEC for all events -/
  | disec (port addr : Nat)
  /-- a register write -/
  | write (port addr reg value : Nat)
  deriving DecidableEq, Repr

/-- A sensor table entry at run time (R130 to R133). -/
structure Sensor where
  /-- joined (1) | 05 R130 | 0 -/
  joined : Bool := false
  /-- nack (1) | 05 R133 | 0 -/
  nack : Bool := false
  /-- block waiting to start | 05 R131 | none -/
  waiting : Option SetBlock := none
  /-- it has its address | 05 R130 | no -/
  addressed : Bool := false
  /-- its table entry, since the block in progress started | 05 R131 | - -/
  cfg : SensorRec := {}
  /-- block in progress: block, transfers done, frame N, a transfer was NACKed | 05 R131 | none -/
  cur : Option (SetBlock × Nat × Nat × Bool) := none
  /-- block whose hold_off ended between a frame start and the opening of the stream's frame: id and frame N | 05 R132 | none -/
  held : Option (Nat × Nat) := none
  /-- apply frames and ids of blocks, newest first | 05 R133 | none -/
  applied : List (Nat × Nat) := []
  deriving DecidableEq, Repr

/-- Camera intake and the ISP. -/
structure Camera where
  /-- port counters | 05 R137 | 0 -/
  ports : Tab CamPort := {}
  /-- CSI-2 frames in reception, by port x 16 + virtual channel | 05 R115 | none -/
  rx : Tab CsiFrame := {}
  /-- stream entries | 05 R116 | unseen -/
  streams : Tab CamStream := {}
  /-- closed frames of pipe 0 that it has not finished, oldest first | 05 R123 | none -/
  pipe0 : List RawFrame := []
  /-- line places of pipe 0 taken (0 to 2) | 05 R123 | 0 -/
  places : Nat := 0
  /-- complete frames waiting for pipe 1, in frame-end order | 05 R124 | none -/
  queue : List RawFrame := []
  /-- frame in pipe 1 | 05 R124 | none -/
  pipe1 : Option RawFrame := none
  /-- ISP_PIPE1_BUSY (32) | 05 R137 | 0 -/
  busy : Word := 0
  /-- ISP_PIPE1_DROPPED (32) | 05 R137 | 0 -/
  dropped : Word := 0
  /-- sensor table at run time | 05 R130 | not joined -/
  sensors : Tab Sensor := {}
  /-- per controller port: addresses from 0x60 to 0x6F given to targets without an entry, and their provisional IDs | 05 R130 | none -/
  unmatched : Tab (List (Nat × Nat)) := {}
  /-- operations issued on the controller ports by the last command that issues any | 05 R130, R131 | none -/
  issued : List BusOp := []
  deriving DecidableEq, Repr

/-! ## Tensor cores -/

/-- One entry of a top-k list (R189): score and item index. -/
structure KEntry where
  /-- score, signed (32) | 08 R189 | - -/
  score : Int := 0
  /-- item index (32) | 08 R189 | - -/
  item : Nat := 0
  deriving DecidableEq, Repr

/-- A top-k list of one query row. -/
structure KList where
  /-- entries in rank order | 08 R189 | empty -/
  entries : List KEntry := []
  /-- tainted | 08 R190 | no -/
  tainted : Bool := false
  deriving DecidableEq, Repr

/-- One element of the accumulator working area (R152). -/
structure AccElem where
  /-- output position of the tile, or query row | 06 R151 | - -/
  row : Nat := 0
  /-- output channel of the tile, or key | 06 R151 | - -/
  chan : Nat := 0
  /-- int32 or fp32 value (32) | 07 R161 | - -/
  value : Word := 0
  /-- row scale r (32) | 07 R173 | - -/
  scale : Word := 0
  /-- computed from a poisoned granule | 12 R298 | - -/
  poison : Bool := false
  deriving DecidableEq, Repr

/-- A tile in progress on a core or stem engine. -/
structure Tile where
  /-- its descriptor | 13 R311 | - -/
  d : DescId := {}
  /-- commit in progress | 06 R151 | - -/
  committing : Bool := false
  /-- the tile is a replay | 06 R154 | - -/
  replay : Bool := false
  /-- held by a hard stop | 06 R154 | - -/
  stopped : Bool := false
  /-- accumulator working area | 06 R152 | - -/
  acc : List AccElem := []
  /-- working copies of the top-k lists | 08 R188 | - -/
  lists : Tab KList := {}
  /-- values offered and withheld so far | 08 R188 | - -/
  offered : Nat × Nat := (0, 0)
  /-- int32 additions that saturated | 07 R161 | - -/
  accSat : Nat := 0
  /-- passes run and skipped | 09 R215 | - -/
  passes : Nat × Nat := (0, 0)
  /-- carried state of a scan tile: the value of each element, and whether it holds poison | 10 R231, R243 | - -/
  carried : List (Word × Bool) := []
  /-- frozen flag mask of its chunk: steps | 10 R236 | - -/
  mask : List Nat := []
  /-- page addresses fixed by its walk | 11 R255 | - -/
  pages : List (Nat × Nat) := []
  /-- array cycles that it advances and that its commit takes | 06 R148, R151 | - -/
  span : Nat × Nat := (0, 0)
  /-- the cycles of its present part are in its unit's counters | 00 R482 | no -/
  counted : Bool := false
  /-- lowest and highest throttle level that its cluster has applied to it since its ramp-up | 18 R421 | - -/
  levels : Nat × Nat := (0, 0)
  /-- its array cycles that stand in its unit's counters, commit and bubbles among them | 00 R482 | 0 -/
  spent : Nat := 0
  /-- its array cycles that its partition has been charged | 13 R315 | 0 -/
  charged : Nat := 0
  /-- a hard stop has held it | 06 R154 | no -/
  halted : Bool := false
  /-- search tile: its sweep has ended, and its lists belong to no sweep | 08 R199 | no -/
  stale : Bool := false
  deriving DecidableEq, Repr

/-- A watched channel slot (R182). -/
structure WatchSlot where
  /-- Ww_SUMSQ (32) | 07 R182 | 0 -/
  sumsq : Word := 0
  /-- Ww_COUNT (32, saturating) | 07 R182 | 0 -/
  count : Word := 0
  deriving DecidableEq, Repr

/-- One entry of a leash (R146). -/
structure LeashEntry where
  /-- the operand element or the result | 06 R146 | 0 -/
  value : Nat := 0
  /-- valid (1) | 06 R146 | 0 -/
  valid : Bool := false
  /-- parity over the value (1) | 06 R146 | 0 -/
  parity : Bool := false
  deriving DecidableEq, Repr

/-- The leashes at the edge of a core's arrays, up to four entries each, oldest first (R146). -/
structure Leashes where
  /-- one for each row input | 06 R146 | empty -/
  rows : List (List LeashEntry) := []
  /-- one for each column output | 06 R146 | empty -/
  cols : List (List LeashEntry) := []
  deriving DecidableEq, Repr

/-- The operand block of a core's arrays, which the four share, by column and reduction row (R140, R142). -/
structure CellBlocks where
  /-- the block that the cells hold, element encodings | 06 R140, R142 | empty -/
  active : List (List Nat) := []
  /-- the block in the shadow registers, which becomes active at the first wavefront of the next pass | 06 R143 | empty -/
  shadow : List (List Nat) := []
  deriving DecidableEq, Repr

/-- A core (0 to 23) or a stem engine (24 to 27) with its counters. -/
structure Unit_ where
  /-- tile in progress | 06 Table 6.9 | none -/
  tile : Option Tile := none
  /-- TILES (32) | 06 R158 | 0 -/
  tiles : Word := 0
  /-- ADV (32) | 06 R158 | 0 -/
  adv : Word := 0
  /-- BUBBLE (32) | 06 R147 | 0 -/
  bubble : Word := 0
  /-- THROTTLE (32) | 06 Table 6.4 | 0 -/
  throttle : Word := 0
  /-- REPLAY (32) | 06 Table 6.4 | 0 -/
  replays : Word := 0
  /-- ABORT (32) | 06 Table 6.4 | 0 -/
  abort : Word := 0
  /-- DISCARD (32) | 06 Table 6.4 | 0 -/
  discard : Word := 0
  /-- GATED (32) | 06 R150 | 0 -/
  gated : Word := 0
  /-- gated cell-cycles since the last 256 that GATED counted (8) | 06 R150 | 0 -/
  gatedPart : Nat := 0
  /-- leashes of its arrays | 06 R146 | empty -/
  leash : Leashes := {}
  /-- weight blocks of its cells | 06 R140, R143 | empty -/
  blocks : CellBlocks := {}
  /-- COMMIT (32) | 06 R158 | 0 -/
  commit : Word := 0
  /-- PREEMPT_WAIT (32) | 06 Table 6.9 | 0 -/
  preemptWait : Word := 0
  /-- a pre-emption request stands | 13 R317 | no -/
  preempt : Bool := false
  /-- Q_CLIPPED (32) | 07 R165 | 0 -/
  clipped : Word := 0
  /-- Q_CONVERTED (32) | 07 R164 | 0 -/
  converted : Word := 0
  /-- Q_ACC_SAT (32) | 07 R161 | 0 -/
  accSat : Word := 0
  /-- Q_NONFINITE (32) | 07 R165 | 0 -/
  nonfinite : Word := 0
  /-- Q_TAG_ERR (32) | 07 R177 | 0 -/
  tagErr : Word := 0
  /-- Q_TAG_FIRST: kind, expected, observed | 07 R177 | not valid -/
  tagFirst : Option (Nat × Nat × Nat) := none
  /-- fields of Q_TAG_FIRST once its valid bit has been cleared | 00 R13 | 0 -/
  tagOld : Nat × Nat × Nat := (0, 0, 0)
  /-- codebook set in bank 0 and bank 1 (32 each) | 07 R169 | 0 -/
  banks : Nat × Nat := (0, 0)
  /-- active codebook bank (1) | 07 Table 7.12 | 0 -/
  bank : Nat := 0
  /-- a codebook bank is being loaded (1) | 07 Table 7.12 | 0 -/
  bankLoading : Bool := false
  /-- contents of bank 0 and bank 1 (32 KiB each) | 07 R169 | zero: DESIGN CHOICE, log 8 -/
  bankData : Bytes × Bytes := ([], [])
  /-- watched slots | 07 R182 | 0 -/
  watch : Tab WatchSlot := {}
  /-- K_OFFERED (32) | 08 R188 | 0 -/
  offered : Word := 0
  /-- K_POISONED (32) | 08 R190 | 0 -/
  kPoisoned : Word := 0
  /-- K_LISTS (32) | 08 R206 | 0 -/
  kLists : Word := 0
  /-- top-k lists that no cluster merge has read, by catalogue slot x 64 + query row | 08 R189, R193 | empty -/
  lists : Tab KList := {}
  /-- CV_PASSES (32) | 09 R226 | 0 -/
  passes : Word := 0
  /-- CV_SKIPPED, or TEN_STEM_SKIPPED of a stem engine (32) | 09 R215 | 0 -/
  skipped : Word := 0
  /-- CV_LB_MISS (32) | 09 R210 | 0 -/
  lbMiss : Word := 0
  /-- POOL_TILES (32) | 09 R220 | 0 -/
  poolTiles : Word := 0
  /-- ZC_GRANULES (32) | 09 R226 | 0 -/
  zcGranules : Word := 0
  /-- ZC_BLOCKS (32) | 09 R226 | 0 -/
  zcBlocks : Word := 0
  /-- ZC_BAD (32) | 09 R223 | 0 -/
  zcBad : Word := 0
  /-- SC_TILES (32) | 10 R248 | 0 -/
  scTiles : Word := 0
  /-- SC_FLAGS (32) | 10 R248 | 0 -/
  scFlags : Word := 0
  /-- SC_SWAP_IN (32) | 10 R248 | 0 -/
  swapIn : Word := 0
  /-- SC_SWAP_OUT (32) | 10 R248 | 0 -/
  swapOut : Word := 0
  /-- SC_WAIT (32) | 10 R241 | 0 -/
  scWait : Word := 0
  /-- SC_POISONED (32) | 10 R243 | 0 -/
  scPoisoned : Word := 0
  /-- activation frames: graph, instance, strand, first 16 KiB unit, units | 13 R314 | none -/
  frames : List (Nat × Nat × Nat × Nat × Nat) := []
  /-- weight cache: partition, source address, length, offset in the weights region, newest last | 13 R313 | empty -/
  cache : List (Nat × Nat × Nat × Nat) := []
  /-- faults of the abort window | 19 R451 | 0 -/
  faults : Nat := 0
  deriving DecidableEq, Repr

/-- Per-cluster state. -/
structure Cluster where
  /-- epoch (16, saturating; always-on domain) | 06 R158 | 0 -/
  epoch : Nat := 0
  /-- TEN_CL_HARDSTOP (32) | 06 Table 6.9 | 0 -/
  hardStops : Word := 0
  /-- held by a hard stop | 18 R423 | no -/
  stopped : Bool := false
  /-- hold level 8 in force | 18 R421 | no -/
  hold : Bool := false
  /-- TEN_ATT_TILES (32) | 11 R275 | 0 -/
  attTiles : Word := 0
  /-- TEN_ATT_SCATTER (32) | 11 R275 | 0 -/
  attScatter : Word := 0
  /-- TEN_ATT_MASKED (32) | 11 R269 | 0 -/
  attMasked : Word := 0
  /-- TEN_ATT_POISONED (32) | 11 R268 | 0 -/
  attPoisoned : Word := 0
  /-- TEN_PW_WALKS (32) | 11 R275 | 0 -/
  walks : Word := 0
  /-- TEN_PW_HITS (32) | 11 R275 | 0 -/
  hits : Word := 0
  /-- TEN_PW_MISSES (32) | 11 R275 | 0 -/
  misses : Word := 0
  /-- TEN_PW_FAILED (32) | 11 R255 | 0 -/
  failed : Word := 0
  /-- look-aside buffers of walkers 0 and 1: (sequence, layer, page, generation, frame), least recently used first | 11 R255 | empty -/
  aside : Tab (List (Nat × Nat × Nat × Nat × Nat)) := {}
  /-- SCH_CL_n_WINDOW: array cycles counted in the budget window (32) | 13 R328 | 0 -/
  window : Nat := 0
  /-- partitions' counts in the window | 13 R315 | 0 -/
  charge : Tab Nat := {}
  /-- an ageing measurement is due at its next power-up | 19 R454 | no -/
  measureDue : Bool := false
  /-- its cores have entered the schedule since acceptance | 01 R22 | no -/
  entered : Bool := false
  deriving DecidableEq, Repr

/-! ## Search -/

/-- A query in a batch or sweep, with the request it belongs to. -/
structure QEntry where
  /-- the detection | 08 R200 | - -/
  q : Query := {}
  /-- order of its request | 08 R199 | - -/
  order : Nat := 0
  deriving DecidableEq, Repr

/-- A sweep in progress (R195). -/
structure Sweep where
  /-- queries, by row | 08 R196 | - -/
  queries : List QEntry := []
  /-- count snapshot | 08 R195 | - -/
  snapshot : Nat := 0
  /-- cores that take part, ascending (R195) | 08 R195 | - -/
  cores : List Nat := []
  /-- range of each core: core, first group of 16 items, groups | 08 R195 | - -/
  ranges : List (Nat × Nat × Nat) := []
  /-- items searched by tiles that have committed: first, past the last | 08 R195 | - -/
  done : List (Nat × Nat) := []
  /-- lists of the clusters whose merge has completed | 08 R191 | - -/
  merged : Tab (Tab KList) := {}
  deriving DecidableEq, Repr

/-- A catalogue slot. -/
structure Cat where
  /-- CAT_COUNT (32; retained) | 08 R206 | base_count, image -/
  count : Nat := 0
  /-- next batch | 08 R196 | empty -/
  batch : List QEntry := []
  /-- queries that wait on a full batch | 08 R196 | none -/
  waiting : List QEntry := []
  /-- batch_wait has expired for the batch | 08 R196 | no -/
  expired : Bool := false
  /-- sweep in progress | 08 R195 | none -/
  sweep : Option Sweep := none
  /-- device-wide lists of the last sweep, by query row, in the stacked store | 08 R191 | none -/
  device : Tab KList := {}
  /-- CAT_SWEEPS (32) | 08 R206 | 0 -/
  sweeps : Word := 0
  /-- CAT_QUERIES (32) | 08 R206 | 0 -/
  queries : Word := 0
  /-- CAT_SWEEP_MAX (32) | 08 Table 8.6 | 0 -/
  sweepMax : Word := 0
  /-- CAT_BLOCKED (32) | 08 R206 | 0 -/
  blocked : Word := 0
  deriving DecidableEq, Repr

/-! ## Sequences and state blocks -/

/-- A scan sequence at run time. -/
structure Seq where
  /-- first chunk still held, forward operator | 10 R236 | 0 -/
  base : Nat := 0
  /-- steps marked in the held chunks, forward operator | 10 R236 | none -/
  marks : List Nat := []
  /-- backward segment flags by absolute step | 10 R245 | none -/
  back : List Nat := []
  /-- chunks applied by the forward operator (48) | 10 R248 | 0 -/
  chunks : Nat := 0
  /-- frozen masks of chunks with live tiles: chunk, steps | 10 R236 | none -/
  frozen : List (Nat × List Nat) := []
  /-- SEQ_LATE (32) | 10 R236 | 0 -/
  late : Word := 0
  /-- group_fill (8) | 10 R246 | 0 -/
  fill : Nat := 0
  /-- chunks whose inputs are complete, as far as forward tiles have shown | 10 R246 | 0 -/
  inputs : Nat := 0
  deriving DecidableEq, Repr

/-- A state block and its directory entry (R238 to R243). -/
structure Blk where
  /-- where it is: 0 resident, 1 stacked store, 2 DRAM | 10 R239 | spill home (1 or 2 by record) -/
  place : Nat := 1
  /-- it has been idle for idle_cycles, and its swap-out is in flight | 10 R240, R241 | no -/
  moving : Bool := false
  /-- chunks applied, as the directory counts (48) | 10 R242 | 0 -/
  chunks : Nat := 0
  /-- elements that hold poison; the values stand in memory, where the block is | 10 R243 | none -/
  poison : List Nat := []
  /-- released scan tiles that have not committed | 10 R240 | 0 -/
  pins : Nat := 0
  /-- slices applied ahead of the chunk count: place of the chunk in the operator's order, slice | 10 R230, R245 | none -/
  slices : List (Nat × Nat) := []
  /-- home core when moved to a partner (R319) | 13 R319 | none -/
  home : Option Nat := none
  /-- order in which it began to wait for its slot | 10 R240 | not waiting -/
  waiting : Option Nat := none
  deriving DecidableEq, Repr

/-! ## Key-value sequences -/

/-- A page table entry (Table 11.4). -/
structure PtEntry where
  /-- frame (28) | 11 Table 11.4 | 0 -/
  frame : Nat := 0
  /-- valid (1) | 11 Table 11.4 | 0 -/
  valid : Bool := false
  /-- fill (8) | 11 Table 11.4 | 0 -/
  fill : Nat := 0
  /-- partition (8) | 11 Table 11.4 | 0 -/
  part : Nat := 0
  /-- index_check (8) | 11 Table 11.4 | 0 -/
  check : Nat := 0
  /-- first_position (32) | 11 Table 11.4 | 0 -/
  first : Nat := 0
  deriving DecidableEq, Repr

/-- An edit (Table 11.5). -/
inductive Edit where
  | allocate (layer page : Nat) (order : Nat)
  | fill (layer first tokens : Nat)
  | truncate (length : Nat)
  | release
  deriving DecidableEq, Repr

/-- A key-value sequence's table. -/
structure KvSeq where
  /-- generation (32) | 11 Table 11.3 | 0 -/
  gen : Word := 0
  /-- length (32) | 11 Table 11.3 | 0 -/
  length : Nat := 0
  /-- open (1) | 11 Table 11.3 | 0 -/
  opened : Bool := false
  /-- pages_held (32) | 11 Table 11.3 | 0 -/
  pages : Nat := 0
  /-- entries, by layer x 512 + p' | 11 R254 | 0 -/
  entries : Tab PtEntry := {}
  /-- lock count (8) | 11 R256 | 0 -/
  locks : Nat := 0
  /-- edits waiting, in arrival order | 11 R257 | none -/
  edits : List Edit := []
  /-- newest logical page per layer held | 11 R262 | 0 -/
  newest : Tab Nat := {}
  /-- session whose turns it serves | 15 R357 | none -/
  session : Option Nat := none
  /-- granules that scatter commits which stopped have poisoned, and that were whole before | 11 R261 | none -/
  spoiled : List Nat := []
  deriving DecidableEq, Repr

/-- A page pool: pages held. -/
structure KvPool where
  /-- page index to (partition, from the shared part) | 11 R252 | all free -/
  held : Tab (Nat × Bool) := {}
  deriving DecidableEq, Repr

/-- A walk (R255, R256). -/
structure Walk where
  /-- descriptor whose pages it translates | 11 R255 | - -/
  d : DescId := {}
  /-- cluster and walker | 11 R255 | - -/
  unit : Nat × Nat := (0, 0)
  /-- sequence | 11 R255 | - -/
  seq : Nat := 0
  /-- ended well, with the pages' addresses (logical page, address) | 11 R255 | - -/
  pages : Option (List (Nat × Nat)) := none
  deriving DecidableEq, Repr

/-- Key-value caches. -/
structure Kv where
  /-- the sequences | 11 R249 | reset header -/
  seqs : Tab KvSeq := {}
  /-- the page pools | 11 R252 | all free -/
  pools : Tab KvPool := {}
  /-- walks that hold a lock | 11 R256 | none -/
  walks : List Walk := []
  /-- committed scatter tiles whose FILL has not been issued: descriptor, then (sequence, layer, first position, tokens) | 11 R260 | none -/
  scattered : List (DescId × Nat × Nat × Nat × Nat) := []
  /-- SCH_KV_EDITS (32) | 11 R275 | 0 -/
  edits : Word := 0
  /-- SCH_KV_EDIT_WAIT (32) | 11 Table 11.12 | 0 -/
  editWait : Word := 0
  /-- SCH_KV_DIRECT (32) | 11 R258 | 0 -/
  direct : Word := 0
  /-- SCH_KV_DIRECT_FIRST: sequence, partition | 11 R258 | not valid -/
  directFirst : Option (Nat × Nat) := none
  /-- fields of SCH_KV_DIRECT_FIRST once its valid bit has been cleared | 00 R13 | 0 -/
  directOld : Nat × Nat := (0, 0)
  deriving DecidableEq, Repr

/-! ## Memory -/

/-- A transfer (Table 12.3) held by a mover. -/
structure Xfer where
  /-- descriptor it belongs to, or none for one the device issues | 12 R284 | - -/
  d : Option DescId := none
  /-- owning partition | 12 R284 | - -/
  part : Nat := 0
  /-- source | 12 Table 12.3 | - -/
  src : Nat := 0
  /-- destination | 12 Table 12.3 | - -/
  dst : Nat := 0
  /-- granules per row | 12 Table 12.3 | - -/
  rowGranules : Nat := 0
  /-- rows | 12 Table 12.3 | - -/
  rows : Nat := 0
  /-- source stride | 12 Table 12.3 | - -/
  srcStride : Nat := 0
  /-- destination stride | 12 Table 12.3 | - -/
  dstStride : Nat := 0
  /-- mode | 12 Table 12.3 | - -/
  mode : Nat := 0
  /-- granules moved so far | 12 R285 | - -/
  done : Nat := 0
  /-- the granules stopped at a failed check | 12 R286 | - -/
  stopped : Bool := false
  /-- a load of a codebook bank: core and codebook set | 07 R169 | - -/
  load : Option (Nat × Nat) := none
  deriving DecidableEq, Repr

/-- A tag in flight for one transfer unit (R287, Table 12.4). -/
structure Tag where
  /-- pool: 0 DRAM read, 1 DRAM write, 2 + n the stacked-store port of cluster n | 12 Table 12.4 | - -/
  row : Nat := 0
  /-- master that holds it (Table 13.5) | 12 R287 | - -/
  master : Nat := 0
  /-- partition of the transaction | 13 R323 | - -/
  part : Nat := 0
  /-- transfer unit: the address by the unit of the pool | 12 Table 12.4 | - -/
  unit : Nat := 0
  /-- taken from the shared remainder, to which it returns | 14 R336 | - -/
  shared : Bool := false
  deriving DecidableEq, Repr

/-- A stream mover and its counters. -/
structure Mover where
  /-- transfers in the order released | 12 R285 | none -/
  queue : List Xfer := []
  /-- granules of the first transfer that have been issued and are in flight | 12 R285 | 0 -/
  issued : Nat := 0
  /-- XFERS (32) | 12 R303 | 0 -/
  xfers : Word := 0
  /-- granules moved; KIB is a sixteenth | 12 R303 | 0 -/
  granules : Nat := 0
  /-- POISONED (32) | 12 R298 | 0 -/
  poisoned : Word := 0
  /-- CORRECTED (32) | 12 Table 12.12 | 0 -/
  corrected : Word := 0
  /-- RT_MAX (32) | 12 Table 12.12 | 0 -/
  rtMax : Word := 0
  /-- tags_high (8) | 12 Table 12.12 | 0 -/
  tagsHigh : Nat := 0
  deriving DecidableEq, Repr

/-- A weight window (R290 to R294). -/
structure Win where
  /-- layer present in each slot | 12 R291 | none -/
  slots : Tab Nat := {}
  /-- next layer to load | 12 R291 | 0 -/
  next : Nat := 0
  /-- layer being loaded | 12 R291 | none -/
  loading : Option Nat := none
  /-- layer whose tiles were last released | 12 Table 12.12 | 0 -/
  layer : Nat := 0
  /-- steps that stall: layer, graph, instance | 12 R292 | none -/
  stalled : List (Nat × Nat × Nat) := []
  /-- slots marked failed | 12 R294 | none -/
  bad : List Nat := []
  /-- LOADS (32) | 12 R303 | 0 -/
  loads : Word := 0
  /-- STALL (32) | 12 R292 | 0 -/
  stall : Word := 0
  /-- LATE (32) | 12 R293 | 0 -/
  late : Word := 0
  /-- FAILED (32) | 12 R294 | 0 -/
  failed : Word := 0
  deriving DecidableEq, Repr

/-- The DDR block. -/
structure Ddr where
  /-- granules read, written and by remote masters; KIB is a sixteenth | 12 R303 | 0 -/
  read : Nat := 0
  /-- see read | 12 R303 | 0 -/
  write : Nat := 0
  /-- see read | 12 R303 | 0 -/
  remote : Nat := 0
  /-- granules scrubbed | 12 R301 | 0 -/
  scrub : Nat := 0
  /-- read tags, most held at once (9) | 12 Table 12.12 | 0 -/
  readHigh : Nat := 0
  /-- write tags, most held at once (9) | 12 Table 12.12 | 0 -/
  writeHigh : Nat := 0
  /-- RT_MAX (32) | 12 Table 12.12 | 0 -/
  rtMax : Word := 0
  /-- the last 1,024 round trips | 12 Table 12.12 | none -/
  trips : List Nat := []
  /-- ECC_CORR (32) | 12 R301 | 0 -/
  corr : Word := 0
  /-- ECC_UNCORR (32) | 12 R301 | 0 -/
  uncorr : Word := 0
  /-- READ_HELD (32) | 12 R289 | 0 -/
  held : Word := 0
  deriving DecidableEq, Repr

/-- Movers, windows, tags and DRAM. -/
structure Moving where
  /-- stream movers | 12 R284 | idle -/
  movers : Tab Mover := {}
  /-- weight windows | 12 R290 | empty -/
  wins : Tab Win := {}
  /-- DRAM controller | 12 R289 | 0 -/
  ddr : Ddr := {}
  /-- tags in flight | 12 R287 | none -/
  tags : List Tag := []
  deriving DecidableEq, Repr

/-! ## Scheduling and partitions -/

/-- A live descriptor (R306). -/
structure Desc where
  /-- its name | 13 R306 | - -/
  id : DescId := {}
  /-- its 64 bytes, with the empty flag set at instantiation | 13 R308 | - -/
  bytes : Bytes := []
  /-- request it works for, by order; none for a step graph's shared descriptors | 13 R316 | - -/
  order : Option Nat := none
  /-- it holds a shared slot of its pool | 13 R310 | - -/
  shared : Bool := false
  /-- released: sent to its engine | 13 R311 | - -/
  released : Bool := false
  /-- ready, waiting for a core | 13 R312 | - -/
  ready : Bool := false
  /-- affinity_wait has passed | 13 R312 | - -/
  waited : Bool := false
  /-- its pre-emption requests stand on the cores where it may run | 13 R317 | - -/
  asked : Bool := false
  deriving DecidableEq, Repr

/-- A graph instance (R304, R320). -/
structure GInst where
  /-- bound: order of the request; a step for a step graph | 13 R304 | free -/
  bound : Option Nat := none
  /-- next descriptor to instantiate | 13 R306 | 0 -/
  next : Nat := 0
  /-- counts c0 of its cells at binding | 13 R305 | none -/
  c0 : List Word := []
  /-- no further descriptor is released or instantiated | 13 R307 | no -/
  cancelled : Bool := false
  /-- batch slots bound in the step: slot, request order | 13 R320 | none -/
  slots : List (Nat × Nat) := []
  /-- cores on which its strands started: strand, core | 13 R312 | none -/
  strands : List (Nat × Nat) := []
  /-- cores that ran attend tiles, by the ref they wrote: ref, core | 13 R312 | none -/
  chains : List (Nat × Nat) := []
  /-- arrival number and order of admission of its request, or of the oldest request bound in the step | 13 R316 | - -/
  rank : Nat × Nat := (0, 0)
  /-- route priority of its request | 13 R316 | - -/
  prio : Nat := 0
  deriving DecidableEq, Repr

/-- A step graph's batch (R320). -/
structure StepG where
  /-- batch slot to request order | 13 R320 | free -/
  slots : Tab Nat := {}
  /-- steps started | 13 R320 | 0 -/
  steps : Nat := 0
  deriving DecidableEq, Repr

/-- A partition at run time (Table 13.12). -/
structure Part where
  /-- cause that stopped it (8) | 13 R325 | 0 -/
  cause : Nat := 0
  /-- stopped (1) | 13 R325 | 0 -/
  stopped : Bool := false
  /-- resetting (1) | 13 R326 | 0 -/
  resetting : Bool := false
  /-- masters muzzled and charged to it | 13 R324 | none -/
  muzzled : List Nat := []
  /-- CHARGED (32) | 13 R328 | 0 -/
  charged : Word := 0
  /-- OVERQ (32) | 13 R316 | 0 -/
  overq : Word := 0
  deriving DecidableEq, Repr

/-- Scheduler, partitions and the conservation registers. -/
structure Sched where
  /-- graph instances, by graph x 64 + instance | 13 R304 | free -/
  insts : Tab GInst := {}
  /-- live descriptors, in order of instantiation | 13 R306 | none -/
  live : List Desc := []
  /-- barrier cells (32 each, 8,192 of them; retained) | 12 R295 | 0 -/
  cells : Tab Word := {}
  /-- signals on their way to a cell of another cluster, oldest first | 12 R295 | none -/
  remote : List Nat := []
  /-- step graphs | 13 R320 | no slot bound -/
  steps : Tab StepG := {}
  /-- partitions | 13 R325 | running -/
  parts : Tab Part := {}
  /-- LIVE_HIGH (21) | 13 R328 | 0 -/
  liveHigh : Nat := 0
  /-- PREEMPT_MAX (32) | 13 R318 | 0 -/
  preemptMax : Word := 0
  /-- RELEASED (32) | 13 R328 | 0 -/
  released : Word := 0
  /-- CANCELLED (32) | 13 R307 | 0 -/
  cancelled : Word := 0
  /-- AFF_HIT (32) | 13 R312 | 0 -/
  affHit : Word := 0
  /-- AFF_MISS (32) | 13 R312 | 0 -/
  affMiss : Word := 0
  /-- BATCH_STEPS (32) | 13 R328 | 0 -/
  batchSteps : Word := 0
  /-- BATCH_PAD (32) | 13 R321 | 0 -/
  batchPad : Word := 0
  /-- PRT_MUZZLE_FIRST: cause, partition, master | 13 Table 13.12 | not valid -/
  muzzleFirst : Option (Nat × Nat × Nat) := none
  /-- fields of PRT_MUZZLE_FIRST once its valid bit has been cleared | 00 R13 | 0 -/
  muzzleOld : Nat × Nat × Nat := (0, 0, 0)
  /-- PRT_MUZZLES (32) | 13 R328 | 0 -/
  muzzles : Word := 0
  /-- PRT_RESETS (32) | 13 R326 | 0 -/
  resets : Word := 0
  /-- go of PRT_RESET_REQ (1) | 13 R326 | 0 -/
  go : Bool := false
  /-- refused of PRT_RESET_REQ (1) | 13 R326 | 0 -/
  refused : Bool := false
  /-- partition of PRT_RESET_REQ (7) | 13 Table 13.12 | 0 -/
  reqPart : Nat := 0
  /-- frozen pool instances: pool, instance, charged partition | 14 R333 | none -/
  frozen : List (Nat × Nat × Nat) := []
  /-- the MODEL's own: a violation found within the command (pool, kind, partition, instance), handled at its end | 14 R333 | none -/
  tripped : Option (Nat × Nat × Nat × Nat) := none
  /-- retired descriptors whose slots a checker holds back from their pool | 14 R333 | none -/
  held : List Desc := []
  /-- checkers that have lost their state: pool, instance | 14 R335 | none -/
  lost : List (Nat × Nat) := []
  /-- SCH_CONS_FIRST: pool, kind, partition, instance | 14 R333 | not valid -/
  consFirst : Option (Nat × Nat × Nat × Nat) := none
  /-- fields of SCH_CONS_FIRST once its valid bit has been cleared | 00 R13 | 0 -/
  consOld : Nat × Nat × Nat × Nat := (0, 0, 0, 0)
  /-- SCH_CONS_VIOLATIONS (32) | 14 R347 | 0 -/
  violations : Word := 0
  /-- SCH_CONS_BACKSTOP (32) | 14 R339 | 0 -/
  backstop : Word := 0
  /-- SCH_CONS_BACKSTOP_FIRST: watch, partition, instance | 14 R339 | not valid -/
  backFirst : Option (Nat × Nat × Nat) := none
  /-- fields of SCH_CONS_BACKSTOP_FIRST once its valid bit has been cleared | 00 R13 | 0 -/
  backOld : Nat × Nat × Nat := (0, 0, 0)
  /-- SCH_ORDER_PLACEHOLDERS (32) | 14 R344 | 0 -/
  placeholders : Word := 0
  /-- SCH_ORDER_STALE (32) | 14 R342 | 0 -/
  stale : Word := 0
  /-- SCH_ORDER_ORPHANED (32) | 14 R340 | 0 -/
  orphaned : Word := 0
  deriving DecidableEq, Repr

/-! ## Host interfaces -/

/-- A queued in-band interrupt: mandatory byte and payload (R351). -/
structure Ibi where
  /-- mandatory data byte | 15 Table 15.3 | - -/
  byte : Nat := 0
  /-- payload bytes 1 to 3 | 15 Table 15.3 | - -/
  data : Nat × Nat × Nat := (0, 0, 0)
  deriving DecidableEq, Repr

/-- A session (R357, R386). -/
structure Session where
  /-- open (1) | 16 R386 | 0 -/
  opened : Bool := false
  /-- partition bound (7) | 16 R386 | 0 -/
  part : Nat := 0
  /-- k_cmd, k_rsp and k_rec | 16 Table 16.2 | none -/
  keys : Bytes := []
  /-- next command counter (64) | 16 R388 | 0 -/
  counter : Nat := 0
  /-- FAILS (32) | 16 R388 | 0 -/
  fails : Word := 0
  /-- consecutive AUTH_FAIL answers | 16 R388 | 0 -/
  row : Nat := 0
  /-- prompt buffer, token IDs | 15 R358 | empty -/
  prompt : List Nat := []
  /-- next turn number | 15 R359 | 0 -/
  turn : Nat := 0
  /-- next session sequence number | 15 R359 | 0 -/
  key : Nat := 0
  /-- a turn is outstanding | 15 R358 | no -/
  busy : Bool := false
  deriving DecidableEq, Repr

/-- A record in an output queue: channel index, bytes, data type (R363). -/
structure TxRec where
  /-- channel: index of its entry in record 0x0D02 | 15 R362 | - -/
  chan : Nat := 0
  /-- data type | 15 Table 15.10 | - -/
  dtype : Nat := 0
  /-- header, body and tag; or a pass-through frame | 15 R363 | - -/
  bytes : Bytes := []
  deriving DecidableEq, Repr

/-- A transmit port. -/
structure TxPort where
  /-- output queue (up to 256) | 15 R364 | empty -/
  queue : List TxRec := []
  /-- RECORDS (32) | 15 R369 | 0 -/
  records : Word := 0
  /-- DROPPED (32) | 15 R364 | 0 -/
  dropped : Word := 0
  /-- HELD (32) | 15 R369 | 0 -/
  held : Word := 0
  /-- record frame open: channel, records sent in it | 15 R363 | none -/
  frame : Option (Nat × Nat) := none
  /-- what left the port last, with the frame number of its record frame | 15 R363 | nothing -/
  sent : Option (Nat × TxRec) := none
  deriving DecidableEq, Repr

/-- A channel's counters. -/
structure Chan where
  /-- record_seq of the next record (32) and wraps so far | 15 R363, 16 R390 | 0 -/
  seq : Nat := 0
  /-- frame number of the last record frame (16) | 15 R363 | 0 -/
  frame : Nat := 0
  deriving DecidableEq, Repr

/-- What a command in progress waits for. -/
inductive Awaits where
  /-- a report: ready when the security engine has built it -/
  | report
  /-- the Kennel's answer -/
  | kennel
  /-- pre-roll samples not yet copied -/
  | preroll (tier arrival : Nat) (first : Int) (count : Nat)
  deriving DecidableEq, Repr

/-- A command in progress: its frame, opcode, what it waits for, and the payload ready to be sent. -/
structure InProgress where
  /-- frame | 15 R353 | - -/
  frame : Frame := {}
  /-- opcode | 15 Table 15.7 | - -/
  opcode : Nat := 0
  /-- what it waits for | 15 R353 | - -/
  awaits : Awaits := .report
  /-- session and counter that protect its response | 16 R387 | - -/
  prot : Option (Nat × Nat) := none
  /-- response payload | 16 R383 | - -/
  payload : Bytes := []
  deriving DecidableEq, Repr

/-- The host interfaces. -/
structure HostPort where
  /-- dynamic address (7) | 15 R349 | none -/
  addr : Option Nat := none
  /-- ENEC state of INT (1) | 15 Table 15.18 | 1 -/
  int : Bool := true
  /-- ENEC state of HJ (1) | 15 Table 15.18 | 1 -/
  hj : Bool := true
  /-- protocol error since the last GETSTATUS (1) | 15 Table 15.2 | 0 -/
  protErr : Bool := false
  /-- Hot-Join requests issued | 15 R349 | 0 -/
  hotJoins : Nat := 0
  /-- queued in-band interrupts, in arrival order (up to 16) | 15 R351 | empty -/
  ibis : List Ibi := []
  /-- spacing of results interrupts runs | 15 R351 | no -/
  spacing : Bool := false
  /-- the last interrupt sent | 15 R351 | none -/
  lastIbi : Option Ibi := none
  /-- command in progress | 15 R353 | none -/
  cur : Option InProgress := none
  /-- response buffer, and bytes of it read | 15 R353 | empty -/
  resp : Option (Bytes × Nat) := none
  /-- what the last read of the port returned to the host | 15 R348, R353 | nothing -/
  rx : Bytes := []
  /-- a write or CCC was answered with NACK last | 15 R353 | no -/
  nack : Bool := false
  /-- CMDS (32) | 15 R369 | 0 -/
  cmds : Word := 0
  /-- CRC_ERR (32) | 15 R353 | 0 -/
  crcErr : Word := 0
  /-- RESP_LOST (32) | 15 R353 | 0 -/
  respLost : Word := 0
  /-- IBI_SENT (32) | 15 R369 | 0 -/
  ibiSent : Word := 0
  /-- IBI_MERGED (32) | 15 R351 | 0 -/
  ibiMerged : Word := 0
  /-- sessions 0 to 7 | 15 R357 | closed -/
  sessions : Tab Session := {}
  /-- transmit ports | 15 R361 | idle -/
  tx : Tab TxPort := {}
  /-- channels | 15 R363 | 0 -/
  chans : Tab Chan := {}
  /-- telemetry sequence number (64) | 15 R366 | 0 -/
  telemetry : Nat := 0
  /-- SEC_AUTH_FAIL (32) | 16 R392 | 0 -/
  authFail : Word := 0
  /-- KEN_FORWARDED (32) | 17 R410 | 0 -/
  forwarded : Word := 0
  /-- KEN_LOST (32) | 17 R405 | 0 -/
  lost : Word := 0
  /-- KEN_REQUESTS (32) | 17 R410 | 0 -/
  kenRequests : Word := 0
  /-- KEN_NO_ANSWER (32) | 17 R402 | 0 -/
  noAnswer : Word := 0
  /-- last record number and boot_id that the forwarder has seen | 17 R405 | 0, none -/
  kenSeen : Nat × Option Bytes := (0, none)
  /-- a request of the host went unanswered and may still be answered late | 17 R402 | no -/
  kenLate : Bool := false
  deriving DecidableEq, Repr

/-! ## The Kennel -/

/-- Calibration parameters (R407), as a list of named byte strings in the service interface's terms, and the values that weighing
uses. -/
structure Calib where
  /-- Max, in value units (32) | 17 R397 | 0 -/
  max : Nat := 0
  /-- e, in value units (16) | 17 R397 | 0 -/
  e : Nat := 0
  /-- unit (8) | 17 Table 17.7 | 0 -/
  unit : Nat := 0
  /-- value_exp (8) | 17 Table 17.7 | 0 -/
  exp : Int := 0
  /-- zero tracking enabled | 17 R399 | no -/
  tracking : Bool := false
  /-- output rate, readings per second | 17 Table 17.2 | 10 -/
  rate : Nat := 10
  /-- stable_window, ms | 17 R398 | 0 -/
  window : Nat := 0
  /-- the other parameters: coefficients, gain, temperature range | 17 R407 | none -/
  others : Tab Bytes := {}
  deriving DecidableEq, Repr

/-- A Kennel operation waiting for a stable reading: request bytes of Table 17.4. -/
structure KOp where
  /-- request | 17 Table 17.4 | - -/
  request : Nat := 0
  /-- argument | 17 Table 17.4 | - -/
  argument : Nat := 0
  /-- request_id | 17 Table 17.4 | - -/
  id : Nat := 0
  deriving DecidableEq, Repr

/-- The Kennel island. -/
structure Kennel where
  /-- out of reset (1) | 17 Table 17.11 | 0 -/
  running : Bool := false
  /-- debounced seal open (1) | 17 Table 17.11 | 1 -/
  sealOpen : Bool := true
  /-- mode: 0 weighing, 1 calibration (1); the register shows 2 for a fault | 17 Table 17.11 | 0 -/
  mode : Nat := 0
  /-- service interface enabled | 17 R406 | no -/
  service : Bool := false
  /-- event counter in OTP (12, thermometer) | 17 R406 | 0: DESIGN CHOICE, log 5 -/
  events : Nat := 0
  /-- OTP calibration slots used so far (0 to 64) | 17 R407 | 0: DESIGN CHOICE, log 5 -/
  slots : Nat := 0
  /-- slot in force and its parameters | 17 R407 | none: DESIGN CHOICE, log 5 -/
  calib : Option (Nat × Calib) := none
  /-- uncommitted parameters | 17 R407 | none -/
  draft : Option Calib := none
  /-- signing key (256) | 16 Table 16.1 | empty: DESIGN CHOICE, log 5 -/
  signing : Bytes := []
  /-- OTP patch | 17 R393 | empty: DESIGN CHOICE, log 5 -/
  patch : Bytes := []
  /-- certificate | 17 R401 | empty: DESIGN CHOICE, log 5 -/
  cert : Bytes := []
  /-- boot_id (64) | 17 R395 | zero -/
  bootId : Bytes := List.replicate 8 0
  /-- next record number (32) | 17 R395 | 1 -/
  next : Nat := 1
  /-- the reason-5 record is due | 17 R395 | no -/
  powerupDue : Bool := false
  /-- mailbox: 16 slots of 152 bytes | 17 R405 | zero -/
  mailbox : Tab Bytes := {}
  /-- KEN_MB_HEAD (32) | 17 R405 | 0 -/
  head : Nat := 0
  /-- zero, in value units, relative to the calibrated zero | 17 R398 | 0 -/
  zero : Int := 0
  /-- tare | 17 R399 | none -/
  tare : Option Int := none
  /-- latest reading before zero, in value units | 17 R398 | none -/
  reading : Option (Int × Bool) := none
  /-- the readings of the last stable_window: clock, value before zero | 17 R398 | none -/
  recent : List (Nat × Int) := []
  /-- temperature, signed (8) | 17 Table 17.7 | 0 -/
  temp : Int := 0
  /-- clock, ms (48) | 17 Table 17.7 | 0 -/
  clock : Nat := 0
  /-- front-end fault bits [3:0] and [6] | 17 Table 17.6 | 0 -/
  faults : Nat := 0
  /-- the event counter has reached 4,095 | 17 R406 | no -/
  exhausted : Bool := false
  /-- second slot of the request port | 17 R401 | free -/
  op : Option KOp := none
  /-- answer ready for the device | 17 R400 | none -/
  answer : Option Bytes := none
  /-- counter of fresh draws | 17 Table 17.1 | 0: DESIGN CHOICE, log 7 -/
  draws : Nat := 0
  deriving DecidableEq, Repr

/-! ## Power -/

/-- Power, clocks, governor. -/
structure Power where
  /-- cluster domains powered (4) | 18 Table 18.10 | 0 -/
  clusters : BitVec 4 := 0
  /-- DRAM out of self-refresh (1) | 18 Table 18.10 | 0 -/
  dram : Bool := false
  /-- ISP and CSI domain powered (1) | 18 Table 18.10 | 0 -/
  isp : Bool := false
  /-- supervisor domain powered (1) | 18 Table 18.10 | 0 -/
  sup : Bool := false
  /-- Perk domain powered (1) | 18 Table 18.10 | 0 -/
  perk : Bool := false
  /-- banks active (48) | 18 Table 18.10 | 0 -/
  banks : BitVec 48 := 0
  /-- backed regions have been copied out and not back | 12 R279 | no -/
  backed : Bool := false
  /-- crystal running (1) | 18 Table 18.10 | 0 -/
  xtal : Bool := false
  /-- FLL locked (1) | 18 Table 18.10 | 0 -/
  fll : Bool := false
  /-- PLLs that have lost lock and stay gated: 0 array, 1 fabric, 2 isp, 3 supervisor, 4 dram | 18 R417 | none -/
  lost : List Nat := []
  /-- operating point (2) | 18 Table 18.10 | 2 -/
  point : Nat := 2
  /-- thermal cap (2) | 18 Table 18.10 | 0 -/
  thermal : Nat := 0
  /-- throttle level L (4) | 18 R420 | 0 -/
  level : Nat := 0
  /-- rail_mv (11) | 18 Table 18.10 | 650 -/
  rail : Nat := 650
  /-- change of point or of guardband in progress, to this point | 18 R419 | none -/
  changing : Option Nat := none
  /-- calm | 18 R420 | 0 -/
  calm : Nat := 0
  /-- consecutive periods with L at 8 or more | 18 R420 | 0 -/
  high : Nat := 0
  /-- consecutive periods with L 0 and low power | 18 R420 | 0 -/
  low : Nat := 0
  /-- mean powers of the last 100 periods, newest first | 18 Table 18.10 | none -/
  means : List Nat := []
  /-- mean_mw of PWR_POWER (16) | 18 Table 18.10 | 0 -/
  mean : Nat := 0
  /-- the point is being raised after boot | 18 R418 | no -/
  raising : Bool := false
  /-- POWER_PEAK (32) | 18 Table 18.10 | 0 -/
  peak : Word := 0
  /-- hottest base-die sensor, signed (8) | 18 Table 18.10 | 0 -/
  base : Int := 0
  /-- hottest compute-die sensor, signed (8) | 18 Table 18.10 | 0 -/
  compute : Int := 0
  /-- PWR_RESET_CAUSE (5) | 18 Table 18.10 | 0x01 -/
  cause : Nat := 1
  /-- HARDSTOPS (32) | 18 R433 | 0 -/
  hardStops : Word := 0
  /-- STEP_DOWN (32) | 18 R433 | 0 -/
  stepDown : Word := 0
  /-- STEP_UP (32) | 18 R433 | 0 -/
  stepUp : Word := 0
  /-- THROTTLED (32) | 18 R433 | 0 -/
  throttled : Word := 0
  /-- THERMAL_CAPS (32) | 18 R433 | 0 -/
  caps : Word := 0
  /-- CDC_RESYNC (32) | 18 R433 | 0 -/
  resync : Word := 0
  /-- CLUSTER_RESETS (32) | 18 R433 | 0 -/
  clusterResets : Word := 0
  deriving DecidableEq, Repr

/-! ## Ageing and self-test -/

/-- AGE block and self-tests. -/
structure Age where
  /-- margin_cap (2) | 19 R456 | 0 -/
  cap : Nat := 0
  /-- base_low (1) | 19 Table 19.10 | 0 -/
  baseLow : Bool := false
  /-- plan_loaded (1) | 19 Table 19.10 | 0 -/
  loaded : Bool := false
  /-- g(0), g(1), g(2), steps of 5 mV (8 each) | 19 Table 19.10 | 0x14 each -/
  guard : List Nat := [20, 20, 20]
  /-- baselines (16 each) | 19 R457 | 0 -/
  baseline : List Nat := List.replicate 40 0
  /-- last readings (16 each) | 19 R453 | 0 -/
  last : List Nat := List.replicate 40 0
  /-- measurements since the baselines were taken (32) | 19 Table 19.5 | 0 -/
  since : Nat := 0
  /-- AGE_MEASURES (32) | 19 R460 | 0 -/
  measures : Word := 0
  /-- AGE_REPLANS (32) | 19 R460 | 0 -/
  replans : Word := 0
  /-- the plan comes from an injected reading and is never written | 19 R446 | no -/
  injected : Bool := false
  /-- DEV_CORE_AVAIL (24) | 01 R22 | 0 -/
  avail : BitVec 24 := 0
  /-- DEV_CORE_RETIRED (24) | 01 R22 | 0 -/
  retired : BitVec 24 := 0
  /-- tests waiting: core, kind | 19 R449 | none -/
  tests : List (Nat × Nat) := []
  /-- core on its way out or out for test, and the kind | 19 R449 | none -/
  testing : Option (Nat × Nat) := none
  /-- the core has left the schedule: busy of AGE_TEST (1) | 19 Table 19.10 | 0 -/
  busy : Bool := false
  /-- last_pass, last_kind, core of AGE_TEST | 19 Table 19.10 | 0 -/
  lastTest : Bool × Nat × Nat := (false, 0, 0)
  /-- next core of the periodic test | 19 R449 | 0 -/
  nextCore : Nat := 0
  /-- bank under test and its next slice | 19 R452 | none -/
  bank : Option (Nat × Nat) := none
  /-- last bank tested | 19 R452 | 47 -/
  lastBank : Nat := 47
  deriving DecidableEq, Repr

/-! ## The whole -/

/-- The device apart from the Kennel, OTP and the attached flash. -/
structure Dev where
  /-- boot | 02 Table 2.16 | see Boot -/
  boot : Boot := {}
  /-- image loaded or loading | 02 R45 | none -/
  img : Image := {}
  /-- error record and injection | 19 R439 | see Err -/
  err : Err := {}
  /-- attached flash | 02 R63 | see Flash -/
  flash : Flash := {}
  /-- wake arbiter, tiers 1 to 3 | 03 R83 | see Tier -/
  tiers : Tab Tier := {}
  /-- admitted requests, in order of admission | 03 R73 | none -/
  reqs : List Req := []
  /-- next order of admission | 14 R343 | 0 -/
  nextOrder : Nat := 0
  /-- Sniff and Perk | 04 R111 | see Audio -/
  audio : Audio := {}
  /-- camera | 05 R137 | see Camera -/
  cam : Camera := {}
  /-- cores 0 to 23 and stem engines 24 to 27 | 06 R158 | see Unit_ -/
  units : Tab Unit_ := {}
  /-- clusters | 06 R158 | see Cluster -/
  clusters : Tab Cluster := {}
  /-- catalogues | 08 R206 | see Cat -/
  cats : Tab Cat := {}
  /-- scan sequences | 10 R248 | see Seq -/
  seqs : Tab Seq := {}
  /-- state blocks | 10 R238 | see Blk -/
  blks : Tab Blk := {}
  /-- key-value caches | 11 R275 | see Kv -/
  kv : Kv := {}
  /-- memory | 12 R276 | see Mem -/
  mem : Mem := {}
  /-- movers, windows, DRAM controller | 12 R303 | see Moving -/
  mov : Moving := {}
  /-- scheduler and partitions | 13 R328 | see Sched -/
  sched : Sched := {}
  /-- host interfaces | 15 R369 | see HostPort -/
  host : HostPort := {}
  /-- power and clocks | 18 R433 | see Power -/
  power : Power := {}
  /-- ageing and self-test | 19 R460 | see Age -/
  age : Age := {}
  /-- latched register groups: latch register's offset to the words of its group | 03 R83 | none -/
  latches : Tab (List Word) := {}
  /-- the MODEL's own: free values used so far | - | 0: DESIGN CHOICE, log 7 -/
  freeCtr : Nat := 0
  deriving DecidableEq, Repr

/-- The block, and the commands that wait, first in, first out. -/
structure State where
  /-- the MODEL's own: commands that wait | - | empty -/
  pending : List Instr := []
  /-- the device | 01 R14 | see Dev -/
  dev : Dev := {}
  /-- fuses and OTP | 16 R371 | see Otp -/
  otp : Otp := {}
  /-- the Kennel island | 17 R393 | see Kennel -/
  kennel : Kennel := {}
  deriving DecidableEq, Repr

/-- Right after a power-on reset, PORST_N still low (Table 18.6, R57): every register at its Reset column. -/
def State.reset : State := {}

end Sys2Proof.Machine
end

