-- ==== Sys2Proof/Machine/Flags.lean ====
section
/-! DEFINITION. Cause codes and severities (Table 19.6), the error record (R439 to R441), and the queue of in-band interrupts
(R351). -/

namespace Sys2Proof.Machine

/-- Codes of REQUEST severity (Table 19.6). -/
def requestCodes : List Nat :=
  [0x12, 0x17, 0x23, 0x25, 0x37, 0x41, 0x45, 0x60, 0x61, 0x63, 0x67, 0x71, 0x74, 0x75, 0xA3]

/-- Codes of PARTITION severity. -/
def partitionCodes : List Nat := [0x32, 0x35, 0x36, 0x40, 0x44]

/-- Codes of DEVICE severity. -/
def deviceCodes : List Nat :=
  [0x18, 0x30, 0x31, 0x33, 0x34, 0x43, 0x94, 0x95, 0x97, 0xA0, 0xA1, 0xA2, 0xA4, 0xA5, 0xA6, 0xA9]

/-- Severity of a cause code: 0 INFO, 1 REQUEST, 2 PARTITION, 3 DEVICE (Table 19.1). -/
def severity (c : Nat) : Nat :=
  if c ∈ requestCodes then 1 else if c ∈ partitionCodes then 2 else if c ∈ deviceCodes then 3 else 0

/-- Host policy of a partition (R368: without an entry every bit is clear). -/
def policyOf (img : Image) (p : Nat) : HostPolicy := (img.policies.find? (fun h => h.part == p)).getD {}

/-- Priority of an in-band interrupt by its mandatory byte (Table 15.3). -/
def ibiPriority (b : Nat) : Nat :=
  if b = 2 then 6 else if b = 1 then 5 else if b = 7 then 4 else if b = 5 then 3 else if b = 4 then 2 else if b = 3 then 1 else 0

/-- Replace the first entry that satisfies a test. -/
def replaceFirst {α : Type} (p : α → Bool) (v : α) : List α → List α
  | [] => []
  | x :: r => if p x then v :: r else x :: replaceFirst p v r

/-- Queue an in-band interrupt (R351): 16 places; a full queue replaces one of the same byte, the oldest in its place (DEDUCED,
log 160), or discards the new one; a results interrupt that falls due during the spacing merges with the one queued. -/
def pushIbi (i : Ibi) (h : HostPort) : HostPort :=
  let same := h.ibis.any (fun j => j.byte == i.byte)
  if i.byte = 4 ∧ h.spacing = true ∧ same = true then
    { h with ibis := replaceFirst (fun j => j.byte == 4) i h.ibis, ibiMerged := h.ibiMerged + 1 }
  else if h.ibis.length < 16 then { h with ibis := h.ibis ++ [i] }
  else if same then { h with ibis := replaceFirst (fun j => j.byte == i.byte) i h.ibis, ibiMerged := h.ibiMerged + 1 }
  else { h with ibiMerged := h.ibiMerged + 1 }

/-- Queue an interrupt of the device. -/
def ibi (b x y z : Nat) (d : Dev) : Dev := { d with host := pushIbi ⟨b, (x % 256, y % 256, z % 256)⟩ d.host }

/-- The entry that holds a code, or the lowest free one. -/
def errSlot (e : Err) (c : Nat) : Option Nat :=
  match (List.range 64).find? (fun i => let x := tabGet e.entries i {}; x.used && x.cause == c) with
  | some i => some i
  | none => (List.range 64).find? (fun i => !(tabGet e.entries i {}).used)

/-- Update the error record with one occurrence (R439 to R441). -/
def errRecord (c : Nat) (part : Option Nat) (detail : Nat × Nat) (addr : Option Nat) (inj : Bool) (e : Err) : Err :=
  let e1 := match errSlot e c with
    | some i =>
      let x := tabGet e.entries i {}
      let n : ErrEntry := if x.used then { x with injected := x.injected || inj, count := satAdd 65535 x.count 1, part := part }
        else { used := true, injected := inj, cause := c, count := 1, part := part }
      { e with entries := tabSet e.entries i n }
    | none => { e with overflow := e.overflow + 1, overSet := true }
  if e1.first = none ∧ 1 ≤ severity c then { e1 with first := some ⟨inj, c, part, detail, addr⟩ } else e1

/-- Record a cause code, with in-band interrupt 0x02 where Table 15.3 raises it. Its effect under Table 19.1 is the caller's. -/
def recordAt (c : Nat) (part : Option Nat) (detail : Nat × Nat) (addr : Option Nat) (inj : Bool) (d : Dev) : Dev :=
  let d1 := { d with err := errRecord c part detail addr inj d.err }
  let sv := severity c
  let tell := sv = 3 ∨ (1 ≤ sv ∧ part.any (fun p => bit (policyOf d.img p).ibiMask 0) = true)
  if tell then ibi 2 c (part.getD 255) sv d1 else d1

/-- Record a cause code without an address. -/
def record (c : Nat) (part : Option Nat) (detail : Nat × Nat) (d : Dev) : Dev := recordAt c part detail none false d

/-- Record a cause code that charges no partition and names no instance. -/
def info (c : Nat) (d : Dev) : Dev := record c none (0, 0) d

/-- Record a code n times. -/
def infoN (c : Nat) : Nat → Dev → Dev
  | 0, d => d
  | n + 1, d => infoN c n (info c d)

/-- Set entries and the highest severity among them (ERR_STATUS). -/
def errUsed (e : Err) : List ErrEntry := (List.range 64).map (fun i => tabGet e.entries i {}) |>.filter (fun x => x.used)

/-- Highest severity set, as the error record encodes it. -/
def errHighest (e : Err) : Nat := (errUsed e).foldl (fun a x => max a (severity x.cause)) 0

/-- Change the boot phase, with in-band interrupt 0x06 (Table 15.3). -/
def setPhase (p : Nat) (d : Dev) : Dev :=
  if d.boot.phase = p then d else ibi 6 p 0 0 { d with boot := { d.boot with phase := p } }

end Sys2Proof.Machine
end

