-- ==== Sys2Proof/Machine/Ops.lean ====
section
/-! DEFINITION. Named operations over the device: its numbered parts, memory (R276, R295, R297), the image's lookups, injection
(R446), barrier cells, and places in core SRAM. -/

namespace Sys2Proof.Machine

/-! ### Numbered parts -/

/-- Tier t of the arbiter. -/
def getTier (d : Dev) (t : Nat) : Tier := tabGet d.tiers t {}

/-- Change tier t. -/
def modTier (t : Nat) (f : Tier → Tier) (d : Dev) : Dev := { d with tiers := tabMod d.tiers t {} f }

/-- Core 0 to 23 or stem engine 24 to 27. -/
def getUnit (d : Dev) (u : Nat) : Unit_ := tabGet d.units u {}

/-- Change a core or stem engine. -/
def modUnit (u : Nat) (f : Unit_ → Unit_) (d : Dev) : Dev := { d with units := tabMod d.units u {} f }

/-- Cluster of a core or stem engine (R16). -/
def clusterOf (u : Nat) : Nat := if u < 24 then u / 6 else u - 24

/-- Cluster n. -/
def getCluster (d : Dev) (n : Nat) : Cluster := tabGet d.clusters n {}

/-- Change cluster n. -/
def modCluster (n : Nat) (f : Cluster → Cluster) (d : Dev) : Dev := { d with clusters := tabMod d.clusters n {} f }

/-- Catalogue slot n. -/
def getCat (d : Dev) (n : Nat) : Cat := tabGet d.cats n {}

/-- Change catalogue slot n. -/
def modCat (n : Nat) (f : Cat → Cat) (d : Dev) : Dev := { d with cats := tabMod d.cats n {} f }

/-- Scan sequence n. -/
def getSeq (d : Dev) (n : Nat) : Seq := tabGet d.seqs n {}

/-- Change scan sequence n. -/
def modSeq (n : Nat) (f : Seq → Seq) (d : Dev) : Dev := { d with seqs := tabMod d.seqs n {} f }

/-- State block n. -/
def getBlk (d : Dev) (n : Nat) : Blk := tabGet d.blks n {}

/-- Change state block n. -/
def modBlk (n : Nat) (f : Blk → Blk) (d : Dev) : Dev := { d with blks := tabMod d.blks n {} f }

/-- Key-value sequence n. -/
def getKv (d : Dev) (n : Nat) : KvSeq := tabGet d.kv.seqs n {}

/-- Change key-value sequence n. -/
def modKv (n : Nat) (f : KvSeq → KvSeq) (d : Dev) : Dev := { d with kv := { d.kv with seqs := tabMod d.kv.seqs n {} f } }

/-- Partition p. -/
def getPart (d : Dev) (p : Nat) : Part := tabGet d.sched.parts p {}

/-- Change partition p. -/
def modPart (p : Nat) (f : Part → Part) (d : Dev) : Dev :=
  { d with sched := { d.sched with parts := tabMod d.sched.parts p {} f } }

/-- Change the scheduler. -/
def modSched (f : Sched → Sched) (d : Dev) : Dev := { d with sched := f d.sched }

/-- Graph instance i of graph g. -/
def getInst (d : Dev) (g i : Nat) : GInst := tabGet d.sched.insts (64 * g + i) {}

/-- Change instance i of graph g. -/
def modInst (g i : Nat) (f : GInst → GInst) (d : Dev) : Dev :=
  modSched (fun c => { c with insts := tabMod c.insts (64 * g + i) {} f }) d

/-- Step graph g. -/
def getStep (d : Dev) (g : Nat) : StepG := tabGet d.sched.steps g {}

/-- Change step graph g. -/
def modStep (g : Nat) (f : StepG → StepG) (d : Dev) : Dev :=
  modSched (fun c => { c with steps := tabMod c.steps g {} f }) d

/-- Camera stream s. -/
def getStream (d : Dev) (s : Nat) : CamStream := tabGet d.cam.streams s {}

/-- Change camera stream s. -/
def modStream (s : Nat) (f : CamStream → CamStream) (d : Dev) : Dev :=
  { d with cam := { d.cam with streams := tabMod d.cam.streams s {} f } }

/-- Sensor s. -/
def getSensor (d : Dev) (s : Nat) : Sensor := tabGet d.cam.sensors s {}

/-- Change sensor s. -/
def modSensor (s : Nat) (f : Sensor → Sensor) (d : Dev) : Dev :=
  { d with cam := { d.cam with sensors := tabMod d.cam.sensors s {} f } }

/-- Receive port p. -/
def modCamPort (p : Nat) (f : CamPort → CamPort) (d : Dev) : Dev :=
  { d with cam := { d.cam with ports := tabMod d.cam.ports p {} f } }

/-- Audio slot a. -/
def getSlot (d : Dev) (a : Nat) : AudioSlot := tabGet d.audio.slots a {}

/-- Change audio slot a. -/
def modSlot (a : Nat) (f : AudioSlot → AudioSlot) (d : Dev) : Dev :=
  { d with audio := { d.audio with slots := tabMod d.audio.slots a {} f } }

/-- Stream mover n. -/
def getMover (d : Dev) (n : Nat) : Mover := tabGet d.mov.movers n {}

/-- Change stream mover n. -/
def modMover (n : Nat) (f : Mover → Mover) (d : Dev) : Dev :=
  { d with mov := { d.mov with movers := tabMod d.mov.movers n {} f } }

/-- A bank is being loaded only while a mover holds its load (Table 7.12). -/
def settleLoads (d : Dev) : Dev :=
  { d with units := tabMap d.units (fun u x =>
      { x with bankLoading := x.bankLoading && d.mov.movers.cells.any (fun m => m.2.queue.any (fun t => t.load.any (fun k => k.1 == u))) }) }

/-- Throttle level that a cluster applies (R421). -/
def clusterLevel (d : Dev) (c : Nat) : Nat := max d.power.level (if (getCluster d c).hold then 8 else 0)

/-- Every tile in progress notes the level that its cluster applies. -/
def noteLevels (d : Dev) : Dev :=
  { d with units := tabMap d.units (fun u x => { x with tile := x.tile.map (fun t =>
      { t with levels := (min t.levels.1 (clusterLevel d (clusterOf u)), max t.levels.2 (clusterLevel d (clusterOf u))) }) }) }

/-- Weight window w. -/
def getWin (d : Dev) (w : Nat) : Win := tabGet d.mov.wins w {}

/-- Change weight window w. -/
def modWin (w : Nat) (f : Win → Win) (d : Dev) : Dev := { d with mov := { d.mov with wins := tabMod d.mov.wins w {} f } }

/-- Change the DRAM controller. -/
def modDdr (f : Ddr → Ddr) (d : Dev) : Dev := { d with mov := { d.mov with ddr := f d.mov.ddr } }

/-- Transmit port p. -/
def getTx (d : Dev) (p : Nat) : TxPort := tabGet d.host.tx p {}

/-- Change the host interfaces. -/
def modHost (f : HostPort → HostPort) (d : Dev) : Dev := { d with host := f d.host }

/-- Change transmit port p. -/
def modTx (p : Nat) (f : TxPort → TxPort) (d : Dev) : Dev := modHost (fun h => { h with tx := tabMod h.tx p {} f }) d

/-- Session n. -/
def getSession (d : Dev) (n : Nat) : Session := tabGet d.host.sessions n {}

/-- Change session n. -/
def modSession (n : Nat) (f : Session → Session) (d : Dev) : Dev :=
  modHost (fun h => { h with sessions := tabMod h.sessions n {} f }) d

/-- Change the boot state. -/
def modBoot (f : Boot → Boot) (d : Dev) : Dev := { d with boot := f d.boot }

/-- Change power and clocks. -/
def modPower (f : Power → Power) (d : Dev) : Dev := { d with power := f d.power }

/-- Change the camera. -/
def modCam (f : Camera → Camera) (d : Dev) : Dev := { d with cam := f d.cam }

/-- Change ageing and self-test. -/
def modAge (f : Age → Age) (d : Dev) : Dev := { d with age := f d.age }

/-- Change the error record. -/
def modErr (f : Err → Err) (d : Dev) : Dev := { d with err := f d.err }

/-- Change the flash. -/
def modFlash (f : Flash → Flash) (d : Dev) : Dev := { d with flash := f d.flash }

/-- A fresh free value (log 7). -/
def draw (d : Dev) : Nat × Dev := (d.freeCtr, { d with freeCtr := d.freeCtr + 1 })

/-- n fresh bytes of the TRNG (R372). -/
def drawBytes : Nat → Dev → Bytes × Dev
  | 0, d => ([], d)
  | n + 1, d => let r := drawBytes n { d with freeCtr := d.freeCtr + 1 }
    (BitVec.ofNat 8 (Config.freeWord d.freeCtr).toNat :: r.1, r.2)

/-! ### Image lookups -/

/-- Parameters of a tier (Table 3.7). -/
def tierRec (img : Image) (t : Nat) : TierRec := (img.tiers.find? (fun r => r.tier == t)).getD {}

/-- Credit floor of a partition at a tier (R90: 0 without an entry). -/
def floorOf (img : Image) (p t : Nat) : Nat :=
  match img.floors.find? (fun f => f.part == p) with
  | some f => if t = 1 then f.f1 else if t = 2 then f.f2 else f.f3
  | none => 0

/-- Record entry of a partition, if declared. -/
def partRec? (img : Image) (p : Nat) : Option PartRec := img.parts.find? (fun r => r.part == p)

/-- The partition is declared (PRT_p_STATUS). -/
def declared (img : Image) (p : Nat) : Bool := (partRec? img p).isSome

/-- Owner of a stream, if any (R322). -/
def streamOwner (img : Image) (s : Nat) : Option Nat := (img.parts.find? (fun r => bit r.streams s)).map (fun r => r.part)

/-- Graph of an identifier. -/
def graph? (img : Image) (g : Nat) : Option Graph := img.graphs.find? (fun x => x.id == g)

/-- Graph of an identifier, or an empty one. -/
def graphOf (img : Image) (g : Nat) : Graph := (graph? img g).getD {}

/-- A step graph (R320). -/
def isStep (g : Graph) : Bool := g.batchShape != 0

/-- Region of an identifier. -/
def region? (img : Image) (r : Nat) : Option Region := img.regions.find? (fun x => x.id == r)

/-- Base address of a region. -/
def regionBase (img : Image) (r : Nat) : Nat := ((region? img r).getD {}).base

/-- Template of an identifier. -/
def templateOf (img : Image) (t : Nat) : Template := (img.templates.find? (fun x => x.id == t)).getD {}

/-- Requantisation table of an identifier. -/
def requantOf (img : Image) (t : Nat) : Option RqTable := img.requants.find? (fun x => x.id == t)

/-- Core configuration (R157: the default of Table 1.3 without a record). -/
def coreRec (img : Image) (c : Nat) : CoreRec := (img.cores.find? (fun r => r.core == c)).getD { core := c }

/-- Perk graph of an identifier. -/
def perkOf (img : Image) (g : Nat) : PerkGraph := (img.perk.find? (fun x => x.graph == g)).getD {}

/-- Camera stream record. -/
def camRec? (img : Image) (s : Nat) : Option CamRec := img.cams.find? (fun r => r.stream == s)

/-- Audio record of a stream. -/
def audioRec? (img : Image) (s : Nat) : Option AudioRec := img.audio.find? (fun r => r.stream == s)

/-- The stream table holds a video stream of this number (R71). -/
def isVideo (img : Image) (s : Nat) : Bool := (camRec? img s).isSome

/-- Width in bits of an element of a format code (Table 7.1, 31 fp32). -/
def formatBits (f : Nat) : Nat :=
  match f with
  | 0 => 2 | 1 => 4 | 2 => 8 | 3 => 8 | 4 => 8 | 5 => 8 | 6 => 6 | 7 => 4 | 8 => 8 | 9 => 16 | 10 => 16 | 12 => 1 | 31 => 32
  | _ => 8

/-- The image loaded has been accepted and the device is not halted. -/
def live (d : Dev) : Bool := d.boot.accepted && d.boot.step != .halted

/-! ### Memory -/

/-- Put a byte into a canonical list: a byte that equals what an unlisted address reads as is not listed (log 8). -/
def setCell (a : Nat) (v : Byte) : List Host.Cell → List Host.Cell
  | [] => if v = 0 then [] else [(a, v)]
  | (b, w) :: r =>
    if a < b then (if v = 0 then (b, w) :: r else (a, v) :: (b, w) :: r)
    else if a = b then (if v = 0 then r else (a, v) :: r)
    else (b, w) :: setCell a v r

/-- Read one byte. -/
def memByte (m : Mem) (a : Nat) : Byte := (lookupKey a m.cells).getD 0

/-- Write one byte. -/
def memPut (m : Mem) (a : Nat) (v : Byte) : Mem := { m with cells := setCell a v m.cells }

/-- The cells keep the canonical form: addresses strictly rising from a bound, none equal to an unlisted one. -/
def cellsWf : Nat → List Host.Cell → Bool
  | _, [] => true
  | lo, (a, v) :: r => decide (lo ≤ a) && v != 0 && cellsWf (a + 1) r

/-- Canonical form of memory. -/
def Mem.wf (m : Mem) : Bool := cellsWf 0 m.cells

/-- Read n bytes. -/
def memRead (m : Mem) (a n : Nat) : Bytes := (List.range n).map (fun i => memByte m (a + i))

/-- Write bytes at an address. -/
def memWrite (m : Mem) (a : Nat) : Bytes → Mem
  | [] => m
  | v :: r => memWrite (memPut m a v) (a + 1) r

/-- Forget the bytes of a range whose contents are lost (R278, R429). -/
def memLose (m : Mem) (a n : Nat) : Mem :=
  { cells := m.cells.filter (fun c => decide (c.1 < a) || decide (a + n ≤ c.1)),
    poison := m.poison.filter (fun g => decide (g < a / 64) || decide ((a + n) / 64 ≤ g)) }

/-- Put a number into an ascending list. -/
def insertNat (n : Nat) : List Nat → List Nat
  | [] => [n]
  | x :: r => if n < x then n :: x :: r else if n = x then x :: r else x :: insertNat n r

/-- The granule that holds an address is poisoned. -/
def poisonedAt (m : Mem) (a : Nat) : Bool := m.poison.contains (a / 64)

/-- Poison granule numbers. -/
def poisonGranules (gs : List Nat) (m : Mem) : Mem := { m with poison := gs.foldl (fun p g => insertNat g p) m.poison }

/-- Clear the mark of granule numbers (R298: a whole granule of good data). -/
def cleanGranules (gs : List Nat) (m : Mem) : Mem := { m with poison := m.poison.filter (fun g => !gs.contains g) }

/-- Granules that n bytes at an address touch. -/
def granulesOf (a n : Nat) : List Nat := if n = 0 then [] else (List.range ((a + n - 1) / 64 + 1 - a / 64)).map (fun i => a / 64 + i)

/-- Granules that n bytes at an address cover wholly. -/
def wholeGranules (a n : Nat) : List Nat := (granulesOf a n).filter (fun g => decide (a ≤ g * 64) && decide (g * 64 + 64 ≤ a + n))

/-- Write good data: whole granules lose their poison (R298). -/
def memStore (a : Nat) (b : Bytes) (d : Dev) : Dev :=
  { d with mem := cleanGranules (wholeGranules a b.length) (memWrite d.mem a b) }

/-- Add to a 4-byte statistics field that saturates. -/
def statAdd (a n : Nat) (m : Mem) : Mem := memWrite m a (le 4 (min 4294967295 (u32 (memRead m a 4) 0 + n)))

/-- Poison the granules of a range. -/
def poisonRange (a n : Nat) (d : Dev) : Dev := { d with mem := poisonGranules (granulesOf a n) d.mem }

/-! ### Addresses (Tables 1.4, 1.5, 13.3) -/

/-- First address of a cluster's window. -/
def clusterBase (n : Nat) : Nat := 0x1100000000 + n * 0x1000000

/-- First address of a core's SRAM. -/
def coreBase (u : Nat) : Nat := clusterBase (u / 6) + 0x400000 + (u % 6) * 0x200000

/-- First byte of a region of a core's SRAM: 0 activations, 1 weights, 2 accumulators, 3 state. -/
def coreRegion (img : Image) (u k : Nat) : Nat :=
  let r := coreRec img u
  coreBase u + 65536 * (if k = 0 then 0 else if k = 1 then r.act else if k = 2 then r.act + r.wt else r.act + r.wt + r.acc)

/-- Bytes of DRAM that the device maps (R300). -/
def mappedBytes (img : Image) (mib : Nat) : Nat :=
  if bit ((img.mem.getD {}).flags) 0 then mib * 1048576 / 8 * 7 else mib * 1048576 - mib * 1048576 / 512

/-- An address that Table 1.4 maps to memory (R19). -/
def mapped (d : Dev) (a : Nat) : Bool :=
  decide (a < mappedBytes d.img d.boot.mib) || (decide (0x1000000000 ≤ a) && decide (a < 0x1006000000)) ||
    (decide (0x1100000000 ≤ a) && decide (a < 0x1104000000) &&
      (let o := (a - 0x1100000000) % 0x1000000
       decide (o < 0x400000) || decide ((o - 0x400000) % 0x200000 < 0x180000)))

/-- Region that holds an address. -/
def regionAt (img : Image) (a : Nat) : Option Region :=
  img.regions.find? (fun r => decide (r.base ≤ a) && decide (a < r.base + r.pages * 4096))

/-- Frame of a strand: unit and first 16 KiB unit of its activations region. -/
def frameOf (d : Dev) (g i strand : Nat) : Option (Nat × Nat) :=
  (List.range 24).findSome? (fun u =>
    ((getUnit d u).frames.find? (fun f => f.1 == g && f.2.1 == i && f.2.2.1 == strand)).map (fun f => (u, f.2.2.2.1)))

/-- Address that a ref stands for (R305, R309): graph, instance, cluster and strand of its descriptor; none for no ref. -/
def refAddr (d : Dev) (g i cluster strand ref : Nat) : Option Nat :=
  let gr := graphOf d.img g
  let off := ref % 16777216
  let space := ref / 1073741824
  let base := regionBase d.img (gr.regions.getD (ref / 16777216 % 64) 0)
  if ref = 0xFFFFFFFF then none
  else if space = 0 then (frameOf d g i strand).map (fun f => coreBase f.1 + f.2 * 16384 + off * 64)
  else if space = 1 then some (clusterBase cluster + (off + i * gr.sramStride) * 64)
  else if space = 2 then some (base + (off + i * gr.memStride) * 64)
  else some (base + off * 64)

/-! ### Descriptors (Table 13.1) -/

/-- kind -/
def dKind (b : Bytes) : Nat := u8 b 0
/-- partition -/
def dPart (b : Bytes) : Nat := u8 b 1 % 128
/-- op_id -/
def dOp (b : Bytes) : Nat := u16 b 2
/-- cluster -/
def dCluster (b : Bytes) : Nat := u8 b 4 % 4
/-- core hint, 7 for none -/
def dHint (b : Bytes) : Nat := u8 b 5 % 8
/-- strand_start -/
def dStart (b : Bytes) : Bool := bit (u8 b 5) 3
/-- strand_end -/
def dEnd (b : Bytes) : Bool := bit (u8 b 5) 4
/-- strand number -/
def dStrand (b : Bytes) : Nat := u16 b 6 % 4096
/-- batch slot -/
def dSlot (b : Bytes) : Nat := u16 b 6 / 4096
/-- wait cells and targets -/
def dWaits (b : Bytes) : List (Nat × Nat) := [(u16 b 8, u32 b 16), (u16 b 10, u32 b 20)].filter (fun w => w.1 != 0xFFFF)
/-- signal_cell, 0xFFFF for none -/
def dSignal (b : Bytes) : Nat := u16 b 12
/-- empty flag -/
def dEmpty (b : Bytes) : Bool := bit (u8 b 14) 0
/-- slot_specific flag -/
def dSlotSpecific (b : Bytes) : Bool := bit (u8 b 14) 1
/-- frame_units -/
def dFrame (b : Bytes) : Nat := u8 b 15
/-- out ref -/
def dOut (b : Bytes) : Nat := u32 b 24
/-- in0 ref -/
def dIn0 (b : Bytes) : Nat := u32 b 28
/-- word of the body at an offset -/
def dWord (b : Bytes) (o : Nat) : Nat := u32 b o

/-- A tile that runs on a core: kinds 0, 2, 3, 4 and 5; kind 1 runs on the stem engine. -/
def isTile (b : Bytes) : Bool := dKind b < 6

/-- A live descriptor by name. -/
def desc? (d : Dev) (i : DescId) : Option Desc := d.sched.live.find? (fun x => x.id == i)

/-- Bytes of a live descriptor, or none. -/
def descBytes (d : Dev) (i : DescId) : Bytes := ((desc? d i).map (fun x => x.bytes)).getD []

/-- Change a live descriptor. -/
def modDesc (i : DescId) (f : Desc → Desc) (d : Dev) : Dev :=
  modSched (fun c => { c with live := c.live.map (fun x => if x.id = i then f x else x) }) d

/-! ### Barrier cells (R295, R305) -/

/-- Device-wide number of a relative cell of instance i of graph g. -/
def cellNo (img : Image) (g i r : Nat) : Nat := let gr := graphOf img g; gr.barrierBase + i * gr.barrierCells + r

/-- Count of a cell. -/
def cellCount (d : Dev) (k : Nat) : Word := tabGet d.sched.cells k 0

/-- Signal a cell: add 1 modulo 2³². -/
def signalCell (k : Nat) (d : Dev) : Dev := modSched (fun c => { c with cells := tabMod c.cells k 0 (fun w => w + 1) }) d

/-- Absolute waits of a descriptor: cell and target. -/
def waitsOf (d : Dev) (x : DescId) (b : Bytes) : List (Nat × Word) :=
  (dWaits b).map (fun w => (cellNo d.img x.graph x.inst w.1,
    (getInst d x.graph x.inst).c0.getD w.1 0 + BitVec.ofNat 32 w.2))

/-- Both waits of a descriptor are satisfied. -/
def waitsMet (d : Dev) (x : DescId) (b : Bytes) : Bool := (waitsOf d x b).all (fun w => reached (cellCount d w.1) w.2)

/-- Signal the descriptor's own cell; a signal to another cluster's cell is on its way until REMOTE_BARRIER_SIGNAL (R295). -/
def signalOwn (x : DescId) (b : Bytes) (d : Dev) : Dev :=
  if dSignal b = 0xFFFF then d
  else
    let k := cellNo d.img x.graph x.inst (dSignal b)
    if k / 2048 = dCluster b then signalCell k d else modSched (fun c => { c with remote := c.remote ++ [k] }) d

/-! ### Injection (R444 to R446) -/

/-- Mode of an injection armed on a class and instance. -/
def armedOn (d : Dev) (cls inst : Nat) : Option Nat :=
  match d.err.armed with
  | some (i, m) => if i = cls * 4096 + inst then some m else none
  | none => none

/-- An injection has acted: it disarms and is counted. -/
def fired (d : Dev) : Dev :=
  match d.err.armed with
  | some (i, _) => modErr (fun e => { e with armed := none, fired := e.fired + 1, last := some i }) d
  | none => d

/-- Record a code as injected where the injection named is armed (and let it act), else as natural. -/
def recordOn (cls inst c : Nat) (part : Option Nat) (detail : Nat × Nat) (d : Dev) : Dev :=
  if (armedOn d cls inst).isSome then recordAt c part detail none true (fired d) else record c part detail d

/-- The checker of a pool instance has lost its state (R335). -/
def checkerLost (pool inst : Nat) (inj : Bool) (d : Dev) : Dev :=
  recordAt 0x14 none (7, pool) none inj
    (modSched (fun c => { c with lost := if (pool, inst) ∈ c.lost then c.lost else c.lost ++ [(pool, inst)] }) d)

/-- A take (kind 0) or return (kind 1) that a pool's checker observes: an injection of class 7 acts on it (R446). A checker that has lost
its state observes nothing: the pool operates unchecked (R335). -/
def tap (pool inst kind part : Nat) (d : Dev) : Dev :=
  if (pool, inst) ∈ d.sched.lost then d
  else match armedOn d 7 (pool * 256 + inst) with
    | some 0 => modSched (fun c => { c with tripped := some (pool, kind, part, inst) }) (fired d)
    | some _ => checkerLost pool inst true (fired d)
    | none => d

/-- Some instance of a pool is frozen (R333). -/
def frozen (d : Dev) (pool inst : Nat) : Bool := d.sched.frozen.any (fun f => f.1 == pool && f.2.1 == inst)

/-! ### Cycles of tiles (R315, R421) -/

/-- Quota of a partition. -/
def quotaOf (img : Image) (p : Nat) : Nat := ((partRec? img p).getD {}).quota

/-- Bounds of the governor's bubbles over the array cycles of an advancing part, at throttle levels between two (R421). -/
def throttleBounds (cycles : Nat) (levels : Nat × Nat) : Nat × Nat :=
  ((cycles - 1) * levels.1 / (16 - min 15 levels.1), ceilDiv (cycles * levels.2) (16 - min 15 levels.2))

/-- Governor bubbles taken, within their bounds. -/
def throttleBubbles (cycles : Nat) (levels : Nat × Nat) (n : Nat) : Nat :=
  let k := throttleBounds cycles levels
  max k.1 (min k.2 n)

end Sys2Proof.Machine
end

