-- ==== Sys2Proof/Machine/Places.lean ====
section
/-! DEFINITION. Where tiles write: feature maps (R207), page layout (Table 11.1), zero-compressed segments (R222), scale streams
(R175), and the destination of a descriptor (R151). -/

namespace Sys2Proof.Machine

/-- Record entry of a sequence. -/
def kvRec? (img : Image) (s : Nat) : Option KvRec := img.kvs.find? (fun r => r.seq == s)

/-- Record entry of a sequence, or an empty one. -/
def kvRecOf (img : Image) (s : Nat) : KvRec := (kvRec? img s).getD {}

/-- Element width of a page format (R250). -/
def kvBits (format : Nat) : Nat := if format = 1 then 4 else 8

/-- Values that one scale block of a page format covers (R250). -/
def kvBlock (format : Nat) : Nat := if format = 1 ∨ format = 2 then 512 else 1024

/-- Key-data bytes of a page, Kd (Table 11.1). -/
def keyBytes (format heads dim : Nat) : Nat := heads * 64 * dim * kvBits format / 8

/-- Key-scale bytes of a page, Ks. -/
def scaleBytes (format heads dim : Nat) : Nat := heads * 64 * dim / kvBlock format * 64

/-- Offset in bits of element (x, y, c) of a feature map: layout 0 channel-blocked, layout 1 planar tiles (R207, R125). -/
def mapBit (layout bits H W C x y c : Nat) : Nat :=
  if layout = 0 then ((c / 16 * H + y) * W + x) * 16 * bits + c % 16 * bits
  else (((y / 32 * ceilDiv W 32 + x / 32) * C + c) * 1024 + y % 32 * 32 + x % 32) * bits

/-- Size in bits of a feature map. -/
def mapExtent (layout bits H W C : Nat) : Nat :=
  if layout = 0 then ceilDiv C 16 * 16 * H * W * bits else ceilDiv H 32 * ceilDiv W 32 * C * 1024 * bits

/-- Convolution operator of a template, if any. -/
def convOf (img : Image) (t : Nat) : Option ConvOp := img.convs.find? (fun c => c.template == t)

/-- Pool operator of an identifier. -/
def poolOf (img : Image) (t : Nat) : PoolOp := (img.pools.find? (fun p => p.id == t)).getD {}

/-- Attention operator of an identifier. -/
def attnOf (img : Image) (t : Nat) : AttnOp := (img.attns.find? (fun p => p.id == t)).getD {}

/-- Record entry of a scan operator. -/
def scanOf (img : Image) (i : Nat) : ScanOp := (img.scans.find? (fun r => r.id == i)).getD {}

/-- Codebook set by identifier. -/
def codebookSet (img : Image) (k : Nat) : Codebook := (img.codebooks.find? (fun c => c.id == k)).getD {}

/-- Weights per cell of a weight format (Table 6.2). -/
def weightsPerCell (f : Nat) : Nat := if f = 0 then 4 else if f = 1 ∨ f = 7 then 2 else 1

/-- Rows and columns of a pack shape with 8-bit weights (Table 6.3). -/
def shapeDims (s : Nat) : Nat × Nat := if s = 0 then (16, 16) else if s = 1 then (32, 32) else if s = 2 then (16, 64) else (64, 16)

/-- Output positions of an array tile (R209): four runs of rows_per_pass in shape 0, one in a pack; a stem tile's follow from its
output elements. An output-stationary tile has one block of columns for each pass (R140), so its rows follow from those too
(DEDUCED, log 61). -/
def tilePositions (img : Image) (t : Template) : Nat :=
  if t.dataflow = 1 then t.outElements / max 1 (t.kBlocks * (shapeDims t.shape).2 * weightsPerCell t.wFormat)
  else if t.shape = 0 then 4 * t.rows
  else if t.shape = 4 then t.outElements / max 1 ((convOf img t.id).getD {}).outC
  else t.rows

/-- Some attend tile of the graph reads the running state that this one commits (R263, R267). -/
def hasSuccessor (graphBlob b : Bytes) : Bool :=
  (entries 64 graphBlob).any (fun y => u8 y 0 == 4 && u32 y 0x2C == u32 b 0x18 && u32 b 0x18 != 0xFFFFFFFF)

/-- Requantisation table of a descriptor, if it has one. -/
def rqOf (img : Image) (b : Bytes) : Option RqTable :=
  match dKind b with
  | 0 => requantOf img (templateOf img (dOp b)).requant
  | 1 => requantOf img (templateOf img (dOp b)).requant
  | 3 => requantOf img (scanOf img (dOp b)).requant
  | 4 => requantOf img (attnOf img (dOp b)).requant
  | _ => none

/-- Format code of what a commit writes: the table's, or 32 bits (R151, R171). -/
def outFormat (img : Image) (b : Bytes) : Nat :=
  if dKind b = 2 then (poolOf img (dOp b)).format else ((rqOf img b).map (fun r => r.format)).getD 31

/-- What a tile commits, as places of its destination. -/
structure OutGrid where
  /-- first position in the destination -/
  first : Nat := 0
  /-- positions of the tile -/
  rows : Nat := 0
  /-- channels of the tile -/
  chans : Nat := 0
  /-- first channel in the destination -/
  chan0 : Nat := 0
  /-- channels of the destination -/
  width : Nat := 0
  /-- positions of the destination -/
  total : Nat := 0
  /-- size of the destination in bits -/
  extent : Nat := 0
  /-- 0 and 1 the layouts of R207, 2 rows one after the other -/
  layout : Nat := 2

/-- Positions of a tile in a map of H x W that starts at an origin. -/
def mapGrid (layout bits H W C ox oy n chans : Nat) : OutGrid × (Nat → Nat → Nat) :=
  let i0 := oy * W + ox
  ({ first := i0, rows := min n (H * W - i0), chans := chans, width := C, total := H * W, extent := mapExtent layout bits H W C, layout := layout },
    fun k c => mapBit layout bits H W C ((i0 + k) % max 1 W) ((i0 + k) / max 1 W) c)

/-- What a tile covers and the offset in bits of each element in an area of elements of a width (R207, R209, R234). The area is the
whole map for tiles with an operator record and for scan tiles; other array tiles have one row of channels for each position, attend
tiles one row for each query, their statistics after them (DEDUCED, log 25). -/
def gridOf (img : Image) (graphBlob b : Bytes) (bits : Nat) : OutGrid × (Nat → Nat → Nat) :=
  let ox := u16 b 0x28
  let oy := u16 b 0x2A
  match dKind b with
  | 2 =>
    let p := poolOf img (dOp b)
    mapGrid (p.flags / 2 % 2) bits p.outH p.outW p.channels ox oy (p.outElements / max 1 p.channels) p.channels
  | 3 =>
    let s := scanOf img (dOp b)
    let r := (img.blocks.find? (fun x => x.id == u16 b 0x28)).getD {}
    ({ rows := s.steps, chans := s.slice, chan0 := r.first + u16 b 0x2A * s.slice, width := s.elements, total := s.steps, extent := mapExtent 0 bits 1 s.steps s.elements, layout := 0 },
      fun t i => mapBit 0 bits 1 s.steps s.elements t 0 (r.first + u16 b 0x2A * s.slice + i))
  | 4 =>
    let a := attnOf img (dOp b)
    let rows := u8 b 0x23
    let data := ceilDiv (rows * a.headDim * bits) 512 * 512
    let grads := rows + 2 * a.span
    if a.kind = 1 then ({ rows := grads, chans := a.headDim, width := a.headDim, total := grads, extent := grads * a.headDim * 32 }, fun r j => (r * a.headDim + j) * 32)
    else if hasSuccessor graphBlob b then
      ({ rows := rows, chans := a.headDim + 2, width := a.headDim + 2, total := rows, extent := rows * (a.headDim + 2) * 32 }, fun r j => (r * (a.headDim + 2) + j) * 32)
    else if bit a.flags 1 then
      ({ rows := rows, chans := a.headDim + 2, width := a.headDim + 2, total := rows, extent := data + rows * 64 },
        fun r j => if j < a.headDim then (r * a.headDim + j) * bits else data + (r * 2 + (j - a.headDim)) * 32)
    else ({ rows := rows, chans := a.headDim, width := a.headDim, total := rows, extent := data }, fun r j => (r * a.headDim + j) * bits)
  | 5 => ({}, fun _ _ => 0)
  | _ =>
    let t := templateOf img (dOp b)
    if bit t.flags 2 then ({}, fun _ _ => 0)
    else
      let n := tilePositions img t
      let chans := t.outElements / max 1 n
      match convOf img t.id with
      | some v => mapGrid v.outLayout bits v.outH v.outW v.outC ox oy n chans
      | none => ({ rows := n, chans := chans, width := chans, total := n, extent := n * chans * bits }, fun k c => (k * chans + c) * bits)

/-- What a tile commits, and where in its destination. -/
def outGrid (img : Image) (graphBlob b : Bytes) : OutGrid × (Nat → Nat → Nat) := gridOf img graphBlob b (formatBits (outFormat img b))

/-- Dense granules of what a tile commits, ascending from the destination's start. -/
def denseGranules (img : Image) (graphBlob b : Bytes) : List Nat :=
  let g := outGrid img graphBlob b
  ((List.range g.1.rows).flatMap (fun k => (List.range g.1.chans).map (fun c => g.2 k c / 512))).foldl (fun l x => insertNat x l) []

/-- Zero-compressed output of a producer (Table 9.6), if it has one. -/
def zcOf (img : Image) (b : Bytes) : Option ZcOut := if dKind b ≤ 2 then img.zcOuts.find? (fun z => z.producer == dOp b) else none

/-- Scale stream of an output: kind and scales per block (Table 7.3), none for an unscaled one. -/
def scaleKind (img : Image) (b : Bytes) : Option (Nat × Nat) :=
  match rqOf img b with
  | some r => if bit r.flags 2 then some (3, 8) else if bit r.flags 1 ∧ r.format ≤ 2 then some (2, 16)
      else if 5 ≤ r.format ∧ r.format ≤ 8 then some (1, 32) else none
  | none => none

/-- Place in its stream of the scale that covers an element: by row, by 32 elements in stored order, or by channel and run of 32
positions, in the stored order of what each scale covers first (R172 to R176): in layout 0 a block of 512 elements holds 32 positions
of 16 channels. A last run shorter than 32 has a scale of its own (DESIGN CHOICE, log 140). -/
def scaleNo (kind : Nat) (g : OutGrid) (width k c off : Nat) : Nat :=
  let p := g.first + k
  let n := g.chan0 + c
  if kind = 3 then p
  else if kind = 2 ∧ g.layout = 0 then (n / 16 * ceilDiv g.total 32 + p / 32) * 16 + n % 16
  else if kind = 2 ∧ g.layout = 2 then p / 32 * g.width + n
  else off / max 1 width / 32

/-- Scales that block k of a destination's stream holds (count of Table 7.3). -/
def scaleCount (kind per : Nat) (g : OutGrid) (width k : Nat) : Nat :=
  if kind = 2 ∧ g.layout = 0 then min per (g.width - k / max 1 (ceilDiv g.total 32) * 16)
  else
    let all := if kind = 3 then g.total else if kind = 2 ∧ g.layout = 2 then ceilDiv g.total 32 * g.width else g.extent / max 1 width / 32
    min per (all - k * per)

/-- First granule of the scale stream, from the destination's start: after the data (DESIGN CHOICE, log 29). -/
def scaleBase (g : OutGrid) : Nat := ceilDiv g.extent 512

/-- Scale blocks of its stream that a tile writes, ascending. -/
def scaleBlocks (img : Image) (graphBlob b : Bytes) : List Nat :=
  match scaleKind img b with
  | none => []
  | some s =>
    let g := outGrid img graphBlob b
    let w := formatBits (outFormat img b)
    ((List.range g.1.rows).flatMap (fun k => (List.range g.1.chans).map (fun c => scaleNo s.1 g.1 w k c (g.2 k c) / s.2))).foldl
      (fun l x => insertNat x l) []

/-- Granules of a compressed segment of n dense granules: its index area and its block area (R222). -/
def segmentSize (n : Nat) : Nat := ceilDiv n 16 + n

/-- Granule offsets of a descriptor's destination, from its start: dense granules, or those of a compressed segment (R222), and the
scale blocks of its stream; those of a segment stand right after it (log 29). -/
def destGranules (img : Image) (graphBlob b : Bytes) : List Nat :=
  let dense := denseGranules img graphBlob b
  let blocks := scaleBlocks img graphBlob b
  if (zcOf img b).isSome then List.range (segmentSize dense.length + blocks.length)
  else dense ++ blocks.map (fun k => scaleBase (outGrid img graphBlob b).1 + k)

/-- Index of a blob in the manifest. -/
def blobIndex (img : Image) (id : Nat) : Option Nat := img.blobs.findIdx? (fun b => b.id == id)

/-- Checked and decrypted bytes of a blob. -/
def blobBytes (d : Dev) (id : Nat) : Bytes := ((blobIndex d.img id).map (fun k => (tabGet d.boot.blobs k {}).bytes)).getD []

/-- Descriptors of a graph as its blob holds them. -/
def graphBlob (d : Dev) (g : Nat) : Bytes := blobBytes d (graphOf d.img g).blob

/-- Address of a descriptor's destination. -/
def destAddr (d : Dev) (x : DescId) (b : Bytes) : Option Nat := refAddr d x.graph x.inst (dCluster b) (dStrand b) (dOut b)

/-! ### Pages (R250, R251) -/

/-- Element index in its half of a page: head, slot, dimension. -/
def pageElem (r : KvRec) (h i j : Nat) : Nat := (h * 64 + i) * r.headDim + j

/-- Offset in a page of the data of a half: 0 keys, 1 values. -/
def halfData (r : KvRec) (half : Nat) : Nat := half * (keyBytes r.format r.kvHeads r.headDim + scaleBytes r.format r.kvHeads r.headDim)

/-- Offset in a page of the scale blocks of a half. -/
def halfScales (r : KvRec) (half : Nat) : Nat := halfData r half + keyBytes r.format r.kvHeads r.headDim

/-- ring flag of a sequence. -/
def isRing (r : KvRec) : Bool := bit r.flags 0

/-- Entry number of a logical page (R254). -/
def entryKey (r : KvRec) (layer p : Nat) : Nat := layer * r.tablePages + (if isRing r then p % r.tablePages else p)

/-- Entry of a logical page. -/
def ptEntry (d : Dev) (s layer p : Nat) : PtEntry := tabGet (getKv d s).entries (entryKey (kvRecOf d.img s) layer p) {}

/-- Address of a sequence's page table (R254). -/
def tableAt (img : Image) (r : KvRec) : Nat := regionBase img r.region + r.offset

/-- Address of an entry by its number. -/
def entryAddr (img : Image) (r : KvRec) (k : Nat) : Nat := tableAt img r + 64 + 16 * k

/-- Position that a scatter tile writes first: of the page of its first position, slot fill (R260). -/
def scatterFirst (d : Dev) (b : Bytes) : Nat :=
  let p := dWord b 0x28 / 64
  64 * p + min 64 (ptEntry d (u8 b 0x24) (u8 b 0x25) p).fill

/-- Slots that a scatter tile writes, from fill onward: its token number, the address of the page, the slot in it. -/
def scatterSlots (d : Dev) (pages : List (Nat × Nat)) (b : Bytes) : List (Nat × Nat × Nat) :=
  (List.range (u16 b 0x26)).filterMap (fun i =>
    let pos := scatterFirst d b + i
    (pages.find? (fun p => p.1 == pos / 64)).map (fun p => (i, p.2, pos % 64)))

/-- Granules of one half of a page that hold a slot's data or scales, for every head. -/
def slotGranules (r : KvRec) (at_ slot half : Nat) : List Nat :=
  let w := kvBits r.format
  (List.range r.kvHeads).flatMap (fun h =>
    let e := pageElem r h slot 0
    granulesOf (at_ + halfData r half + e * w / 8) (r.headDim * w / 8) ++
      (List.range (r.headDim / 32)).map (fun k => (at_ + halfScales r half) / 64 + (e + 32 * k) / kvBlock r.format))

/-- Granules that a scatter tile writes: data and scale blocks of both halves. -/
def scatterGranules (d : Dev) (pages : List (Nat × Nat)) (b : Bytes) : List Nat :=
  let r := kvRecOf d.img (u8 b 0x24)
  dedup ((scatterSlots d pages b).flatMap (fun s => slotGranules r s.2.1 s.2.2 0 ++ slotGranules r s.2.1 s.2.2 1))

/-! ### What a partition owns (R281, R322) -/

/-- Some partition's muzzle holds a master (R324). -/
def isMuzzled (d : Dev) (m : Nat) : Bool := d.img.parts.any (fun r => (getPart d r.part).muzzled.contains m)

/-- Record entry of a state block. -/
def blkRec (img : Image) (b : Nat) : BlockRec := (img.blocks.find? (fun r => r.id == b)).getD {}

/-- Record entry of a scan sequence, if declared. -/
def seqRec? (img : Image) (q : Nat) : Option SeqRec := img.seqs.find? (fun r => r.seq == q)

/-- Core whose state region holds a block when it is resident (R238, R319). -/
def blkCore (d : Dev) (b : Nat) : Nat := (getBlk d b).home.getD (blkRec d.img b).core

/-- Bytes of a block (R238). -/
def blkBytes (r : BlockRec) : Nat := ceilDiv (64 + 4 * r.count) 4096 * 4096

/-- Bytes of core SRAM assigned to a partition on a core (R322), as start and length: the frames of its strands, its weight-cache
entries, the accumulators region while the core runs its tile (the manual does not place a working area in it: DESIGN CHOICE, log 146),
and its resident state blocks. -/
def coreAreas (d : Dev) (p u : Nat) : List (Nat × Nat) :=
  let x := getUnit d u
  (x.frames.filter (fun f => (graphOf d.img f.1).part == p)).map (fun f => (coreBase u + f.2.2.2.1 * 16384, f.2.2.2.2 * 16384)) ++
    (x.cache.filter (fun e => e.1 == p)).map (fun e => (coreRegion d.img u 1 + e.2.2.2, ceilDiv e.2.2.1 64 * 64)) ++
    (if (x.tile.map (fun t => dPart (descBytes d t.d))) = some p then [(coreRegion d.img u 2, coreRegion d.img u 3 - coreRegion d.img u 2)] else []) ++
    (d.img.blocks.filter (fun r => (getBlk d r.id).place == 0 && blkCore d r.id == u &&
      (seqRec? d.img r.seq).any (fun q => q.part == p))).map (fun r => (coreRegion d.img u 3 + r.slotOffset, blkBytes r))

/-- An address of core SRAM is assigned to the partition. -/
def ownsCoreSram (d : Dev) (p a : Nat) : Bool :=
  (List.range 24).any (fun u => (coreAreas d p u).any (fun k => decide (k.1 ≤ a) && decide (a < k.1 + k.2)))

/-- An address of cluster SRAM lies in the partition's range (Table 13.7). -/
def ownsClusterSram (img : Image) (p a : Nat) : Bool :=
  let sram := ((partRec? img p).getD {}).sram
  (List.range 4).any (fun n =>
    let base := sram / 2 ^ (16 * n) % 256
    let units := sram / 2 ^ (16 * n + 8) % 256
    decide (clusterBase n + base * 65536 ≤ a) && decide (a < clusterBase n + (base + units) * 65536))

/-- A partition's tile may write the granule at an address (R281, R322). -/
def tileMayWrite (d : Dev) (p a : Nat) : Bool :=
  mapped d a && (match regionAt d.img a with
    | some r => r.part == p && r.kind == 0
    | none => ownsCoreSram d p a || ownsClusterSram d.img p a)

/-- A partition's tile may read the granule at an address (R281, R322): a region of any kind of its own. -/
def tileMayRead (d : Dev) (p a : Nat) : Bool :=
  mapped d a && (match regionAt d.img a with
    | some r => r.part == p
    | none => ownsCoreSram d p a || ownsClusterSram d.img p a)

/-- Granules of a descriptor's destination, by number. -/
def destList (d : Dev) (x : DescId) (b : Bytes) : List Nat :=
  match destAddr d x b with
  | some a => (destGranules d.img (graphBlob d x.graph) b).map (fun g => a / 64 + g)
  | none => []

/-- Poison every granule of a descriptor's destination that its partition may write (Table 6.4). -/
def poisonDest (x : DescId) (pages : List (Nat × Nat)) (d : Dev) : Dev :=
  let b := descBytes d x
  if dKind b = 5 then
    let gs := scatterGranules d pages b
    modKv (u8 b 0x24) (fun k => { k with spoiled := dedup (k.spoiled ++ gs.filter (fun g => !d.mem.poison.contains g)) })
      { d with mem := poisonGranules gs d.mem }
  else { d with mem := poisonGranules ((destList d x b).filter (fun g => tileMayWrite d (dPart b) (64 * g))) d.mem }

/-! ### State blocks and chunks (R230, R236 to R246) -/

/-- Address of a block in one of its places (R238, R239): 0 resident, 1 its stacked-store home, 2 its DRAM home. -/
def blkAt (d : Dev) (b place : Nat) : Nat :=
  let r := blkRec d.img b
  if place = 0 then coreRegion d.img (blkCore d b) 3 + r.slotOffset
  else if place = 1 then regionBase d.img r.storeRegion + r.storeOffset
  else regionBase d.img r.dramRegion + r.dramOffset

/-- Address of a block where it is. -/
def blkAddr (d : Dev) (b : Nat) : Nat := blkAt d b (getBlk d b).place

/-- Address of element n of a block where it is: after the header, in fp32. -/
def elemAddr (d : Dev) (b n : Nat) : Nat := blkAddr d b + 64 + 4 * n

/-- State block header (Table 10.2), with the chunk count of the directory. -/
def blkHeader (d : Dev) (b : Nat) : Bytes :=
  let r := blkRec d.img b
  le 2 b ++ le 2 r.scan ++ le 1 r.seq ++ le 1 ((seqRec? d.img r.seq).getD {}).part ++ zeros 2 ++ le 8 (getBlk d b).chunks ++
    le 4 r.count ++ zeros 44

/-- Write the header of a block where it is. -/
def writeBlkHeader (b : Nat) (d : Dev) : Dev := memStore (blkAddr d b) (blkHeader d b) d

/-- Slices of a block. -/
def slicesOf (img : Image) (b : Nat) : Nat := let r := blkRec img b; r.count / (scanOf img r.scan).slice

/-- Chunk that a scan descriptor names. -/
def dChunk (b : Bytes) : Nat := u32 b 0x2C + 4294967296 * u16 b 0x30

/-- Block that a scan descriptor names. -/
def dBlock (b : Bytes) : Nat := u16 b 0x28

/-- Slice that a scan descriptor names. -/
def dSlice (b : Bytes) : Nat := u16 b 0x2A

/-- The operator scans each chunk in reverse (R245). -/
def isBackward (o : ScanOp) : Bool := o.direction == 1

/-- Place of a chunk in the order in which the operator of a block takes its chunks (R230, R245): backward, each group of L from its last
chunk down to its first. -/
def chunkPos (img : Image) (b chunk : Nat) : Nat :=
  let L := ((seqRec? img (blkRec img b).seq).getD {}).lookahead
  if isBackward (scanOf img (blkRec img b).scan) then chunk / L * L + (L - 1 - chunk % L) else chunk

/-- Slice s of a block has applied the chunk at a place of the order. -/
def applied (d : Dev) (b pos s : Nat) : Bool := decide (pos < (getBlk d b).chunks) || (getBlk d b).slices.contains (pos, s)

/-- Blocks that hold the state of a block's operator in its sequence. -/
def matesOf (img : Image) (b : Nat) : List Nat :=
  (img.blocks.filter (fun y => y.seq == (blkRec img b).seq && y.scan == (blkRec img b).scan)).map (fun y => y.id)

/-- Chunks that all n slices of a block have applied are counted, in the operator's order. -/
def countChunks (n : Nat) : Nat → Blk → Blk
  | 0, x => x
  | k + 1, x =>
    if (List.range n).all (fun s => x.slices.contains (x.chunks, s)) then
      countChunks n k { x with chunks := x.chunks + 1, slices := x.slices.filter (fun e => e.1 != x.chunks) }
    else x

/-- Slices of a block have applied a chunk: the count of the directory and of the header follows (R242). -/
def noteSlices (b pos : Nat) (ss : List Nat) (d : Dev) : Dev :=
  let d1 := modBlk b (fun x => { x with slices := dedup (x.slices ++ (ss.filter (fun _ => decide (x.chunks ≤ pos))).map (fun s => (pos, s))) }) d
  let d2 := modBlk b (fun x => countChunks (slicesOf d.img b) x.slices.length x) d1
  if (getBlk d2 b).chunks = (getBlk d b).chunks then d2 else writeBlkHeader b d2

/-- What follows when slices of an operator have applied a chunk: masks of chunks that every block has applied go (R236), and the
sequence counts its forward chunks (R246, R248). -/
def settleChunks (b : Nat) (d : Dev) : Dev :=
  let q := (blkRec d.img b).seq
  let o := scanOf d.img (blkRec d.img b).scan
  let n := ((matesOf d.img b).map (fun y => (getBlk d y).chunks)).min?.getD 0
  let d1 := modSeq q (fun x => { x with frozen := x.frozen.filter (fun f =>
    (decide (2 ^ 48 ≤ f.1)) != isBackward o || decide (n ≤ chunkPos d.img b (f.1 % 2 ^ 48))) }) d
  if isBackward o then d1
  else
    let sr := (seqRec? d.img q).getD {}
    modSeq q (fun x => if bit sr.flags 0 then { x with chunks := n, fill := (x.fill + (n - x.chunks)) % sr.lookahead } else { x with chunks := n }) d1

/-- A request has ended, and scan tiles of its instance will not run (R307): their slices count as having applied their chunks, so that
later chunks do not wait for ever; their carried state stays (DESIGN CHOICE, log 149). -/
def skipScans (g i : Nat) (d : Dev) : Dev :=
  let left := (d.sched.live.filter (fun y => y.id.graph == g && y.id.inst == i && !y.released && dKind y.bytes == 3)).map (fun y => y.bytes)
  let later := ((entries 64 (graphBlob d g)).drop (getInst d g i).next).filter (fun b => dKind b == 3)
  (left ++ later).foldl (fun e b => settleChunks (dBlock b) (noteSlices (dBlock b) (chunkPos d.img (dBlock b) (dChunk b)) [dSlice b] e)) d

/-! ### Tags (R287, R336) -/

/-- Row of Table 12.4 that a mover of cluster n takes its tag from, by address; none for SRAM. -/
def tagRow (a n : Nat) (write : Bool) : Option Nat :=
  if a < 0x1000000000 then some (if write then 1 else 0) else if a < 0x1100000000 then some (2 + n) else none

/-- Tags of a row that partitions may hold (Table 12.4). -/
def tagsOf (row : Nat) : Nat := if row = 0 then 240 else if row = 1 then 112 else 64

/-- Bytes of a row's transfer unit. -/
def tagUnit (row : Nat) : Nat := if row < 2 then 128 else 256

/-- Tag floor of a record entry (Table 12.8). -/
def floorIn (f : TagFloor) (row : Nat) : Nat := ([f.read, f.write, f.s0, f.s1, f.s2, f.s3]).getD row 0

/-- Tag floor of a partition; 0 without an entry. -/
def tagFloor (img : Image) (p row : Nat) : Nat := floorIn ((img.tagFloors.find? (fun f => f.part == p)).getD {}) row

/-- Tags of a row outside every floor. -/
def tagsShared (img : Image) (row : Nat) : Nat := tagsOf row - (img.tagFloors.map (fun f => floorIn f row)).sum

/-- Where a partition's master may take a tag from: false its floor, true the shared remainder, none it waits. -/
def tagSource (d : Dev) (p row : Nat) : Option Bool :=
  let l := d.mov.tags.filter (fun t => t.row == row)
  let mine := (l.filter (fun t => t.part == p && !t.shared)).length
  if frozen d 1 row then none
  else if mine < tagFloor d.img p row then some false
  else if (l.filter (fun t => t.shared)).length < tagsShared d.img row ∧ (tagFloor d.img p row = 0 ∨ 0 < mine) then some true
  else none

/-- Most tags of a row held at once (Table 12.12): n are held now. -/
def noteTags (row n : Nat) (d : Dev) : Dev :=
  if row = 0 then modDdr (fun x => { x with readHigh := max x.readHigh n }) d
  else if row = 1 then modDdr (fun x => { x with writeHigh := max x.writeHigh n }) d
  else modMover (row - 2) (fun m => { m with tagsHigh := max m.tagsHigh n }) d

/-- Tags of a row in flight. -/
def tagsHeld (d : Dev) (row : Nat) : Nat := (d.mov.tags.filter (fun t => t.row == row)).length

/-- A master takes a tag for the unit that holds an address, unless it holds that tag already or no row serves the address; none where it
must wait. -/
def takeTag (master p n a : Nat) (write : Bool) (d : Dev) : Option Dev :=
  match tagRow a n write with
  | none => some d
  | some row =>
    if d.mov.tags.any (fun t => t.row == row && t.master == master && t.unit == a / tagUnit row) then some d
    else (tagSource d p row).map (fun sh =>
      let e := tap 1 row 0 p d
      noteTags row (tagsHeld d row + 1)
        { e with mov := { e.mov with tags := e.mov.tags ++ [{ row := row, master := master, part := p, unit := a / tagUnit row, shared := sh }] } })

/-- The tags of a master return, but for those that some test keeps (R287). -/
def returnTags (master : Nat) (keep : Tag → Bool) (d : Dev) : Dev :=
  let gone := d.mov.tags.filter (fun t => t.master == master && !keep t)
  let e := gone.foldl (fun e t => tap 1 t.row 1 t.part e) d
  { e with mov := { e.mov with tags := e.mov.tags.filter (fun t => t.master != master || keep t) } }

/-- Drop transfers of a mover's queue: what is in flight of a first transfer that goes ends, and its tags return. -/
def keepXfers (keep : Xfer → Bool) (n : Nat) (d : Dev) : Dev :=
  let stays := (getMover d n).queue.head?.any keep
  let e := modMover n (fun m => { m with queue := m.queue.filter keep, issued := if stays then m.issued else 0 }) d
  settleLoads (returnTags (0x1C + n) (fun _ => stays) e)

/-- Tags that a transfer done in one step has used: each is taken and returned within the step; how many are held at once is left open
within what the partition may hold (log 147). -/
def passTags (p row granules : Nat) (d : Dev) : Dev :=
  if granules = 0 then d
  else
    let c := draw (tap 1 row 1 p (tap 1 row 0 p d))
    let most := max 1 (tagFloor d.img p row + tagsShared d.img row)
    noteTags row (min (tagsOf row) (tagsHeld d row + 1 + Config.freeNat c.1 % most)) c.2

/-- Granules that accesses of DRAM bring with them: check bytes, under inline ECC, at most one granule of them for each (R289; how many
is left open, log 150). -/
def withChecks (granules : Nat) (d : Dev) : Nat × Dev :=
  if bit (d.img.mem.getD {}).flags 0 then let c := draw d; (granules + Config.freeNat c.1 % (granules + 1), c.2) else (granules, d)

/-- DRAM traffic of a partition's master by class (R289), in granules from an address on; none elsewhere. -/
def countTraffic (a granules : Nat) (write : Bool) (d : Dev) : Dev :=
  if a < 0x1000000000 ∧ granules ≠ 0 then
    let n := withChecks granules d
    modDdr (fun x => if write then { x with write := x.write + n.1 } else { x with read := x.read + n.1 }) n.2
  else d

/-- DRAM traffic of a remote master (R289): its tags are of the remote reserve (R287). -/
def countRemote (a granules : Nat) (d : Dev) : Dev :=
  if a < 0x1000000000 ∧ granules ≠ 0 then let n := withChecks granules d; modDdr (fun x => { x with remote := x.remote + n.1 }) n.2 else d

/-- A remote master writes good data. -/
def remoteStore (a : Nat) (b : Bytes) (d : Dev) : Dev := countRemote a (granulesOf a b.length).length (memStore a b d)

/-- DRAM traffic of a partition's master that touches some granules. -/
def touchGranules (gs : List Nat) (write : Bool) (d : Dev) : Dev :=
  countTraffic 0 (gs.filter (fun g => decide (64 * g < 0x1000000000))).length write d

/-- The device sees an error of a granule: of DRAM under inline ECC alone (R300). -/
def errorSeen (d : Dev) (g : Nat) : Bool := decide (0x1000000000 ≤ 64 * g) || bit (d.img.mem.getD {}).flags 0

/-- Errors that reads of granules meet (R297, R301): a stacked-store or DRAM granule that comes back uncorrectable is poisoned with cause
code 0x11; a corrected word is counted, in DDR_ECC_CORR if it is of DRAM, with 0x10. -/
def readErrors (part : Option Nat) (detail : Nat × Nat) (read uncorrectable corrected : List Nat) (d : Dev) : Dev :=
  let met (l : List Nat) : List Nat := l.filter (fun g => read.contains g && errorSeen d g)
  let d1 := (dedup (met uncorrectable)).foldl (fun e g =>
    if 64 * g < 0x1100000000 then record 0x11 part detail { e with mem := poisonGranules [g] e.mem } else e) d
  (met corrected).foldl (fun e g =>
    record 0x10 part detail (if 64 * g < 0x1000000000 then modDdr (fun x => { x with corr := x.corr + 1 }) e else e)) d1

/-! ### What the DRAM devices hold (R299, R300) -/

/-- Partition that owns the region of an address; 0 where no region holds it (DESIGN CHOICE, log 152). -/
def ownerAt (img : Image) (a : Nat) : Nat := ((regionAt img a).map (fun r => r.part)).getD 0

/-- Tweak of granule g: its address in bits 39 to 6, the owning partition of its region in bits 46 to 40. -/
def dramTweak (img : Image) (g : Nat) : Bytes := le 16 (64 * g + ownerAt img (64 * g) * 2 ^ 40)

/-- Granule g as the DRAM devices hold it: encrypted under the keys of this boot. -/
def dramGranule (d : Dev) (g : Nat) : Bytes := Config.xtsEncrypt d.boot.xtsKeys (dramTweak d.img g) (memRead d.mem (64 * g) 64)

/-- Byte at an address of populated DRAM, as the devices hold it: ciphertext up to the mapped capacity; above it the check byte of each
eight bytes of ciphertext under inline ECC, else the bitmap of poisoned granules. -/
def dramByte (d : Dev) (a : Nat) : Byte :=
  let top := mappedBytes d.img d.boot.mib
  if a < top then (dramGranule d (a / 64)).getD (a % 64) 0
  else
    let k := a - top
    if bit (d.img.mem.getD {}).flags 0 then
      let word := slice (dramGranule d (k / 8)) (k % 8 * 8) 8
      if d.mem.poison.contains (k / 8) then Config.poisonByte word else Config.checkByte word
    else BitVec.ofNat 8 (mapBits 8 (fun i => d.mem.poison.contains (8 * k + i)))

/-- What a read of DRAM decrypts is what was written (R299). -/
theorem dram_decrypts (d : Dev) (g : Nat) :
    Config.xtsDecrypt d.boot.xtsKeys (dramTweak d.img g) (dramGranule d g) = memRead d.mem (64 * g) 64 :=
  (@Config.xts Config.xtsExists).sound _ _ _

/-- A granule in DRAM has its 64 bytes. -/
theorem dram_granule_size (d : Dev) (g : Nat) : (dramGranule d g).length = 64 := by
  show ((@Config.xts Config.xtsExists).enc _ _ _).length = 64
  rw [(@Config.xts Config.xtsExists).size]
  simp [memRead]

/-! ### Copies of the device (R284) -/

/-- Copy a range with its poison; both ranges are granule aligned. -/
def copyRange (src dst n : Nat) (m : Mem) : Mem :=
  let moved := m.cells.filter (fun c => decide (src ≤ c.1) && decide (c.1 < src + n))
  let bad := m.poison.filter (fun g => decide (src / 64 ≤ g) && decide (g < (src + n) / 64))
  let base := memLose m dst n
  { cells := moved.foldl (fun l c => setCell (c.1 - src + dst) c.2 l) base.cells,
    poison := bad.foldl (fun l g => insertNat (g - src / 64 + dst / 64) l) base.poison }

/-- Granules of a range that are poisoned. -/
def poisonedIn (m : Mem) (a granules : Nat) : Nat := (m.poison.filter (fun g => decide (a / 64 ≤ g) && decide (g < a / 64 + granules))).length

/-- A transfer that the device issues itself on behalf of a partition (R284), complete: mover n has moved the granules from one place to
another, with their poison, which it counts (R298), by tags of the rows that serve them (R287), in their DRAM classes (R289). Its places
come from the image, whose acceptance checks them (R282), so that no granule fails its check (R286; DEDUCED, log 156). -/
def deviceXfer (n part src dst granules : Nat) (d : Dev) : Dev :=
  let tags (a : Nat) (write : Bool) (e : Dev) : Dev := match tagRow a n write with | some row => passTags part row granules e | none => e
  let d1 := tags dst true (tags src false d)
  let d2 := countTraffic dst granules true (countTraffic src granules false d1)
  modMover n (fun m => { m with xfers := m.xfers + 1, granules := m.granules + granules, poisoned := addW m.poisoned (poisonedIn d.mem src granules) })
    { d2 with mem := copyRange src dst (granules * 64) d2.mem }

end Sys2Proof.Machine
end

