-- ==== Sys2Proof/Machine/Requests.lean ====
section
/-! DEFINITION. What becomes of a request: lanes and records (R341 to R346, R363, R364, R390), its end, the descriptors it leaves
(R306, R307, R340), and the tiles that end without commit (R152). -/

namespace Sys2Proof.Machine

/-! ### Lanes (Table 14.5) -/

/-- Lane of a T2 or T3 request: session lane, host lane, device lane; a device request that names no stream shares a lane with
those of its tier and partition (DEDUCED, log 15). -/
def laneOf (r : Req) : Nat × Nat × Nat :=
  match r.q.turn with
  | some (n, _) => (2, n, 0)
  | none => if r.q.w.source = 3 then (1, r.tier, r.q.part)
    else if r.q.w.stream = 255 then (3, r.tier, r.q.part) else (0, r.tier, r.q.w.stream)

/-- Lane key of a request. -/
def laneKey (r : Req) : Nat :=
  match r.q.turn with
  | some _ => r.sessKey
  | none => if r.q.w.source = 3 then r.q.arrival else r.q.w.onset

/-- The request of an admission order. -/
def req? (d : Dev) (o : Nat) : Option Req := d.reqs.find? (fun r => r.order == o)

/-- Change a request. -/
def modReq (o : Nat) (f : Req → Req) (d : Dev) : Dev := { d with reqs := d.reqs.map (fun r => if r.order = o then f r else r) }

/-- A request that has been admitted and has not ended. -/
def openReq (d : Dev) (o : Nat) : Bool := d.reqs.any (fun r => r.order == o && r.ended.isNone)

/-- The request stands at the head of its lane: no earlier one of the lane is left (R343). -/
def atHead (d : Dev) (r : Req) : Bool := !(d.reqs.any (fun x => x.order < r.order && x.tier != 1 && laneOf x == laneOf r))

/-! ### Records -/

/-- Bit of record 0x0D02 that a data type stands for (Table 15.15). -/
def typeBit (dtype : Nat) : Nat := dtype - 0x30

/-- Channel of a partition for a data type (R362), with its index. -/
def channelOf (img : Image) (p dtype : Nat) : Option (Nat × Channel) :=
  (img.channels.zipIdx.find? (fun c => c.1.part == p && bit c.1.types (typeBit dtype))).map (fun c => (c.2, c.1))

/-- Header of a record (Table 15.11). -/
def recordHeader (kind flags part tier len stream session key arrival seq stall : Nat) : Bytes :=
  le 1 kind ++ le 1 flags ++ le 1 part ++ le 1 tier ++ le 2 len ++ le 1 stream ++ le 1 session ++ le 6 key ++ zeros 2 ++
    le 4 arrival ++ le 4 seq ++ le 4 stall ++ zeros 4

/-- A record as sent: header, body and tag under R390; seq counts from 0 and its wraps are the generation. The keys of a session that
has closed since are destroyed, and the record is sealed with none (DEDUCED, log 46). -/
def sealRecord (d : Dev) (c : Channel) (session : Option Nat) (keyless : Bool) (hdr body : Bytes) (seq : Nat) : Bytes :=
  let iv := le 1 3 ++ le 1 c.port ++ le 1 c.vc ++ zeros 1 ++ be 4 (seq / 4294967296) ++ be 4 (seq % 4294967296)
  match session with
  | some n => hdr ++ Config.gcmSeal (if keyless then [] else slice (getSession d n).keys 64 32) iv hdr body
  | none => hdr ++ body ++ Config.gcmSeal d.boot.linkKey iv (hdr ++ body) []

/-- What a record says of its request. -/
structure RecMeta where
  flags : Nat := 0
  tier : Nat := 0
  stream : Nat := 255
  session : Option Nat := none
  keyless : Bool := false
  key : Nat := 0
  arrival : Nat := 0
  stall : Nat := 0
  deriving DecidableEq, Repr

/-- Put a record into the output queue of its channel (R364); false when a 0x30 record of a request must wait. A partition that
maps no channel for the data type sends nothing (DESIGN CHOICE, log 16). -/
def enqueueRecord (part : Nat) (o : OutRec) (m : RecMeta) (waits : Bool) (d : Dev) : Bool × Dev :=
  match channelOf d.img part o.dtype with
  | none => (true, d)
  | some (ci, c) =>
    if 256 ≤ (getTx d c.port).queue.length then
      if o.dtype = 0x30 ∧ waits = true then (false, d)
      else (true, record 0x22 (some part) (0, 0) (modTx c.port (fun t => { t with dropped := t.dropped + 1 }) d))
    else
      let n := (tabGet d.host.chans ci {}).seq
      let arrival := if o.kind ≤ 4 then m.arrival else 0
      let flags := m.flags + b2n o.tainted + 4 * b2n m.session.isSome
      let hdr := recordHeader o.kind flags part m.tier o.body.length m.stream (m.session.getD 255) m.key arrival
        (n % 4294967296) m.stall
      let rec_ : TxRec := ⟨ci, o.dtype, sealRecord d c m.session m.keyless hdr o.body n⟩
      let d1 := modTx c.port (fun t => { t with queue := t.queue ++ [rec_] }) d
      let d2 := modHost (fun h => { h with chans := tabMod h.chans ci {} (fun x => { x with seq := x.seq + 1 }) }) d1
      (true, if o.dtype = 0x30 ∧ bit (policyOf d.img part).ibiMask 1 = true then ibi 4 part c.port c.vc d2 else d2)

/-- A record of the device itself, on a channel of a partition: dropped when the queue is full. -/
def emitLoose (part : Nat) (o : OutRec) (d : Dev) : Dev := (enqueueRecord part o {} false d).2

/-- What the records of a request say of it; the last record carries flag [1] and, for Fetch, the stall (R292). -/
def metaOf (r : Req) (last : Bool) : RecMeta :=
  { flags := if last then 2 else 0, tier := r.tier, stream := r.q.w.stream, session := r.q.turn.map (fun t => t.1), keyless := r.keyless,
    key := laneKey r, arrival := r.q.arrival, stall := if last ∧ r.tier = 3 then r.stall else 0 }

/-- Send the records of the request at the head of its lane until its queue is full. -/
def sendRecs (r : Req) : List OutRec → Dev → List OutRec × Dev
  | [], d => ([], d)
  | o :: rest, d =>
    let e := enqueueRecord r.q.part o (metaOf r (r.ended.isSome && rest.isEmpty)) true d
    if e.1 then
      sendRecs r rest (if o.kind = 3 then modSched (fun c => { c with placeholders := c.placeholders + 1 }) e.2 else e.2)
    else (o :: rest, d)

/-- The credit of an ended request goes back (R73); the arbiter accepts it at its next cycle (R76). -/
def creditBack (r : Req) (d : Dev) : Dev := modTier r.tier (fun t => { t with returned := t.returned ++ [(r.q.part, r.shared)] }) d

/-- Walk the requests in order of admission: the head of each lane sends, and a request that has ended and sent all leaves. -/
def pumpReqs : List Req → List (Nat × Nat × Nat) → Dev → List Req × Dev
  | [], _, d => ([], d)
  | r :: rs, held, d =>
    if r.tier = 1 then
      if r.ended.isSome then pumpReqs rs held (creditBack r d)
      else let k := pumpReqs rs held d; (r :: k.1, k.2)
    else if laneOf r ∈ held then let k := pumpReqs rs held d; (r :: k.1, k.2)
    else
      let e := sendRecs r r.recs d
      if r.ended.isSome ∧ e.1 = [] then pumpReqs rs held (creditBack r e.2)
      else let k := pumpReqs rs (laneOf r :: held) e.2; ({ r with recs := e.1 } :: k.1, k.2)

/-- Frames of an instance in every core (R314). -/
def freeFrames (g i : Nat) (d : Dev) : Dev :=
  let hit (f : Nat × Nat × Nat × Nat × Nat) : Bool := f.1 == g && f.2.1 == i
  let e := (d.units.cells.filter (fun c => c.2.frames.any hit)).foldl (fun e c => tap 4 c.1 1 (graphOf d.img g).part e) d
  { e with units := tabMap e.units (fun _ u => { u with frames := u.frames.filter (fun f => !hit f) }) }

/-- The instance of a bound entry is done: its request has left, and every descriptor has retired (R306, R320). -/
def instDone (d : Dev) (k : Nat) (x : GInst) : Bool :=
  let g := graphOf d.img (k / 64)
  let alive := d.sched.live.any (fun y => y.id.graph == k / 64 && y.id.inst == k % 64)
  match x.bound with
  | none => false
  | some o => !alive && (x.cancelled || x.next == g.descriptors) && (isStep g || !(d.reqs.any (fun r => r.order == o)))

/-- Free the instances that are done, with the frames of strands that never ended; the checker of a frozen pool holds them (R333). -/
def sweepInsts (d : Dev) : Dev :=
  (d.sched.insts.cells.filter (fun c => instDone d c.1 c.2 && !frozen d 2 (graphOf d.img (c.1 / 64)).pool)).foldl
    (fun e c => freeFrames (c.1 / 64) (c.1 % 64) (tap 2 (graphOf d.img (c.1 / 64)).pool 1 (graphOf d.img (c.1 / 64)).part
      (modSched (fun s => { s with insts := tabDrop s.insts c.1 }) e))) d

/-- Send what may be sent, let ended requests go, free what they held. -/
def pump (d : Dev) : Dev :=
  let k := pumpReqs d.reqs [] d
  sweepInsts { k.2 with reqs := k.1 }

/-- Token records that complete before the request is at the head of its lane share a record (Table 15.12). -/
def mergeTokens (a b : OutRec) : Option OutRec :=
  let n := u16 a.body 4 + u16 b.body 4
  if a.kind = 2 ∧ b.kind = 2 ∧ n ≤ 16 ∧ bit (u8 a.body 6) 0 = false then
    some { a with body := slice a.body 0 4 ++ le 2 n ++ le 1 (u8 a.body 6 ||| u8 b.body 6) ++ zeros 1 ++ a.body.drop 8 ++ b.body.drop 8,
                  tainted := a.tainted || b.tainted }
  else none

/-- A graph of the request has composed a record. -/
def composeRec (o : Nat) (x : OutRec) (d : Dev) : Dev :=
  modReq o (fun r =>
    match (if atHead d r then none else r.recs.getLast?.bind (fun y => mergeTokens y x)) with
    | some m => { r with recs := r.recs.dropLast ++ [m] }
    | none => { r with recs := r.recs ++ [x], emitted := satAdd 65535 r.emitted 1 }) d

/-- Placeholder body (Table 14.6). -/
def placeholder (r : Req) (cause : Nat) : OutRec :=
  { dtype := 0x30, kind := 3,
    body := le 6 (laneKey r) ++ zeros 2 ++ le 4 r.q.arrival ++ le 1 r.tier ++ le 1 r.q.w.stream ++ le 1 r.q.part ++ le 1 cause ++
      le 2 ((r.q.turn.map (fun t => t.1)).getD 0xFFFF) ++ le 2 r.emitted ++ zeros 12 }

/-! ### Retiring descriptors -/

/-- End the walk of a descriptor and its lock (R256). -/
def dropWalk (x : DescId) (d : Dev) : Dev :=
  let ws := d.kv.walks.filter (fun w => w.d == x)
  let d1 := ws.foldl (fun e w => modKv w.seq (fun k => { k with locks := k.locks - 1 }) e) d
  { d1 with kv := { d1.kv with walks := d1.kv.walks.filter (fun w => w.d != x) } }

/-- Free the frame of a strand (R314). -/
def freeStrand (x : DescId) (strand : Nat) (d : Dev) : Dev :=
  let hit (f : Nat × Nat × Nat × Nat × Nat) : Bool := f.1 == x.graph && f.2.1 == x.inst && f.2.2.1 == strand
  let e := (d.units.cells.filter (fun c => c.2.frames.any hit)).foldl (fun e c => tap 4 c.1 1 (graphOf d.img x.graph).part e) d
  { e with units := tabMap e.units (fun _ u => { u with frames := u.frames.filter (fun f => !hit f) }) }

/-- A descriptor retires (R306): its slot returns, unless the checker of a frozen pool holds it (R333); its walk ends, a strand end frees
the frame, a scan tile its pin. -/
def retire (x : DescId) (d : Dev) : Dev :=
  match desc? d x with
  | none => d
  | some y =>
    let d1 := dropWalk x d
    let d2 := if dEnd y.bytes then freeStrand x (dStrand y.bytes) d1 else d1
    let d3 := if dKind y.bytes = 3 ∧ y.released = true then
        modBlk (dWord y.bytes 0x28 % 65536) (fun b => { b with pins := b.pins - 1 }) d2 else d2
    let pool := (graphOf d.img x.graph).pool
    let d4 := modSched (fun c => { c with live := c.live.filter (fun z => z.id != x) }) d3
    if frozen d 2 pool then modSched (fun c => { c with held := c.held ++ [y] }) d4 else tap 2 pool 1 (dPart y.bytes) d4

/-- Requests that a live descriptor works for: its own, or, when it is not of one slot, every request bound in the step. -/
def ordersOf (d : Dev) (y : Desc) : List Nat :=
  match y.order with
  | some o => [o]
  | none => if dSlotSpecific y.bytes then [] else (getInst d y.id.graph y.id.inst).slots.map (fun s => s.2)

/-- Requests that the missing signal of a retiring descriptor leaves without an end (R340). -/
def orphansOf (x : Desc) (d : Dev) : List Nat :=
  if dSignal x.bytes = 0xFFFF then []
  else
    let k := cellNo d.img x.id.graph x.id.inst (dSignal x.bytes)
    let n := cellCount d k
    let waiting := d.sched.live.filter (fun y => !y.released && y.id != x.id &&
      (waitsOf d y.id y.bytes).any (fun w => w.1 == k && !reached n w.2 && reached (n + 1) w.2))
    (dedup (waiting.flatMap (ordersOf d))).filter (fun o => !(ordersOf d x).contains o && openReq d o)

/-- Cancel the unreleased descriptors of an instance (R307) and stop instantiating; the second result names the requests that
they orphan. -/
def cancelInst (g i : Nat) (d00 : Dev) : Dev × List Nat :=
  let d := if (getInst d00 g i).cancelled then d00 else skipScans g i d00
  let xs := d.sched.live.filter (fun y => y.id.graph == g && y.id.inst == i && !y.released)
  let orphans := dedup (xs.flatMap (fun y => orphansOf y d))
  let d1 := xs.foldl (fun e y => retire y.id e) d
  let d2 := modSched (fun c => { c with cancelled := addW c.cancelled xs.length }) d1
  (modInst g i (fun x => { x with cancelled := true }) d2, orphans)

/-- The slot's remaining descriptors of the step run as though empty (R321). -/
def emptySlot (o : Nat) (d : Dev) : Dev :=
  modSched (fun c => { c with live := c.live.map (fun y =>
    if y.order = some o ∧ y.released = false then { y with bytes := y.bytes.set 14 (BitVec.ofNat 8 (u8 y.bytes 14 ||| 1)) }
    else y) }) d

/-- The ALLOCATE edits that an ended request has queued no longer wait for a page (R339). -/
def dropEdits (o : Nat) (d : Dev) : Dev :=
  { d with kv := { d.kv with seqs := tabMap d.kv.seqs (fun _ k => { k with edits := k.edits.filter (fun e =>
      match e with | .allocate _ _ r => r != o | _ => true) }) } }

/-- End one request with a cause (R73, R344); the second result names the requests that it orphans. A cause of REQUEST severity cancels
the unreleased descriptors of its instance (R307); those of a stopped partition stay until its reset retires them (R325, R326). -/
def endOne (r : Req) (cause : Nat) (orphaned : Bool) (d : Dev) : Dev × List Nat :=
  let tells := r.tier ≠ 1 ∧ (severity cause = 1 ∨ severity cause = 2)
  let d1 := modReq r.order (fun x => { x with ended := some cause, recs := if tells then x.recs ++ [placeholder x cause] else x.recs }) d
  let d2 := match r.q.turn with
    | some (n, _) => modSession n (fun s => { s with busy := false }) d1
    | none => d1
  let d3 := if orphaned then modSched (fun c => { c with orphaned := c.orphaned + 1 }) d2 else d2
  if r.tier = 1 then
    let gone := d3.audio.insts.any (fun p => p.arrival == r.q.arrival)
    ({ d3 with audio := { d3.audio with insts := d3.audio.insts.filter (fun p => p.arrival != r.q.arrival),
                                        errors := d3.audio.errors + (if gone then 1 else 0) } }, [])
  else
    let d4 := dropEdits r.order d3
    match r.slot, r.inst with
    | some _, _ => (emptySlot r.order d4, [])
    | none, some i => if severity cause = 1 ∧ !(getPart d r.q.part).resetting then cancelInst r.q.graph i d4 else (d4, [])
    | none, none => (d4, [])

/-- End requests until no further one is orphaned: entries are order, cause, and whether R340 ends it. -/
def endMany : Nat → List (Nat × Nat × Bool) → Dev → Dev
  | 0, _, d => d
  | _ + 1, [], d => d
  | n + 1, (o, c, b) :: rest, d =>
    match d.reqs.find? (fun r => r.order == o && r.ended.isNone) with
    | none => endMany n rest d
    | some r => let e := endOne r c b d; endMany n (rest ++ e.2.map (fun p => (p, c, true))) e.1

/-- End requests with a cause, and everything that follows from it. -/
def endReqs (os : List Nat) (cause : Nat) (d : Dev) : Dev :=
  pump (endMany (os.length + (d.reqs.length + 1) * (d.reqs.length + 1)) (os.map (fun o => (o, cause, false))) d)

/-- A request ends normally: its last record has been composed (R73). What is left of its slot's descriptors in the step runs as though
empty (R321). -/
def finishReq (o : Nat) (d : Dev) : Dev :=
  let d1 := match req? d o with
    | some r => match r.q.turn with
      | some (n, _) => modSession n (fun s => { s with busy := false }) d
      | none => d
    | none => d
  let d2 := if (req? d o).any (fun r => r.slot.isSome) then emptySlot o d1 else d1
  pump (modReq o (fun r => if r.ended.isNone then { r with ended := some 0 } else r) d2)

/-! ### Tiles that end without commit (Table 6.4) -/

/-- The tile of a core or stem engine, if one is in progress. -/
def tileOf (d : Dev) (u : Nat) : Option Tile := (getUnit d u).tile

/-- Core or stem engine that runs a descriptor. -/
def unitOf (d : Dev) (x : DescId) : Option Nat := (List.range 28).find? (fun u => ((tileOf d u).map (fun t => t.d)) == some x)

/-- Partition of a unit's tile. -/
def tilePart (d : Dev) (u : Nat) : Option Nat := (tileOf d u).map (fun t => dPart (descBytes d t.d))

/-- TRUNCATE edits that take the request's sequences back to their lengths before the step (R293, R321). -/
def truncateBack (o : Nat) (d : Dev) : Dev :=
  match req? d o with
  | some r => r.kvBefore.foldl (fun e k => modKv k.1 (fun q => { q with edits := q.edits ++ [.truncate k.2] }) e) d
  | none => d

/-- End requests with a cause, the first list as a cause ends them, the second as orphans of a missing signal (R340). -/
def endBoth (own orphans : List Nat) (cause : Nat) (d : Dev) : Dev :=
  pump (endMany (own.length + orphans.length + (d.reqs.length + 1) * (d.reqs.length + 1))
    (own.map (fun o => (o, cause, false)) ++ orphans.map (fun o => (o, cause, true))) d)

/-- A released descriptor is aborted: it ends without signalling; its request, or for a shared descriptor of a step every request bound
in the step, ends with the cause, and so do those it orphans (R307, R321, R340). Of an ordinary graph's instance nothing further is
released, whether or not its request is still open. -/
def failDesc (x : DescId) (cause : Nat) (d : Dev) : Dev :=
  match desc? d x with
  | none => d
  | some y =>
    let own := ordersOf d y
    let orphans := orphansOf y d
    let d0 := if y.order.isNone then own.foldl (fun e o => if openReq e o then truncateBack o e else e) d else d
    let d1 := retire x d0
    let c := if isStep (graphOf d.img x.graph) then (d1, []) else cancelInst x.graph x.inst d1
    endBoth own (orphans ++ c.2.filter (fun o => !own.contains o && !orphans.contains o)) cause c.1

/-- A released descriptor is discarded: it retires without signalling. By a partition reset it orphans no request; by any other cause
those that it orphans end with that cause (R340). -/
def discardDesc (x : DescId) (cause : Option Nat) (d : Dev) : Dev :=
  match desc? d x, cause with
  | some y, some c => endBoth [] (orphansOf y d) c (retire x d)
  | _, _ => retire x d

/-- Charge cycles of a tile to its partition on a cluster (R315); a charge that reaches the quota is counted and recorded (R316). -/
def chargeTile (u p n : Nat) (d : Dev) : Dev :=
  let c := clusterOf u
  let now := tabGet (getCluster d c).charge p 0
  let q := quotaOf d.img p
  let d1 := modPart p (fun x => { x with charged := addW x.charged n })
    (modCluster c (fun k => { k with charge := tabMod k.charge p 0 (fun x => x + n) }) d)
  if now < q ∧ q ≤ now + n then record 0x42 (some p) (2, c) (modPart p (fun x => { x with overq := x.overq + 1 }) d1) else d1

/-- Work of a tile that is lost or done again counts in its unit, once (R158): of a commit the cycles so far, else advancing cycles,
bubbles of leashes and of the governor (R147, R421) and gated cell-cycles. How far it came is left open within its span; the counts
agree with each other (R482; log 7). -/
def lostWork (u : Nat) (t : Tile) (d : Dev) : Tile × Dev :=
  if t.counted then (t, d)
  else
    let c1 := draw d
    let c2 := draw c1.2
    let c3 := draw c2.2
    let c4 := draw c3.2
    if t.committing then
      let n := Config.freeNat c1.1 % (t.span.2 + 1)
      ({ t with counted := true, spent := t.spent + n }, modUnit u (fun x => { x with commit := addW x.commit n }) c1.2)
    else
      let adv := Config.freeNat c1.1 % (t.span.1 + 1)
      let bubbles := Config.freeNat c2.1
      let throttle := throttleBubbles (adv + bubbles) t.levels (Config.freeNat c3.1)
      let gated := Config.freeNat c4.1 % (1024 * (adv + bubbles + throttle) + 1)
      ({ t with counted := true, spent := t.spent + adv + bubbles + throttle },
        modUnit u (fun x => { x with
          adv := addW x.adv adv
          bubble := addW x.bubble bubbles
          throttle := addW x.throttle throttle
          gated := addW x.gated ((x.gatedPart + gated) / 256)
          gatedPart := (x.gatedPart + gated) % 256 }) c4.2)

/-- A pre-emption wait on a unit ends (R318): its tile commits, or ends without commit. -/
def endWait (u cycles : Nat) (d : Dev) : Dev :=
  if (getUnit d u).preempt then
    modSched (fun c => { c with preemptMax := w32 (max c.preemptMax.toNat cycles) })
      (modUnit u (fun x => { x with preemptWait := w32 (max x.preemptWait.toNat cycles) }) d)
  else d

/-- Charge a tile that ends without commit (R315): the cycles that its unit has counted, and, where a hard stop has held it, those of the
hold, which are left open (log 7). A pre-emption wait ends with it; how much of these cycles it took is left open. -/
def chargeLost (u : Nat) (t : Tile) (d : Dev) : Dev :=
  let c1 := draw d
  let c2 := draw c1.2
  let total := max t.charged (t.spent + if t.halted then Config.freeNat c1.1 else 0)
  endWait u (Config.freeNat c2.1 % (total + 1)) (chargeTile u (dPart (descBytes d t.d)) (total - t.charged) c2.2)

/-- Count and charge the work of a tile that ends without commit. -/
def endWork (u : Nat) (t : Tile) (d : Dev) : Dev := let e := lostWork u t d; chargeLost u e.1 e.2

/-- The tile leaves the unit. -/
def clearTile (u : Nat) (d : Dev) : Dev := modUnit u (fun x => { x with tile := none }) d

/-- A tile is aborted: counted, its destination poisoned when the commit had begun, its request ended. -/
def abortTile (u cause : Nat) (d : Dev) : Dev :=
  match tileOf d u with
  | none => d
  | some t =>
    let d1 := modUnit u (fun x => { x with abort := x.abort + 1 }) (endWork u t d)
    let d2 := if t.committing then poisonDest t.d t.pages d1 else d1
    failDesc t.d cause (clearTile u d2)

/-- A tile is discarded by a partition reset or, with a cause, by a muzzle or a cluster reset: counted, its destination poisoned when
the commit had begun. -/
def discardTile (u : Nat) (cause : Option Nat) (d : Dev) : Dev :=
  match tileOf d u with
  | none => d
  | some t =>
    let d1 := modUnit u (fun x => { x with discard := x.discard + 1 }) (endWork u t d)
    let d2 := if t.committing then poisonDest t.d t.pages d1 else d1
    discardDesc t.d cause (clearTile u d2)

/-- Discard every tile of a partition. -/
def discardPart (p : Nat) (cause : Option Nat) (d : Dev) : Dev :=
  (List.range 28).foldl (fun e u => if tilePart e u = some p then discardTile u cause e else e) d

/-- Open requests of a partition, in order of admission. -/
def ordersOfPart (d : Dev) (p : Nat) : List Nat := (d.reqs.filter (fun r => r.q.part == p && r.ended.isNone)).map (fun r => r.order)

end Sys2Proof.Machine
end

