-- ==== Sys2Proof/Machine/Reset.lean ====
section
/-! DEFINITION. Status words that the error log carries, the device-written regions (R63 to R67, R443), the resets of Table 18.6,
boot failure (R53) and DEVICE-severity errors (R55). -/

namespace Sys2Proof.Machine

/-! ### Words of the status space that a snapshot carries -/

/-- ERR_STATUS (Table 19.10). -/
def errStatusWord (e : Err) : Word :=
  pack [(16, 7, (errUsed e).length), (3, 1, b2n e.overSet), (1, 2, errHighest e), (0, 1, b2n !(errUsed e).isEmpty)]

/-- ERR_FIRST_CAUSE. -/
def errFirstCause (e : Err) : Word :=
  match e.first with
  | none => 0
  | some f => pack [(31, 1, 1), (30, 1, b2n f.injected), (28, 2, severity f.cause), (8, 8, f.cause), (7, 1, b2n f.part.isSome),
      (0, 7, f.part.getD 0)]

/-- ERR_FIRST_DETAIL. -/
def errFirstDetail (e : Err) : Word :=
  match e.first with
  | none => 0
  | some f => pack [(24, 8, f.detail.1), (0, 24, f.detail.2)]

/-- ERR_FIRST_ADDR_LO and ERR_FIRST_ADDR_HI. -/
def errFirstAddr (e : Err) : Word × Word :=
  match e.first.bind (fun f => f.addr) with
  | none => (0, 0)
  | some a => (BitVec.ofNat 32 a, pack [(31, 1, 1), (0, 8, a / 4294967296)])

/-- ERR_ENTRY_e_A. -/
def errEntryA (x : ErrEntry) : Word :=
  if x.used then pack [(31, 1, 1), (30, 1, b2n x.injected), (28, 2, severity x.cause), (8, 8, x.cause)] else 0

/-- ERR_ENTRY_e_B. -/
def errEntryB (x : ErrEntry) : Word :=
  if x.used then pack [(16, 16, x.count), (15, 1, b2n x.part.isSome), (8, 7, x.part.getD 0)] else 0

/-- A signed 8-bit temperature as a field. -/
def temp8 (t : Int) : Nat := (t % 256).toNat

/-- Some cluster domain is powered: the compute die is. -/
def computeOn (d : Dev) : Bool := d.power.clusters != 0

/-- PWR_TEMP (Table 18.10). -/
def pwrTempWord (d : Dev) : Word :=
  pack [(8, 8, temp8 d.power.base), (0, 8, if computeOn d then temp8 d.power.compute else 0)]

/-- PWR_POINT (Table 18.10). -/
def pwrPointWord (d : Dev) : Word :=
  pack [(30, 2, d.power.point), (28, 2, d.power.thermal), (24, 4, d.power.level), (0, 11, d.power.rail)]

/-! ### Device-written regions -/

/-- A copy is valid: its kind, its length, its CRC (R64). -/
def copyValid (kind erase : Nat) (c : Copy) : Bool :=
  c.kind == kind && decide (c.len + 32 ≤ erase) && c.len == c.payload.length && c.crc == (crc32 c.payload).toNat

/-- The newer of two sequences is the first (R64: also when they are equal or differ by 2³¹). -/
def firstNewer (s t : Nat) : Bool :=
  let k := (s + 4294967296 - t) % 4294967296
  k == 0 || (decide (1 ≤ k) && decide (k ≤ 2147483648))

/-- The copy in force of a region, if one is valid: true for copy A (R64). -/
def newestCopy (kind erase : Nat) (a b : Copy) : Option Bool :=
  match copyValid kind erase a, copyValid kind erase b with
  | true, true => some (firstNewer a.seq b.seq)
  | true, false => some true
  | false, true => some false
  | false, false => none

/-- Erase-block size in bytes (Table 2.12). -/
def eraseBytes (d : Dev) : Nat := d.boot.policy.eraseKib * 1024

/-- Copies of the error-log region (true) or of the margin-plan region (false). -/
def copiesOf (log : Bool) (f : Flash) : Copy × Copy := if log then (f.logA, f.logB) else (f.planA, f.planB)

/-- Put a copy: region, copy A or B, contents. -/
def putCopy (log isA : Bool) (c : Copy) (f : Flash) : Flash :=
  match log, isA with
  | true, true => { f with logA := c }
  | true, false => { f with logB := c }
  | false, true => { f with planA := c }
  | false, false => { f with planB := c }

/-- The copy that a write takes (R65: invalid or older; copy A when neither is valid, DEDUCED log 17) and its header; the
first write of all has sequence number 0 (DESIGN CHOICE, log 124). -/
def writeTarget (log : Bool) (payload : Bytes) (d : Dev) : Bool × Copy :=
  let kind := if log then 2 else 1
  let cs := copiesOf log d.flash
  let newest := newestCopy kind (eraseBytes d) cs.1 cs.2
  let tgt := match newest with | some true => false | _ => true
  let seq := match newest with | some true => (cs.1.seq + 1) % 4294967296 | some false => (cs.2.seq + 1) % 4294967296 | none => 0
  (tgt, ⟨kind, seq, payload.length, (crc32 payload).toNat, payload⟩)

/-- A command as the flash gets it in the image's mode (R37): the opcode, followed by its inverse in 8S-8S-8S and 8D-8D-8D. -/
def xspiBytes (h : ImgHeader) (op : Nat) : Bytes :=
  let b := BitVec.ofNat 8 op
  if h.mode = 0 then [b] else [b, ~~~b]

/-- The command bytes last sent after a command whose opcode may be unknown. -/
def sentFor (h : ImgHeader) (op : Option Nat) (old : Bytes) : Bytes := match op with | some o => xspiBytes h o | none => old

/-- A read of the flash in the image's mode. -/
def sendRead (d : Dev) : Dev := modBoot (fun b => { b with sent := xspiBytes d.img.header d.img.header.readOp }) d

/-- Start a write: the copy is erased first (R65), so a reset in its course leaves the other copy in force (R66). -/
def startWrite (log : Bool) (payload : Bytes) (d : Dev) : Dev :=
  let t := writeTarget log payload d
  modFlash (fun f => { putCopy log t.1 {} f with writing := some (log, t.1, t.2) }) (modBoot (fun b => { b with
    sent := sentFor d.img.header ((b.erase.find? (fun e => e.1 == b.policy.eraseKib)).map (fun e => e.2)) b.sent }) d)

/-- The write in progress ends well. -/
def landWrite (d : Dev) : Dev :=
  match d.flash.writing with
  | some (log, isA, c) => modFlash (fun f => { putCopy log isA c f with writing := none }) d
  | none => d

/-- Error-log snapshot payload (Table 19.3). -/
def snapshotBytes (reason : Nat) (d : Dev) : Bytes :=
  le 2 1 ++ le 1 reason ++ le 1 d.boot.attempts ++ le 4 d.power.cause ++ le 8 d.img.imageId ++ le 4 (errStatusWord d.err).toNat ++
    le 4 (errFirstCause d.err).toNat ++ le 4 (errFirstDetail d.err).toNat ++ le 4 (errFirstAddr d.err).1.toNat ++
    le 4 (errFirstAddr d.err).2.toNat ++ le 4 d.err.overflow.toNat ++ le 4 d.age.retired.toNat ++ le 4 (pwrTempWord d).toNat ++
    le 4 (pwrPointWord d).toNat ++
    (List.range 64).flatMap (fun i => let x := tabGet d.err.entries i {}; le 4 (errEntryA x).toNat ++ le 4 (errEntryB x).toNat)

/-- An owner's snapshot write (R67): at once, or merged into the next one that the spacing allows. -/
def ownerSnapshot (d : Dev) : Dev :=
  if d.flash.spacing = true ∨ d.flash.writing.isSome = true then modFlash (fun f => { f with logDue := some 2 }) d
  else modFlash (fun f => { f with spacing := true }) (startWrite true (snapshotBytes 2 d) d)

/-- The write in progress ends with its read-back (R65): it stands, or the read-back differs, 0xA7 is recorded and the copy stands
as an invalid one (DEDUCED, log 37). -/
def endWrite (same : Bool) (d : Dev) : Dev :=
  if same then landWrite d else info 0xA7 (modFlash (fun f => { f with writing := none }) d)

/-- The write in progress, if any, ends before the device goes on; whether its read-back matches is open (log 17). -/
def awaitWrite (d : Dev) : Dev :=
  if d.flash.writing.isNone then d else let r := draw d; endWrite (Config.freeBool r.1) r.2

/-- The snapshot on a DEVICE-severity error, made before the device halts or resets (R67): a write in progress ends first, and this
one ends too (DEDUCED, log 17). The spacing runs from it as from every write. -/
def deviceSnapshot (d : Dev) : Dev :=
  if d.boot.policyOk then
    modFlash (fun f => { f with spacing := true }) (awaitWrite (startWrite true (snapshotBytes 1 d) (awaitWrite d)))
  else d

/-- Write the margin plan (R67): after a write in progress. -/
def planWrite (payload : Bytes) (d : Dev) : Dev :=
  if d.flash.writing.isSome then modFlash (fun f => { f with planDue := some payload }) d else startWrite false payload d

/-! ### The ISP and CSI domain -/

/-- Frames of the full receiver that have opened and are not yet described. -/
def undescribed (c : Camera) : List RawFrame :=
  c.streams.cells.filterMap (fun s => s.2.openFrame) ++ c.pipe0 ++ c.queue ++ c.pipe1.toList

/-- Count a dropped frame (R124, R135): CSI_STR_s_DROPPED, ISP_PIPE1_DROPPED for a pipe-1 frame, cause code 0x5D. -/
def dropFrame (s : Nat) (d : Dev) : Dev :=
  let pipe1 := (camRec? d.img s).any (fun r => r.pipe == 1)
  let d1 := modStream s (fun x => { x with dropped := x.dropped + 1 }) d
  record 0x5D (streamOwner d.img s) (3, s) (modCam (fun c => { c with dropped := c.dropped + (if pipe1 then 1 else 0) }) d1)

/-! ### Output slots (R125, R481) -/

/-- Tensor output of a stream. -/
def outOf (img : Image) (s : Nat) : Option TensorOut := img.outs.find? (fun o => o.stream == s)

/-- Planes of an output format. -/
def planesOf (o : TensorOut) : Nat := if o.format = 0 then 3 else if o.format = 1 then 1 else 4

/-- Bytes of a frame's tiles. -/
def tileBytes (o : TensorOut) : Nat := ceilDiv o.outW 32 * ceilDiv o.outH 32 * planesOf o * 1024

/-- Length of a frame slot. -/
def slotBytes (o : TensorOut) : Nat := tileBytes o + (if bit o.flags 1 then 5184 else 0) + 64

/-- Slots of a stream's output region. -/
def slotCount (img : Image) (o : TensorOut) : Nat := ((region? img o.region).getD {}).pages * 4096 / slotBytes o

/-! ### Settings blocks that end (R132) -/

/-- Stream that a sensor serves: where several records name one sensor, the first of them (DESIGN CHOICE, log 127). -/
def sensorStream (img : Image) (n : Nat) : Option CamRec := img.cams.find? (fun r => r.sensor == n)

/-- Flag a frame that is not described yet with settings_missed (R132). -/
def markMissed (stream number : Nat) (d : Dev) : Dev :=
  let f (x : RawFrame) : RawFrame := if x.stream = stream ∧ x.number = number then { x with missed := true } else x
  modCam (fun c => { c with
    streams := tabMap c.streams (fun _ s => { s with openFrame := s.openFrame.map f })
    pipe0 := c.pipe0.map f, queue := c.queue.map f, pipe1 := c.pipe1.map f }) d

/-- Slots of a stream's output ring and the place of frame f's descriptor (R481). -/
def descPlace (img : Image) (o : TensorOut) (f : Nat) : Nat :=
  regionBase img o.region + (f % max 1 (slotCount img o) + 1) * slotBytes o - 64

/-- Flag a frame whose descriptor stands in its slot already. -/
def flagMissed (stream number : Nat) (d : Dev) : Dev :=
  match outOf d.img stream with
  | none => d
  | some o =>
    let a := descPlace d.img o number
    let b := memRead d.mem a 16
    if u64 b 8 = number ∧ u8 b 0 = stream then remoteStore (a + 1) (le 1 (u8 b 1 ||| 32)) d else d

/-- The flag of a missed block: in the frame while the pipeline has it, else in its descriptor. -/
def markFrame (r : CamRec) (m : Nat) (d : Dev) : Dev :=
  if (undescribed d.cam).any (fun f => f.stream == r.stream && f.number == m) then markMissed r.stream m d else flagMissed r.stream m d

/-- A block has missed the blanking window (R132). -/
def missBlock (r : CamRec) (m : Nat) (d : Dev) : Dev :=
  record 0x53 (streamOwner d.img r.stream) (3, r.stream) (modStream r.stream (fun s => { s with setMiss := s.setMiss + 1 }) (markFrame r m d))

/-- A block ended well: it applies from M + L; M after N has missed the blanking window (R132). -/
def applyBlock (n id from_ m : Nat) (d : Dev) : Dev :=
  match sensorStream d.img n with
  | none => d
  | some r =>
    let d1 := modSensor n (fun s => { s with nack := false, applied := (m + r.latency, id) :: s.applied }) d
    if m = from_ then d1 else missBlock r m d1

/-- A block held for the opening of a stream's frame is settled with the last frame of the stream. -/
def settleHeld (r : CamRec) (d : Dev) : Dev :=
  match (getSensor d r.sensor).held with
  | some h => applyBlock r.sensor h.1 h.2 (getStream d r.stream).frame (modSensor r.sensor (fun s => { s with held := none }) d)
  | none => d

/-- Blocks held for frames that can no longer open are settled: those of the streams named. -/
def settleBlocks (p : CamRec → Bool) (d : Dev) : Dev := (d.img.cams.filter p).foldl (fun e r => settleHeld r e) d

/-- The frames in the receivers and pipes are lost and counted. -/
def loseFrames (d : Dev) : Dev :=
  let lost := dedup ((undescribed d.cam).filter (fun f => !f.dropped)
    |>.filter (fun f => !((camRec? d.img f.stream).any (fun r => r.pipe == 2)))
    |>.map (fun f => (f.stream, f.number)))
  lost.foldl (fun e f => dropFrame f.1 e) d

/-- The camera without the ISP and CSI domain. -/
def camOff (img : Image) (c : Camera) : Camera :=
  { c with
    rx := {}, pipe0 := [], places := 0, queue := [], pipe1 := none,
    streams := tabMap c.streams (fun s x =>
      if (camRec? img s).any (fun r => r.pipe != 2) then { x with openFrame := none, state := if x.state = 1 then 2 else x.state }
      else x) }

/-- The ISP and CSI domain powers down (R135). -/
def ispDown (d : Dev) : Dev :=
  let e := loseFrames (settleBlocks (fun r => r.pipe != 2) d)
  { e with cam := camOff e.img e.cam, power := { e.power with isp := false } }

/-! ### Resets (Table 18.6) -/

/-- The camera after a reset of the ISP and CSI domain: stream table, counters and settings blocks stay (Table 18.1, R135), also one
that is being sent, which nothing stops part-way (R131); frames and references are gone. -/
def camKept (c : Camera) : Camera :=
  { c with streams := tabMap c.streams (fun _ s => { s with openFrame := none, ref := none, heldBufs := 0 }), rx := {}, pipe0 := [], places := 0,
           queue := [], pipe1 := none }

/-- Key-value state after a reset: the counters of R275 stay. -/
def kvKept (k : Kv) : Kv := { edits := k.edits, editWait := k.editWait, direct := k.direct, directFirst := k.directFirst, directOld := k.directOld }

/-- Scheduler state after a reset: the registers of R328 and R347 stay, partitions run. -/
def schedKept (c : Sched) : Sched :=
  { c with insts := {}, live := [], cells := {}, remote := [], steps := {},
           parts := tabMap c.parts (fun _ p => { charged := p.charged, overq := p.overq }),
           go := false, frozen := [], held := [] }

/-- Host interfaces after a reset of device scope that leaves the always-on domain: no session survives, output queues are
empty, record numbers restart; address, ENEC state, interrupts and counters stay (R349, R369, R389). -/
def hostKept (h : HostPort) : HostPort :=
  { h with sessions := tabMap h.sessions (fun _ s => { fails := s.fails }), cur := none,
           tx := tabMap h.tx (fun _ t => { records := t.records, dropped := t.dropped, held := t.held }),
           chans := {}, telemetry := 0, spacing := false, kenLate := false }

/-- Power state after such a reset: every switched domain off, the boot point in force (R418), counters kept. -/
def powerKept (p : Power) : Power :=
  { p with clusters := 0, dram := false, isp := false, sup := false, perk := false, banks := 0, lost := [], point := 2, level := 0,
           rail := 650, changing := none, backed := false, calm := 0, high := 0, low := 0, means := [], mean := 0, raising := false }

/-- Boot state after such a reset; a halted device keeps what the report shows of its image. -/
def bootKept (b : Boot) : Boot :=
  { attempts := b.attempts, phase := b.phase, failCause := b.failCause, failKind := b.failKind, failEntry := b.failEntry,
    failSeg := b.failSeg, corrected := b.corrected, reached := b.reached, failedResets := b.failedResets, straps := b.straps,
    retries := b.retries, policyOk := b.policyOk, policy := b.policy, step := b.step }

/-- Drop everything outside the always-on domain and the Kennel: a device-initiated reset, a boot retry, a halt. The ISP and CSI
domain goes down as R135 says. -/
def dropDomains (d0 : Dev) : Dev :=
  let d := settleBlocks (fun _ => true) (if d0.power.isp then ispDown d0 else d0)
  { d with boot := bootKept d.boot, img := {},
           err := { d.err with armed := none },
           flash := { d.flash with writing := none, planDue := none, logDue := none },
           reqs := [],
           tiers := tabMap d.tiers (fun _ t => { t with held := {}, sharedHeld := 0, returned := [], idle := false }),
           audio := { d.audio with insts := [], turn := none, thumbs := {}, sram := {} },
           cam := camKept d.cam, units := {},
           clusters := tabMap d.clusters (fun _ c => { epoch := c.epoch }),
           cats := {}, seqs := {}, blks := {}, kv := kvKept d.kv, mem := {}, mov := { ddr := d.mov.ddr },
           sched := schedKept d.sched, host := hostKept d.host, power := powerKept d.power,
           age := { d.age with guard := [20, 20, 20], avail := 0, tests := [], testing := none, busy := false, bank := none,
                               injected := false, loaded := false } }

/-- Start a boot attempt at step 3, step 2 of the ROM being due (R57, R372). -/
def beginBoot (d : Dev) : Dev :=
  setPhase 0 { d with
    boot := { d.boot with attempts := satAdd 255 d.boot.attempts 1, step := .sfdp, romDue := true, policyOk := false,
                          sniff := false, point := false, fetch := false, trained := false, accepted := false, verified := false }
    power := { d.power with sup := true } }

/-- A device-initiated reset: kind is its bit of PWR_RESET_CAUSE (R55, R380, R424). It counts no FIFO as resynchronised (DESIGN CHOICE,
log 162). -/
def deviceReset (kind : Nat) (hot : Bool) (d : Dev) : Dev :=
  let d1 := dropDomains d
  let d2 := { d1 with power := { d1.power with cause := kind }, boot := { d1.boot with retries := 0 } }
  if hot then setPhase 0 { d2 with boot := { d2.boot with step := .cooling } } else beginBoot d2

/-- Enter the halted state (R54). It clears DEV_CORE_AVAIL as a reset of device scope does (DESIGN CHOICE, log 125). DEV_BOOT_STATE
keeps dram_trained, and the report what it shows of the header (log 18). -/
def haltDevice (d : Dev) : Dev :=
  let d1 := dropDomains d
  setPhase 15 { d1 with
    boot := { d1.boot with step := .halted, trained := d.boot.trained, digest := d.boot.digest, verified := d.boot.verified,
                           salt := d.boot.salt, linkKey := d.boot.linkKey, xtsKeys := d.boot.xtsKeys }
    img := { header := d.img.header, imageId := d.img.imageId, fwVersion := d.img.fwVersion, fwDigest := d.img.fwDigest }
    power := { d1.power with lost := d.power.lost } }

/-- A boot has failed (R53): a retry, while the boot policy record that has passed validation leaves one, or the halted state. -/
def bootEnds (sup : Bool) (d : Dev) : Dev :=
  if d.boot.policyOk = true ∧ d.boot.retries < d.boot.policy.retries then
    beginBoot (let e := dropDomains d; { e with boot := { e.boot with retries := e.boot.retries + 1 } })
  else haltDevice (if sup then deviceSnapshot d else d)

/-- What a DEVICE-severity code does once recorded (R434): before the running phase has been reached, R53; after it, R55. sup
says that the supervisor's clock still runs, so that a snapshot is written (R67, R417). -/
def deviceError (hot sup : Bool) (d : Dev) : Dev :=
  if d.boot.step = .halted then d
  else if d.boot.reached then
    let d1 := if sup then deviceSnapshot d else d
    if d.boot.policy.errorAction = 1 ∧ d.boot.failedResets < 3 then
      deviceReset 8 hot { d1 with boot := { d1.boot with failedResets := d1.boot.failedResets + 1 } }
    else haltDevice d1
  else bootEnds sup d

/-- A boot check fails (R53): DEV_BOOT_FAIL, the error record, then a retry or the halted state. kind 1 names a blob entry. -/
def bootFail (cause kind entry seg : Nat) (d : Dev) : Dev :=
  let d1 := { d with boot := { d.boot with failCause := cause, failKind := kind, failEntry := entry, failSeg := seg } }
  bootEnds true (info cause d1)

/-- Segment number of a failure that names none. -/
def noSeg : Nat := 0xFFFFFFFF

/-- Entry number of a failure that names none. -/
def noEntry : Nat := 0x7FFF

/-- Power-on, PORST_N or the supervisor watchdog: every domain except the Kennel (R428). The attached flash keeps its copies, and
the spacing of error-log writes goes on (DEDUCED, log 17). -/
def fullReset (d : Dev) : Dev :=
  { flash := { planA := d.flash.planA, planB := d.flash.planB, logA := d.flash.logA, logB := d.flash.logB, spacing := d.flash.spacing, resetN := d.flash.resetN }
    freeCtr := d.freeCtr }

/-- The watchdog's reset keeps the straps, DEV_BOOT_FAIL and the counts that only power-on and PORST_N clear, and boots. -/
def watchdogReset (d : Dev) : Dev :=
  let r := fullReset d
  beginBoot { r with
    boot := { r.boot with straps := d.boot.straps, failCause := d.boot.failCause, failKind := d.boot.failKind,
                          failEntry := d.boot.failEntry, failSeg := d.boot.failSeg, attempts := d.boot.attempts,
                          corrected := d.boot.corrected, failedResets := d.boot.failedResets }
    power := { r.power with cause := 4, xtal := true, fll := true } }

/-- A DEVICE-severity code is recorded and takes effect. -/
def deviceCause (c : Nat) (part : Option Nat) (detail : Nat × Nat) (d : Dev) : Dev := deviceError false true (record c part detail d)

end Sys2Proof.Machine
end

