-- ==== Sys2Proof/Machine/Domains.lean ====
section
/-! DEFINITION. Power domains (R411 to R414, R88, R135, R278, R279) and the clocks that follow from them (R415, R417). -/

namespace Sys2Proof.Machine

/-- Boot is running: from PORST_N rising to the running phase. -/
def booting (d : Dev) : Bool :=
  match d.boot.step with
  | .held | .cooling | .running | .halted => false
  | _ => true

/-- camera_always_on of the image (Table 5.5). -/
def cameraAlwaysOn (d : Dev) : Bool := d.boot.accepted && d.img.rxPorts.any (fun r => bit r.flags 2)

/-- Credits of a tier held by requests or on their way back. -/
def creditsHeld (d : Dev) (t : Nat) : Bool :=
  d.reqs.any (fun r => r.tier == t) || !(getTier d t).returned.isEmpty

/-- The tier is idle: every credit free, queues and pending slots empty (R88). -/
def tierIdle (d : Dev) (t : Nat) : Bool :=
  !creditsHeld d t && (getTier d t).pending.isEmpty && (List.range 4).all (fun p => (tabGet (getTier d t).queues p []).isEmpty)

/-- The Perk domain must be powered (Table 18.1). -/
def perkNeeded (d : Dev) : Bool := creditsHeld d 1 || d.power.sup || (d.boot.accepted && d.img.cams.any (fun c => c.pipe == 2))

/-- A transfer that the device issues itself by a mover that the manual does not name (R284; DESIGN CHOICE, log 109). -/
def freeXfer (part src dst granules : Nat) (d : Dev) : Dev :=
  let c := draw d
  deviceXfer (Config.freeNat c.1 % 4) part src dst granules c.2

/-! ### State blocks (R237 to R243) -/

/-- An element of a block holds poison: it is listed, or its granule is poisoned in memory for another reason. -/
def elemPoisoned (d : Dev) (b n : Nat) : Bool :=
  let l := (getBlk d b).poison
  l.contains n || (poisonedAt d.mem (elemAddr d b n) && !l.any (fun k => k / 16 == n / 16))

/-- Write consecutive elements of a block; a granule is marked poisoned while an element of it is. -/
def storeElems (b first : Nat) (l : List (Word × Bool)) (d : Dev) : Dev :=
  let lo := first / 16 * 16
  let near := (List.range (ceilDiv (first + l.length) 16 * 16 - lo)).map (fun i => lo + i)
  let bad := near.filter (fun n => if first ≤ n ∧ n < first + l.length then (l.getD (n - first) (0, false)).2 else elemPoisoned d b n)
  let granules (ns : List Nat) : List Nat := dedup (ns.map (fun n => elemAddr d b n / 64))
  let m := cleanGranules (granules near) (memWrite d.mem (elemAddr d b first) (l.flatMap (fun e => le 4 e.1.toNat)))
  modBlk b (fun x => { x with poison := x.poison.filter (fun n => !near.contains n) ++ bad }) { d with mem := poisonGranules (granules bad) m }

/-- Poison elements of a block. -/
def poisonElems (b : Nat) (ns : List Nat) (d : Dev) : Dev :=
  { modBlk b (fun x => { x with poison := x.poison ++ ns.filter (fun n => !x.poison.contains n) }) d with
    mem := poisonGranules (dedup (ns.map (fun n => elemAddr d b n / 64))) d.mem }

/-- Poison a whole block. -/
def poisonBlk (b : Nat) (d : Dev) : Dev := poisonElems b (List.range (blkRec d.img b).count) d

/-- Partition of a state block. -/
def blkPart (img : Image) (b : Nat) : Nat := ((seqRec? img (blkRec img b).seq).getD {}).part

/-- A mover moves a block to another of its places, with its poison (R241, R284). -/
def moveBlk (n b place : Nat) (d : Dev) : Dev :=
  modBlk b (fun x => { x with place := place, moving := false })
    (deviceXfer n (blkPart d.img b) (blkAddr d b) (blkAt d b place) (blkBytes (blkRec d.img b) / 64) d)

/-- Initial state h0 of an element of an operator (R237). -/
def initState (d : Dev) (o : ScanOp) (n : Nat) : Word :=
  if bit o.flags 0 then BitVec.ofNat 32 (u32 (blobBytes d o.initBlob) (4 * n)) else 0

/-- Put a block into its first state, wherever it lies (R237, R244): chunks 0, every element h0. -/
def initBlk (b : Nat) (d : Dev) : Dev :=
  let r := blkRec d.img b
  let o := scanOf d.img r.scan
  let d1 := modBlk b (fun x => { x with chunks := 0, slices := [], poison := [] }) d
  storeElems b 0 ((List.range r.count).map (fun n => (initState d o (r.first + n), false))) (writeBlkHeader b d1)

/-! ### Stacked-store banks -/

/-- First address of bank b (R278). -/
def bankBase (b : Nat) : Nat := 0x1000000000 + b * 0x200000

/-- Regions that move to DRAM and back: stacked-store regions with a backing region (R279, R282). -/
def backedRegions (img : Image) : List (Region × Region) :=
  img.regions.filterMap (fun r => if r.backing = 0 then none else (region? img r.backing).map (fun b => (r, b)))

/-- retain_mask (Table 12.7). -/
def retainMask (img : Image) : Nat := (img.mem.getD {}).retainMask

/-- Some byte of a range lies in a bank that powers down. -/
def bankLost (img : Image) (a n : Nat) : Bool :=
  (List.range 48).any (fun b => !bit (retainMask img) b && decide (a < bankBase b + 0x200000) && decide (bankBase b < a + n))

/-- State blocks in their stacked-store homes of which a bank powers down go to their DRAM homes first (R239). -/
def spillOut (d : Dev) : Dev :=
  (d.img.blocks.filter (fun r => (getBlk d r.id).place == 1 && bankLost d.img (blkAddr d r.id) (blkBytes r))).foldl
    (fun e r => let c := draw e; moveBlk (Config.freeNat c.1 % 4) r.id 2 c.2) d

/-- Backed regions are copied to their backing regions, or back, as transfers (R279, R284). -/
def copyBacked (back : Bool) (d : Dev) : Dev :=
  modPower (fun p => { p with backed := !back }) ((backedRegions d.img).foldl (fun e p =>
    if back then freeXfer p.1.part p.2.base p.1.base (p.1.pages * 64) e else freeXfer p.1.part p.1.base p.2.base (p.1.pages * 64) e) d)

/-- The banks outside retain_mask power down: backed regions are copied, spilled state blocks move to DRAM, window slots stop
being present, contents are lost. -/
def banksDown (d0 : Dev) : Dev :=
  let d := spillOut (copyBacked false d0)
  let keep := retainMask d.img
  let m2 := (List.range 48).foldl (fun m b => if bit keep b then m else memLose m (bankBase b) 0x200000) d.mem
  let lostSlot (w : Nat) (s : Nat) : Bool :=
    match d.img.windows.find? (fun r => r.window == w) with
    | some r => let a := regionBase d.img r.windowRegion + s * r.slotBytes - 0x1000000000
      (List.range (r.slotBytes / 0x200000 + 2)).any (fun k => !bit keep (a / 0x200000 + k) && decide (a / 0x200000 + k ≤ (a + r.slotBytes - 1) / 0x200000))
    | none => false
  { d with
    mem := m2
    mov := { d.mov with wins := tabMap d.mov.wins (fun w x => { x with slots := ⟨x.slots.cells.filter (fun s => !lostSlot w s.1)⟩ }) }
    power := { d.power with banks := 0 } }

/-- The banks become active, and backed regions that were copied out at their power-down are copied back (R279). -/
def banksUp (d : Dev) : Dev :=
  let e := if d.power.backed then copyBacked true d else d
  { e with power := { e.power with banks := BitVec.allOnes 48 } }

/-! ### Clusters -/

/-- Drop the latched words of a window range. -/
def dropLatches (lo n : Nat) (d : Dev) : Dev :=
  { d with latches := ⟨d.latches.cells.filter (fun c => decide (c.1 < lo) || decide (lo + n ≤ c.1))⟩ }

/-- Cluster-domain state at its power-up or reset: counters cleared, caches and look-aside buffers empty (R158, R184, R206, R226,
R248, R275, R303, R313). Latched words of the cluster go with it. -/
def clearCluster (n : Nat) (d : Dev) : Dev :=
  let us := tabMap d.units (fun u x => if clusterOf u = n then {} else x)
  let d1 := { d with
    units := us
    clusters := tabMod d.clusters n {} (fun c => { epoch := c.epoch, measureDue := c.measureDue, entered := c.entered })
    mov := { d.mov with
      movers := tabMod d.mov.movers n {} (fun m => { queue := m.queue, issued := m.issued })
      wins := tabMap d.mov.wins (fun w x => if (d.img.windows.any (fun r => r.window == w && r.home == n)) = true then
        { x with loads := 0, stall := 0, late := 0, failed := 0 } else x) } }
  let d2 := if n = 0 then { d1 with
      cats := tabMap d1.cats (fun _ c => { c with sweeps := 0, queries := 0, sweepMax := 0, blocked := 0 })
      seqs := tabMap d1.seqs (fun _ s => { s with late := 0 }) } else d1
  let wins := (d2.img.windows.filter (fun r => r.home == n)).map (fun r => r.window)
  wins.foldl (fun e w => dropLatches (0x81000 + w * 0x20) 0x20 e)
    (dropLatches (0x60000 + n * 0x4000) 0x4000 (dropLatches (0x80000 + n * 0x40) 0x40 d2))

/-- Cores of a cluster enter the schedule at its first power-up after acceptance, but for retired ones (R22). -/
def enterCores (n : Nat) (d : Dev) : Dev :=
  if (getCluster d n).entered || !d.boot.accepted then d
  else
    let mask := (BitVec.ofNat 24 (63 * 64 ^ n)) &&& ~~~ d.age.retired
    modCluster n (fun c => { c with entered := true }) (modAge (fun a => { a with avail := a.avail ||| mask }) d)

/-- A power-up of cluster domain n initialises the checkers of its pools (R335): the tags of its stacked-store port, its cores' SRAM
(which pools lie in the domain: DEDUCED, log 154). -/
def initCheckers (n : Nat) (d : Dev) : Dev :=
  modSched (fun c => { c with lost := c.lost.filter (fun l => l != (1, 2 + n) && !(l.1 == 4 && clusterOf l.2 == n)) }) d

/-- Cluster domain n powers up (R412): its counters and checkers restart and its epoch advances. -/
def clusterUp (n : Nat) (d : Dev) : Dev :=
  if d.power.clusters.getLsbD n then d
  else
    let d1 := if d.power.clusters = 0 then banksUp d else d
    let d2 := initCheckers n (clearCluster n d1)
    let d3 := modCluster n (fun c => { c with epoch := satAdd 65535 c.epoch 1, window := 0, charge := {} }) d2
    enterCores n (modPower (fun p => { p with clusters := p.clusters ||| BitVec.ofNat 4 (2 ^ n), dram := true, sup := true }) d3)

/-- All cluster domains power up: each is off only while T2 and T3 are both idle (Table 18.1). -/
def clustersUp (d : Dev) : Dev :=
  (List.range 4).foldl (fun e n => clusterUp n e) d

/-- A resident state block is swapped out to its spill home (R239): a transfer of its core's mover (R241, R284). -/
def swapOut (b : Nat) (d : Dev) : Dev :=
  let u := blkCore d b
  modUnit u (fun x => { x with swapOut := x.swapOut + 1 }) (moveBlk (u / 6) b (blkRec d.img b).spillTier d)

/-- Swap every resident state block out to its spill home (R239, R241). -/
def swapAllOut (d : Dev) : Dev := (d.img.blocks.filter (fun r => (getBlk d r.id).place == 0)).foldl (fun e r => swapOut r.id e) d

/-- The cluster domains power down once both tiers have been idle for their hold (R88), after their blocks are swapped out; core and
cluster SRAM lose their contents. -/
def clustersDown (d : Dev) : Dev :=
  let d0 := banksDown (swapAllOut d)
  let d1 := { d0 with mem := memLose d0.mem (clusterBase 0) 0x4000000 }
  { d1 with units := tabMap d1.units (fun _ u => { u with tile := none, cache := [], frames := [] }),
            clusters := tabMap d1.clusters (fun _ c => { c with stopped := false, hold := false, aside := {} }),
            power := { d1.power with clusters := 0, dram := false } }

/-! ### What follows from what is powered -/

/-- A command of the host is in progress that needs the supervisor (R414). -/
def hostBusy (d : Dev) : Bool := d.host.cur.isSome

/-- The forwarder holds the ISP and CSI domain powered while a weight record waits in an output queue (R405). -/
def forwarding (d : Dev) : Bool :=
  (List.range 2).any (fun p => (getTx d p).queue.any (fun r => r.dtype == 0x31 && u8 r.bytes 0 == 6))

/-- Bring the supervisor, ISP and Perk domains to what Table 18.1 asks; while PORST_N is held the ISP and CSI domain is down (R428). -/
def settlePower (d : Dev) : Dev :=
  if d.boot.step = .held then { d with power := { d.power with isp := false } }
  else
    let sup := d.power.clusters != 0 || booting d || hostBusy d
    let d1 := { d with power := { d.power with sup := sup } }
    let ispWanted := d1.power.clusters != 0 || cameraAlwaysOn d1 || forwarding d1
    let d2 := if ispWanted then { d1 with power := { d1.power with isp := true } } else if d1.power.isp then ispDown d1 else d1
    let perk := if d2.boot.step = .halted then false
      else if perkNeeded d2 then true else if (getTier d2 1).idle then false else d2.power.perk
    { d2 with power := { d2.power with perk := perk } }

/-- Mode by name (R413): 0 Sleep, 1 Listen, 2 Look, 3 Full. -/
def powerMode (p : Power) : Nat :=
  if p.clusters = 15 then 3 else if p.sup then 2 else if p.perk then 1 else 0

/-- A PLL is in use by what is powered (R417): 0 array, 1 fabric, 2 ISP, 3 supervisor, 4 DRAM. -/
def pllInUse (p : Power) (k : Nat) : Bool :=
  match k with
  | 0 => p.clusters != 0
  | 1 => p.clusters != 0 || p.sup || p.isp
  | 2 => p.isp
  | 3 => p.sup
  | _ => p.dram

/-- A PLL in use is locked. -/
def pllLocked (p : Power) (k : Nat) : Bool := pllInUse p k && !p.lost.contains k

end Sys2Proof.Machine
end

