-- ==== Sys2Proof/Machine/KvOps.lean ====
section
/-! DEFINITION. Page tables and page pools (R249 to R262): what an edit does, what a walk checks, and what a partition reset takes
from them. -/

namespace Sys2Proof.Machine

/-- Page size (Table 11.1). -/
def pageBytes (format heads dim : Nat) : Nat := ceilDiv (2 * (keyBytes format heads dim + scaleBytes format heads dim)) 4096 * 4096

/-- Record entry of a page pool. -/
def poolRec (img : Image) (p : Nat) : PagePool := (img.pagePools.find? (fun r => r.pool == p)).getD {}

/-- Address of page k of a pool. -/
def poolPageAddr (img : Image) (p k : Nat) : Nat :=
  let r := poolRec img p
  regionBase img r.region + r.offset + k * pageBytes r.format r.kvHeads r.headDim

/-- Page of a pool at an address, if the address is one's start. -/
def pageAt (img : Image) (p addr : Nat) : Option Nat :=
  let r := poolRec img p
  let base := regionBase img r.region + r.offset
  let n := pageBytes r.format r.kvHeads r.headDim
  if base ≤ addr ∧ (addr - base) % n = 0 ∧ (addr - base) / n < r.pages then some ((addr - base) / n) else none

/-- Table edits applied: generation and the count of edits (R257). -/
def bumpEdit (s : Nat) (d : Dev) : Dev :=
  let d1 := modKv s (fun k => { k with gen := k.gen + 1 }) d
  { d1 with kv := { d1.kv with edits := d1.kv.edits + 1 } }

/-- Floor of a partition in a page pool (Table 11.10). -/
def pageFloor (img : Image) (pool part : Nat) : Nat :=
  ((img.pageFloors.find? (fun f => f.pool == pool && f.part == part)).map (fun f => f.floor)).getD 0

/-- Where a partition may take a page from (R336): false for its floor, true for the shared part. -/
def pageSource (d : Dev) (pool part : Nat) : Option Bool :=
  let held := (tabGet d.kv.pools pool {}).held.cells
  let mine := (held.filter (fun c => c.2.1 == part && !c.2.2)).length
  let shared := (held.filter (fun c => c.2.2)).length
  let floor := pageFloor d.img pool part
  if mine < floor then some false
  else if shared < (poolRec d.img pool).shared ∧ (0 < mine ∨ floor = 0) then some true
  else none

/-- Free pages of a pool. -/
def freePages (d : Dev) (pool : Nat) : List Nat :=
  (List.range (poolRec d.img pool).pages).filter (fun k => (tabGet? (tabGet d.kv.pools pool {}).held k).isNone)

/-- Give a page back to where it came from (R336). -/
def returnPage (pool k part : Nat) (d : Dev) : Dev :=
  tap 3 pool 1 part { d with kv := { d.kv with pools := tabMod d.kv.pools pool {} (fun x => { held := tabDrop x.held k }) } }

/-- Clear a page (R253): every byte 0, no poison. -/
def clearPage (addr n : Nat) (d : Dev) : Dev := { d with mem := memLose d.mem addr n }

/-- Write a fresh entry for logical page p over a frame. -/
def putEntry (s layer p addr : Nat) (d : Dev) : Dev :=
  let r := kvRecOf d.img s
  modKv s (fun k => { k with
    entries := tabSet k.entries (entryKey r layer p)
      { frame := addr / 4096, valid := true, fill := 0, part := r.part, check := p % 256, first := 64 * p }
    newest := tabSet k.newest layer p }) d

/-- ALLOCATE (Table 11.5, R262): a ring reuses its slot's frame; otherwise a free page of the pool, which one the manual leaves
open (log 7). None while no page may be taken. -/
def editAllocate (s layer p : Nat) (d : Dev) : Option Dev :=
  let r := kvRecOf d.img s
  let pool := poolRec d.img r.pool
  let n := pageBytes pool.format pool.kvHeads pool.headDim
  let old := ptEntry d s layer p
  if isRing r = true ∧ r.tablePages ≤ p ∧ old.valid = true then
    some (putEntry s layer p (old.frame * 4096) (clearPage (old.frame * 4096) n d))
  else
    let free := freePages d r.pool
    match pageSource d r.pool r.part, frozen d 3 r.pool, free with
    | some shared, false, _ :: _ =>
      let c := draw d
      let k := free.getD (Config.freeNat c.1 % free.length) 0
      let addr := poolPageAddr d.img r.pool k
      let d1 := { c.2 with kv := { c.2.kv with pools := tabMod c.2.kv.pools r.pool {} (fun x => { held := tabSet x.held k (r.part, shared) }) } }
      let d2 := putEntry s layer p addr (clearPage addr n (tap 3 r.pool 0 r.part d1))
      some (modKv s (fun q => { q with pages := q.pages + 1 }) d2)
    | _, _, _ => none

/-- FILL (Table 11.5): each entry written gains its slots, the sequence reaches the position after the last one (DEDUCED, log 20:
the layers of one step append the same positions). -/
def editFill (s layer first n : Nat) (d : Dev) : Dev :=
  let r := kvRecOf d.img s
  modKv s (fun k => { k with
    opened := true
    length := max k.length (first + n)
    entries := (List.range n).foldl (fun t i => tabMod t (entryKey r layer ((first + i) / 64)) {} (fun e => { e with fill := min 64 (e.fill + 1) }))
      k.entries }) d

/-- Drop the entries that satisfy a test, their pages going back to the pool. -/
def dropPages (s : Nat) (cleared : Bool) (f : PtEntry → Bool) (d : Dev) : Dev :=
  let r := kvRecOf d.img s
  let gone := (getKv d s).entries.cells.filter (fun c => c.2.valid && f c.2)
  let d1 := gone.foldl (fun e c => match pageAt e.img r.pool (c.2.frame * 4096) with
    | some k => returnPage r.pool k r.part e
    | none => e) d
  modKv s (fun k => { k with
    pages := k.pages - gone.length
    entries := if cleared then ⟨k.entries.cells.filter (fun c => !(c.2.valid && f c.2))⟩
      else tabMap k.entries (fun _ e => if e.valid && f e then { e with valid := false } else e) }) d1

/-- TRUNCATE to n (Table 11.5). -/
def editTruncate (s n0 : Nat) (d : Dev) : Dev :=
  let n := min n0 (getKv d s).length
  let d1 := dropPages s false (fun e => decide (n ≤ e.first)) d
  modKv s (fun k => { k with
    length := n
    spoiled := []
    newest := tabMap k.newest (fun _ p => min p ((n - 1) / 64))
    entries := tabMap k.entries (fun _ e => if e.valid ∧ e.first < n ∧ n < e.first + 64 then { e with fill := min e.fill (n - e.first) } else e) }) d1

/-- RELEASE (Table 11.5). -/
def editRelease (s : Nat) (d : Dev) : Dev :=
  modKv s (fun k => { k with length := 0, opened := false, entries := {}, newest := {}, session := none, spoiled := [] }) (dropPages s true (fun _ => true) d)

/-! ### The table as memory holds it (Tables 11.3 and 11.4) -/

/-- Page table header. -/
def tableHeader (r : KvRec) (q : KvSeq) : Bytes :=
  le 1 r.seq ++ le 1 r.part ++ le 1 (b2n (isRing r) + 2 * b2n q.opened) ++ zeros 1 ++ le 4 q.gen.toNat ++ le 4 q.length ++
    le 4 q.pages ++ zeros 48

/-- Page table entry. -/
def entryBytes (e : PtEntry) : Bytes :=
  le 4 (e.frame % 268435456) ++ le 1 (b2n e.valid) ++ le 1 e.fill ++ le 1 e.part ++ le 1 e.check ++ le 4 e.first ++ zeros 4

/-- Write the header and the entries that differ from an earlier table: traffic of the write class (DESIGN CHOICE, log 151). -/
def writeTable (s : Nat) (old : Tab PtEntry) (d : Dev) : Dev :=
  let r := kvRecOf d.img s
  let q := getKv d s
  let ks := dedup ((old.cells ++ q.entries.cells).map (fun c => c.1)) |>.filter (fun k => tabGet old k {} != tabGet q.entries k {})
  let put (a : Nat) (l : Bytes) (e : Dev) : Dev := countTraffic a 1 true (memStore a l e)
  ks.foldl (fun e k => put (entryAddr d.img r k) (entryBytes (tabGet q.entries k {})) e) (put (tableAt d.img r) (tableHeader r q) d)

/-- Apply one edit as one atomic step; none when it must wait for a page. -/
def applyEdit (s : Nat) (e : Edit) (d : Dev) : Option Dev :=
  let done (x : Dev) : Dev := writeTable s (getKv d s).entries (bumpEdit s x)
  match e with
  | .allocate layer p _ => (editAllocate s layer p d).map done
  | .fill layer first n => some (done (editFill s layer first n d))
  | .truncate n => some (done (editTruncate s n d))
  | .release => some (done (editRelease s d))

/-- Queue an edit of a table (R257). -/
def queueEdit (s : Nat) (e : Edit) (d : Dev) : Dev := modKv s (fun k => { k with edits := k.edits ++ [e] }) d

/-- Sequences of a partition. -/
def kvsOf (img : Image) (p : Nat) : List Nat := (img.kvs.filter (fun r => r.part == p)).map (fun r => r.seq)

/-- Cancel the queued edits and the walks of a partition's sequences (R259). -/
def cancelKv (p : Nat) (d : Dev) : Dev :=
  let ss := kvsOf d.img p
  let d1 := ss.foldl (fun e s => modKv s (fun k => { k with edits := [], locks := 0 }) e) d
  { d1 with kv := { d1.kv with walks := d1.kv.walks.filter (fun w => !ss.contains w.seq),
                               scattered := d1.kv.scattered.filter (fun x => !ss.contains x.2.1) } }

/-! ### Walks (R255, R256) -/

/-- Sequence, layer and logical pages that a tile's walk translates, in ascending order; none for a tile that walks no page. An
attend tile with the empty flag sees no key and walks none (Example 11.1); a scatter tile with it appends nothing (DEDUCED,
log 21). -/
def walkOf (d : Dev) (b : Bytes) : Option (Nat × Nat × List Nat) :=
  if dEmpty b then none
  else if dKind b = 4 then
    let a := (d.img.attns.find? (fun x => x.id == dOp b)).getD {}
    let n := if a.kind = 0 then a.span else 1
    some (u8 b 0x20, u8 b 0x21, (List.range n).map (fun i => dWord b 0x24 + i))
  else if dKind b = 5 then
    let first := dWord b 0x28
    let n := u16 b 0x26
    some (u8 b 0x24, u8 b 0x25, (List.range ((first + n - 1) / 64 + 1 - first / 64)).map (fun i => first / 64 + i))
  else none

/-- The walk of a descriptor has ended well (or it needs none). -/
def walkDone (d : Dev) (x : DescId) (b : Bytes) : Bool :=
  (walkOf d b).isNone || d.kv.walks.any (fun w => w.d == x && w.pages.isSome)

/-- An entry passes the checks of R255. -/
def entryOk (d : Dev) (s p : Nat) (e : PtEntry) : Bool :=
  let r := kvRecOf d.img s
  e.valid && e.part == r.part && e.check == p % 256 && (pageAt d.img r.pool (e.frame * 4096)).isSome

/-- Look one page up in a look-aside buffer of 64 entries; a miss replaces the least recently used one. -/
def lookAside (s layer p gen frame : Nat) (l : List (Nat × Nat × Nat × Nat × Nat)) : Bool × List (Nat × Nat × Nat × Nat × Nat) :=
  let rest := l.filter (fun x => !(x.1 == s && x.2.1 == layer && x.2.2.1 == p))
  let hit := l.any (fun x => x.1 == s && x.2.1 == layer && x.2.2.1 == p && x.2.2.2.1 == gen)
  let kept := if 64 ≤ rest.length then rest.drop (rest.length - 63) else rest
  (hit, kept ++ [(s, layer, p, gen, frame)])

/-- Walk pages in ascending order: the look-aside buffer, hits, misses, the translations, and whether every check passed. -/
def walkPages (d : Dev) (s layer : Nat) : List Nat → List (Nat × Nat × Nat × Nat × Nat) → Nat × Nat →
    List (Nat × Nat) → Bool × List (Nat × Nat) × (Nat × Nat) × List (Nat × Nat × Nat × Nat × Nat)
  | [], l, hm, acc => (true, acc, hm, l)
  | p :: rest, l, hm, acc =>
    let e := ptEntry d s layer p
    let k := lookAside s layer p (getKv d s).gen.toNat e.frame l
    let hm1 := if k.1 then (hm.1 + 1, hm.2) else (hm.1, hm.2 + 1)
    if entryOk d s p e = true ∧ (k.1 = true ∨ poisonedAt d.mem (entryAddr d.img (kvRecOf d.img s) (entryKey (kvRecOf d.img s) layer p)) = false) then walkPages d s layer rest k.2 hm1 (acc ++ [(p, e.frame * 4096)])
    else (false, acc, hm1, k.2)

end Sys2Proof.Machine
end

