-- ==== Sys2Proof/Machine/Partition.lean ====
section
/-! DEFINITION. Partitions (R322 to R326, R334): the muzzle, the stop, the reset, and what a checker's violation does (R333). -/

namespace Sys2Proof.Machine

/-- Scan sequences of a partition. -/
def seqsOf (img : Image) (p : Nat) : List Nat := (img.seqs.filter (fun r => r.part == p)).map (fun r => r.seq)

/-- State blocks of a partition. -/
def blksOf (img : Image) (p : Nat) : List Nat := (img.blocks.filter (fun r => (seqsOf img p).contains r.seq)).map (fun r => r.id)

/-- Streams of a partition. -/
def streamsOf (img : Image) (p : Nat) : List Nat := (List.range 48).filter (fun s => streamOwner img s == some p)

/-- Catalogue slots of a partition. -/
def catsOf (img : Image) (p : Nat) : List Nat := (img.cats.filter (fun r => r.part == p)).map (fun r => r.slot)

/-- Close a session (R357, R389): its keys are destroyed; its state starts afresh but for FAILS. -/
def closeSession (n : Nat) (d : Dev) : Dev :=
  { modSession n (fun s => { fails := s.fails, turn := s.turn, key := s.key }) d with
    reqs := d.reqs.map (fun r => if r.q.turn.map (fun t => t.1) = some n then { r with keyless := true } else r) }

/-- Steps 1 to 3 of Table 13.6. Requests still open end with 0x41, which is recorded, when the partition ran, else with its stopping
cause. -/
def resetStart (p : Nat) (d : Dev) : Dev :=
  if (getPart d p).resetting then d
  else
    let cause := if (getPart d p).stopped then (getPart d p).cause else 0x41
    let d0 := if cause = 0x41 then record 0x41 (some p) (0, 0) d else d
    let d1 := discardPart p none (modPart p (fun x => { x with resetting := true }) d0)
    let d2 := cancelKv p d1
    let d3 := (List.range 4).foldl (fun e n => keepXfers (fun x => x.part != p) n e) d2
    let gone := (d3.sched.live.filter (fun y => dPart y.bytes == p)).map (fun y => y.id)
    let d4 := endReqs (ordersOfPart d3 p) cause d3
    let d5 := gone.foldl (fun e x => retire x e) d4
    let d7 := { d5 with
      units := tabMap d5.units (fun _ u => { u with
        cache := u.cache.filter (fun k => k.1 != p)
        frames := u.frames.filter (fun f => (graphOf d5.img f.1).part != p) }) }
    let open_ := (List.range 8).filter (fun n => (getSession d7 n).opened && (getSession d7 n).part == p)
    pump (open_.foldl (fun e n => closeSession n e) d7)

/-- Stop a partition (R325): every request of it ends with the cause; with auto_reset the supervisor resets it. A partition that
has stopped or is in reset keeps its cause. -/
def stopPart (p cause : Nat) (d : Dev) : Dev :=
  if (getPart d p).stopped || (getPart d p).resetting then d
  else
    let d1 := modPart p (fun x => { x with stopped := true, cause := cause }) d
    let d3 := endReqs (ordersOfPart d1 p) cause d1
    if bit ((partRec? d3.img p).getD {}).flags 0 then resetStart p d3 else d3

/-- The channel of a stream is muzzled (R324): it writes nothing more, so the frames that it is receiving or processing are dropped and
counted; those that wait in raw buffers wait on. -/
def silenceStream (s : Nat) (d : Dev) : Dev :=
  let cut (f : RawFrame) : RawFrame := if f.stream = s then { f with dropped := true } else f
  let lost := ((undescribed d.cam).filter (fun f => f.stream == s && !f.dropped && !d.cam.queue.contains f)).length
  let d1 := (List.range lost).foldl (fun e _ => dropFrame s e) d
  modCam (fun c => { c with pipe0 := c.pipe0.map cut, pipe1 := c.pipe1.map cut,
                            streams := tabMap c.streams (fun _ x => { x with openFrame := x.openFrame.map cut }) }) d1

/-- Effects of a muzzle on the master itself (R324): a core leaves DEV_CORE_AVAIL, and its weight cache is emptied (R313); a mover's
transfers of the partition go, a walker's walks end, a stream's channel falls silent. -/
def muzzleMaster (m p : Nat) (d : Dev) : Dev :=
  if m < 24 then modUnit m (fun x => { x with cache := [] }) (modAge (fun a => { a with avail := a.avail &&& ~~~ BitVec.ofNat 24 (2 ^ m) }) d)
  else if 0x1C ≤ m ∧ m < 0x20 then keepXfers (fun t => t.part != p) (m - 0x1C) d
  else if 0x40 ≤ m ∧ m < 0x70 then silenceStream (m - 0x40) d
  else if 0x20 ≤ m ∧ m < 0x28 then
    (d.kv.walks.filter (fun w => 0x20 + 2 * w.unit.1 + w.unit.2 == m && (kvRecOf d.img w.seq).part == p)).foldl (fun e w => dropWalk w.d e) d
  else d

/-- Sequence whose page table holds an address. -/
def tableOf (img : Image) (a : Nat) : Option Nat :=
  (img.kvs.find? (fun r => decide (tableAt img r ≤ a) && decide (a < tableAt img r + 64 + r.layers * r.tablePages * 16))).map (fun r => r.seq)

/-- Tiles that a muzzle discards (Table 6.4): those of the partition; where the touch was a write to a page table, whose walks in flight
and locks it leaves (R258, Example 11.1), the tile of the master alone (DEDUCED, log 158). -/
def discardMuzzled (m p cause : Nat) (table : Bool) (d : Dev) : Dev :=
  if !table then discardPart p (some cause) d
  else if m < 28 ∧ tilePart d m = some p then discardTile m (some cause) d else d

/-- A master is muzzled and its partition charged (R324, R258): cause 0x40 or 0x44; whether the touch was a write to a page table. -/
def muzzle (m p cause : Nat) (addr : Option Nat) (table : Bool) (d : Dev) : Dev :=
  let fresh := !(getPart d p).muzzled.contains m
  let d1 := recordAt cause (some p) (4, m) addr false d
  let d2 := modSched (fun c => { c with
    muzzles := c.muzzles + (if fresh then 1 else 0)
    muzzleFirst := match c.muzzleFirst with | some x => some x | none => some (cause, p, m) }) d1
  let d3 := modPart p (fun x => { x with muzzled := if fresh then x.muzzled ++ [m] else x.muzzled }) d2
  stopPart p cause (muzzleMaster m p (discardMuzzled m p cause table d3))

/-- Cause of a write that its master's partition may not make (R258): 0x44 to a table that walks have locked, else 0x40. -/
def writeCause (d : Dev) (a : Nat) : Nat :=
  match tableOf d.img a with
  | some s => if (getKv d s).locks = 0 then 0x40 else 0x44
  | none => 0x40

/-- A direct write to a locked page table is counted (R258). -/
def countDirect (p a : Nat) (d : Dev) : Dev :=
  match tableOf d.img a with
  | some s =>
    if writeCause d a = 0x44 then
      { d with kv := { d.kv with direct := d.kv.direct + 1, directFirst := match d.kv.directFirst with | some x => some x | none => some (s, p) } }
    else d
  | none => d

/-- A write of what its master's partition may not write is discarded, and the master muzzled (R258, R324). -/
def badWrite (m p a : Nat) (d : Dev) : Dev := muzzle m p (writeCause d a) (some a) (tableOf d.img a).isSome (countDirect p a d)

/-- Streams whose violations charge a partition (R333): its own, and for partition 0 those without an owner. -/
def chargedStreams (img : Image) (p : Nat) : List Nat :=
  (List.range 48).filter (fun s => (streamOwner img s).getD 0 == p)

/-- Thumbnails of a stream that stand unread in its buffers (R120). -/
def unreadThumbs (t : Thumbs) : Nat := ((List.range (min 2 t.received)).filter (fun b => !t.read.getLsbD b)).length

/-- The stream buffers of a partition's streams are rebuilt (R334): every raw buffer and thumbnail buffer is free, and a frame that held
one is counted as dropped. A frame of pipe 0 holds none and goes on. -/
def dropHeld (p : Nat) (d : Dev) : Dev :=
  let mine (s : Nat) : Bool := (chargedStreams d.img p).contains s
  let holds (f : RawFrame) : Bool := mine f.stream && (camRec? d.img f.stream).any (fun r => r.pipe == 1)
  let lost := ((d.cam.streams.cells.filterMap (fun s => s.2.openFrame) ++ d.cam.queue ++ d.cam.pipe1.toList).filter
    (fun f => !f.dropped && holds f)).map (fun f => f.stream)
  let thumbs := (d.audio.thumbs.cells.filter (fun c => mine c.1)).flatMap (fun c => List.replicate (unreadThumbs c.2) c.1)
  let d1 := (lost ++ thumbs).foldl (fun e s => modStream s (fun x => { x with dropped := x.dropped + 1 }) e) d
  modCam (fun c => { c with
    queue := c.queue.filter (fun f => !mine f.stream)
    pipe1 := c.pipe1.filter (fun f => !mine f.stream)
    streams := tabMap c.streams (fun s x => if mine s then
      { x with openFrame := x.openFrame.map (fun f => if holds f then { f with dropped := true } else f), heldBufs := 0 } else x) })
    { d1 with audio := { d1.audio with thumbs := tabMap d1.audio.thumbs (fun s t => if mine s then { t with read := 3 } else t) } }

/-- Reinitialise the partition's state blocks and their sequences (R244). -/
def resetBlocks (p : Nat) (d : Dev) : Dev :=
  let d1 := (blksOf d.img p).foldl (fun e b =>
    initBlk b (modBlk b (fun x => { place := x.place, home := x.home }) e)) d
  (seqsOf d1.img p).foldl (fun e q => modSeq q (fun x => { late := x.late }) e) d1

/-- Barrier cells of a partition's ranges go to 0 (R295). -/
def clearCells (p : Nat) (d : Dev) : Dev :=
  let inRange (k : Nat) : Bool := d.img.cellRanges.any (fun r => r.part == p && decide (r.cluster * 2048 + r.first ≤ k) &&
    decide (k < r.cluster * 2048 + r.first + r.count))
  modSched (fun c => { c with cells := ⟨c.cells.cells.filter (fun x => !inRange x.1)⟩, remote := c.remote.filter (fun k => !inRange k) }) d

/-- Steps 4 and 5 of Table 13.6, with the thaw of R334. -/
def resetFinish (p : Nat) (d : Dev) : Dev :=
  let d1 := (kvsOf d.img p).foldl (fun e s => (applyEdit s .release e).getD e) d
  let d2 := clearCells p (resetBlocks p d1)
  let mine (g : Nat) : Bool := (graphOf d.img g).part == p
  let held := d2.sched.frozen.any (fun f => f.1 == 5 && f.2.2 == p)
  let d3 := modSched (fun c => { c with
    insts := ⟨c.insts.cells.filter (fun x => !mine (x.1 / 64))⟩
    steps := ⟨c.steps.cells.filter (fun x => !mine x.1)⟩
    held := c.held.filter (fun y => !mine y.id.graph)
    frozen := c.frozen.filter (fun f => !(f.2.2 == p && (f.1 == 2 || f.1 == 5 || f.1 == 6))) }) (if held then dropHeld p d2 else d2)
  let ms := (getPart d3 p).muzzled
  let back := (ms.filter (fun m => decide (m < 24) && !d.age.retired.getLsbD m && !(d.age.busy && d.age.testing.any (fun t => t.1 == m)))).foldl
    (fun a m => a ||| BitVec.ofNat 24 (2 ^ m)) (0 : BitVec 24)
  let d4 := modAge (fun a => { a with avail := a.avail ||| back }) d3
  let d5 := { d4 with mov := { d4.mov with movers := tabMap d4.mov.movers (fun n m =>
    if ms.contains (0x1C + n) then { m with queue := m.queue.map (fun x => { x with done := 0, stopped := false }), issued := 0 } else m) } }
  let d5 := (List.range 4).foldl (fun e n => if ms.contains (0x1C + n) then returnTags (0x1C + n) (fun _ => false) e else e) d5
  let d6 := modPart p (fun x => { x with muzzled := [], resetting := false, stopped := false, cause := 0 }) d5
  pump (modSched (fun c => { c with resets := c.resets + 1, go := if c.reqPart = p then false else c.go }) d6)

/-- A checker finds a violation (R333). -/
def violate (pool kind part inst : Nat) (injected : Bool) (d : Dev) : Dev :=
  let d1 := modSched (fun c => { c with
    frozen := if c.frozen.any (fun f => f.1 == pool && f.2.1 == inst) then c.frozen else c.frozen ++ [(pool, inst, part)]
    violations := c.violations + 1
    consFirst := match c.consFirst with | some x => some x | none => some (pool, kind, part, inst) }) d
  let d2 := recordAt (0x30 + pool) (some part) (7, pool) none injected d1
  if pool = 2 ∨ pool = 5 ∨ pool = 6 then stopPart part (0x30 + pool) d2 else deviceError false true d2

/-- A violation that an injection brought about within the command takes effect. -/
def tripCheck (d : Dev) : Dev :=
  match d.sched.tripped with
  | some (pool, kind, part, inst) => modSched (fun c => { c with tripped := none }) (violate pool kind part inst true d)
  | none => d

/-! ### Commands -/

/-- A master works for a partition at this moment (R323): only then can a transaction of it carry the partition's tag. -/
def worksFor (d : Dev) (m p : Nat) : Bool :=
  if m < 28 then tilePart d m == some p
  else if m < 0x20 then (getMover d (m - 0x1C)).queue.any (fun x => x.part == p)
  else if m < 0x28 then d.kv.walks.any (fun w => 0x20 + 2 * w.unit.1 + w.unit.2 == m && (kvRecOf d.img w.seq).part == p)
  else if m < 0x2C then (List.range 6).any (fun c => let u := (m - 0x28) * 6 + c
    tilePart d u == some p && ((tileOf d u).any (fun t => let k := dKind (descBytes d t.d); k == 4 || k == 5)))
  else if 0x40 ≤ m ∧ m < 0x70 then streamOwner d.img (m - 0x40) == some p
  else if 0x70 ≤ m ∧ m < 0x78 then (getSession d (m - 0x70)).opened && (getSession d (m - 0x70)).part == p
  else false

/-- The partition may read and write the address (R281, R322), so that no access of it can fail: in a region of kind 0 of its own, its
range of a cluster SRAM, or core SRAM that is assigned to it. -/
def fullyOwns (d : Dev) (p a : Nat) : Bool := tileMayWrite d p a

/-- An access fails its check. -/
def accessViolation (m p a : Nat) (d : Dev) : Dev :=
  if live d && declared d.img p && worksFor d m p && !fullyOwns d p a then muzzle m p 0x40 (some a) false d else d

/-- A request to reset a partition (R326): by register, or by the reset command of a tile thread of an issuer. -/
def resetRequest (p : Nat) (byThread : Bool) (d : Dev) : Dev :=
  let refused := p == 0 || !declared d.img p || (byThread && !bit ((partRec? d.img p).getD {}).flags 1)
  if refused then modSched (fun c => { c with refused := true }) d else resetStart p d

/-- Step 5 ends. -/
def resetComplete (p : Nat) (d : Dev) : Dev := if (getPart d p).resetting then resetFinish p d else d

/-- The reset command of a tile thread: only partition 0's act (R326). -/
def threadReset (issuer target : Nat) (d : Dev) : Dev :=
  if live d && issuer == 0 && !(getPart d 0).stopped then resetRequest target true d else d

/-- A direct write to a page table (R258). -/
def directWrite (m p s : Nat) (d : Dev) : Dev :=
  if live d && declared d.img p && worksFor d m p && (kvRec? d.img s).isSome then badWrite m p (tableAt d.img (kvRecOf d.img s)) d else d

/-- A checker's own state fails parity (R335). -/
def checkerParity (pool inst : Nat) (d : Dev) : Dev := if live d then checkerLost pool inst false d else d

end Sys2Proof.Machine
end

