-- ==== Sys2Proof/WellFormed.lean ====
section
/-! DEFINITION. Which commands a bus, a pin or an engine of the block can carry. -/

namespace Sys2Proof

/-- A frame whose fields fit their widths (Table 15.4) and whose write fits the port (R353 answers longer ones). -/
def Frame.wf (f : Frame) : Bool :=
  decide (f.session < 256) && decide (f.flags < 256) && decide (f.seq < 65536) && decide (f.len < 65536) &&
    decide (f.payload.length < 65536)

/-- A list of signed samples of a width. -/
def signedAll (w : Nat) (l : List Int) : Bool := l.all (fun v => decide (-(2 ^ (w - 1) : Int) ≤ v) && decide (v < 2 ^ (w - 1)))

/-- A wake request whose fields fit Table 3.2. -/
def Wake.wf (w : Wake) : Bool :=
  decide (w.source < 5) && decide (1 ≤ w.target) && decide (w.target ≤ 3) && (decide (w.stream < 48) || w.stream == 255) &&
    decide (w.cls < 255) && decide (w.score < 65536) && decide (w.onset < 2 ^ 48)

/-- The opcodes of Table 15.7. -/
def opcodes : List Nat := [0x01, 0x02, 0x10, 0x11, 0x12, 0x20, 0x30, 0x40, 0x50, 0x60]

/-- The checks. A command without an entry here is well-formed whatever its operands. -/
def Instr.wf : Instr → Bool
  | .dramTrainingDone passed mib _ => !passed || (decide (4096 ≤ mib) && decide (mib ≤ 32768))
  | .headerReadDone a b => a.length == 256 && b.length == 256
  | .wakeArrival w => w.wf
  | .sensorIbi _ p => decide (p.length ≤ 4)
  | .perkStep _ o _ _ => signedAll 8 o
  | .tdmFrameSync l => signedAll 32 l
  | .imageAcceptance _ _ l => l.all (fun t => decide (t.2 < 2 ^ 48))
  | .thumbnailReceived _ fn _ _ _ _ => decide (fn < 65536)
  | .csi2FrameStart _ _ fn _ => decide (fn < 65536)
  | .settingsBlockPost _ _ i es => decide (1 ≤ i) && decide (i < 2 ^ 32) && decide (1 ≤ es.length) && decide (es.length ≤ 64) &&
      es.all (fun e => decide (e.1 < 65536) && decide (e.2 < 256))
  | .sensorHotJoin _ p => decide (p < 2 ^ 48)
  | .queryJoin _ q => decide (q.frame < 2 ^ 48) && decide (q.stream < 256) && q.box.length == 8 && decide (q.score < 65536) && decide (q.detection < 65536)
  | .resetMark _ _ n => decide (n < 2 ^ 48)
  | .tileFault _ c => c == 0x69 || c == 0x6A || c == 0x13
  | .pageTableDirectWrite m _ _ => decide (m < 256)
  | .accessViolation m _ a => decide (m < 256) && decide (a < 2 ^ 40)
  | .transferGranuleDone _ f _ _ => decide (f < 6)
  | .clusterReset _ c _ => decide (c < 256)
  | .governorPeriod _ b c => signedAll 8 [b, c]
  | .ageingMeasure l => l.length == 40 && l.all (fun v => decide (v < 65536))
  | .kennelReading _ _ t c f => signedAll 8 [t] && decide (c < 2 ^ 48) && decide (f < 16)
  | .badOpcode o f => decide (o < 65536) && !opcodes.contains o && f.wf
  | .statusRead f | .windowWrite f | .attest f | .sessionOpen f | .sessionClose f | .eventInjectWake f
  | .eventInjectMark f | .promptSubmit f | .prerollRead f | .errlogSnapshot f | .selfTestRequest f | .lifecycleTransition f
  | .tensorDump f | .kennelZero f | .kennelTareTake f | .kennelTareClear f | .kennelReadLatest f | .kennelReadStable f
  | .kennelStatusBlock f | .kennelCertificate f | .kennelBadRequest f | .injArm f | .injDisarm f | .errEntryClear f
  | .errFirstClear f | .prtResetReq f | .watchedCountClear f => f.wf
  | _ => true

/-- A command that can occur. -/
abbrev WellFormed (i : Instr) : Prop := i.wf = true

end Sys2Proof
end

