-- ==== Sys2Proof/Machine/Lifecycle.lean ====
section
/-! DEFINITION. Lifecycle in OTP (R377 to R382), the keys of Tables 16.1 and 16.2, step 2 of the boot ROM, and how a meaning that
touches only the device steps the whole. -/

namespace Sys2Proof.Machine

/-- ASCII bytes of a label. -/
def ascii (s : String) : Bytes := s.toList.map (fun c => BitVec.ofNat 8 c.toNat)

/-- Bits of a byte that are 1. -/
def popByte (b : Byte) : Nat := ((List.range 8).filter (fun i => b.getLsbD i)).length

/-- A group of a lifecycle word reads set with five bits (R380). -/
def groupSet (b : Byte) : Bool := decide (5 ≤ popByte b)

/-- State code of a state word (R380): the last group that reads set, or BLANK. -/
def stateOf (w : List Byte) : Nat := ((List.range 5).filter (fun i => groupSet (w.getD i 0))).foldl (fun _ i => i + 1) 0

/-- Lifecycle state (Table 16.4): 0 BLANK, 1 TEST, 2 PROVISIONED, 3 DEPLOYED, 4 RETURN, 5 SCRAPPED. -/
def lifecycle (o : Otp) : Nat := stateOf o.state

/-- Target of an interrupted transition: an intent group with any bit set that stands after the current state (R381). -/
def interrupted (o : Otp) : Option Nat :=
  ((List.range 5).filter (fun i => o.intent.getD i 0 != 0 && decide (lifecycle o ≤ i))).getLast?.map (fun i => i + 1)

/-- A destroyed word (R378). -/
def destroyed : Bytes := List.replicate 32 0xFF

/-- Actions of a transition (Table 16.5). -/
def transitionActions (tgt : Nat) (o : Otp) : Otp :=
  if tgt = 2 then { o with ownerHash := (o.ownerHash.zip (fit 32 o.request)).map (fun p => p.1 ||| p.2) }
  else if tgt = 4 then { o with ownerHash := destroyed }
  else if tgt = 5 then { o with root := destroyed, identity := destroyed, link := destroyed, ownerHash := destroyed }
  else o

/-- Program the intent group of a target (R380, phase 1). -/
def programIntent (tgt : Nat) (o : Otp) : Otp := { o with intent := o.intent.set (tgt - 1) 0xFF }

/-- Program the state group of a target (R380, phase 3). -/
def programState (tgt : Nat) (o : Otp) : Otp := { o with state := o.state.set (tgt - 1) 0xFF }

/-- Phases 2 and 3 of a transition, the intent group being complete (R380, R381). -/
def completeTransition (tgt : Nat) (o : Otp) : Otp := programState tgt (transitionActions tgt (programIntent tgt o))

/-- A key or hash word is absent: all ones (R378), or never programmed. -/
def absent (w : Bytes) : Bool := w.all (fun b => b == 0xFF) || w.all (fun b => b == 0)

/-- device_id (R371); open without an identity key (log 19). -/
def deviceId (o : Otp) : Bytes := if absent o.identity then fit 32 Config.noDeviceId else Config.sha256 (Config.publicKey o.identity)

/-- Order of the P-256 group. -/
def p256Order : Nat := 0xFFFFFFFF00000000FFFFFFFFFFFFFFFFBCE6FAADA7179E84F3B9CAC2FC632551

/-- Prime of the P-256 field. -/
def p256Prime : Nat := 0xFFFFFFFF00000001000000000000000000000000FFFFFFFFFFFFFFFFFFFFFFFF

/-- Constant b of the P-256 curve. -/
def p256B : Nat := 0x5AC635D8AA3A93E7B3EBBD55769886BC651D06B0CC53B0F63BCE3C3E27D2604B

/-- 64 bytes are a point of P-256, X then Y (Table 16.11, check 4). -/
def pointValid (k : Bytes) : Bool :=
  let x := be64 (slice k 0 32)
  let y := be64 (slice k 32 32)
  k.length == 64 && decide (x < p256Prime) && decide (y < p256Prime) &&
    (y * y) % p256Prime == (x * x * x + 3 * (p256Prime - x) + p256B) % p256Prime

/-- A scalar from 40 bytes by FIPS 186-5 A.2.1. -/
def scalarOf (c : Bytes) : Bytes := be 32 (be64 c % (p256Order - 1) + 1)

/-- The wrap key, derived only while an owner key hash stands (Table 16.2, R373). -/
def wrapKey (o : Otp) : Option Bytes :=
  if lifecycle o = 2 ∨ lifecycle o = 3 then some (scalarOf (Config.hkdf o.root o.ownerHash (ascii "KYNER WRAP") 40)) else none

/-- Key hash that Table 2.4 accepts in a state. -/
def signerHash (o : Otp) : Option Bytes :=
  match lifecycle o with
  | 1 => some Config.makerKeyHash
  | 2 => some o.ownerHash
  | 3 => some o.ownerHash
  | 4 => some Config.makerKeyHash
  | _ => none

/-- Full test access is open (Table 16.4). -/
def debugOpen (o : Otp) (d : Dev) : Bool := lifecycle o ≤ 1 || (lifecycle o == 4 && d.boot.unlocked)

/-- The state permits injection, before R445's further conditions for DEPLOYED. -/
def injectionState (o : Otp) (d : Dev) : Bool :=
  lifecycle o == 1 || lifecycle o == 2 || lifecycle o == 3 || (lifecycle o == 4 && d.boot.unlocked)

/-- permitted of INJ_STATUS (R445). -/
def injectionPermitted (o : Otp) (d : Dev) : Bool :=
  injectionState o d && (lifecycle o != 3 || d.img.injMask / 2 != 0)

/-- Encrypted blobs are decrypted in this state (Table 16.4). -/
def decryptState (o : Otp) : Bool := lifecycle o == 2 || lifecycle o == 3

/-- The state permits tensor dumps (Table 16.4). -/
def dumpState (o : Otp) (d : Dev) : Bool := lifecycle o == 1 || lifecycle o == 2 || (lifecycle o == 4 && d.boot.unlocked)

/-- Step 2 of a boot: complete an interrupted transition (R381), draw boot_salt and derive the keys of the boot (R372), and in
BLANK and SCRAPPED end boot in the halted state (R42): no boot policy record of this boot has been read, so none is retried. -/
def romStep (s : State) : State :=
  let b0 := { s.dev.boot with romDue := false, lastTarget := 15, unlocked := false, policyOk := false }
  let done := interrupted s.otp
  let otp := match done with | some t => completeTransition t s.otp | none => s.otp
  let r := drawBytes 16 { s.dev with boot := { b0 with lastTarget := done.getD 15 } }
  let d := { r.2 with boot := { r.2.boot with
    salt := r.1
    linkKey := Config.hkdf otp.link r.1 (ascii "KYNER LINK") 32
    xtsKeys := Config.hkdf otp.root r.1 (ascii "KYNER DRAM") 64 } }
  { s with otp := otp, dev := if lifecycle otp = 0 ∨ lifecycle otp = 5 then bootFail 0xA6 0 noEntry noSeg d else d }

/-- Step 2 of a boot that has begun. -/
def romDone (s : State) : State := if s.dev.boot.romDue then romStep s else s

/-- What follows from a command at once: a violation it brought about, step 2 of a boot that has begun, and the domains that must
be powered. -/
def settle (s : State) : State :=
  let s0 := { s with dev := tripCheck s.dev }
  let s1 := romDone s0
  { s1 with dev := settlePower s1.dev }

/-- The outcomes of a meaning. -/
abbrev Result := Host.Outcome State Fault Refusal

/-- A meaning that acts on the device alone. -/
def devStep (f : Dev → Dev) (s : State) : Result := .next (settle { s with dev := f s.dev })

/-- A meaning that acts on more than the device. -/
def wholeStep (f : State → State) (s : State) : Result := .next (settle (f s))

/-- A command whose operand no bus, pin or engine can carry does not occur: nothing happens (DESIGN CHOICE, log 108). -/
def unlessWf (i : Instr) (s : State) (k : Result) : Result := if i.wf then k else .next s

end Sys2Proof.Machine
end

