-- ==== Sys2Proof/Machine/Cascade.lean ====
section
/-! DEFINITION. The wake arbiter (R68 to R92): routing, credits, queues, pending slots, admission, the pre-roll gate, and the
power-down of idle tiers. -/

namespace Sys2Proof.Machine

/-- Route of a key (R72): the exact entry, else the entry of any class. -/
def routeOf (img : Image) (target stream cls : Nat) : Option Route :=
  match img.routes.find? (fun r => r.target == target && r.stream == stream && r.cls == cls) with
  | some r => some r
  | none => img.routes.find? (fun r => r.target == target && r.stream == stream && r.cls == 255)

/-- The video flag (R71). -/
def videoFlag (img : Image) (w : Wake) : Bool := w.source != 3 && isVideo img w.stream

/-- Free shared credits of a tier. -/
def sharedFree (d : Dev) (t : Nat) : Nat := (tierRec d.img t).shared - (getTier d t).sharedHeld

/-- Free floor credits of a partition at a tier. -/
def floorFree (d : Dev) (t p : Nat) : Nat := floorOf d.img p t - tabGet (getTier d t).held p 0

/-- The tier runs (R59): Point from the end of step 8 of boot, Fetch from the end of step 9; until then its wakes wait. -/
def tierRuns (d : Dev) (t : Nat) : Bool := if t = 2 then d.boot.point else if t = 3 then d.boot.fetch else true

/-- A request of the partition may be admitted (R73): a floor credit is free, or a shared one is and the partition holds one of
its floor or has none. A stopped partition is admitted nothing (R325), a frozen pool gives nothing (R333), a tier that does not run
yet neither (R59). -/
def eligible (d : Dev) (t p : Nat) : Bool :=
  tierRuns d t && !(getPart d p).stopped && !(getPart d p).resetting && !frozen d 0 t &&
    (decide (0 < floorFree d t p) ||
      (decide (0 < sharedFree d t) && (decide (0 < tabGet (getTier d t).held p 0) || floorOf d.img p t == 0)))

/-- Stage 1 of R76: accept the credits returned. -/
def acceptReturns (t : Nat) (d : Dev) : Dev :=
  let d1 := (getTier d t).returned.foldl (fun e c => tap 0 t 1 c.1 e) d
  modTier t (fun x =>
    x.returned.foldl (fun y c => if c.2 then { y with sharedHeld := y.sharedHeld - 1 }
      else { y with held := tabMod y.held c.1 0 (fun n => n - 1) }) { x with returned := [] }) d1

/-- A turn was shed before admission (R359): interrupt 0x07, and the session takes a new turn. -/
def shedTurn (q : WReq) (d : Dev) : Dev :=
  match q.turn with
  | some (n, k) => ibi 7 n k (k / 256) (modSession n (fun s => { s with busy := false }) d)
  | none => d

/-- Shed a routed request: counted, cause code 0x54. -/
def shed (t : Nat) (q : WReq) (d : Dev) : Dev :=
  shedTurn q (record 0x54 (some q.part) (6, t) (modTier t (fun x => { x with shed := x.shed + 1 }) d))

/-- Queued requests of a tier, by priority, then pending ones. -/
def waitingOf (x : Tier) : List WReq := (List.range 4).flatMap (fun p => tabGet x.queues p []) ++ x.pending

/-- Keep the waiting requests that satisfy a test. -/
def keepWaiting (f : WReq → Bool) (x : Tier) : Tier :=
  { x with queues := tabMap x.queues (fun _ l => l.filter f), pending := x.pending.filter f }

/-- Stage 2 of R76: shed what waits for a partition in reset. -/
def shedResetting (t : Nat) (d : Dev) : Dev :=
  let hit (q : WReq) : Bool := (getPart d q.part).resetting
  ((waitingOf (getTier d t)).filter hit).foldl (fun e q => shed t q e) (modTier t (keepWaiting (fun q => !hit q)) d)

/-- Audio slot that holds an active stream. -/
def slotOfStream (d : Dev) (s : Nat) : Option Nat :=
  (List.range 8).find? (fun a => (getSlot d a).active && (getSlot d a).cfg.stream == s)

/-- Pre-roll policy of a partition (R92). -/
def prePolicy (img : Image) (p : Nat) : Option PrePolicy := img.prePolicies.find? (fun r => r.part == p)

/-- Oldest sample present in a slot (R105). -/
def oldest (a : AudioSlot) : Nat := a.index - 32768

/-- Sample of an index that is present in a slot's region, else 0 (R105, R106). -/
def prerollAt (a : AudioSlot) (i : Nat) : Int := tabGet a.preroll (i % 32768) 0

/-- Extend a grant's copy with the samples that the slot holds (R85). -/
def fillGrant (a : AudioSlot) (g : Grant) : Grant :=
  let avail : Int := (a.index : Int) - g.start
  let n := min g.size avail.toNat
  { g with tile := g.tile ++ (List.range (n - g.tile.length)).map (fun k =>
      let i : Int := g.start + (g.tile.length + k : Nat)
      if i < (oldest a : Int) then 0 else prerollAt a i.toNat) }

/-- The grant of an admitted request (R84, R85) and its zero_filled. -/
def grantOf (d : Dev) (t : Nat) (q : WReq) : Option (Grant × Nat) :=
  match slotOfStream d q.w.stream, prePolicy d.img q.part with
  | some a, some p =>
    if videoFlag d.img q.w = false ∧ (q.w.source = 1 ∨ q.w.source = 2) ∧
        ((t = 2 ∧ bit p.flags 0 = true) ∨ (t = 3 ∧ bit p.flags 1 = true)) then
      let s := getSlot d a
      let start : Int := (q.w.onset : Int) - p.pre
      let size := p.pre + p.post
      let old : Int := max ((s.index : Int) - 1 - 32767) 0
      let zf := min size (old - start).toNat
      some (fillGrant s { start := start, size := size, tile := [], slot := a }, zf)
    else none
  | _, _ => none

/-- A wake request in its 16-byte form (Table 3.2). -/
def wakeBytes (img : Image) (q : WReq) : Bytes :=
  le 1 q.w.source ++ le 1 q.w.target ++ le 1 q.w.stream ++ le 1 q.part ++ le 1 q.w.cls ++
    le 1 (q.prio + 4 * b2n (videoFlag img q.w)) ++ le 2 q.w.score ++ le 8 q.w.onset

/-- The wake descriptor of an admitted request (Table 3.6). -/
def wakeDescriptor (img : Image) (q : WReq) (zeroFilled : Nat) (start : Int) : Bytes :=
  wakeBytes img q ++ le 4 q.arrival ++ le 4 zeroFilled ++ le 8 (start % 2 ^ 64).toNat

/-- The copy of a pre-roll window is complete: a transfer that the device issued itself (R284, R85). -/
def windowCopied (g : Grant) (d : Dev) : Dev :=
  let c := draw d
  modMover (Config.freeNat c.1 % 4) (fun m => { m with xfers := m.xfers + 1, granules := m.granules + ceilDiv (2 * g.size) 64 }) c.2

/-- Every place of a grant's window has been copied. -/
def Grant.full (g : Grant) : Bool := decide (g.size ≤ g.tile.length)

/-- Start of an audio graph's first hop (R107). -/
def firstHop (a : AudioSlot) (onset lookback : Nat) : Nat :=
  let h := (onset - 160 * lookback) / 160 * 160
  if oldest a ≤ h then h else ceilDiv (oldest a) 160 * 160

/-- Start the Perk instance of an admitted T1 request (R107). -/
def startPerk (q : WReq) (d : Dev) : Dev :=
  let g := perkOf d.img q.graph
  let inst : PerkInst :=
    match slotOfStream d q.w.stream with
    | some a =>
      let s := getSlot d a
      let onset := if q.w.input then s.index - 1 else q.w.onset
      { arrival := q.arrival, graph := q.graph, start := firstHop s onset g.lookback }
    | none => { arrival := q.arrival, graph := q.graph, seen := (tabGet d.audio.thumbs q.w.stream {}).received }
  { d with audio := { d.audio with insts := d.audio.insts ++ [inst] }, power := { d.power with perk := true } }

/-- Admit a routed request (R73 to R75): take the credit, floor before shared, and start what it woke. -/
def admitReq (t : Nat) (q : WReq) (d : Dev) : Dev :=
  let d0 := tap 0 t 0 q.part d
  let shared := floorFree d0 t q.part == 0
  let d1 := modTier t (fun x =>
    let y := { x with admits := x.admits + 1, idle := false }
    if shared then { y with sharedHeld := y.sharedHeld + 1 } else { y with held := tabMod y.held q.part 0 (fun n => n + 1) }) d0
  let g := if t = 1 then none else grantOf d1 t q
  let zf := (g.map (fun x => x.2)).getD 0
  let key := match q.turn with | some (n, _) => (getSession d1 n).key | none => 0
  let d2 := match q.turn with
    | some (n, _) => modSession n (fun s => { s with key := (s.key + 1) % 4294967296, prompt := [] }) d1
    | none => d1
  let words := match q.turn with | some (n, _) => (getSession d1 n).prompt | none => []
  let wd := wakeDescriptor d2.img q zf ((g.map (fun x => x.1.start)).getD 0)
  let r : Req := { tier := t, q := q, shared := shared, order := d2.nextOrder, sessKey := key, grant := g.map (fun x => x.1), zeroFilled := zf, prompt := words, descriptor := wd }
  let d3 := { d2 with reqs := d2.reqs ++ [r], nextOrder := d2.nextOrder + 1 }
  let dc := match g with | some x => if x.1.full then windowCopied x.1 d3 else d3 | none => d3
  let d4 := if zf = 0 then dc else modTier t (fun x => { x with clamp := x.clamp + 1 }) dc
  if t = 1 then startPerk q d4
  else
    let d5 := clustersUp d4
    if bit (policyOf d5.img q.part).ibiMask 2 then ibi 3 t q.w.stream q.part d5 else d5

/-- Candidates of a tier (R75, 1): the heads of the queues and the pending slots. -/
def candidates (x : Tier) : List WReq := (List.range 4).filterMap (fun p => (tabGet x.queues p []).head?) ++ x.pending

/-- One candidate goes before another (R75, 2 and 3): higher priority, then the lower arrival number modulo 2³². -/
def before (a b : WReq) : Bool :=
  decide (b.prio < a.prio) || (a.prio == b.prio && decide ((b.arrival + 4294967296 - a.arrival) % 4294967296 < 2147483648))

/-- Best candidate that R73 makes eligible. -/
def bestCandidate (d : Dev) (t : Nat) : Option WReq :=
  ((candidates (getTier d t)).filter (fun q => eligible d t q.part)).foldl
    (fun b q => match b with | some x => if before q x && x != q then some q else some x | none => some q) none

/-- Take one candidate out of its pending slot, or from the head of its queue. -/
def takeWaiting (q : WReq) (x : Tier) : Tier :=
  if q ∈ x.pending then { x with pending := x.pending.erase q }
  else match (List.range 4).find? (fun p => (tabGet x.queues p []).head? == some q) with
    | some p => { x with queues := tabMod x.queues p [] List.tail }
    | none => x

/-- Stage 3 of R76: take candidates in while one is eligible. -/
def admitAll (t : Nat) : Nat → Dev → Dev
  | 0, d => d
  | n + 1, d =>
    match bestCandidate d t with
    | none => d
    | some q => admitAll t n (admitReq t q (modTier t (takeWaiting q) d))

/-- One always-on cycle of the arbiter for a tier, before new arrivals (R76). -/
def arbitrateTier (t : Nat) (d : Dev) : Dev :=
  let d1 := shedResetting t (acceptReturns t d)
  admitAll t (waitingOf (getTier d1 t)).length d1

/-- One always-on cycle of the arbiter. -/
def arbitrate (d : Dev) : Dev := arbitrateTier 3 (arbitrateTier 2 (arbitrateTier 1 d))

/-- Queue or pend a request that cannot be admitted on arrival (R74). -/
def holdRequest (t : Nat) (q : WReq) (d : Dev) : Dev :=
  let x := getTier d t
  if videoFlag d.img q.w then
    match x.pending.find? (fun p => p.w.stream == q.w.stream) with
    | none => modTier t (fun y => { y with pending := y.pending ++ [q] }) d
    | some old =>
      let stays := if q.w.onset < old.w.onset then old else { q with arrival := old.arrival }
      record 0x55 (some q.part) (6, t) (modTier t (fun y =>
        { y with pending := replaceFirst (fun p => p.w.stream == q.w.stream) stays y.pending, coalesce := y.coalesce + 1 }) d)
  else
    let rec_ := tierRec d.img t
    let depth := if q.prio = 0 then rec_.d0 else if q.prio = 1 then rec_.d1 else if q.prio = 2 then rec_.d2 else rec_.d3
    let l := tabGet x.queues q.prio []
    if depth = 0 then shed t q d
    else if l.length < depth then modTier t (fun y => { y with queues := tabSet y.queues q.prio (l ++ [q]) }) d
    else match l with
      | [] => d
      | old :: rest => shed t old (modTier t (fun y => { y with queues := tabSet y.queues q.prio (rest ++ [q]) }) d)

/-- A wake request arrives (R72, R76 stage 4, R342): unrouted, shed, admitted at once, or held. The number of the arrival is
answered, none when it was not counted. -/
def arrive (w : Wake) (turn : Option (Nat × Nat)) (d0 : Dev) : Option Nat × Dev :=
  if !live d0 then (none, d0)
  else
    let t := w.target
    match routeOf d0.img t w.stream w.cls with
    | none => (none, info 0x56 (modTier t (fun x => { x with unrouted := x.unrouted + 1 }) d0))
    | some r =>
      let d := arbitrate d0
      let x := getTier d t
      let q : WReq := { w := w, part := r.part, prio := r.prio % 4, graph := r.graph, arrival := x.next, turn := turn }
      let d1 := modTier t (fun y => { y with next := (y.next + 1) % 4294967296, arrive := y.arrive + 1, idle := false }) d
      let lane := t != 1 && w.source != 3 && w.stream != 255
      let top := tabGet x.highest w.stream 0
      let d2 :=
        if (getPart d1 r.part).resetting then shed t q d1
        else if lane ∧ w.onset < top then
          shed t q (modSched (fun c => { c with stale := c.stale + 1 }) d1)
        else
          let e := if lane then modTier t (fun y => { y with highest := tabSet y.highest w.stream w.onset }) d1 else d1
          if eligible e t r.part then admitReq t q e else holdRequest t q e
      (some q.arrival, d2)

/-- A wake request of the device's own sources. -/
def wake (w : Wake) (d : Dev) : Dev := (arrive w none d).2

/-- Latency bound of a tier in always-on cycles (R80). -/
def latBound (t : Nat) : Nat := if t = 1 then 12288 else if t = 2 then 30720 else 184320

/-- The latency of an admitted request is measured (R80), once. -/
def measureLatency (o latency : Nat) (d : Dev) : Dev :=
  match req? d o with
  | none => d
  | some r =>
    if r.measured then d
    else
      let d1 := modReq o (fun x => { x with measured := true }) d
      let d2 := modTier r.tier (fun x => { x with latMax := w32 (max x.latMax.toNat latency) }) d1
      if latBound r.tier < latency then
        record 0x57 (some r.q.part) (6, r.tier) (modTier r.tier (fun x => { x with late := x.late + 1 }) d2)
      else d2

/-- Table 3.1: which source may wake which tier (R68). -/
def mayWake (source target : Nat) : Bool :=
  [(0, 1), (1, 2), (4, 2), (3, 2), (3, 3), (2, 3)].contains (source, target)

/-- A source without a confidence of its own carries score 65,535 (R69). -/
def scored (w : Wake) : Wake := if w.input ∨ w.source = 3 ∨ w.source = 4 then { w with score := 65535 } else w

/-- WAKE_ARRIVAL (R76): a request arrives; one from any other source, or to any other target, than Table 3.1 allows does not occur
(R68). -/
def execWakeArrival (w : Wake) (s : State) : Result :=
  unlessWf (.wakeArrival w) s (devStep (fun d => if mayWake w.source w.target then wake (scored w) d else d) s)

/-- ARBITER_CYCLE (R76). -/
def execArbiterCycle (s : State) : Result := devStep (fun d => if live d then arbitrate d else d) s

/-- IDLE_HOLD_EXPIRY (R88): the tier has been idle for idle_hold cycles; the Perk domain goes when nothing else needs it, the
clusters when T2 and T3 have both been idle for their hold. -/
def execIdleHoldExpiry (tier : Fin 3) (s : State) : Result :=
  devStep (fun d =>
    let t := tier.val + 1
    if !live d || !tierIdle d t then d
    else
      let d1 := modTier t (fun x => { x with idle := true }) d
      if d1.power.clusters != 0 && d1.boot.step == .running && (getTier d1 2).idle && (getTier d1 3).idle &&
          tierIdle d1 2 && tierIdle d1 3 then clustersDown d1
      else d1) s

end Sys2Proof.Machine
end

