-- ==== Sys2Proof/Machine/Audio.lean ====
section
/-! DEFINITION. Audio intake, the energy detector, the pre-roll buffer, the wake inputs and Perk (R70, R93 to R108, R120, R134). -/

namespace Sys2Proof.Machine

/-! ### Samples -/

/-- The magnitude a, in 2⁻¹⁶ of an output step, times a gain of g half decibels, is at least r − ½ output steps: both sides to the
fortieth power, so that the gain's 10^(g ÷ 40) is exact (log 10). -/
def gainReaches (g : Int) (a r : Nat) : Bool :=
  decide (((2 * r - 1) * 32768) ^ 40 * 10 ^ (-g).toNat ≤ a ^ 40 * 10 ^ g.toNat)

/-- The magnitude under the gain, rounded to nearest even, up to 2^bits: the largest r that is reached, from its highest bit down,
and one less where a tie left it odd. -/
def gainRound (bits : Nat) (g : Int) (a : Nat) : Nat :=
  let r := (List.range (bits + 1)).foldr (fun k r => if gainReaches g a (r + 2 ^ k) then r + 2 ^ k else r) 0
  if r % 2 = 1 ∧ ((2 * r - 1) * 32768) ^ 40 * 10 ^ (-g).toNat = a ^ 40 * 10 ^ g.toNat then r - 1 else r

/-- Output sample of a chain's value after the FIR, in 2⁻¹⁶ of an output step: the stream's gain is applied, the result rounded to
nearest even and saturated (R97); the second result says that it saturated. -/
def outSample (bits : Nat) (g v : Int) : Int × Bool :=
  let m := (gainRound bits g v.natAbs : Int)
  let r := if v < 0 then -m else m
  let c := clampInt (-(2 ^ (bits - 1) : Int)) (2 ^ (bits - 1) - 1) r
  (c, c != r)

/-- Values before the gain of the three 48 kHz outputs that belong to a stream's next 16 kHz sample: for a TDM slot the received
words themselves (Table 4.2: gain only), as old as R99's delay of the shorter chain makes them (free value, log 113); for a microphone
what its chain computed. -/
def high48 (d : Dev) (a : AudioSlot) (high : List Int) : List Int :=
  if a.cfg.kind = 0 then high
  else (List.range 3).map (fun j => 65536 * (d.audio.tdm.getD (Config.tdmDelay % 48 + (2 - j)) []).getD a.cfg.source 0)

/-- Value before the gain of a stream's next 16 kHz sample, in 2⁻¹⁶ of an output step: of a TDM slot the FIR of 48 taps over its last
frames (Table 4.2), whose coefficients are free values (log 10); for a microphone what its chain computed. -/
def low16 (d : Dev) (a : AudioSlot) (value : Int) : Int :=
  if a.cfg.kind = 0 then value
  else ((List.range 48).map (fun k => Config.tdmTap k * (d.audio.tdm.getD k []).getD a.cfg.source 0)).sum

/-- The slot delivers replacement samples now (R101): its line is stuck, or its TDM input is not locked. -/
def replaced (d : Dev) (a : AudioSlot) : Bool :=
  if a.cfg.kind = 0 then d.audio.stuck.getLsbD (a.cfg.source / 2 % 8) else !d.audio.tdmLocked

/-- The exact level reaches k − 1,024: m ÷ 32,768² ≥ 10^((2E − 1) ÷ 160), a half-way value rounding up; energy is 64 m. -/
def levelReaches (energy k : Nat) : Bool := decide (2 ^ 5760 ≤ energy ^ 160 * 10 ^ (2049 - 2 * k))

/-- Rounded exact level of a frame whose squares sum to energy, 64 of them (R102 bounds what Sniff computes by it): the largest
that is reached, from its highest bit down. -/
def exactLevel (energy : Nat) : Int :=
  let k := [1024, 512, 256, 128, 64, 32, 16, 8, 4, 2, 1].foldl
    (fun k b => if k + b ≤ 1024 ∧ levelReaches energy (k + b) = true then k + b else k) 0
  (k : Int) - 1024

/-- Level E that Sniff computes: within 1 unit of the exact one (R102; free value, log 11), −1,024 for a silent frame. -/
def frameLevel (energy : Nat) (d : Dev) : Int × Dev :=
  if energy = 0 then (-1024, d)
  else
    let r := draw d
    (clampInt (-1024) 0 (exactLevel energy + ((Config.freeNat r.1 % 3 : Nat) : Int) - 1), r.2)

/-- Floor F rounded down to an integer. -/
def floorInt (a : AudioSlot) : Int := a.floor / 65536

/-- Floor after a frame of level E (R103). -/
def nextFloor (a : AudioSlot) (e : Int) : Int :=
  let df := e * 65536 - a.floor
  let shift := if df < 0 then a.cfg.fall else a.cfg.rise
  clampInt (-1024 * 65536) 0 (a.floor + df / (2 ^ shift : Nat))

/-- The detector takes a frame that is not skipped (R103); the second result is the wake's onset and score (R104). -/
def detect (frame : Nat) (e : Int) (a : AudioSlot) : AudioSlot × Option (Nat × Nat) :=
  let fi := floorInt a
  let qualifies := decide (fi + a.cfg.threshold ≤ e)
  let b := { a with floor := nextFloor a e }
  if a.armed && qualifies then
    let first := if a.run = 0 then frame else a.runFrame
    if a.run + 1 = a.cfg.hold then
      ({ b with armed := false, run := 0, runFrame := first, decide := b.decide + 1 }, some (64 * first, min 65535 (32 * (e - fi)).toNat))
    else ({ b with run := a.run + 1, runFrame := first }, none)
  else ({ b with run := 0, armed := a.armed || !qualifies }, none)

/-- The frame that ends with the newest sample (R102 to R104). -/
def endFrame (slot : Nat) (d : Dev) : Dev :=
  let a := getSlot d slot
  if a.index % 64 != 0 || a.skip || decide (a.index < 320) then d
  else
    let r := frameLevel a.energy d
    let b := { getSlot r.2 slot with level := r.1 }
    if bit a.cfg.flags 1 then
      let k := detect (a.index / 64 - 1) r.1 b
      let d1 := modSlot slot (fun _ => k.1) r.2
      match k.2 with
      | some w => wake { source := 0, target := 1, stream := a.cfg.stream, cls := a.cfg.cls, score := w.2, onset := w.1 } d1
      | none => d1
    else modSlot slot (fun _ => b) r.2

/-- Copy the newest samples to the grants that wait for them (R85). -/
def fillGrants (slot : Nat) (d : Dev) : Dev :=
  let fill (g : Grant) : Grant := if g.slot = slot then fillGrant (getSlot d slot) g else g
  let done := d.reqs.filterMap (fun r => r.grant.bind (fun g => if !g.full && (fill g).full then some g else none))
  done.foldl (fun e g => windowCopied g e) { d with reqs := d.reqs.map (fun r => { r with grant := r.grant.map fill }) }

/-- A sample of the slot may be due: a TDM stream that is locked makes one of every three frames (Table 4.2). -/
def sampleDue (d : Dev) (a : AudioSlot) : Bool := a.cfg.kind == 0 || replaced d a || a.frames == 3

/-- A slot takes its next samples (R97 to R99, R101, R105). -/
def pushSample (rep : Bool) (value : Int) (high : List Int) (a : AudioSlot) : AudioSlot :=
  let s := if rep then (0, false) else outSample 16 a.cfg.gain value
  let h := (List.range 3).map (fun i => if rep then 0 else (outSample 24 a.cfg.gain (high.getD i 0)).1)
  let fresh := a.index % 64 == 0
  let x := s.1
  { a with
    index := a.index + 1
    frames := 0
    preroll := tabSet a.preroll (a.index % 32768) x
    energy := (if fresh then 0 else a.energy) + (x * x).toNat
    skip := (!fresh && a.skip) || rep
    filled := a.filled + (if rep then (if bit a.cfg.flags 0 then 4 else 1) else 0)
    saturated := a.saturated + (if s.2 then 1 else 0)
    index48 := if bit a.cfg.flags 0 then a.index48 + 3 else a.index48
    last48 := if bit a.cfg.flags 0 then h else a.last48 }

/-- A stream produces its next sample. -/
def audioSample (slot : Nat) (value : Int) (high : List Int) (d : Dev) : Dev :=
  if (getSlot d slot).active && sampleDue d (getSlot d slot) then
    let stream := (getSlot d slot).cfg.stream
    let d1 := tap 6 stream 0 ((streamOwner d.img stream).getD 0) d
    endFrame slot (fillGrants slot (modSlot slot (fun a => pushSample (replaced d1 a) (low16 d1 a value) (high48 d1 a high) a) d1))
  else d

/-- AUDIO_SAMPLE (R98): the next 16 kHz sample of the slot's stream, and the 48 kHz samples of the same instant when that output
runs. The operands are what the chains of a microphone, whose coefficients the spec does not give, computed after their FIR, in 2⁻¹⁶ of
an output step; the gain, the rounding and the saturation follow here (log 10). -/
def execAudioSample (slot : Fin 8) (value : Int) (high : List Int) (s : State) : Result :=
  devStep (audioSample slot.val value high) s

/-! ### Source failures (R101) -/

/-- The PDM line is enabled. -/
def lineInUse (d : Dev) (line : Nat) : Bool := bit d.audio.input.pdmLines line

/-- The TDM input is enabled. -/
def tdmInUse (d : Dev) : Bool := d.audio.input.tdmEnable == 1

/-- PDM_LINE_STUCK. -/
def execPdmLineStuck (line : Fin 8) (s : State) : Result :=
  devStep (fun d =>
    if lineInUse d line.val && !d.audio.stuck.getLsbD line.val then
      info 0x58 { d with audio := { d.audio with stuck := d.audio.stuck ||| BitVec.ofNat 8 (2 ^ line.val) } }
    else d) s

/-- PDM_LINE_RECOVER: the last of the zeros after the line's change has been delivered. -/
def execPdmLineRecover (line : Fin 8) (s : State) : Result :=
  devStep (fun d => { d with audio := { d.audio with stuck := d.audio.stuck &&& ~~~ BitVec.ofNat 8 (2 ^ line.val) } }) s

/-- The 24 most significant bits of a TDM slot of 16, 24 or 32 bits (R94): a slot of 16 bits is padded with zeros below. -/
def tdmSlot (bits : Nat) (v : Int) : Int := v * 16777216 / 2 ^ bits

/-- TDM frames that an output may still take (R99). -/
def tdmKept : Nat := 50

/-- A good frame arrives; the sixteenth in a row locks the input (R101). -/
def tdmFrame (slots : List Int) (a : Audio) : Audio :=
  let n := min 16 (a.tdmGood + 1)
  { a with slots := tabMap a.slots (fun _ s => if s.cfg.kind = 0 then s else { s with frames := min 3 (s.frames + 1) })
           tdm := ((slots.take a.input.tdmSlots).map (tdmSlot a.input.slotBits) :: a.tdm).take tdmKept
           tdmGood := n, tdmLocked := a.tdmLocked || n == 16 }

/-- TDM_FRAME_SYNC (R94): the slots of a good frame, each a signed word of the slot's bits. -/
def execTdmFrameSync (slots : List Int) (s : State) : Result :=
  unlessWf (.tdmFrameSync slots) s (devStep (fun d => if tdmInUse d then { d with audio := tdmFrame slots d.audio } else d) s)

/-- TDM_LOST: frames count anew; a cause code is recorded only when the input had been acquired. -/
def execTdmLost (s : State) : Result :=
  devStep (fun d =>
    let d1 : Dev := { d with audio := { d.audio with tdmLocked := false, tdmGood := 0 } }
    if d.audio.tdmLocked then info 0x59 d1 else d1) s

/-- TDM_LOCK: the sixteenth consecutive good frame has arrived. -/
def execTdmLock (s : State) : Result :=
  devStep (fun d => if tdmInUse d then { d with audio := { d.audio with tdmLocked := true, tdmGood := 16 } } else d) s

/-! ### Wake inputs (R69, R70, R134, Table 3.11) -/

/-- An event on a wake input that the image names: counted, and a T0 to T1 request issued. A pin that stands at its active level when
the image is accepted issues none before its next change to it (DESIGN CHOICE, log 122). -/
def inputEvent (input : Nat) (d : Dev) : Dev :=
  match d.img.wakeInputs.find? (fun r => r.input == input) with
  | none => d
  | some r =>
    let n := tabGet d.audio.events input 0
    let d1 := { d with audio := { d.audio with events := tabSet d.audio.events input ((n + 1) % 2 ^ 48) } }
    wake { source := 0, target := 1, stream := r.stream, cls := r.cls, score := 65535, onset := n, input := true } d1

/-- WAKE_INPUT_EDGE: a GPIO pin takes a level; the input becomes active on a change to its active level. -/
def execWakeInputEdge (input : Fin 16) (level : Bool) (s : State) : Result :=
  devStep (fun d =>
    let old := d.audio.gpio.getLsbD input.val
    let m := BitVec.ofNat 16 (2 ^ input.val)
    let d1 := { d with audio := { d.audio with gpio := if level then d.audio.gpio ||| m else d.audio.gpio &&& ~~~ m } }
    match d1.img.wakeInputs.find? (fun r => r.input == input.val) with
    | some r => if live d1 && old != level && level == bit r.mode 1 then inputEvent input.val d1 else d1
    | none => d1) s

/-- SENSOR_IBI (R134): the payload is discarded. -/
def execSensorIbi (sensor : Fin 32) (payload : Bytes) (s : State) : Result :=
  unlessWf (.sensorIbi sensor payload) s (devStep (fun d =>
    if live d && (getSensor d sensor.val).joined &&
        d.img.sensors.any (fun r => r.sensor == sensor.val && bit r.flags 1) then inputEvent (0x10 + sensor.val) d
    else d) s)

/-! ### Perk (R106 to R108) -/

/-- The T1 request of an instance. -/
def perkReq (d : Dev) (p : PerkInst) : Option Req := d.reqs.find? (fun r => r.tier == 1 && r.q.arrival == p.arrival && r.ended.isNone)

/-- First sample of the instance's next window (R107). -/
def hopStart (p : PerkInst) : Nat := p.start + 160 * p.steps

/-- What the instance's next step reads is there (R107). -/
def perkReady (d : Dev) (p : PerkInst) : Bool :=
  match perkReq d p with
  | none => false
  | some r =>
    if (perkOf d.img p.graph).inputKind = 0 then
      match slotOfStream d r.q.w.stream with
      | some a => decide (hopStart p + 400 ≤ (getSlot d a).index)
      | none => false
    else decide (p.seen < (tabGet d.audio.thumbs r.q.w.stream {}).received)

/-- The instance of the lowest arrival number. -/
def firstArrived (l : List PerkInst) : Option PerkInst :=
  l.foldl (fun b p => match b with
    | some x => if p.arrival < x.arrival then some p else some x
    | none => some p) none

/-- The instance whose turn it is, in order of arrival number after the one that stepped last (R107). A thumbnail instance that no
thumbnail has reached yet is passed over, since its step is what the thumbnail's arrival brings (DEDUCED, log 114). -/
def turnOf (d : Dev) : Option PerkInst :=
  let l := d.audio.insts.filter (fun p => (perkOf d.img p.graph).inputKind == 0 || perkReady d p)
  (firstArrived (l.filter (fun p => d.audio.turn.all (fun t => decide (t < p.arrival))))).or (firstArrived l)

/-- The instance that can step: the one whose turn it is, unless it reads a sample that is not produced yet: that stalls Perk
itself (R106), not the instance alone. -/
def perkTurn (d : Dev) : Option PerkInst := (turnOf d).filter (perkReady d)

/-- score_k of an output (R108). -/
def perkScore (q : Int) : Nat := ((q + 128) * 257).toNat

/-- Highest score and its lowest class. -/
def bestClass (outs : List Int) : Nat × Nat :=
  (outs.zipIdx.foldl (fun (b : Option (Nat × Nat)) o =>
    match b with
    | some x => if x.1 < perkScore o.1 then some (perkScore o.1, o.2) else some x
    | none => some (perkScore o.1, o.2)) none).getD (0, 0)

/-- What a step consumes: the samples of its window, with what is no longer present (R106), or a thumbnail (R107, R120). -/
def perkInput (p : PerkInst) (r : Req) (d : Dev) : PerkInst × Dev :=
  if (perkOf d.img p.graph).inputKind = 0 then
    let old := ((slotOfStream d r.q.w.stream).map (fun a => oldest (getSlot d a))).getD 0
    let late := min 400 (old - hopStart p)
    (p, if late = 0 then d else
      info 0x5A { d with audio := { d.audio with overrun := addW d.audio.overrun late } })
  else
    let th := tabGet d.audio.thumbs r.q.w.stream {}
    let n := max p.seen (th.received - 2)
    let t : Thumbs := { th with read := th.read ||| BitVec.ofNat 2 (2 ^ (n % 2)) }
    ({ p with seen := n + 1 }, { d with audio := { d.audio with thumbs := tabSet d.audio.thumbs r.q.w.stream t } })

/-- Pre-roll SRAM and Perk SRAM under injection (class 0x1, instances 0x21 and 0x20): the second result says that the step met an
uncorrectable error of Perk SRAM. -/
def perkInject (d : Dev) : Bool × Dev :=
  let d1 := match armedOn d 1 0x21 with
    | some 0 => recordAt 0x10 none (0, 0) none true (fired d)
    | some _ => recordAt 0x13 none (0, 0) none true (fired d)
    | none => d
  match armedOn d1 1 0x20 with
  | some 0 => (false, recordAt 0x10 none (0, 0) none true (fired d1))
  | some _ => (true, fired d1)
  | none => (false, d1)

/-- The instance ends on an uncorrectable error of Perk SRAM (R108). -/
def perkFail (r : Req) (inj : Bool) (d : Dev) : Dev :=
  endReqs [r.order] 0x17 (recordAt 0x17 (some r.q.part) (6, 1) none inj d)

/-- One step of the instance whose turn it is. -/
def perkStep (arrival : Nat) (outs : List Int) (busy latency : Nat) (d : Dev) : Dev :=
  match perkTurn d with
  | none => d
  | some p =>
    let g := perkOf d.img p.graph
    match perkReq d p with
    | none => d
    | some r =>
      if p.arrival != arrival || !d.power.perk || !live d || outs.length != g.outputs || (blobBytes d g.blob).isEmpty then d
      else
        let i := perkInject (measureLatency r.order latency d)
        if i.1 then perkFail r true i.2
        else
          let c := perkInput p r i.2
          let d1 := { c.2 with audio := { c.2.audio with busy := addW c.2.audio.busy busy, turn := some arrival } }
          let rest := d1.audio.insts.filter (fun x => x.arrival != arrival)
          let best := bestClass outs
          if g.wakeScore ≤ best.1 then
            let d2 := finishReq r.order { d1 with audio := { d1.audio with insts := rest, wakes := d1.audio.wakes + 1 } }
            wake { source := 1, target := 2, stream := r.q.w.stream, cls := g.classBase + best.2, score := best.1,
                   onset := r.q.w.onset, input := r.q.w.input } d2
          else if g.maxSteps ≤ p.steps + 1 then
            finishReq r.order { d1 with audio := { d1.audio with insts := rest, expired := d1.audio.expired + 1 } }
          else { d1 with audio := { d1.audio with insts := rest ++ [{ c.1 with steps := p.steps + 1 }] } }

/-- PERK_STEP (R107, R108): the instance of this arrival number makes a step whose graph computed these outputs, with the array busy
for so many cycles; latency is what R80 measures at the first step. -/
def execPerkStep (arrival : Nat) (outputs : List Int) (busy latency : Nat) (s : State) : Result :=
  unlessWf (.perkStep arrival outputs busy latency) s (devStep (perkStep arrival outputs busy latency) s)

/-- PERK_SRAM_UNCORRECTABLE (R108). -/
def execPerkSramUncorrectable (arrival : Nat) (s : State) : Result :=
  devStep (fun d =>
    match (d.audio.insts.find? (fun p => p.arrival == arrival)).bind (perkReq d) with
    | some r => if live d && d.power.perk then perkFail r false d else d
    | none => d) s

end Sys2Proof.Machine
end

