-- ==== Sys2Proof/Machine/Arith.lean ====
section
/-! DEFINITION. Number formats (R159 to R167, Table 7.1, Table 7.2): exact values, fp32 arithmetic with its exceptions (R162),
decoding of operands and conversion to narrower formats. -/

namespace Sys2Proof.Machine

/-- A number as the arrays see it: an exact dyadic value m × 2^e with its sign, an infinity, or NaN. -/
inductive Num where
  | nan
  | inf (neg : Bool)
  | fin (neg : Bool) (m : Nat) (e : Int)
  deriving DecidableEq, Repr

/-- The canonical NaN (R162). -/
def canonicalNan : Word := 0x7FC00000#32

/-- A sign and a magnitude as an integer. -/
def signedNat (neg : Bool) (m : Nat) : Int := if neg then -(m : Int) else m

/-- Scale n ÷ d by 2^k: numerator and denominator. -/
def scaleRat (n d : Nat) (k : Int) : Nat × Nat := if 0 ≤ k then (n * 2 ^ k.toNat, d) else (n, d * 2 ^ (-k).toNat)

/-- floor(log2(n ÷ d)) for positive n and d. -/
def floorLog (n d : Nat) : Int :=
  let e : Int := (Nat.log2 n : Int) - (Nat.log2 d : Int)
  let s := scaleRat n d (-e)
  if s.1 < s.2 then e - 1 else e

/-- Round n ÷ d to nearest even at a unit of 2^q. -/
def roundUnit (n d : Nat) (q : Int) : Nat := let s := scaleRat n d (-q); (roundHalfEven s.1 s.2).toNat

/-- fp32 encoding of ±n ÷ d: rounded to nearest even, a subnormal result written as zero, overflow as infinity (R162). -/
def ratToF32 (neg : Bool) (n d : Nat) : Word :=
  let sign : Nat := if neg then 2147483648 else 0
  if n = 0 then BitVec.ofNat 32 sign
  else
    let q := max (floorLog n d - 23) (-149)
    let m := roundUnit n d q
    if m < 8388608 then BitVec.ofNat 32 sign
    else
      let m2 := if m = 16777216 then 8388608 else m
      let q2 := if m = 16777216 then q + 1 else q
      let ex := q2 + 150
      if 255 ≤ ex then BitVec.ofNat 32 (sign + 0x7F800000) else BitVec.ofNat 32 (sign + ex.toNat * 8388608 + (m2 - 8388608))

/-- The number an fp32 encoding stands for, a subnormal read as zero (R162). -/
def ofF32 (w : Word) : Num :=
  let v := w.toNat
  let neg := decide (2147483648 ≤ v)
  let ex := v / 8388608 % 256
  let fr := v % 8388608
  if ex = 255 then (if fr = 0 then .inf neg else .nan) else if ex = 0 then .fin neg 0 0 else .fin neg (8388608 + fr) ((ex : Int) - 150)

/-- fp32 encoding of a number. -/
def toF32 : Num → Word
  | .nan => canonicalNan
  | .inf neg => if neg then 0xFF800000#32 else 0x7F800000#32
  | .fin neg m e => let s := scaleRat m 1 e; ratToF32 neg s.1 s.2

/-- Exact value of a sum, with IEEE signs of zero. -/
def addNum : Num → Num → Num
  | .nan, _ => .nan
  | _, .nan => .nan
  | .inf a, .inf b => if a = b then .inf a else .nan
  | .inf a, .fin _ _ _ => .inf a
  | .fin _ _ _, .inf b => .inf b
  | .fin a m e, .fin b n f =>
    let q := min e f
    let s := signedNat a (m * 2 ^ (e - q).toNat) + signedNat b (n * 2 ^ (f - q).toNat)
    if s = 0 then .fin (a && b) 0 0 else .fin (decide (s < 0)) s.natAbs q

/-- Exact product. -/
def mulNum : Num → Num → Num
  | .nan, _ => .nan
  | _, .nan => .nan
  | .inf a, .inf b => .inf (a != b)
  | .inf a, .fin b n _ => if n = 0 then .nan else .inf (a != b)
  | .fin a m _, .inf b => if m = 0 then .nan else .inf (a != b)
  | .fin a m e, .fin b n f => .fin (a != b) (m * n) (e + f)

/-- fp32 addition (R162). -/
def fAdd (x y : Word) : Word := toF32 (addNum (ofF32 x) (ofF32 y))

/-- fp32 multiplication (R162). -/
def fMul (x y : Word) : Word := toF32 (mulNum (ofF32 x) (ofF32 y))

/-- fp32 division (R162). -/
def fDiv (x y : Word) : Word :=
  match ofF32 x, ofF32 y with
  | .nan, _ => canonicalNan
  | _, .nan => canonicalNan
  | .inf _, .inf _ => canonicalNan
  | .inf a, .fin b _ _ => toF32 (.inf (a != b))
  | .fin a _ _, .inf b => toF32 (.fin (a != b) 0 0)
  | .fin a m e, .fin b n f =>
    if n = 0 then (if m = 0 then canonicalNan else toF32 (.inf (a != b)))
    else let s := scaleRat m n (e - f); ratToF32 (a != b) s.1 s.2

/-- fp32 negation. -/
def fNeg (x : Word) : Word := x ^^^ 0x80000000#32

/-- fp32 subtraction. -/
def fSub (x y : Word) : Word := fAdd x (fNeg y)

/-- x < y; false with NaN. -/
def fLt (x y : Word) : Bool :=
  match ofF32 x, ofF32 y with
  | .nan, _ => false
  | _, .nan => false
  | .inf a, .inf b => a && !b
  | .inf a, .fin _ _ _ => a
  | .fin _ _ _, .inf b => !b
  | .fin a m e, .fin b n f => let q := min e f
    decide (signedNat a (m * 2 ^ (e - q).toNat) < signedNat b (n * 2 ^ (f - q).toNat))

/-- The larger of two values; NaN when either is NaN. -/
def fMax (x y : Word) : Word :=
  if ofF32 x = .nan ∨ ofF32 y = .nan then canonicalNan else if fLt x y then y else x

/-- The encoding stands for zero (a subnormal reads as zero). -/
def fIsZero (x : Word) : Bool := match ofF32 x with | .fin _ 0 _ => true | _ => false

/-- fp32 of an integer, rounded to nearest even. -/
def fOfInt (v : Int) : Word := ratToF32 (decide (v < 0)) v.natAbs 1

/-- 2^k as fp32. -/
def fPow2 (k : Int) : Word := toF32 (.fin false 1 k)

/-- The fp32 encoding is finite (a validation rule of R171). -/
def fFinite (w : Nat) : Bool := w / 8388608 % 256 != 255

/-! ### Operand formats -/

/-- A small float: exponent bits, mantissa bits, bias, and how its all-ones exponent reads (0 ordinary, 1 E4M3's NaN only, 2 IEEE). -/
def decodeMini (eb mb : Nat) (bias : Int) (special : Nat) (v : Nat) : Num :=
  let neg := v.testBit (eb + mb)
  let ex := v / 2 ^ mb % 2 ^ eb
  let fr := v % 2 ^ mb
  if special = 2 ∧ ex = 2 ^ eb - 1 then (if fr = 0 then .inf neg else .nan)
  else if special = 1 ∧ ex = 2 ^ eb - 1 ∧ fr = 2 ^ mb - 1 then .nan
  else if ex = 0 then .fin neg fr (1 - bias - mb)
  else .fin neg (2 ^ mb + fr) ((ex : Int) - bias - mb)

/-- Value of an element of a format code (Table 7.1); variant 1 selects E5M2 or E3M2 of MXFP8 and MXFP6. A subnormal bf16 is read
as zero (R162). -/
def decodeElem (fmt variant v : Nat) : Num :=
  match fmt with
  | 0 => let s := signed 2 (v % 4); .fin (decide (s < 0)) s.natAbs 0
  | 1 => let s := signed 4 (v % 16); .fin (decide (s < 0)) s.natAbs 0
  | 2 => let s := signed 8 (v % 256); .fin (decide (s < 0)) s.natAbs 0
  | 3 => decodeMini 4 3 7 1 (v % 256)
  | 4 => decodeMini 5 2 15 2 (v % 256)
  | 5 => if variant = 0 then decodeMini 4 3 7 1 (v % 256) else decodeMini 5 2 15 2 (v % 256)
  | 6 => if variant = 0 then decodeMini 2 3 1 0 (v % 64) else decodeMini 3 2 3 0 (v % 64)
  | 7 => decodeMini 2 1 1 0 (v % 16)
  | 8 => let s := signed 8 (v % 256); .fin (decide (s < 0)) s.natAbs (-6)
  | 9 => ofF32 (BitVec.ofNat 32 (v % 65536 * 65536))
  | 10 => decodeMini 5 10 15 2 (v % 65536)
  | _ => ofF32 (BitVec.ofNat 32 v)

/-- Integer value of an element of an integer format. -/
def intElem (fmt v : Nat) : Int :=
  match fmt with
  | 0 => signed 2 (v % 4)
  | 1 => signed 4 (v % 16)
  | _ => signed 8 (v % 256)

/-- E8M0 scale 2^(e − 127), or NaN (R160). -/
def decodeE8M0 (e : Nat) : Num := if e % 256 = 255 then .nan else .fin false 1 ((e % 256 : Nat) - 127)

/-! ### Conversion (Table 7.2, R164, R165) -/

/-- A converted element: its encoding, and whether it was clipped and whether its input was not finite. -/
structure Conv where
  bits : Nat := 0
  clipped : Bool := false
  nonfinite : Bool := false
  deriving DecidableEq, Repr

/-- Encode ±n ÷ d in a small float with gradual underflow; none beyond the largest finite magnitude maxM × 2^maxE. -/
def encodeMini (eb mb : Nat) (bias : Int) (neg : Bool) (n d maxM : Nat) (maxE : Int) : Option Nat :=
  let sign := if neg then 2 ^ (eb + mb) else 0
  if n = 0 then some sign
  else
    let q := max (floorLog n d - mb) (1 - bias - mb)
    let m := roundUnit n d q
    let q2 := if m = 2 ^ (mb + 1) then q + 1 else q
    let m2 := if m = 2 ^ (mb + 1) then 2 ^ mb else m
    let low := min q2 maxE
    if maxM * 2 ^ (maxE - low).toNat < m2 * 2 ^ (q2 - low).toNat then none
    else if m2 < 2 ^ mb then some (sign + m2)
    else some (sign + (q2 + bias + mb).toNat * 2 ^ mb + (m2 - 2 ^ mb))

/-- A magnitude n ÷ d exceeds m × 2^e. -/
def exceeds (n d m : Nat) (e : Int) : Bool := let s := scaleRat m 1 e; decide (s.1 * d < n * s.2)

/-- Range and saturation of a small float target: its largest finite magnitude m × 2^e, its exponent bits, mantissa bits and bias. -/
def floatTarget (fmt variant : Nat) : Nat × Int × Nat × Nat × Int :=
  match fmt with
  | 3 => (14, 5, 4, 3, 7)
  | 4 => (7, 13, 5, 2, 15)
  | 5 => if variant = 0 then (14, 5, 4, 3, 7) else (7, 13, 5, 2, 15)
  | 6 => if variant = 0 then (15, -1, 2, 3, 1) else (7, 2, 3, 2, 3)
  | 7 => (3, 1, 2, 1, 1)
  | 10 => (2047, 5, 5, 10, 15)
  | _ => (255, 120, 8, 7, 127)

/-- Encoding of the largest finite magnitude of a small float target. -/
def floatMaxBits (fmt variant : Nat) : Nat :=
  let t := floatTarget fmt variant
  ((encodeMini t.2.2.1 t.2.2.2.1 t.2.2.2.2 false (scaleRat t.1 1 t.2.1).1 (scaleRat t.1 1 t.2.1).2 t.1 t.2.1)).getD 0

/-- Largest and smallest value of an integer format. -/
def intRange (fmt : Nat) : Int × Int := if fmt = 0 then (-2, 1) else if fmt = 1 then (-8, 7) else (-128, 127)

/-- Convert an exact rational v ÷ d to an integer format with a zero point, as R170 and R171 clamp it. It is clipped where its value
with the zero point lies outside the largest magnitude of Table 7.1 (R165; DEDUCED, log 60). -/
def convInt (fmt : Nat) (z : Int) (v : Int) (d : Nat) : Conv :=
  let r := intRange fmt
  let q := roundHalfEven v d + z
  let c := clampInt r.1 r.2 q
  { bits := (c % (2 ^ (formatBits' fmt) : Nat)).toNat, clipped := decide (-r.1 * d < (v + z * d).natAbs) }
where
  /-- bits of an integer format -/
  formatBits' (f : Nat) : Nat := if f = 0 then 2 else if f = 1 then 4 else 8

/-- Convert a number to a format (Table 7.2); MX element formats saturate. For fp8 E4M3 as a scalar, NaN is 0x7F. -/
def convert (fmt variant : Nat) (z : Int) (x : Num) : Conv :=
  match x with
  | .nan => { nonfinite := true, clipped := decide (fmt < 3), bits :=
      match fmt with | 3 => 0x7F | 4 => 0x7E | 9 => 0x7FC0 | 10 => 0x7E00 | 31 => 0x7FC00000 | _ => 0 }
  | .inf neg => { nonfinite := true, clipped := true, bits :=
      let s (k : Nat) : Nat := if neg then k else 0
      match fmt with
      | 0 => if neg then 2 else 1
      | 1 => if neg then 8 else 7
      | 2 => if neg then 128 else 127
      | 3 => 0x7E + s 128
      | 4 => 0x7C + s 128
      | 9 => 0x7F80 + s 32768
      | 10 => 0x7C00 + s 32768
      | 31 => 0x7F800000 + s 2147483648
      | f => floatMaxBits f variant }
  | .fin neg m e =>
    let r := scaleRat m 1 e
    if fmt ≤ 2 then convInt fmt z (signedNat neg r.1) r.2
    else if fmt = 8 then
      { bits := (signedNat neg (min 127 (roundHalfEven (r.1 * 64) r.2).toNat) % 256).toNat, clipped := decide (127 * r.2 < r.1 * 64) }
    else if fmt = 31 then { bits := (ratToF32 neg r.1 r.2).toNat }
    else
      let t := floatTarget fmt variant
      let sign := if neg then 2 ^ (t.2.2.1 + t.2.2.2.1) else 0
      let large := exceeds r.1 r.2 t.1 t.2.1
      match encodeMini t.2.2.1 t.2.2.2.1 t.2.2.2.2 neg r.1 r.2 t.1 t.2.1 with
      | some b => { bits := b, clipped := large }
      | none => { bits := if fmt = 9 then sign + 0x7F80 else if fmt = 10 then sign + 0x7C00 else sign + floatMaxBits fmt variant, clipped := true }

/-- Value of a converted element in output units, for the error of R182. -/
def outValue (fmt variant : Nat) (z : Int) (bits : Nat) : Num :=
  if fmt ≤ 2 then let v := intElem fmt bits - z; .fin (decide (v < 0)) v.natAbs 0 else decodeElem fmt variant bits

/-- Larger magnitude of two fp32 values; NaN wins. -/
def fMaxAbs (x y : Word) : Word := fMax (x &&& 0x7FFFFFFF#32) (y &&& 0x7FFFFFFF#32)

/-! ### Exponential and logarithm of the attention unit (R266) -/

/-- ln 2 in units of 2⁻²⁵⁶. -/
def ln2Fixed : Nat := 80260960185991308862233904206310070533990667611589946606122867505419956976171

/-- Terms of the exponential series of r, in units of 2⁻²⁵⁶. -/
def expTerms (r : Nat) : Nat → Nat → Nat → Nat → Nat
  | 0, _, _, acc => acc
  | n + 1, i, term, acc => let t := term * r / 2 ^ 256 / (i + 1); expTerms r n (i + 1) t (acc + t)

/-- e^(±x) as m × 2^k, x in units of 2⁻²⁵⁶. -/
def expFixed (neg : Bool) (x : Nat) : Nat × Int :=
  let n := x / ln2Fixed
  let r := x % ln2Fixed
  let e (y : Nat) : Nat := expTerms y 60 0 (2 ^ 256) (2 ^ 256)
  if neg then (e (ln2Fixed - r), -((n : Int) + 1) - 256) else (e r, (n : Int) - 256)

/-- Terms of 2 artanh z for z at most a third, in units of 2⁻²⁵⁶. -/
def lnTerms (z : Nat) : Nat → Nat → Nat → Nat → Nat
  | 0, _, _, acc => acc
  | n + 1, i, term, acc => lnTerms z n (i + 1) (term * z / 2 ^ 256 * z / 2 ^ 256) (acc + 2 * term / (2 * i + 1))

/-- ln(m × 2^e) for a 24-bit significand m, in units of 2⁻²⁵⁶. -/
def lnFixed (m : Nat) (e : Int) : Int :=
  let z := (m - 8388608) * 2 ^ 256 / (m + 8388608)
  (e + 23) * ln2Fixed + (lnTerms z 90 0 z 0 : Nat)

/-- Largest fp32 encoding not above m × 2^e, a subnormal as zero. -/
def floorF32 (m : Nat) (e : Int) : Nat :=
  let ex := (Nat.log2 m : Int) + e + 127
  if m = 0 ∨ ex ≤ 0 then 0
  else if 255 ≤ ex then 0x7F800000
  else ex.toNat * 8388608 + (scaleRat m 1 (23 - (Nat.log2 m : Int))).1 / (scaleRat m 1 (23 - (Nat.log2 m : Int))).2 - 8388608

/-- A value within 2 units in the last place of one whose floor has an encoding: 0 to 3 stand for −1 to +2 (R266, R162). -/
def withinTwo (lo k : Nat) : Nat :=
  let v := min 0x7F800000 (lo + k % 4 - 1)
  if lo = 0 ∨ v < 8388608 then 0 else v

/-- exp of the attention unit: exact where R162 and R266 fix it, else within 2 units in the last place (log 12). -/
def fExp (x : Word) : Word :=
  match ofF32 x with
  | .nan => canonicalNan
  | .inf neg => if neg then 0 else 0x7F800000
  | .fin _ 0 _ => 0x3F800000#32
  | .fin neg m e =>
    if 256 * 2 ^ 24 ≤ (scaleRat m 1 (e + 24)).1 / (scaleRat m 1 (e + 24)).2 then (if neg then 0 else 0x7F800000)
    else
      let v := expFixed neg ((scaleRat m 1 (e + 256)).1 / (scaleRat m 1 (e + 256)).2)
      BitVec.ofNat 32 (withinTwo (floorF32 v.1 v.2) (Config.expError x))

/-- ln of the attention unit (R266), likewise. -/
def fLn (x : Word) : Word :=
  match ofF32 x with
  | .nan => canonicalNan
  | .inf neg => if neg then canonicalNan else 0x7F800000
  | .fin _ 0 _ => 0xFF800000
  | .fin true _ _ => canonicalNan
  | .fin false m e =>
    let v := lnFixed m e
    BitVec.ofNat 32 ((if v < 0 then 2147483648 else 0) + withinTwo (floorF32 v.natAbs (-256)) (Config.lnError x))

end Sys2Proof.Machine
end

