-- ==== Sys2Proof/Machine/KvFamily.lean ====
section
/-! DEFINITION. Commands of key-value caches (R255 to R262): walks and edits. -/

namespace Sys2Proof.Machine

/-- A partition runs (R325). -/
def running (d : Dev) (p : Nat) : Bool := live d && declared d.img p && !(getPart d p).stopped && !(getPart d p).resetting

/-- Tokens that a sequence can hold (R261). -/
def kvCapacity (r : KvRec) : Nat := if isRing r then 4294967295 else r.tablePages * 64

/-- A scatter tile's append exceeds the capacity of its sequence (R261). -/
def overCapacity (d : Dev) (b : Bytes) : Bool :=
  dKind b == 5 && !dEmpty b && decide (kvCapacity (kvRecOf d.img (u8 b 0x24)) < max (dWord b 0x28) (scatterFirst d b) + u16 b 0x26)

/-- A walk starts (R256): behind every waiting edit, within 255 locks, once the descriptor's waits are satisfied. An append that would
exceed the capacity is not walked (R261). -/
def walkStart (x : DescId) (w : Nat) (d : Dev) : Dev :=
  match desc? d x with
  | none => d
  | some y =>
    match walkOf d y.bytes with
    | none => d
    | some (s, _, _) =>
      let c := dCluster y.bytes
      let k := getKv d s
      if running d (dPart y.bytes) && !y.released && waitsMet d x y.bytes && k.edits.isEmpty && decide (k.locks < 255) &&
          !(d.kv.walks.any (fun v => v.d == x)) && !isMuzzled d (0x20 + 2 * c + w) then
        if overCapacity d y.bytes then endReqs (ordersOf d y) 0x74 (record 0x74 (some (dPart y.bytes)) (8, s) d)
        else
        let d1 := modKv s (fun q => { q with locks := q.locks + 1 }) d
        modCluster c (fun z => { z with walks := z.walks + 1 }) { d1 with kv := { d1.kv with walks := d1.kv.walks ++ [{ d := x, unit := (c, w), seq := s }] } }
      else d

/-- A walk fails its check (R255): its request ends with 0x75; a descriptor of a slot that has ended stays as though empty. -/
def walkFail (x : DescId) (y : Desc) (s c : Nat) (injected : Bool) (d : Dev) : Dev :=
  let d1 := modCluster c (fun z => { z with failed := z.failed + 1 }) (dropWalk x d)
  endReqs (ordersOf d1 y) 0x75 (recordAt 0x75 (some (dPart y.bytes)) (8, s) none injected d1)

/-- What the misses of a walk read from the table: traffic of the read class, by tags of the sequence's partition (R287, R289). -/
def walkReads (s c misses : Nat) (d : Dev) : Dev :=
  let r := kvRecOf d.img s
  let d1 := countTraffic (tableAt d.img r) misses false d
  match tagRow (tableAt d.img r) c false with | some row => passTags r.part row misses d1 | none => d1

/-- An entry read from the table came back uncorrectable, where none that the walk reads is poisoned already (R297): it is poisoned. Which
one it is, is left open (log 148). -/
def entryLost (s layer : Nat) (ps : List Nat) (d : Dev) : Dev :=
  let r := kvRecOf d.img s
  let at_ (p : Nat) : Nat := entryAddr d.img r (entryKey r layer p)
  if ps.any (fun p => poisonedAt d.mem (at_ p)) then d
  else
    let c := draw d
    let a := at_ (ps.getD (Config.freeNat c.1 % max 1 ps.length) 0)
    poisonRange a 16 (recordAt 0x11 (some r.part) (8, s) (some a) false c.2)

/-- A walk ends (R255): every entry is looked up and checked; poisoned says that an entry read from the table came back poisoned. -/
def walkEnd (x : DescId) (poisoned : Bool) (d : Dev) : Dev :=
  match desc? d x, d.kv.walks.find? (fun v => v.d == x && v.pages.isNone) with
  | some y, some w =>
    match walkOf d y.bytes with
    | none => d
    | some (s, layer, ps) =>
      let c := w.unit.1
      let r := walkPages d s layer ps (tabGet (getCluster d c).aside w.unit.2 []) (0, 0) []
      let missed := r.2.2.1.2 != 0
      let d1 := modCluster c (fun z => { z with
        hits := addW z.hits r.2.2.1.1, misses := addW z.misses r.2.2.1.2, aside := tabSet z.aside w.unit.2 r.2.2.2 }) d
      let d1 := walkReads s c r.2.2.1.2 d1
      if r.1 && poisoned && missed then walkFail x y s c false (entryLost s layer ps d1)
      else if !r.1 then walkFail x y s c false d1
      else if (armedOn d1 0xD c).isSome then walkFail x y s c true (fired d1)
      else { d1 with kv := { d1.kv with walks := d1.kv.walks.map (fun v => if v.d = x then { v with pages := some r.2.1 } else v) } }
  | _, _ => d

/-- A logical page is held by the table. -/
def pageHeld (d : Dev) (s layer p : Nat) : Bool := let e := ptEntry d s layer p; e.valid && e.first == 64 * p

/-- ALLOCATE is issued for a new logical page of a scatter tile (R260), unless the append exceeds the capacity (R261). -/
def allocate (x : DescId) (p : Nat) (d : Dev) : Dev :=
  match desc? d x with
  | none => d
  | some y =>
    match walkOf d y.bytes with
    | none => d
    | some (s, layer, ps) =>
      let part := dPart y.bytes
      let queued := (getKv d s).edits.any (fun e => match e with | .allocate l q _ => l == layer && q == p | _ => false)
      if running d part && dKind y.bytes == 5 && !y.released && ps.contains p && !pageHeld d s layer p && !queued then
        if overCapacity d y.bytes then
          endReqs (ordersOf d y) 0x74 (record 0x74 (some part) (8, s) d)
        else queueEdit s (.allocate layer p (y.order.getD 0)) d
      else d

/-- FILL is issued after a scatter step (R260). -/
def fill (x : DescId) (d : Dev) : Dev :=
  match d.kv.scattered.find? (fun v => v.1 == x) with
  | some (_, s, layer, first, n) =>
    queueEdit s (.fill layer first n) { d with kv := { d.kv with scattered := d.kv.scattered.filter (fun v => v.1 != x) } }
  | none => d

/-- An edit command of a tile thread (Table 11.5): its partition must own the sequence; otherwise it touched what it does not own
(R323), with no master to muzzle (DEDUCED, log 22). -/
def threadEdit (p s : Nat) (e : Edit) (d : Dev) : Dev :=
  if running d p && (kvRec? d.img s).isSome then
    if (kvRecOf d.img s).part = p then queueEdit s e d else stopPart p 0x40 (record 0x40 (some p) (8, s) d)
  else d

/-- The oldest waiting edit of a table applies (R257) once no walk holds a lock and, for ALLOCATE, a page may be taken. -/
def editApply (s waited : Nat) (d : Dev) : Dev :=
  match (getKv d s).edits, (getKv d s).locks with
  | e :: rest, 0 =>
    match applyEdit s e (modKv s (fun k => { k with edits := rest }) d) with
    | some d1 => { d1 with kv := { d1.kv with editWait := w32 (max d1.kv.editWait.toNat waited) } }
    | none => d
  | _, _ => d

/-- PAGE_WALK_START (R256). -/
def execPageWalkStart (x : DescId) (walker : Fin 2) (s : State) : Result := devStep (walkStart x walker.val) s

/-- PAGE_WALK_END (R255). -/
def execPageWalkEnd (x : DescId) (poisoned : Bool) (s : State) : Result := devStep (walkEnd x poisoned) s

/-- ALLOCATE (R257, R260, R261). -/
def execAllocate (x : DescId) (page : Nat) (s : State) : Result := devStep (allocate x page) s

/-- FILL (R257, R260). -/
def execFill (x : DescId) (s : State) : Result := devStep (fill x) s

/-- TRUNCATE (R257). -/
def execTruncate (part : Fin 128) (seq : Fin 256) (length : Nat) (s : State) : Result :=
  devStep (threadEdit part.val seq.val (.truncate length)) s

/-- RELEASE (R257). -/
def execRelease (part : Fin 128) (seq : Fin 256) (s : State) : Result := devStep (threadEdit part.val seq.val .release) s

/-- EDIT_APPLY (R257). -/
def execEditApply (seq : Fin 256) (waited : Nat) (s : State) : Result := devStep (editApply seq.val waited) s

end Sys2Proof.Machine
end

