-- ==== Sys2Proof/Machine/Sequence.lean ====
section
/-! DEFINITION. Sequence state (R227 to R248): reset marks, frozen flag masks, state blocks and their residency, and the commands
of this family. -/

namespace Sys2Proof.Machine

/-- Steps of a chunk of the sequence, T. -/
def chunkSteps (img : Image) (q : Nat) : Nat := (scanOf img ((seqRec? img q).getD {}).forward).steps

/-- The mark's step s sets its flags (R236, R245): forward at s, backward at s − 1 while that chunk's backward mask is held. -/
def setMark (q s T : Nat) (bidir : Bool) (d : Dev) : Dev :=
  modSeq q (fun x =>
    let back := bidir && s != 0 && !(x.frozen.any (fun f => f.1 == (s - 1) / T + 2 ^ 48))
    { x with marks := insertNat s x.marks, back := if back then insertNat (s - 1) x.back else x.back }) d

/-- A late or discarded mark is counted. -/
def lateMark (q part : Nat) (d : Dev) : Dev := record 0x70 (some part) (8, q) (modSeq q (fun x => { x with late := x.late + 1 }) d)

/-- A reset mark of the owner or the host is taken (R236). -/
def takeMark (q m : Nat) (d : Dev) : Dev :=
  match seqRec? d.img q with
  | none => d
  | some r =>
    let T := chunkSteps d.img q
    let base := (getSeq d q).base
    if m / T < base then setMark q (base * T) T (bit r.flags 0) (lateMark q r.part d)
    else if m / T < base + 4 then setMark q m T (bit r.flags 0) d
    else lateMark q r.part d

/-- A mark that a tile thread of a partition posts (R235): from another partition it is discarded, with cause code 0x40 under the
partition rules; it names no master (DEDUCED, log 22). -/
def postMark (p q m : Nat) (d : Dev) : Dev :=
  if !running d p then d
  else match seqRec? d.img q with
    | none => d
    | some r => if r.part = p then takeMark q m d else stopPart p 0x40 (record 0x40 (some p) (8, q) d)

/-! ### Blocks -/

/-- Two blocks share a slot (R240). -/
def shareSlot (d : Dev) (a b : Nat) : Bool :=
  let x := blkRec d.img a
  let y := blkRec d.img b
  a != b && blkCore d a == blkCore d b && decide (x.slotOffset < y.slotOffset + blkBytes y) && decide (y.slotOffset < x.slotOffset + blkBytes x)

/-- A block is resident and no transfer of it is in flight: its state-present barrier is satisfied (R241). -/
def present (d : Dev) (b : Nat) : Bool := (getBlk d b).place == 0 && !(getBlk d b).moving

/-- Another block waits for the slot of this one (R240). -/
def slotWanted (d : Dev) (b : Nat) : Bool := d.img.blocks.any (fun r => shareSlot d b r.id && (getBlk d r.id).waiting.isSome)

/-- The block begins to wait for its slot. -/
def beginWait (b : Nat) (d : Dev) : Dev :=
  if (getBlk d b).waiting.isSome then d
  else
    let n := (d.blks.cells.filterMap (fun c => c.2.waiting)).foldl (fun a k => max a (k + 1)) 0
    modBlk b (fun x => { x with waiting := some n }) d

/-- The block is the first that waits for its slot, and no block is resident there. -/
def slotTurn (d : Dev) (b : Nat) : Bool :=
  match (getBlk d b).waiting with
  | none => false
  | some n => d.img.blocks.all (fun r => !shareSlot d b r.id ||
      ((getBlk d r.id).place != 0 && (match (getBlk d r.id).waiting with | some k => decide (n < k) | none => true)))

/-- The live scan tile of a block, chunk and slice. -/
def scanTile (d : Dev) (b chunk s : Nat) : Option Desc :=
  d.sched.live.find? (fun y => dKind y.bytes == 3 && dBlock y.bytes == b && dChunk y.bytes == chunk && dSlice y.bytes == s)

/-- Tiles of a block that have not been released are no longer ready: the block leaves its slot (R241, R311). -/
def unready (b : Nat) (d : Dev) : Dev :=
  modSched (fun c => { c with live := c.live.map (fun y =>
    if dKind y.bytes = 3 ∧ dBlock y.bytes = b ∧ y.released = false then { y with ready := false } else y) }) d

/-- A block's header, as a swap-in reads it and as memory holds it, names the block and the chunk count of the directory (R242). -/
def headerMatches (d : Dev) (b hb hc : Nat) : Bool :=
  let h := memRead d.mem (blkAddr d b) 64
  let n := (getBlk d b).chunks
  hb == b && hc == n && u16 h 0 == b && u64 h 8 == n && !poisonedAt d.mem (blkAddr d b)

/-- Requests of the chunk that waits for a block: the first in the operator's order among its unreleased tiles (R245). -/
def waitingChunk (d : Dev) (b : Nat) : List Nat :=
  let ys := d.sched.live.filter (fun y => dKind y.bytes == 3 && !y.released && dBlock y.bytes == b)
  let first := (ys.map (fun y => chunkPos d.img b (dChunk y.bytes))).min?
  dedup ((ys.filter (fun y => some (chunkPos d.img b (dChunk y.bytes)) == first)).flatMap (ordersOf d))

/-- A swap-in completes (R241 to R243): the header is compared with the directory; granules of the block that could not be read are
poisoned, and a header among them does not match. -/
def swapInDone (b hb hc : Nat) (bad : List Nat) (waited : Nat) (d : Dev) : Dev :=
  let u := blkCore d b
  if live d && d.img.blocks.any (fun r => r.id == b) && (getBlk d b).place != 0 && slotTurn d b && d.power.clusters.getLsbD (u / 6) then
    let part := ((seqRec? d.img (blkRec d.img b).seq).getD {}).part
    let d1 := modUnit u (fun x => { x with swapIn := x.swapIn + 1, scWait := addW x.scWait waited })
      (modBlk b (fun x => { x with waiting := none }) (moveBlk (u / 6) b 0 d))
    let lost := (List.range (blkRec d.img b).count).filter (fun n => bad.contains (1 + n / 16))
    let d2 := if bad = [] then d1 else record 0x11 (some part) (1, u) (poisonElems b lost d1)
    if headerMatches d b hb hc && !bad.contains 0 then d2
    else endReqs (waitingChunk d2 b) 0x71 (record 0x71 (some part) (8, (blkRec d.img b).seq) (poisonBlk b d2))
  else d

/-- A swap-out completes (R239, R240): for a waiter, for idleness, or because the core leaves the schedule (R319). A tile of the
block that has not been released is no longer ready (R241, R311). -/
def swapOutDone (b : Nat) (d : Dev) : Dev :=
  let u := blkCore d b
  let k := getBlk d b
  if live d && d.img.blocks.any (fun r => r.id == b) && k.place == 0 && k.pins == 0 &&
      (slotWanted d b || k.moving || d.age.testing.any (fun t => t.1 == u)) then
    swapOut b (unready b d)
  else d

/-- idle_cycles pass without a release of a resident block: its swap-out begins (R240, R241). -/
def blkIdle (b : Nat) (d : Dev) : Dev :=
  let q := (seqRec? d.img (blkRec d.img b).seq).getD {}
  if live d && (getBlk d b).place == 0 && (getBlk d b).pins == 0 && q.idleCycles != 0 then modBlk b (fun x => { x with moving := true }) (unready b d)
  else d

/-- A retired core's blocks take the partner as home, or the lowest available core of the cluster (R319). -/
def rehome (u : Nat) (d : Dev) : Dev :=
  let c := u / 6
  let partner := 6 * c + Nat.xor (u % 6) 1
  let ok (k : Nat) : Bool := d.age.avail.getLsbD k && k != u
  let to_ := if ok partner then partner else (((List.range 6).map (fun k => 6 * c + k)).find? ok).getD partner
  (d.img.blocks.filter (fun r => blkCore d r.id == u)).foldl (fun e r => modBlk r.id (fun x => { x with home := some to_ }) e) d

/-! ### Scan tiles at release and commit -/

/-- Key of a frozen mask. -/
def maskKey (o : ScanOp) (chunk : Nat) : Nat := chunk + (if isBackward o then 2 ^ 48 else 0)

/-- The local steps of the flags held for a chunk. -/
def localFlags (l : List Nat) (chunk T : Nat) : List Nat := (l.filter (fun m => m / T == chunk)).map (fun m => m % T)

/-- Freeze the mask of a chunk at the release of its first scan tile (R236, R245); the mask every slice uses. -/
def freezeMask (q : Nat) (o : ScanOp) (chunk : Nat) (d : Dev) : List Nat × Dev :=
  let x := getSeq d q
  match x.frozen.find? (fun f => f.1 == maskKey o chunk) with
  | some f => (f.2, d)
  | none =>
    let T := o.steps
    if isBackward o then
      let L := ((seqRec? d.img q).getD {}).lookahead
      let own := localFlags x.back chunk T
      let m := if (chunk + 1) % L = 0 then insertNat (T - 1) own else own
      (m, modSeq q (fun y => { y with frozen := y.frozen ++ [(maskKey o chunk, m)], back := y.back.filter (fun k => k / T != chunk) }) d)
    else
      let m := localFlags x.marks chunk T
      (m, modSeq q (fun y => { y with
        frozen := y.frozen ++ [(maskKey o chunk, m)]
        base := max y.base (chunk + 1)
        marks := y.marks.filter (fun k => decide ((chunk + 1) * T ≤ k)) }) d)

/-- What a scan tile takes at its release: the frozen mask, the carried values of its slice and whether they hold poison; the block
is pinned, and a chunk that starts with poisoned state is recorded (R243). -/
def releaseScan (u : Nat) (b : Bytes) (d : Dev) : (List Nat × List (Word × Bool)) × Dev :=
  let k := dBlock b
  let r := blkRec d.img k
  let o := scanOf d.img r.scan
  let fz := freezeMask r.seq o (dChunk b) d
  let d1 := modBlk k (fun x => { x with pins := x.pins + 1 }) fz.2
  let fresh := !isBackward o && dChunk b == 0
  let vals := (List.range o.slice).map (fun i =>
    let n := dSlice b * o.slice + i
    if fresh then (initState d o (r.first + n), false) else (BitVec.ofNat 32 (u32 (memRead d.mem (elemAddr d k n) 4) 0), elemPoisoned d k n))
  let split := fz.1.contains (if isBackward o then o.steps - 1 else 0)
  let bad := vals.any (fun v => v.2) && !split
  let d2 := if bad then record 0x72 (some (dPart b)) (8, r.seq) (modUnit u (fun x => { x with scPoisoned := x.scPoisoned + 1 }) d1) else d1
  ((fz.1, vals), d2)

/-- A slice of a chunk has been applied to its block by its commit (R230, R234, R246). -/
def applySlice (b : Bytes) (d : Dev) : Dev :=
  settleChunks (dBlock b) (noteSlices (dBlock b) (chunkPos d.img (dBlock b) (dChunk b)) [dSlice b] d)

/-- Slices of a block that no tile in progress will apply of a chunk: those whose tile has not been released, and one that ends now. -/
def unappliable (d : Dev) (b chunk : Nat) (now : Option Nat) : List Nat :=
  (List.range (slicesOf d.img b)).filter (fun s => some s == now || !(scanTile d b chunk s).any (fun y => y.released))

/-- A scan tile aborts (R243): its slice is poisoned, and the chunk is counted as applied. Its request's unreleased tiles will not run
(R307), so their slices count too, in every block of the operator; those already released count as they end. -/
def abortSlice (b : Bytes) (d : Dev) : Dev :=
  let s := (scanOf d.img (blkRec d.img (dBlock b)).scan).slice
  let d1 := poisonElems (dBlock b) ((List.range s).map (fun i => dSlice b * s + i)) d
  settleChunks (dBlock b) ((matesOf d.img (dBlock b)).foldl (fun e m =>
    noteSlices m (chunkPos d.img m (dChunk b)) (unappliable d m (dChunk b) (if m = dBlock b then some (dSlice b) else none)) e) d1)

/-- The backward tiles of a chunk may be released: the inputs of the last chunk of its group are complete (R246). -/
def groupReady (d : Dev) (b : Bytes) : Bool :=
  let r := blkRec d.img (dBlock b)
  let L := ((seqRec? d.img r.seq).getD {}).lookahead
  !isBackward (scanOf d.img r.scan) || decide ((dChunk b / L + 1) * L ≤ (getSeq d r.seq).inputs)

/-- The inputs of a forward chunk are complete, as far as its tiles show: each has been applied, has been released, or has its waits
satisfied (DEDUCED, log 111). -/
def inputsComplete (d : Dev) (b chunk : Nat) : Bool :=
  (matesOf d.img b).all (fun m => (List.range (slicesOf d.img m)).all (fun s => applied d m chunk s ||
    (scanTile d m chunk s).any (fun y => y.released || waitsMet d y.id y.bytes)))

/-- The waits of a forward tile are satisfied: once those of its whole chunk are, the inputs of the chunk are complete, and with them
those of the backward operator (R246; DEDUCED, log 111). -/
def noteInputs (b : Bytes) (d : Dev) : Dev :=
  let r := blkRec d.img (dBlock b)
  if isBackward (scanOf d.img r.scan) || !inputsComplete d (dBlock b) (dChunk b) then d
  else modSeq r.seq (fun x => { x with inputs := max x.inputs (dChunk b + 1) }) d

/-- A tile waits for the chunk before its own in the operator's order, instantiated or not: for the same slice of it (R230), and a backward
tile until every slice of it has been released, from the last chunk of the group down to the first (R246). -/
def chunkWaits (d : Dev) (y : Desc) : Bool :=
  let b := dBlock y.bytes
  let pos := chunkPos d.img b (dChunk y.bytes)
  let back := isBackward (scanOf d.img (blkRec d.img b).scan)
  let L := ((seqRec? d.img (blkRec d.img b).seq).getD {}).lookahead
  let before := if back then (pos - 1) / L * L + (L - 1 - (pos - 1) % L) else pos - 1
  pos != 0 && (!applied d b (pos - 1) (dSlice y.bytes) ||
    (back && !(List.range (slicesOf d.img b)).all (fun s => applied d b (pos - 1) s || (scanTile d b before s).any (fun z => z.released))))

/-- RESET_MARK (R235, R236). -/
def execResetMark (part : Fin 128) (seq : Fin 64) (step : Nat) (s : State) : Result :=
  unlessWf (.resetMark part seq step) s (devStep (postMark part.val seq.val step) s)

/-- STATE_SWAP_IN_DONE (R241, R242). -/
def execStateSwapInDone (block headerBlock headerChunks : Nat) (uncorrectable : List Nat) (waited : Nat) (s : State) : Result :=
  devStep (swapInDone block headerBlock headerChunks uncorrectable waited) s

/-- STATE_SWAP_OUT_DONE (R239 to R241). -/
def execStateSwapOutDone (block : Nat) (s : State) : Result := devStep (swapOutDone block) s

/-- STATE_IDLE_EXPIRY (R240). -/
def execStateIdleExpiry (block : Nat) (s : State) : Result := devStep (blkIdle block) s

end Sys2Proof.Machine
end

