-- ==== Sys2Proof/Machine/Streaming.lean ====
section
/-! DEFINITION. Stream movers, weight windows, barrier signals between clusters, and the patrol scrub (R276 to R303). -/

namespace Sys2Proof.Machine

/-! ### What a mover may touch (R281, R322) -/

/-- A mover may read the granule at an address for a partition (Table 12.2). -/
def mayRead (d : Dev) (p a : Nat) : Bool :=
  mapped d a && (match regionAt d.img a with
    | some r => r.part == p && (r.kind == 0 || r.kind == 1)
    | none => ownsCoreSram d p a || ownsClusterSram d.img p a)

/-- A mover may write the granule at an address for a partition (Table 12.2). -/
def mayWrite (d : Dev) (p a : Nat) : Bool :=
  mapped d a && (match regionAt d.img a with
    | some r => r.part == p && r.kind == 0
    | none => ownsCoreSram d p a || ownsClusterSram d.img p a)

/-! ### Transfers -/

/-- The transfer that a descriptor names (R284, R305, R309): none while its strand has no frame. -/
def xferOf (d : Dev) (x : DescId) (b : Bytes) : Option Xfer :=
  let g := graphOf d.img x.graph
  let flags := u8 b 0x0E
  let reloc := x.inst * g.memStride * 64
  let frame := (frameOf d x.graph x.inst (dStrand b)).map (fun f => coreBase f.1 + f.2 * 16384)
  let addr (raw : Nat) (rel fr : Nat) : Option Nat :=
    let a := raw % 2 ^ 40 + (if bit flags rel then reloc else 0)
    if bit flags fr then frame.map (fun f => f + a) else some a
  match addr (u64 b 0x20) 2 4, addr (u64 b 0x28) 3 5 with
  | some s, some t => some { d := some x, part := dPart b, src := s, dst := t, rowGranules := u16 b 0x30, rows := u16 b 0x32,
                             srcStride := u32 b 0x34, dstStride := u32 b 0x38, mode := u8 b 0x3C }
  | _, _ => none

/-- Source address of granule k of a transfer (R285). -/
def xferSrc (x : Xfer) (k : Nat) : Nat := x.src + k / x.rowGranules * x.srcStride + k % x.rowGranules * 64

/-- Destination address of granule k of a transfer. -/
def xferDst (x : Xfer) (k : Nat) : Nat := x.dst + k / x.rowGranules * x.dstStride + k % x.rowGranules * 64

/-- Dense granules of a segment that fills a row (R222; each row of a mode-1 transfer is one segment, DEDUCED, log 23). -/
def segmentDense (rg : Nat) : Nat := (((List.range (rg + 1)).filter (fun g => decide (g + ceilDiv g 16 ≤ rg))).getLast?).getD 0

/-- Granules of a segment that a mode-1 transfer moves: its index area and its stored blocks. -/
def segmentMoved (m : Mem) (at_ rg : Nat) : Nat :=
  let g := segmentDense rg
  let kinds := (List.range g).map (fun i => u32 (memRead m (at_ + 4 * i) 4) 0 / 1073741824)
  ceilDiv g 16 + (kinds.filter (fun k => k == 1 || k == 2)).length

/-- Granules done after one more, with those that mode 1 does not move passed over. -/
def nextGranule (m : Mem) (x : Xfer) : Nat :=
  let k := x.done + 1
  if x.mode = 1 ∧ k % x.rowGranules ≠ 0 ∧ segmentMoved m (x.src + x.done / x.rowGranules * x.srcStride) x.rowGranules ≤ k % x.rowGranules then
    (x.done / x.rowGranules + 1) * x.rowGranules
  else k

/-- A measured round trip of a read (Table 12.12). -/
def roundTripOf (a n rt : Nat) (d : Dev) : Dev :=
  if a < 0x1000000000 then modDdr (fun x => { x with rtMax := w32 (max x.rtMax.toNat rt), trips := (rt :: x.trips).take 1024 }) d
  else if a < 0x1100000000 then modMover n (fun m => { m with rtMax := w32 (max m.rtMax.toNat rt) }) d
  else d

/-- Injection class and instance of a read at an address: SRAM, stacked-store bank, DRAM channel (Table 19.2; the manual gives no
map of addresses to channels, so which channel serves one is a free value, log 7). -/
def readDetector (a : Nat) : Nat × Nat :=
  if a < 0x1000000000 then (3, Config.freeNat (a / 128) % 4)
  else if a < 0x1100000000 then (2, (a - 0x1000000000) / 0x200000)
  else
    let n := (a - 0x1100000000) / 0x1000000
    let o := (a - 0x1100000000) % 0x1000000
    (1, if o < 0x400000 then 0x18 + n else n * 6 + (o - 0x400000) / 0x200000)

/-- What a mover's granule meets: 0 nothing, 1 a corrected bit, 2 uncorrectable, 3 data parity, 4 address or tag parity (5, an access
to the pre-roll buffer or a pre-roll tile, is denied before: R86); and
whether an injection brought it about. A natural error keeps the injection armed (R446). Without inline ECC, an error of DRAM is not
detected (R300). -/
def granuleFault (d : Dev) (n a natural : Nat) : Nat × Bool :=
  let k := readDetector a
  let checked := k.1 != 3 || bit (d.img.mem.getD {}).flags 0
  if natural != 0 then (if (natural == 1 || natural == 2) && !checked then 0 else natural, false)
  else match (if checked then armedOn d k.1 k.2 else none), armedOn d 6 (0x1C + n) with
    | some 0, _ => (1, true)
    | some _, _ => (2, true)
    | none, some 0 => (3, true)
    | none, some _ => (4, true)
    | none, none => (0, false)

/-- Where the tables of a codebook set come from: the region that its blob was placed in; none, and the device reads the blob as it
holds it (DESIGN CHOICE, log 100). -/
def codebookRegion (img : Image) (k : Nat) : Option Region :=
  let b := (codebookSet img k).blob
  img.regions.find? (fun r => b != 0 && r.blob == b)

/-- Bytes of the tables of a codebook set's record (Table 7.7). -/
def codebookSize (s : Codebook) : Nat := s.tables * 2 ^ s.indexBits * (if s.format = 9 then 2 else 1)

/-- Bytes of the tables of a codebook set. -/
def codebookBytes (img : Image) (k : Nat) : Nat := codebookSize (codebookSet img k)

/-- A transfer reads a blob that no region holds. -/
def readsBlob (img : Image) (x : Xfer) : Bool := x.load.any (fun k => (codebookRegion img k.2).isNone)

/-- The 64 bytes that a transfer reads next. -/
def xferData (d : Dev) (x : Xfer) : Bytes :=
  if x.mode = 2 then zeros 64
  else match x.load with
    | some k => if readsBlob d.img x then fit 64 (slice (blobBytes d (codebookSet d.img k.2).blob) (64 * x.done) 64) else memRead d.mem (xferSrc x x.done) 64
    | none => memRead d.mem (xferSrc x x.done) 64

/-- Bytes reach the bank of a core that its last layer did not use (R169). -/
def bankAppend (u : Nat) (b : Bytes) (d : Dev) : Dev :=
  modUnit u (fun z => if z.bank = 0 then { z with bankData := (z.bankData.1, z.bankData.2 ++ b) } else { z with bankData := (z.bankData.1 ++ b, z.bankData.2) }) d

/-- The load of a bank is complete: its tables are valid. -/
def bankLoaded (u k : Nat) (d : Dev) : Dev :=
  settleLoads (modUnit u (fun z => if z.bank = 0 then { z with banks := (z.banks.1, k) } else { z with banks := (k, z.banks.2) }) d)

/-- Drop the head transfer of a mover, with what is in flight of it. -/
def popXfer (n : Nat) (d : Dev) : Dev :=
  settleLoads (returnTags (0x1C + n) (fun _ => false) (modMover n (fun m => { m with queue := m.queue.drop 1, issued := 0 }) d))

/-- A transfer reads its source from memory. -/
def readsMem (img : Image) (x : Xfer) : Bool := x.mode != 2 && !readsBlob img x

/-- A mover issues the next granule of its first transfer (R285): it takes the tags of the granule's units, or waits without taking one
(R287, R337). -/
def issueGranule (n : Nat) (x : Xfer) (d : Dev) : Option Dev :=
  let k := x.done + (getMover d n).issued
  let read := if readsMem d.img x then takeTag (0x1C + n) x.part n (xferSrc x k) false d else some d
  let both := read.bind (fun e => if x.load.isSome then some e else takeTag (0x1C + n) x.part n (xferDst x k) true e)
  both.map (fun e => modMover n (fun m => { m with issued := m.issued + 1 }) e)

/-- A mover issues up to k further granules of its first transfer, as long as none waits for a tag. -/
def issueAhead (n : Nat) (x : Xfer) : Nat → Dev → Dev
  | 0, d => d
  | k + 1, d =>
    if x.rowGranules * x.rows ≤ x.done + (getMover d n).issued then d
    else match issueGranule n x d with
      | some e => issueAhead n x k e
      | none => d

/-- The tags that the granules in flight of a mover's first transfer still need. -/
def stillFlying (n : Nat) (x : Xfer) (issued : Nat) (t : Tag) : Bool :=
  (List.range issued).any (fun i =>
    (tagRow (xferSrc x (x.done + i)) n false == some t.row && t.unit == xferSrc x (x.done + i) / tagUnit t.row) ||
    (tagRow (xferDst x (x.done + i)) n true == some t.row && t.unit == xferDst x (x.done + i) / tagUnit t.row))

/-- A granule of a mover's first transfer is done and x is the transfer as it goes on: tags that no granule in flight needs return, and
further granules are issued, in ascending order. How many are in flight at once is left open (log 147); of a mode-1 transfer one. -/
def flyOn (n : Nat) (x : Xfer) (d : Dev) : Dev :=
  let left := (getMover d n).issued - 1
  let d1 := returnTags (0x1C + n) (stillFlying n x left) (modMover n (fun m => { m with issued := left, queue := x :: m.queue.drop 1 }) d)
  if x.mode = 1 then d1 else let c := draw d1; issueAhead n x (Config.freeNat c.1 % 256) c.2

/-- A transfer is complete (R285): its barrier is signalled once and its descriptor retires. -/
def completeXfer (n : Nat) (x : Xfer) (d : Dev) : Dev :=
  let d1 := popXfer n (modMover n (fun m => { m with xfers := m.xfers + 1 }) d)
  match x.d, x.load with
  | some i, _ => pump (retire i (signalOwn i (descBytes d1 i) d1))
  | none, some k => bankLoaded k.1 k.2 d1
  | none, none => d1

/-- The transfer at the head of a mover ends without completing. -/
def endXfer (n : Nat) (x : Xfer) (cause : Nat) (d : Dev) : Dev :=
  match x.d with | some i => failDesc i cause (popXfer n d) | none => popXfer n d

/-- A granule of a mover is moved or stopped (R285, R286, R297, R298, R301, R437); its tags are held. A mover that reaches the pre-roll buffer or a pre-roll tile, whose
places the manual does not give, is denied and not muzzled (R86; DESIGN CHOICE, log 110). -/
def moveGranule (n : Nat) (x : Xfer) (fault rt held : Nat) (d : Dev) : Dev :=
      let s := xferSrc x x.done
      let t := xferDst x x.done
      let reads := readsMem d.img x
      if !((!reads || mayRead d x.part s) && (x.load.isSome || mayWrite d x.part t)) then
        if reads && !mayRead d x.part s then muzzle (0x1C + n) x.part 0x40 (some s) false (endXfer n x 0x40 d)
        else muzzle (0x1C + n) x.part (writeCause d t) (some t) (tableOf d.img t).isSome (endXfer n x (writeCause d t) (countDirect x.part t d))
      else if fault = 5 then
        endXfer n x 0x45 (record 0x45 (some x.part) (4, 0x1C + n) d)
      else
        let f := if reads then granuleFault d n s fault else (0, false)
        let d0 := if f.2 then fired d else d
        let dr := if reads then roundTripOf s n rt (countTraffic s 1 false d0) else d0
        let d1 := if x.load.isSome then dr else countTraffic t 1 true dr
        let d2 := modDdr (fun c => { c with held := addW c.held held }) d1
        if f.1 = 4 then
          endXfer n x 0x25 (recordAt 0x25 (some x.part) (4, 0x1C + n) none f.2 d2)
        else
          let d3 :=
            if f.1 = 1 then
              let e := recordAt 0x10 (some x.part) (4, 0x1C + n) none f.2 (modMover n (fun m => { m with corrected := m.corrected + 1 }) d2)
              if s < 0x1000000000 then modDdr (fun c => { c with corr := c.corr + 1 }) e else e
            else if f.1 = 2 then
              let code := if s < 0x1100000000 then 0x11 else 0x13
              poisonRange s 64 (recordAt code (some x.part) (4, 0x1C + n) none f.2 d2)
            else if f.1 = 3 then recordAt 0x24 (some x.part) (4, 0x1C + n) none f.2 d2
            else d2
          let dirty := reads && (f.1 == 2 || f.1 == 3 || poisonedAt d.mem s)
          let data := xferData d3 x
          let d5 := match x.load with
            | some k => if dirty then popXfer n d3 else bankAppend k.1 data d3
            | none => if dirty then poisonRange t 64 (modMover n (fun m => { m with poisoned := m.poisoned + 1 }) (memStore t data d3)) else memStore t data d3
          let k := nextGranule d.mem x
          if x.load.isSome && dirty then d5
          else
            let d6 := modMover n (fun m => { m with granules := m.granules + 1 }) d5
            if x.rowGranules * x.rows ≤ k then completeXfer n x d6 else flyOn n { x with done := k } d6

/-- The granule at the head of a mover is done. A mover that finds no tag for it waits (R287). -/
def granuleDone (n fault rt held : Nat) (d : Dev) : Dev :=
  match (getMover d n).queue.head? with
  | none => d
  | some x =>
    if !live d || isMuzzled d (0x1C + n) then d
    else match (if (getMover d n).issued = 0 then issueGranule n x d else some d) with
      | some e => moveGranule n x fault rt held e
      | none => d

/-! ### Weight windows (R290 to R294) -/

/-- Record of a weight window. -/
def winRec? (img : Image) (w : Nat) : Option WindowRec := img.windows.find? (fun r => r.window == w)

/-- Slot of window w that a descriptor's weights come from. -/
def winSlot (d : Dev) (w : Nat) (x : DescId) (b : Bytes) : Option Nat :=
  match winRec? d.img w with
  | none => none
  | some r =>
    if dKind b ≤ 1 then
      match refAddr d x.graph x.inst (dCluster b) (dStrand b) (dWord b 0x20) with
      | some a =>
        let base := regionBase d.img r.windowRegion
        if base ≤ a ∧ a < base + r.depth * r.slotBytes then some ((a - base) / r.slotBytes) else none
      | none => none
    else none

/-- Layers of window w that the descriptors of an instance read, in graph order: a graph reads its layers in ascending order, so
each reader of a slot stands for the first layer of that slot from the present one on (DEDUCED, log 24). -/
def winLayers (d : Dev) (w g i : Nat) : List (Option Nat) :=
  let r := (winRec? d.img w).getD {}
  let bs := entries 64 (graphBlob d g)
  (bs.zipIdx.foldl (fun acc e =>
    match winSlot d w ⟨g, i, e.2⟩ e.1 with
    | some s =>
      match ((List.range (r.layers - acc.1)).map (fun k => acc.1 + k)).find? (fun l => l % r.depth == s) with
      | some l => (l, acc.2 ++ [some l])
      | none => (acc.1, acc.2 ++ [none])
    | none => (acc.1, acc.2 ++ [none])) ((0, []) : Nat × List (Option Nat))).2

/-- Window and layer that a live descriptor reads. -/
def layerOf (d : Dev) (x : DescId) (b : Bytes) : Option (Nat × Nat) :=
  (List.range 4).findSome? (fun w => if (winSlot d w x b).isSome then ((winLayers d w x.graph x.inst).getD x.index none).map (fun l => (w, l)) else none)

/-- A layer stands in its slot. -/
def layerPresent (d : Dev) (w l : Nat) : Bool := tabGet? (getWin d w).slots (l % ((winRec? d.img w).getD {}).depth) == some l

/-- Bound instances with descriptors of window w's layer l that are yet to be instantiated, or live: of a cancelled one, those that had
been released (R307). -/
def instsNeeding (d : Dev) (w l : Nat) : List (Nat × Nat) :=
  (d.sched.insts.cells.filter (fun c => c.2.bound.isSome && (graphOf d.img (c.1 / 64)).part == ((winRec? d.img w).getD {}).part &&
    (winLayers d w (c.1 / 64) (c.1 % 64)).zipIdx.any (fun e => e.1 == some l &&
      ((!c.2.cancelled && decide (c.2.next ≤ e.2)) || (desc? d ⟨c.1 / 64, c.1 % 64, e.2⟩).isSome)))).map (fun c => (c.1 / 64, c.1 % 64))

/-- No instance needs the layer that is next in cyclic order, or one after it: the loader turns to the next step's layer 0, and stops
after depth layers ahead of it (R291, R294, Example 12.1; DEDUCED, log 64). -/
def windowAhead (d : Dev) (w : Nat) (r : WindowRec) : Bool :=
  let n := (getWin d w).next
  decide (r.depth ≤ n) && (List.range r.layers).all (fun l => decide (l < n) || (instsNeeding d w l).isEmpty)

/-- The loader begins the next layer (R291). -/
def windowLoad (w : Nat) (d : Dev) : Dev :=
  match winRec? d.img w with
  | none => d
  | some r =>
    let x := getWin d w
    let ahead := windowAhead d w r
    let i := if ahead then 0 else x.next
    let occupant := tabGet? x.slots (i % r.depth)
    let busy := match occupant with | some o => o != i && !(instsNeeding d w o).isEmpty | none => false
    if running d r.part && d.power.clusters.getLsbD r.home && x.loading.isNone && !busy then
      if occupant = some i then (if ahead then d else modWin w (fun y => { y with next := (i + 1) % r.layers }) d)
      else modWin w (fun y => { y with loading := some i, slots := tabDrop y.slots (i % r.depth), bad := y.bad.filter (fun k => k != i % r.depth) }) d
    else d

/-- Requests of an instance: its own, or those of the step's slots. -/
def ordersOfInst (d : Dev) (g i : Nat) : List Nat :=
  let x := getInst d g i
  if isStep (graphOf d.img g) then x.slots.map (fun s => s.2) else x.bound.toList

/-- Steps end that need a layer (R293, R294): TRUNCATE, cause, and no further tile of them. -/
def endSteps (ks : List (Nat × Nat)) (cause part : Nat) (d : Dev) : Dev :=
  let os := dedup (ks.flatMap (fun k => ordersOfInst d k.1 k.2))
  let d1 := (os.filter (openReq d)).foldl (fun e o => truncateBack o (record cause (some part) (0, 0) e)) d
  let d2 := ks.foldl (fun e k => (cancelInst k.1 k.2 e).1) d1
  endReqs os cause d2

/-- A stall of a step ends after n cycles: every request of it accrues them, and the window counts them once (R292). -/
def endStall (w n : Nat) (k : Nat × Nat × Nat) (d : Dev) : Dev :=
  (ordersOfInst d k.2.1 k.2.2).foldl (fun f o => modReq o (fun q => { q with stall := (q.stall + n) % 4294967296 }) f)
    (modWin w (fun y => { y with stalled := y.stalled.erase k, stall := addW y.stall n }) d)

/-- The stalls of some steps end: the first lasted n cycles, and the later ones no longer; how long is left open (log 148). -/
def endStalls (w n : Nat) : List (Nat × Nat × Nat) → Dev → Dev
  | [], d => d
  | k :: rest, d => rest.foldl (fun e j => let c := draw e; endStall w (Config.freeNat c.1 % (n + 1)) j c.2) (endStall w n k d)

/-- Bytes of a layer in the source region: address and length. -/
def layerSource (d : Dev) (r : WindowRec) (i : Nat) : Nat × Nat :=
  (regionBase d.img r.sourceRegion + (r.entries.getD i {}).offset, (r.entries.getD i {}).bytes)

/-- The second read of a layer's granule fails (R294): the granule is poisoned (R297), the slot marked failed, and every step that needs
the layer ends. Which granule it is, where none is poisoned already, is left open (log 148). -/
def windowFailed (w : Nat) (d : Dev) : Dev :=
  match winRec? d.img w, (getWin d w).loading with
  | some r, some i =>
    let src := layerSource d r i
    let c := draw d
    let bad := if poisonedIn d.mem src.1 (src.2 / 64) = 0 then [src.1 / 64 + Config.freeNat c.1 % max 1 (src.2 / 64)] else []
    let d1 := bad.foldl (fun e g => record 0x11 (some r.part) (0, 0) { e with mem := poisonGranules [g] e.mem }) c.2
    let gone := (getWin d1 w).stalled.filter (fun k => k.1 == i)
    let c2 := draw d1
    let d2 := endStalls w (Config.freeNat c2.1 % (r.timeout + 1)) gone c2.2
    endSteps (instsNeeding d2 w i) 0x12 r.part (modWin w (fun y => { y with
      loading := none, next := (i + 1) % r.layers, failed := y.failed + 1, bad := insertNat (i % r.depth) y.bad }) d2)
  | _, _ => d

/-- Words of a layer that the loader's reads corrected (R301), and an injection on a DRAM channel; the command does not carry the number of
natural ones, which is left open (log 148). -/
def loaderErrors (r : WindowRec) (i : Nat) (d : Dev) : Dev :=
  if bit (d.img.mem.getD {}).flags 0 then
    let c := draw d
    let n := Config.freeNat c.1 % ((layerSource d r i).2 / 8 + 1)
    let d1 := (List.range n).foldl (fun e _ => record 0x10 (some r.part) (0, 0) e) (modDdr (fun x => { x with corr := addW x.corr n }) c.2)
    match (if n = 0 then (List.range 4).findSome? (fun ch => armedOn d1 3 ch) else none) with
    | some 0 => recordAt 0x10 (some r.part) (0, 0) none true (fired (modDdr (fun x => { x with corr := x.corr + 1 }) d1))
    | some _ => recordAt 0x11 (some r.part) (0, 0) none true (fired d1)
    | none => d1
  else d

/-- A layer is present (R291, R292): its granules are in its slot, none of them poisoned; a layer whose source holds poison fails instead
(R294). -/
def windowPresent (w stall : Nat) (d : Dev) : Dev :=
  match winRec? d.img w, (getWin d w).loading with
  | some r, some i =>
    let src := layerSource d r i
    let dst := regionBase d.img r.windowRegion + i % r.depth * r.slotBytes
    if poisonedIn d.mem src.1 (src.2 / 64) ≠ 0 then windowFailed w d
    else
      let d1 := deviceXfer r.home r.part src.1 dst (ceilDiv src.2 64) (loaderErrors r i d)
      let d2 := modWin w (fun y => { y with slots := tabSet y.slots (i % r.depth) i, loading := none, next := (i + 1) % r.layers, loads := y.loads + 1 }) d1
      endStalls w stall ((getWin d w).stalled.filter (fun k => k.1 == i)) d2
  | _, _ => d

/-- Instances whose live descriptors wait for a layer that is not present and for nothing else of theirs: layer, graph, instance. -/
def layerWaiters (d : Dev) (w : Nat) : List (Nat × Nat × Nat) :=
  dedup (d.sched.live.filterMap (fun y =>
    if y.released || y.ready || !waitsMet d y.id y.bytes then none
    else match layerOf d y.id y.bytes with
      | some (v, l) => if v = w ∧ layerPresent d w l = false then some (l, y.id.graph, y.id.inst) else none
      | none => none))

/-- A layer is late (R293): the step that has waited longest for it ends, after window_timeout cycles of stall; the load goes on. A step
waits also where none before it stalled, as the first one does on layer 0. -/
def windowLate (w : Nat) (d : Dev) : Dev :=
  match winRec? d.img w, ((getWin d w).stalled ++ layerWaiters d w).head? with
  | some r, some k =>
    let d1 := if (getWin d w).stalled.contains k then endStall w r.timeout k d else d
    endSteps [k.2] 0xA3 r.part (modWin w (fun y => { y with late := y.late + 1 }) d1)
  | _, _ => d

/-- The last tile of a layer has committed while the next layer in cyclic order is not present: the step stalls (R292), or, after the last
layer, the next step, which waits on layer 0. The descriptor is no longer live. -/
def windowStall (x : DescId) (lay : Option (Nat × Nat)) (d : Dev) : Dev :=
  match lay with
  | none => d
  | some (w, l) =>
    let n := (l + 1) % max 1 ((winRec? d.img w).getD {}).layers
    if (instsNeeding d w l).contains (x.graph, x.inst) || layerPresent d w n then d
    else
      let ks := (instsNeeding d w n).filter (fun k => n == 0 || k == (x.graph, x.inst))
      modWin w (fun y => { y with stalled := y.stalled ++ (ks.map (fun k => (n, k))).filter (fun k => !y.stalled.contains k) }) d

/-! ### Signals between clusters and the scrub -/

/-- A signal from another cluster reaches its cell (R295). -/
def remoteSignal (k : Nat) (d : Dev) : Dev :=
  if d.sched.remote.contains k then signalCell k (modSched (fun c => { c with remote := c.remote.erase k }) d) else d

/-- One period of the patrol scrub (R301): words corrected, granules uncorrectable. -/
def scrub (corrected : Nat) (bad : List Nat) (d : Dev) : Dev :=
  if live d && bit (d.img.mem.getD {}).flags 0 && d.power.dram then
    let total := mappedBytes d.img d.boot.mib / 64
    let own := dedup (bad.filter (fun g => decide (g < total)))
    let inj := (List.range 4).findSome? (fun ch => armedOn d 3 ch)
    let hit := inj.isSome && corrected == 0 && own.isEmpty
    let c := draw d
    let d0 := if hit then fired c.2 else c.2
    let n := if hit && inj == some 0 then 1 else corrected
    let gs := if hit && inj != some 0 then [Config.freeNat c.1 % total] else own
    let d1 := countRemote 0 total (modDdr (fun x => { x with scrub := x.scrub + total, corr := addW x.corr n, uncorr := addW x.uncorr gs.length }) d0)
    let d2 := (List.range n).foldl (fun e _ => recordAt 0x10 none (0, 0) none hit e) d1
    gs.foldl (fun e g => poisonRange (64 * g) 64 (recordAt 0x11 ((regionAt e.img (64 * g)).map (fun r => r.part)) (0, 0) none hit e)) d2
  else d

/-- TRANSFER_GRANULE_DONE (R285, R286). -/
def execTransferGranuleDone (mover : Fin 4) (fault roundTrip held : Nat) (s : State) : Result :=
  unlessWf (.transferGranuleDone mover fault roundTrip held) s (devStep (granuleDone mover.val fault roundTrip held) s)

/-- WINDOW_LOAD_START (R291). -/
def execWindowLoadStart (window : Fin 4) (s : State) : Result := devStep (windowLoad window.val) s

/-- WINDOW_LAYER_PRESENT (R291, R292). -/
def execWindowLayerPresent (window : Fin 4) (stall : Nat) (s : State) : Result := devStep (windowPresent window.val stall) s

/-- WINDOW_LAYER_LATE (R293). -/
def execWindowLayerLate (window : Fin 4) (s : State) : Result := devStep (windowLate window.val) s

/-- WINDOW_LAYER_FAILED (R294). -/
def execWindowLayerFailed (window : Fin 4) (s : State) : Result := devStep (windowFailed window.val) s

/-- REMOTE_BARRIER_SIGNAL (R295). -/
def execRemoteBarrierSignal (cell : Fin 8192) (s : State) : Result := devStep (remoteSignal cell.val) s

/-- SCRUB_PERIOD (R301). -/
def execScrubPeriod (corrected : Nat) (uncorrectable : List Nat) (s : State) : Result := devStep (scrub corrected uncorrectable) s

end Sys2Proof.Machine
end

