-- ==== Sys2Proof/Machine/Feeders.lean ====
section
/-! DEFINITION. What stands around a core's arrays: templates and their cycles (R148, R149, R187, R215, R220, R221, R267), the regions of
core SRAM (R138, R139), window taps (R209, R218), and the operands that the feeders and loaders read from memory (R142 to R145, R176,
R207 to R209, R213, R214, R217, R222, R223). -/

namespace Sys2Proof.Machine

/-! ### Templates -/

/-- Format options of a template (Table 7.8). -/
def fmtOptOf (img : Image) (t : Nat) : FmtOpt := (img.fmtOpts.find? (fun o => o.template == t)).getD {}

/-- Format of the weights once decoded. -/
def weightFormat (img : Image) (t : Template) : Nat :=
  if t.wFormat = 11 then (codebookSet img (fmtOptOf img t.id).codebook).format else t.wFormat

/-- Weights with group scales, or MXINT8: two-level accumulation (R167), with the block or group size. -/
def twoLevel (img : Image) (t : Template) : Option Nat :=
  if t.wFormat = 8 then some 32
  else if (fmtOptOf img t.id).groupLog2 ≠ 0 then some (2 ^ (fmtOptOf img t.id).groupLog2) else none

/-- Operands of integer formats. -/
def intOperands (img : Image) (t : Template) : Bool :=
  t.cellOp != 0 || t.shape == 4 || (weightFormat img t ≤ 2 && t.aFormat ≤ 2)

/-- The working area holds int32. -/
def intArea (img : Image) (t : Template) : Bool := intOperands img t && (twoLevel img t).isNone

/-- Array cycles per wavefront (Table 6.2). -/
def wavefrontCycles (img : Image) (t : Template) : Nat :=
  if t.cellOp = 0 ∧ (weightFormat img t = 9 ∨ weightFormat img t = 10) then 4 else 1

/-- Lw and L of a shape (Table 6.3). -/
def shapeTimes (s : Nat) : Nat × Nat := if s = 0 then (16, 31) else if s = 1 then (32, 63) else if s = 2 then (16, 79) else (64, 79)

/-- Lw and L of a template: a search tile drains 16 accumulator rows per pass, whatever its shape (R187). -/
def passTimes (t : Template) : Nat × Nat := if bit t.flags 2 then (16, (shapeTimes t.shape).2) else shapeTimes t.shape

/-- Ramp of a core in array cycles (R149); a stem engine's is 32. -/
def rampOf (img : Image) (u : Nat) : Nat := if 24 ≤ u then 32 else 16 * 2 ^ (coreRec img u).ramp

/-- Width in bits of a weight as stored: a codebook weight's is that of its index (R168). -/
def storedBits (img : Image) (t : Template) : Nat :=
  if t.wFormat = 11 then (codebookSet img (fmtOptOf img t.id).codebook).indexBits else formatBits t.wFormat

/-- Width in bits of an element of an operand; a 1-bit code travels as words of 16 bits (R186). -/
def operandBits (f : Nat) : Nat := if f = 12 then 16 else formatBits f

/-- Reduction rows of a template's shape (Table 6.3). -/
def shapeRows (t : Template) : Nat := (shapeDims t.shape).1

/-- Output columns of one operand block (Tables 6.2 and 6.3). -/
def blockColumns (t : Template) : Nat := (shapeDims t.shape).2 * weightsPerCell t.wFormat

/-- Reduction length of a template (R148, R187): the rows of its passes, or, output-stationary, the wavefronts of one pass. -/
def reductionLength (t : Template) : Nat := if t.dataflow = 1 then t.rows else t.kBlocks * shapeRows t

/-- Bytes of the weight block of a template. -/
def weightBytes (img : Image) (t : Template) : Nat := ceilDiv (t.kBlocks * shapeRows t * blockColumns t * storedBits img t) 8

/-! ### Window taps (R209, R218) -/

/-- Input index of one axis: kind 3 gathers where the division is exact. -/
def tapIndex (kind o s lo k dil H : Nat) : Option Nat :=
  if kind = 3 then
    if o + lo < k * dil then none
    else let n := o + lo - k * dil
      if n % s = 0 ∧ n / s < H then some (n / s) else none
  else
    let i : Int := (o * s : Nat) - (lo : Int) + (k * dil : Nat)
    if 0 ≤ i ∧ i < H then some i.toNat else none

/-- Input index of one axis clamped to the map (pad mode 2). -/
def clampIndex (o s lo k dil H : Nat) : Nat :=
  let i : Int := (o * s : Nat) - (lo : Int) + (k * dil : Nat)
  (clampInt 0 ((H : Int) - 1) i).toNat

/-- The tap (ky, kx) reads a real pixel for output (ox, oy). -/
def tapReal (v : ConvOp) (ox oy ky kx : Nat) : Bool :=
  (tapIndex v.kind oy v.sh v.padTop ky v.dh v.inH).isSome && (tapIndex v.kind ox v.sw v.padLeft kx v.dw v.inW).isSome

/-- Taps that are wholly in padding for a tile (R215): tap numbers ky × KW + kx. -/
def skippedTaps (v : ConvOp) (first n : Nat) : List Nat :=
  if v.padMode ≠ 0 ∧ v.kind ≠ 3 then []
  else (List.range (v.kh * v.kw)).filter (fun t =>
    (List.range n).all (fun k => !tapReal v ((first + k) % max 1 v.outW) ((first + k) / max 1 v.outW) (t / v.kw) (t % v.kw)))

/-- Window operator of a tile's template with the taps that its tile skips. -/
def tileTaps (img : Image) (graphBlob b : Bytes) : Option (ConvOp × List Nat) :=
  (convOf img (dOp b)).map (fun v =>
    let g := (outGrid img graphBlob b).1
    (v, skippedTaps v g.first g.rows))

/-- Passes of an array tile that skip: those of the skipped taps (R208, R215). -/
def skipPass (t : Template) (taps : Option (ConvOp × List Nat)) (p : Nat) : Bool :=
  match taps with
  | some (v, l) => let per := max 1 (t.kBlocks / max 1 (v.kh * v.kw)); t.shape != 4 && l.contains (p / per)
  | none => false

/-! ### Cycles (R148, R151, R215, R220, R221, R233, R234, R260, R267) -/

/-- Passes of a stem tile (R221). -/
def stemPasses (t : Template) (v : ConvOp) : Nat := if bit t.flags 3 then ceilDiv v.inC 64 else ceilDiv v.outC 64

/-- Advancing cycles of a tile, passes run and passes skipped. -/
def advanceCycles (d : Dev) (u : Nat) (x : DescId) (b : Bytes) : Nat × Nat × Nat :=
  let R := rampOf d.img u
  match dKind b with
  | 0 =>
    let t := templateOf d.img (dOp b)
    let taps := tileTaps d.img (graphBlob d x.graph) b
    let skipped := ((List.range t.kBlocks).filter (skipPass t taps)).length
    let r := t.kBlocks - skipped
    let s := passTimes t
    let wp := t.rows * wavefrontCycles d.img t
    (if r = 0 then max R s.1 + s.2 + R else max R s.1 + (r - 1) * max wp s.1 + wp + s.2 + R, r, skipped)
  | 1 =>
    let t := templateOf d.img (dOp b)
    match tileTaps d.img (graphBlob d x.graph) b with
    | some (v, l) =>
      let n := stemPasses t v
      let p := tilePositions d.img t
      (32 + n * p * (v.kh * v.kw - l.length) + 24 + 32, 0, n * l.length)
    | none => (t.planned, 0, 0)
  | 2 => ((poolOf d.img (dOp b)).planned, 0, 0)
  | 3 => ((scanOf d.img (dOp b)).planned, 0, 0)
  | 4 => ((attnOf d.img (dOp b)).planned, 0, 0)
  | _ =>
    let r := kvRecOf d.img (u8 b 0x24)
    (2 * R + ceilDiv (2 * u16 b 0x26 * r.kvHeads * r.headDim) 64 + 16, 0, 0)

/-- Commit cycles of a tile, with the pages that its walk has fixed. -/
def commitCycles (d : Dev) (x : DescId) (b : Bytes) (pages : List (Nat × Nat)) : Nat :=
  match dKind b with
  | 0 => (templateOf d.img (dOp b)).commit
  | 1 => (templateOf d.img (dOp b)).commit
  | 2 => (poolOf d.img (dOp b)).commit
  | 3 => (scanOf d.img (dOp b)).commit
  | 4 =>
    let g := (outGrid d.img (graphBlob d x.graph) b).1
    ceilDiv (g.rows * g.chans) 64 + 16
  | _ => (scatterGranules d pages b).length + 16

/-! ### Elements in memory -/

/-- fp32 value of a map's element at a bit offset from an address: fp32 or bf16 (R229). -/
def mapValue (m : Mem) (at_ off width : Nat) : Word :=
  let a := at_ + off / 8
  if width = 16 then toF32 (decodeElem 9 0 (u16 (memRead m a 2) 0)) else BitVec.ofNat 32 (u32 (memRead m a 4) 0)

/-- Raw element of a map at a bit offset from an address. -/
def rawBits (m : Mem) (at_ off width : Nat) : Nat :=
  let b := memRead m (at_ + off / 8) (if width ≤ 8 ∧ off % 8 + width ≤ 8 then 1 else 8)
  u64 b 0 / 2 ^ (off % 8) % 2 ^ width

/-- Stored blocks of a compressed segment. -/
def zcStored (m : Mem) (at_ dense : Nat) : Nat :=
  ((List.range dense).filter (fun i => let j := u32 (memRead m (at_ + 4 * i) 4) 0 / 1073741824; j == 1 || j == 2)).length

/-- The index entry of dense granule k is invalid (R223): kind 3, or a block beyond those stored. A poisoned entry is not looked at. -/
def zcInvalid (m : Mem) (at_ dense k : Nat) : Bool :=
  let e := u32 (memRead m (at_ + 4 * k) 4) 0
  !poisonedAt m (at_ + 4 * k) &&
    (e / 1073741824 == 3 || (e / 1073741824 != 0 && decide (zcStored m at_ dense ≤ e % 1073741824)))

/-- Dense granule k of a segment (R222, R223): its 64 bytes and whether it is poisoned. -/
def zcGranule (m : Mem) (at_ dense k : Nat) : Bytes × Bool :=
  let e := u32 (memRead m (at_ + 4 * k) 4) 0
  let a := at_ + ceilDiv dense 16 * 64 + e % 1073741824 * 64
  let blk := memRead m a 64
  if poisonedAt m (at_ + 4 * k) || zcInvalid m at_ dense k then (zeros 64, true)
  else if e / 1073741824 = 0 then (zeros 64, false)
  else if e / 1073741824 = 1 then
    let mask := u64 blk 0
    ((List.range 64).map (fun i => if bit mask i then blk.getD (8 + ((List.range i).filter (fun j => bit mask j)).length) 0 else 0),
      poisonedAt m a)
  else (blk, poisonedAt m a)

/-- A segment of a compressed map: its address and the dense granules of the map that it holds, in order. -/
structure Segment where
  at_ : Nat := 0
  granules : List Nat := []
  deriving DecidableEq, Repr

/-- The segments of a compressed map of a number of dense granules that starts at an address (R222): one for each producing tile, one
after the other; a map without a producer is one segment (DEDUCED, log 31). -/
def segmentsFrom (l : List Segment) : Nat → Nat → List Segment
  | 0, _ => []
  | n + 1, a =>
    match l.find? (fun s => s.at_ == a) with
    | some s => s :: segmentsFrom l n (a + segmentSize s.granules.length * 64)
    | none => []

/-- Segments that the producers of a graph instance write, by their addresses. -/
def producedSegments (d : Dev) (x : DescId) : List Segment :=
  let gb := graphBlob d x.graph
  ((entries 64 gb).filter (fun y => (zcOf d.img y).isSome)).filterMap (fun y =>
    (destAddr d x y).map (fun t => { at_ := t, granules := denseGranules d.img gb y }))

/-- Copies of segments that the mode-1 transfers of a graph instance make, row by row (R222). -/
def movedSegments (d : Dev) (x : DescId) (l : List Segment) : List Segment :=
  ((entries 64 (graphBlob d x.graph)).filter (fun y => dKind y == 6)).flatMap (fun y =>
    match (xferOf d x y).filter (fun t => t.mode == 1) with
    | some t => (List.range t.rows).filterMap (fun r =>
        (l.find? (fun s => s.at_ == t.src + r * t.srcStride)).map (fun s => { s with at_ := t.dst + r * t.dstStride }))
    | none => [])

/-- Segments of a compressed map: of the producers of the reader's own instance first, then of every other graph and instance, and
where transfers have moved them (DEDUCED, log 31). -/
def mapSegments (d : Dev) (x : DescId) (a dense : Nat) : List Segment :=
  let own := producedSegments d x
  let others := d.img.graphs.flatMap (fun g => (List.range g.instances).flatMap (fun i => producedSegments d ⟨g.id, i, 0⟩))
  let written := own ++ others
  let l := written ++ movedSegments d x written ++
    d.img.graphs.flatMap (fun g => (List.range g.instances).flatMap (fun i => movedSegments d ⟨g.id, i, 0⟩ written))
  match segmentsFrom l l.length a with
  | [] => [{ at_ := a, granules := List.range dense }]
  | s => s

/-- The segment that holds a dense granule, and its place there. -/
def segmentOf (l : List Segment) (g : Nat) : Option (Segment × Nat) :=
  l.findSome? (fun s => (s.granules.findIdx? (fun k => k == g)).map (fun k => (s, k)))

/-- Dense granule of a compressed map; one that no segment holds reads as an invalid entry. -/
def mapGranule (m : Mem) (l : List Segment) (g : Nat) : Bytes × Bool :=
  match segmentOf l g with
  | some (s, k) => zcGranule m s.at_ s.granules.length k
  | none => (zeros 64, true)

/-- The index entry of a dense granule of a compressed map is invalid (R223). -/
def mapInvalid (m : Mem) (l : List Segment) (g : Nat) : Bool :=
  match segmentOf l g with
  | some (s, k) => zcInvalid m s.at_ s.granules.length k
  | none => true

/-! ### Operands -/

/-- One element as it enters the array. -/
structure Opnd where
  /-- its encoding -/
  bits : Nat := 0
  /-- E8M0 byte or fp16 group scale of its block; 1.0 where nothing scales it -/
  scale : Nat := 127
  /-- block of its scale stream, counted from the first that the tile reads -/
  block : Option Nat := none
  /-- dense granule of a compressed map that it came from -/
  granule : Option Nat := none
  /-- a zero weight that packs another group's channels, with its operand (R217) -/
  gone : Bool := false
  poison : Bool := false
  deriving DecidableEq, Repr

/-- A stream of scale blocks: its kind, its address, and the elements that one scale covers (R175, R176). -/
structure ScaleStream where
  kind : Nat := 1
  at_ : Nat := 0
  run : Nat := 32
  /-- index of the first data block -/
  first : Nat := 0
  deriving DecidableEq, Repr

/-- Scales that a block of a kind holds (Table 7.3). -/
def scalesPer (kind : Nat) : Nat := if kind = 1 then 32 else if kind = 2 then 16 else 8

/-- Scale number n of a stream. -/
def scaleAt (m : Mem) (s : ScaleStream) (n : Nat) : Nat :=
  let a := s.at_ + n / scalesPer s.kind * 64 + 8
  let p := n % scalesPer s.kind
  if s.kind = 1 then u8 (memRead m (a + p) 1) 0 else if s.kind = 2 then u16 (memRead m (a + 2 * p) 2) 0 else u32 (memRead m (a + 4 * p) 4) 0

/-- An operand of a tile as it lies in memory. -/
structure Source where
  at_ : Nat := 0
  width : Nat := 8
  scales : Option ScaleStream := none
  segs : Option (List Segment) := none
  deriving DecidableEq, Repr

/-- Element n of an operand in stored order, as it lies in memory. -/
def feedRaw (m : Mem) (s : Source) (n : Nat) : Opnd :=
  let off := n * s.width
  match s.segs with
    | some l =>
      let g := mapGranule m l (off / 512)
      { bits := u64 (g.1.drop (off % 512 / 8)) 0 / 2 ^ (off % 8) % 2 ^ s.width, granule := some (off / 512), poison := g.2 }
    | none => { bits := rawBits m s.at_ off s.width, poison := (granulesOf (s.at_ + off / 8) ((off % 8 + s.width + 7) / 8)).any (fun g => m.poison.contains g) }

/-- An element with scale number k of its operand's stream. -/
def withScale (m : Mem) (s : Source) (k : Nat) (o : Opnd) : Opnd :=
  match s.scales with
  | some c =>
    let blk := k / scalesPer c.kind
    { o with scale := scaleAt m c k, block := some blk, poison := o.poison || poisonedAt m (c.at_ + blk * 64) }
  | none => o

/-- Element n of an operand in stored order, with the scale of its run. -/
def feedElem (m : Mem) (s : Source) (n : Nat) : Opnd := withScale m s (n / max 1 ((s.scales.map (fun c => c.run)).getD 1)) (feedRaw m s n)

/-- Address of a ref of a tile. -/
def tileRef (d : Dev) (x : DescId) (b : Bytes) (ref : Nat) : Nat := (refAddr d x.graph x.inst (dCluster b) (dStrand b) ref).getD 0

/-- Scale stream of the row operand of an array tile: MX scales (R166). -/
def rowScales (d : Dev) (x : DescId) (b : Bytes) (t : Template) : Option ScaleStream :=
  if 5 ≤ t.aFormat ∧ t.aFormat ≤ 8 then some { kind := 1, at_ := tileRef d x b (dWord b 0x34), run := 32, first := dWord b 0x2C } else none

/-- Stream of row scales of the row operand (R173). -/
def rowFactors (d : Dev) (x : DescId) (b : Bytes) (t : Template) : Option ScaleStream :=
  if bit (fmtOptOf d.img t.id).scaleFlags 0 then some { kind := 3, at_ := tileRef d x b (dWord b 0x34), run := 1, first := dWord b 0x2C } else none

/-- Scale stream of the weights or column operand: MX scales or group scales (R166, R167). -/
def colScales (d : Dev) (x : DescId) (b : Bytes) (t : Template) : Option ScaleStream :=
  if 5 ≤ t.wFormat ∧ t.wFormat ≤ 8 then some { kind := 1, at_ := tileRef d x b (dWord b 0x38), run := 32, first := dWord b 0x30 }
  else match twoLevel d.img t with
    | some g => some { kind := 2, at_ := tileRef d x b (dWord b 0x38), run := g, first := dWord b 0x30 }
    | none => none

/-- Row operand of an array or stem tile (in0). -/
def rowSource (d : Dev) (x : DescId) (b : Bytes) (t : Template) : Source :=
  let at_ := tileRef d x b (dIn0 b)
  let w := operandBits t.aFormat
  let zc := (convOf d.img t.id).filter (fun v => bit v.flags 0)
  { at_ := at_, width := w, scales := rowScales d x b t,
    segs := zc.map (fun v => mapSegments d x at_ (ceilDiv (mapExtent v.inLayout w v.inH v.inW v.inC) 512)) }

/-! ### Search tiles -/

/-- Drain to the top-k selector (R188). -/
def isSearch (img : Image) (b : Bytes) : Bool := dKind b == 0 && bit (templateOf img (dOp b)).flags 2

/-- Catalogue record of a slot. -/
def catRec? (img : Image) (n : Nat) : Option CatRec := img.cats.find? (fun r => r.slot == n)

/-- Catalogue record of a slot, or an empty one. -/
def catRecOf (img : Image) (n : Nat) : CatRec := (catRec? img n).getD {}

/-- Catalogue that a search tile works on: of those whose search template it names, the one whose items its column operand names,
else the first (DEDUCED, log 26). -/
def catOfTile (d : Dev) (x : DescId) (b : Bytes) : Option CatRec :=
  let cs := d.img.cats.filter (fun r => r.template == dOp b)
  let inside (r : CatRec) : Bool :=
    match refAddr d x.graph x.inst (dCluster b) (dStrand b) (dWord b 0x20) with
    | some a => let base := regionBase d.img r.region + r.baseOffset; decide (base ≤ a) && decide (a < base + r.capacity * r.itemBytes)
    | none => false
  match cs.find? inside with
  | some r => some r
  | none => cs.head?

/-- Items that a search tile compares (R188, R194): address of the first item's first element, bytes of an item. The elements start
where in1 points within an item (DEDUCED, log 26). -/
def searchItems (d : Dev) (x : DescId) (b : Bytes) : Option (Nat × Nat) :=
  if isSearch d.img b then
    (catOfTile d x b).map (fun r =>
      let base := regionBase d.img r.region + r.baseOffset
      let off := match refAddr d x.graph x.inst (dCluster b) (dStrand b) (dWord b 0x20) with
        | some a => (a - base) % max 1 r.itemBytes
        | none => 0
      (base + dWord b 0x28 * r.itemBytes + off, r.itemBytes))
  else none

/-- Query rows that a search tile carries: those of the sweep in progress. -/
def searchRows (d : Dev) (x : DescId) (b : Bytes) : Nat :=
  match (if isSearch d.img b then catOfTile d x b else none) with
  | some r => match (getCat d r.slot).sweep with
    | some w => w.queries.length
    | none => 0
  | none => 0

/-- Bytes of the column operand of an array template: the weight block, or the columns of all passes of an output-stationary one. -/
def columnBytes (img : Image) (t : Template) : Nat :=
  if t.dataflow = 1 then ceilDiv (t.kBlocks * t.rows * blockColumns t * (if t.wFormat = 12 then 16 else storedBits img t)) 8 else weightBytes img t

/-- The column operand of an array tile as the weights region holds it (R139, R313): its address and its bytes; the items of a search
tile (R194). An output-stationary operand is staged like weights, its loaders reading only there (DEDUCED, log 142). -/
def columnBlock (d : Dev) (x : DescId) (b : Bytes) : Option (Nat × Nat) :=
  let t := templateOf d.img (dOp b)
  if dKind b ≠ 0 then none
  else match searchItems d x b with
    | some k => some (k.1, t.kBlocks * blockColumns t * k.2 - k.1 % max 1 k.2)
    | none => (refAddr d x.graph x.inst (dCluster b) (dStrand b) (dWord b 0x20)).map (fun a => (a, columnBytes d.img t))

/-- Where a core's weights region holds the block of a tile (R313). -/
def stagedAt (d : Dev) (u part : Nat) (k : Nat × Nat) : Option Nat :=
  ((getUnit d u).cache.find? (fun e => e.1 == part && e.2.1 == k.1 && e.2.2.1 == k.2)).map (fun e => coreRegion d.img u 1 + e.2.2.2)

/-- Column operand (in1): of an array tile the block that its core has staged (R139), of a stem tile where its ref points. -/
def colSource (d : Dev) (u : Nat) (x : DescId) (b : Bytes) (t : Template) : Source :=
  { at_ := match columnBlock d x b with
      | some k => (stagedAt d u (dPart b) k).getD k.1
      | none => tileRef d x b (dWord b 0x20),
    width := if t.wFormat = 12 then 16 else storedBits d.img t, scales := colScales d x b t }

/-- What a place of the padded input holds: an element of the map, or a value that the generator makes (R209). -/
inductive Place where
  | elem (n : Nat)
  | made (bits : Nat)
  deriving DecidableEq, Repr

/-- Channels that one group's block takes: whole groups where several share the reduction rows (R217). -/
def groupSpan (v : ConvOp) (rows : Nat) : Nat :=
  let n := v.inC / max 1 v.groups
  if n < rows ∧ 1 < v.groups then min rows v.inC else n

/-- The operand of output position p, tap number and channel of a window operator (R207 to R209, R218). -/
def windowPlace (v : ConvOp) (rows first p tap c : Nat) : Place :=
  let o := first + p
  let ox := o % max 1 v.outW
  let oy := o / max 1 v.outW
  let ky := tap / max 1 v.kw
  let kx := tap % max 1 v.kw
  let place (x y : Nat) : Place := .elem (mapBit v.inLayout 1 v.inH v.inW v.inC x y c)
  if groupSpan v rows ≤ c then .made 0
  else match tapIndex v.kind oy v.sh v.padTop ky v.dh v.inH, tapIndex v.kind ox v.sw v.padLeft kx v.dw v.inW with
    | some y, some x => place x y
    | _, _ =>
      if v.kind = 3 ∨ v.padMode = 0 then .made 0
      else if v.padMode = 1 then .made v.padValue
      else place (clampIndex ox v.sw v.padLeft kx v.dw v.inW) (clampIndex oy v.sh v.padTop ky v.dh v.inH)

/-- The operand that a place gives: a value that the generator makes is never poisoned. -/
def feedPlace (m : Mem) (s : Source) : Place → Opnd
  | .elem n => feedElem m s n
  | .made v => { bits := v }

/-- An output channel takes an input channel of its group (R217). -/
def sameGroup (v : ConvOp) (rows chan c : Nat) : Bool :=
  let n := v.inC / max 1 v.groups
  !(decide (n < rows) && decide (1 < v.groups)) || c / max 1 n == chan / max 1 (v.outC / max 1 v.groups)

/-- One accumulator of a tile and what reaches it: for each pass that runs its number and its pairs of operands. -/
structure Cell where
  /-- output position of the tile, or query row -/
  row : Nat := 0
  /-- output channel of the tile, or column counted across the passes -/
  chan : Nat := 0
  /-- value before the first pass -/
  init : Word := 0
  passes : List (Nat × List (Opnd × Opnd)) := []
  /-- row scale of R173 -/
  rowScale : Word := 0
  poison : Bool := false
  deriving DecidableEq, Repr

/-- What every accumulator of a tile reads from. -/
structure Feed where
  t : Template := {}
  row : Source := {}
  col : Source := {}
  /-- bytes from one column's operand to the next, where it is not packed -/
  stride : Option Nat := none
  /-- row scales -/
  factors : Option ScaleStream := none
  /-- operator, first output position, skipped taps -/
  window : Option (ConvOp × Nat × List Nat) := none
  /-- accumulate_in: address and places of its elements -/
  init : Option (Nat × (Nat → Nat → Nat)) := none

/-- What accumulate_in holds (R151): the tile's outputs in 32 bits, or, of a search tile, its query rows by its columns. -/
def initGrid (img : Image) (graphBlob b : Bytes) : OutGrid × (Nat → Nat → Nat) :=
  let t := templateOf img (dOp b)
  if bit t.flags 2 then
    let rows := if t.shape = 0 then 64 else shapeRows t
    let cols := t.kBlocks * blockColumns t
    ({ rows := rows, chans := cols, width := cols, total := rows, extent := rows * cols * 32 }, fun k c => (k * cols + c) * 32)
  else gridOf img graphBlob b 32

/-- The feeds of a tile on a unit; the items of a search tile are its columns. -/
def tileFeed (d : Dev) (u : Nat) (x : DescId) (b : Bytes) (items : Option (Nat × Nat)) : Feed :=
  let t := templateOf d.img (dOp b)
  let gb := graphBlob d x.graph
  let g := outGrid d.img gb b
  { t := t, row := rowSource d x b t, stride := items.map (fun k => k.2), factors := rowFactors d x b t,
    col := colSource d u x b t,
    window := (tileTaps d.img gb b).map (fun w => (w.1, g.1.first, w.2)),
    init := if bit t.flags 1 then (refAddr d x.graph x.inst (dCluster b) (dStrand b) (dWord b 0x24)).map (fun a => (a, (initGrid d.img gb b).2)) else none }

/-- Column operand of column j at reduction index k (R143, R145): each column's elements stand one after the other (DEDUCED, log 98);
a transposed read takes the stored block along its other axis, where a group of weights of a channel takes the place of its first
weight in the order of the scales (R175). -/
def colElem (m : Mem) (f : Feed) (K cols j k : Nat) : Opnd :=
  match f.stride with
  | some n => feedElem m { f.col with at_ := f.col.at_ + j * n } k
  | none =>
    if bit f.t.flags 0 then
      withScale m f.col (k / max 1 ((f.col.scales.map (fun c => c.run)).getD 1) * cols + j) (feedRaw m f.col (k * cols + j))
    else feedElem m f.col (j * K + k)

/-- Pairs of a weight-stationary pass: its reduction rows. -/
def passPairs (m : Mem) (f : Feed) (r c p : Nat) : List (Opnd × Opnd) :=
  let n := shapeRows f.t
  let K := f.t.kBlocks * n
  (List.range n).map (fun i =>
    let k := p * n + i
    let w := colElem m f K (blockColumns f.t) c k
    match f.window with
    | some (v, first, _) =>
      let cp := max 1 (K / max 1 (v.kh * v.kw))
      if sameGroup v n c (k % cp) then (feedPlace m f.row (windowPlace v n first r (k / cp) (k % cp)), w)
      else ({ gone := true }, { gone := true })
    | none => (feedElem m f.row (r * K + k), w))

/-- Passes of a stem tile that reach an output channel: the taps that run, of up to 64 input channels each (R155, R221). -/
def stemPairs (m : Mem) (f : Feed) (v : ConvOp) (first : Nat) (skip : List Nat) (r c : Nat) : List (Nat × List (Opnd × Opnd)) :=
  let per := if bit f.t.flags 3 then 64 else max 1 v.inC
  let K := v.kh * v.kw * v.inC
  (List.range (ceilDiv v.inC per)).map (fun p =>
    (p, ((List.range (v.kh * v.kw)).filter (fun t => !skip.contains t)).flatMap (fun tap =>
      (List.range (min per (v.inC - p * per))).map (fun i =>
        let ch := p * per + i
        (feedPlace m f.row (windowPlace v v.inC first r tap ch), feedElem m f.col (if bit f.t.flags 0 then (tap * v.inC + ch) * v.outC + c else c * K + tap * v.inC + ch))))))

/-- What reaches the accumulator of a row and column of a tile. -/
def feedCell (m : Mem) (f : Feed) (r c : Nat) : Cell :=
  let t := f.t
  let passes :=
    match f.window with
    | some (v, first, skip) =>
      if t.shape = 4 then stemPairs m f v first skip r c
      else ((List.range t.kBlocks).filter (fun p => !skipPass t (some (v, skip)) p)).map (fun p => (p, passPairs m f r c p))
    | none =>
      if t.dataflow = 1 then [(0, (List.range t.rows).map (fun k => (feedElem m f.row (r * t.rows + k), colElem m f t.rows (blockColumns t) c k)))]
      else (List.range t.kBlocks).map (fun p => (p, passPairs m f r c p))
  let start : Word × Bool := match f.init with
    | some (a, off) => (w32 (u32 (memRead m (a + off r c / 8) 4) 0), poisonedAt m (a + off r c / 8))
    | none => (0, false)
  let scale : Word × Bool := match f.factors with
    | some s => (w32 (scaleAt m s r), poisonedAt m (s.at_ + r / 8 * 64))
    | none => (0, false)
  { row := r, chan := c, init := start.1, passes := passes, rowScale := scale.1,
    poison := start.2 || scale.2 || passes.any (fun p => p.2.any (fun e => e.1.poison || e.2.poison)) }

/-- Rows and columns of what a tile computes: the outputs of its grid, or query rows by items of a search tile (R188, R195). -/
def feedRange (img : Image) (gb b : Bytes) (queries : Nat) : Nat × Nat :=
  let t := templateOf img (dOp b)
  if bit t.flags 2 then (min queries (if t.shape = 0 then 64 else shapeRows t), t.kBlocks * blockColumns t)
  else let g := (outGrid img gb b).1; (g.rows, g.chans)

/-- Every accumulator of a tile. -/
def tileCells (d : Dev) (u : Nat) (x : DescId) (b : Bytes) (items : Option (Nat × Nat)) (queries : Nat) : List Cell :=
  let f := tileFeed d u x b items
  let n := feedRange d.img (graphBlob d x.graph) b queries
  (List.range n.1).flatMap (fun r => (List.range n.2).map (fun c => feedCell d.mem f r c))

/-- An item has been searched in a sweep. -/
def searched (w : Sweep) (item : Nat) : Bool := w.done.any (fun s => decide (s.1 ≤ item) && decide (item < s.2))

/-- Items that a search tile covers: the first, and past the last (R188). -/
def tileItems (img : Image) (b : Bytes) : Nat × Nat :=
  let t := templateOf img (dOp b)
  (dWord b 0x28, dWord b 0x28 + t.kBlocks * blockColumns t)

/-! ### What the feeders meet -/

/-- Blocks of a scale stream that a tile's elements touch, ascending. -/
def blocksUsed (side : Opnd × Opnd → Opnd) (l : List Cell) : List Nat :=
  (l.flatMap (fun c => c.passes.flatMap (fun p => p.2.filterMap (fun e => (side e).block)))).foldl (fun a x => insertNat x a) []

/-- First block of a stream among some whose tag or kind does not match (R177): the tag expected and the tag read. A poisoned block is
not compared. -/
def streamMismatch (m : Mem) (s : ScaleStream) (blocks : List Nat) : Option (Nat × Nat × Nat) :=
  blocks.findSome? (fun k =>
    let a := s.at_ + k * 64
    let tag := u8 (memRead m a 1) 0
    let kind := u8 (memRead m (a + 1) 1) 0
    if !poisonedAt m a && (tag != (s.first + k) % 256 || kind != s.kind) then some (s.kind, (s.first + k) % 256, tag) else none)

/-- Scale streams of a tile's operands with the blocks that it consumes: the row operand's, the column operand's, the row scales', in
the order in which a mismatch is looked for (DESIGN CHOICE, log 139). -/
def tileStreams (d : Dev) (u : Nat) (x : DescId) (b : Bytes) (cells : List Cell) : List (ScaleStream × List Nat) :=
  let f := tileFeed d u x b none
  let some_ (s : Option ScaleStream) (l : List Nat) : List (ScaleStream × List Nat) := (s.map (fun k => (k, l))).toList
  some_ f.row.scales (if f.row.scales.isSome then blocksUsed (fun e => e.1) cells else []) ++
    some_ f.col.scales (if f.col.scales.isSome then blocksUsed (fun e => e.2) cells else []) ++
    some_ f.factors (if f.factors.isSome then (cells.map (fun c => c.row / 8)).foldl (fun a x => insertNat x a) [] else [])

/-- Dense granules of a compressed row operand that a tile reads with an invalid index entry (R223). -/
def cellsInvalid (d : Dev) (x : DescId) (b : Bytes) (cells : List Cell) : Nat :=
  match (rowSource d x b (templateOf d.img (dOp b))).segs with
  | none => 0
  | some l =>
    let gs := (cells.flatMap (fun c => c.passes.flatMap (fun p => p.2.filterMap (fun e => e.1.granule)))).foldl (fun a x => insertNat x a) []
    (gs.filter (mapInvalid d.mem l)).length

end Sys2Proof.Machine
end

