-- ==== Sys2Proof/Machine/Leash.lean ====
section
/-! DEFINITION. The leashes at the edge of a core's arrays (R146) and what an array issues in each array cycle of a pass (R147). -/

namespace Sys2Proof.Machine

/-- Entries of a leash (R146). -/
def leashDepth : Nat := 4

/-- Parity over a value. -/
def parityOf (v : Nat) : Bool := ((List.range 32).filter (fun i => bit v i)).length % 2 == 1

/-- An entry that holds a value. -/
def leashEntry (v : Nat) : LeashEntry := { value := v, valid := true, parity := parityOf v }

/-- Row inputs of the arrays of a core: four arrays of 16, or one pack (R144). -/
def rowInputs (t : Template) : Nat := if t.shape = 0 then 64 else shapeRows t

/-- Column outputs. -/
def colOutputs (t : Template) : Nat := if t.shape = 0 then 4 * blockColumns t else blockColumns t

/-- Passes of a tile that run: those that no skipped tap empties (R215). -/
def passesRun (f : Feed) : List Nat :=
  (List.range f.t.kBlocks).filter (fun p => !skipPass f.t (f.window.map (fun v => (v.1, v.2.2))) p)

/-- Operand that row input i takes in wavefront w, counted over the passes that run (R140, R142); none for an array without an operand
in that wavefront. The tile has n rows. -/
def rowOperand (m : Mem) (f : Feed) (n i w : Nat) : Option Nat :=
  let t := f.t
  let k := shapeRows t
  let r := if t.dataflow = 1 then i else (if t.shape = 0 then i / 16 * t.rows else 0) + w % max 1 t.rows
  if n ≤ r then none
  else if t.dataflow = 1 then some (feedElem m f.row (r * t.rows + w % max 1 t.rows)).bits
  else
    let j := (passesRun f).getD (w / max 1 t.rows) 0 * k + i % k
    match f.window with
    | some (v, first, _) =>
      let cp := max 1 (t.kBlocks * k / max 1 (v.kh * v.kw))
      some (feedPlace m f.row (windowPlace v k first r (j / cp) (j % cp))).bits
    | none => some (feedElem m f.row (r * (t.kBlocks * k) + j)).bits

/-- What stands at the edges of a core's arrays while a tile runs (R140, R146). -/
structure EdgePlan where
  rows : Nat := 64
  cols : Nat := 64
  /-- wavefronts of the tile -/
  waves : Nat := 0
  /-- operand of a row input in a wavefront; none, and the input carries an invalid entry -/
  elem : Nat → Nat → Option Nat := fun _ _ => some 0
  /-- accumulator rows that drain at the end of a pass; 0, and each wavefront leaves its own results -/
  drain : Nat := 0
  /-- a wavefront is the last of its pass -/
  ends : Nat → Bool := fun _ => false

/-- Entry of a row leash for a wavefront. -/
def rowEntry (p : EdgePlan) (i w : Nat) : LeashEntry :=
  match p.elem i w with
  | some v => leashEntry v
  | none => {}

/-- Leashes before the first wavefront: every feeder runs ahead as far as its leash has room. -/
def fullLeashes (p : EdgePlan) : Leashes :=
  { rows := (List.range p.rows).map (fun i => (List.range (min leashDepth p.waves)).map (rowEntry p i)),
    cols := List.replicate p.cols [] }

/-- The arrays and their leashes in one array cycle. -/
structure Edge where
  leash : Leashes := {}
  issued : Nat := 0
  /-- accumulator rows of ended passes that have not left -/
  left : Nat := 0
  /-- results that have entered each column leash -/
  out : Nat := 0
  bubbles : Nat := 0
  /-- an entry was taken whose parity does not match -/
  bad : Bool := false
  deriving DecidableEq, Repr

/-- An entry at the head of a leash fails its parity check as it is taken. -/
def headBad (l : List LeashEntry) : Bool := (l.take 1).any (fun x => x.valid && x.parity != parityOf x.value)

/-- One array cycle of the passes (R146, R147). Feeders and drains that do not stall move. Then the array issues a wavefront if every row
leash holds the operand that the wavefront needs and every column leash has room for the results that leave in the cycle, else a
bubble, which leaves the leashes as they are. Results of a weight-stationary wavefront enter the column leashes with it (DEDUCED,
log 104); output-stationary, a pass that has ended drains its accumulators, one row per cycle, while the next passes run, at most
one pass behind (R140). res gives result number n of column output j. -/
def leashCycle (p : EdgePlan) (res : Nat → Nat → Nat) (e : Edge) (stall : List Nat × List Nat) : Edge :=
  let rows := e.leash.rows.zipIdx.map (fun l =>
    let w := e.issued + l.1.length
    if !stall.1.contains l.2 && decide (l.1.length < leashDepth) && decide (w < p.waves) then l.1 ++ [rowEntry p l.2 w] else l.1)
  let taken := e.leash.cols.zipIdx.any (fun l => !stall.2.contains l.2 && headBad l.1)
  let cols := e.leash.cols.zipIdx.map (fun l => if stall.2.contains l.2 then l.1 else l.1.drop 1)
  let room := cols.all (fun l => decide (l.length < leashDepth))
  let due := decide (e.issued < p.waves) && decide (e.left ≤ p.drain)
  let fed := rows.zipIdx.all (fun l => l.1 != [] || (p.elem l.2 e.issued).isNone)
  let leaving := if p.drain = 0 then due else decide (0 < e.left)
  let issue := due && fed && (room || !leaving)
  let out := room && leaving && (issue || p.drain != 0)
  { leash := { rows := if issue then rows.map (fun l => l.drop 1) else rows,
               cols := if out then cols.zipIdx.map (fun l => l.1 ++ [leashEntry (res l.2 e.out)]) else cols },
    issued := e.issued + b2n issue
    left := e.left - b2n (out && p.drain != 0) + if issue && p.ends e.issued then p.drain else 0
    out := e.out + b2n out
    bubbles := e.bubbles + b2n ((due && !issue) || (!due && leaving && !room))
    bad := e.bad || taken || (issue && rows.any headBad) }

/-- The array cycles up to the last in which some feeder or drain stalls; no bubble follows it, since a feeder that does not stall delivers
in every cycle. -/
def leashRun (p : EdgePlan) (res : Nat → Nat → Nat) (l : Leashes) (stalls : List (List Nat × List Nat)) : Edge :=
  stalls.foldl (leashCycle p res) { leash := l }

/-- Wavefronts of a page in an attend tile, half for the scores and half for the values (R267). -/
def pageWaves (a : AttnOp) : Nat := a.headDim * kvBits a.format

/-- The edges of an attend tile (R263, R264): its scores are output-stationary passes over head_dim, with the query rows at the row inputs;
its values are passes over the 64 slots of a page, whose weights the row inputs carry as elements of no stated value (DEDUCED, log
104). -/
def attendEdges (d : Dev) (u : Nat) (x : DescId) (b : Bytes) : EdgePlan :=
  let a := attnOf d.img (dOp b)
  let f := a.format
  let q : Source := { at_ := tileRef d x b (dIn0 b), width := if f ≤ 2 then 8 else formatBits f }
  let n := max 1 (pageWaves a)
  let score (w : Nat) : Bool := a.kind == 1 || decide (w % n < n / 2)
  { waves := (advanceCycles d u x b).1 - (2 * rampOf d.img u + 48)
    elem := fun i w => if u8 b 0x23 ≤ i then none else some (if score w then (feedRaw d.mem q (i * a.headDim + w % max 1 a.headDim)).bits else 0)
    drain := 16
    ends := fun w => if score w then (w % n + 1) % max 1 a.headDim == 0 else (w % n + 1) % 64 == 0 }

/-- The edges of a tile: an array tile's passes that run; an attend tile's; other tiles have one wavefront in each advancing cycle, through
all 64 row inputs (DEDUCED, log 104). -/
def tileEdges (d : Dev) (u : Nat) (x : DescId) (b : Bytes) : EdgePlan :=
  if dKind b = 0 then
    let t := templateOf d.img (dOp b)
    let f := tileFeed d u x b (searchItems d x b)
    let n := (feedRange d.img (graphBlob d x.graph) b (searchRows d x b)).1
    { rows := rowInputs t, cols := colOutputs t, waves := (advanceCycles d u x b).2.1 * t.rows, elem := rowOperand d.mem f n
      drain := if t.dataflow = 1 then shapeRows t else 0, ends := fun w => (w + 1) % max 1 t.rows == 0 }
  else if dKind b = 4 then attendEdges d u x b
  else { waves := (advanceCycles d u x b).1 }

/-- The leashes of a unit as its tile ramps up. -/
def fillLeashes (u : Nat) (x : DescId) (b : Bytes) (d : Dev) : Dev :=
  modUnit u (fun y => { y with leash := fullLeashes (tileEdges d u x b) }) d

/-! ### Weight blocks of the cells (R140, R142, R143) -/

/-- The block of a weight-stationary pass, by column and reduction row. -/
def passBlock (m : Mem) (f : Feed) (p : Nat) : List (List Nat) :=
  let n := shapeRows f.t
  let cols := blockColumns f.t
  (List.range cols).map (fun j => (List.range n).map (fun i => (colElem m f (f.t.kBlocks * n) cols j (p * n + i)).bits))

/-- At the first wavefront of a pass the shadow block becomes active, and the next pass's block loads into the shadow registers. -/
def turnBlocks (m : Mem) (f : Feed) (c : CellBlocks) : CellBlocks :=
  let ps := passesRun f
  ps.zipIdx.foldl (fun k p => { active := k.shadow, shadow := (ps[p.2 + 1]?.map (passBlock m f)).getD k.shadow }) c

/-- A tile keeps weights in its cells. -/
def holdsWeights (img : Image) (b : Bytes) : Bool := dKind b == 0 && (templateOf img (dOp b)).dataflow == 0

/-- The first block of a tile loads into the shadow registers of its unit as it ramps up. -/
def loadFirst (u : Nat) (x : DescId) (b : Bytes) (d : Dev) : Dev :=
  if holdsWeights d.img b then
    let f := tileFeed d u x b none
    modUnit u (fun y => { y with blocks := { y.blocks with shadow := (((passesRun f).head?).map (passBlock d.mem f)).getD y.blocks.shadow } }) d
  else d

/-- The cells' blocks once every pass of a tile has begun. -/
def blocksAfter (d : Dev) (u : Nat) (x : DescId) (b : Bytes) : CellBlocks :=
  let c := (getUnit d u).blocks
  if holdsWeights d.img b then turnBlocks d.mem (tileFeed d u x b none) c else c

/-- A unit's edges and cells as a tile ramps up: its leashes fill and its first weight block loads. -/
def rampUp (u : Nat) (x : DescId) (b : Bytes) (d : Dev) : Dev := loadFirst u x b (fillLeashes u x b d)

end Sys2Proof.Machine
end

