-- ==== Sys2Proof/Machine/Sched.lean ====
section
/-! DEFINITION. The tile scheduler (R304 to R321, R339): binding, instantiation, readiness, placement, ranking, pre-emption, quotas,
steps and the backstop. -/

namespace Sys2Proof.Machine

/-! ### Binding (R304, R305, R320) -/

/-- Counts of an instance's cells at binding. -/
def bindCounts (d : Dev) (g i : Nat) : List Word := (List.range (graphOf d.img g).barrierCells).map (fun r => cellCount d (cellNo d.img g i r))

/-- The present step of a step graph has instantiated its last descriptor. -/
def stepDone (d : Dev) (g : Nat) : Bool :=
  let n := (getStep d g).steps
  n == 0 || (match tabGet? d.sched.insts (64 * g + (n - 1) % 2) with
    | some x => x.cancelled || x.next == (graphOf d.img g).descriptors
    | none => true)

/-- A batch slot is free: nothing is bound to it. The slot of an ended request frees at the start of the next step (R304, R321). -/
def slotFree (d : Dev) (g k : Nat) : Bool := (tabGet? (getStep d g).slots k).isNone

/-- Lowest free batch slot. -/
def freeSlot (d : Dev) (g : Nat) : Option Nat := (List.range (graphOf d.img g).batchShape).find? (slotFree d g)

/-- Lowest free instance of an ordinary graph. -/
def freeInst (d : Dev) (g : Nat) : Option Nat :=
  (List.range (graphOf d.img g).instances).find? (fun i => (tabGet? d.sched.insts (64 * g + i)).isNone)

/-- One arrival number and order of admission stands before another: by R75's arrival numbers; equal numbers of two tiers fall to the
order of admission. -/
def earlierKey (a b : Nat × Nat) : Bool :=
  if a.1 = b.1 then decide (a.2 < b.2) else decide ((b.1 + 4294967296 - a.1) % 4294967296 < 2147483648)

/-- a was issued before b. -/
def earlierReq (a b : Req) : Bool := earlierKey (a.q.arrival, a.order) (b.q.arrival, b.order)

/-- The first of a list of requests by arrival number. -/
def firstReq (l : List Req) : Option Req := l.foldl (fun b r => match b with | some x => if earlierReq r x then some r else some x | none => some r) none

/-- Requests that wait for an instance or slot of a graph. -/
def unbound (d : Dev) (g : Nat) : List Req :=
  d.reqs.filter (fun r => r.tier != 1 && r.q.graph == g && r.ended.isNone && r.inst.isNone && r.slot.isNone)

/-- The first waiting request of a graph binds (R304, R305, R320). -/
def bindOne (g : Nat) (d : Dev) : Dev :=
  match firstReq (unbound d g) with
  | none => d
  | some r =>
    if isStep (graphOf d.img g) then
      match freeSlot d g with
      | some k =>
        tap 2 (graphOf d.img g).pool 0 r.q.part
          (modReq r.order (fun x => { x with slot := some k }) (modStep g (fun x => { x with slots := tabSet x.slots k r.order }) d))
      | none => d
    else
      match freeInst d g with
      | some i =>
        tap 2 (graphOf d.img g).pool 0 r.q.part
          (modReq r.order (fun x => { x with inst := some i }) (modInst g i (fun _ => { bound := some r.order, c0 := bindCounts d g i, rank := (r.q.arrival, r.order), prio := r.q.prio }) d))
      | none => d

/-- A graph is loaded and its partition runs. -/
def graphRuns (d : Dev) (g : Nat) : Bool := (graph? d.img g).isSome && running d (graphOf d.img g).part && !frozen d 2 (graphOf d.img g).pool

/-- REQUEST_BIND. -/
def requestBind (g : Nat) (d : Dev) : Dev := if graphRuns d g then bindOne g d else d

/-- Key-value sequences that a slot's descriptors name. -/
def slotSeqs (d : Dev) (g k : Nat) : List Nat :=
  dedup ((entries 64 (graphBlob d g)).filterMap (fun b =>
    if dSlotSpecific b && dSlot b == k then (if dKind b = 4 then some (u8 b 0x20) else if dKind b = 5 then some (u8 b 0x24) else none) else none))

/-- Free the slots of ended requests, and bind those that wait. -/
def rebind (g : Nat) (d : Dev) : Dev :=
  let d1 := modStep g (fun x => { x with slots := ⟨x.slots.cells.filter (fun c => openReq d c.2)⟩ }) d
  (List.range 16).foldl (fun e _ => bindOne g e) d1

/-- A step starts (R320, R321). -/
def stepStart (g : Nat) (d : Dev) : Dev :=
  let n := (getStep d g).steps
  let i := n % 2
  if graphRuns d g && isStep (graphOf d.img g) && stepDone d g && (tabGet? d.sched.insts (64 * g + i)).isNone then
    let d1 := rebind g d
    let bound := (getStep d1 g).slots.cells
    if bound.isEmpty then d
    else
      let d2 := modStep g (fun x => { x with steps := n + 1 }) d1
      let oldest := firstReq (bound.filterMap (fun c => req? d2 c.2))
      let key := (oldest.map (fun r => (r.q.arrival, r.order))).getD (0, 0)
      let d3 := modInst g i (fun _ => { bound := some n, c0 := bindCounts d2 g i, slots := bound, rank := key }) d2
      let d4 := bound.foldl (fun e c => modReq c.2 (fun r => { r with kvBefore := (slotSeqs e g c.1).map (fun s => (s, (getKv e s).length)) }) e) d3
      let d5 := bound.foldl (fun e c => match (req? e c.2).bind (fun r => r.q.turn) with
        | some (n, _) => (slotSeqs e g c.1).foldl (fun f s => modKv s (fun q => { q with session := some n }) f) e
        | none => e) d4
      modSched (fun c => { c with batchSteps := c.batchSteps + 1, batchPad := addW c.batchPad ((graphOf d.img g).batchShape - bound.length) }) d5
  else d

/-! ### Instantiation (R306, R308, R310, R321) -/

/-- Slots of a pool outside every floor. -/
def sharedSlots (img : Image) (pool : Nat) : Nat :=
  let floors := (img.graphs.filter (fun g => g.pool == pool)).foldl (fun a g => a + g.instances * g.instanceFloor) 0
  ((img.descPools.find? (fun p => p.pool == pool)).getD {}).slots - floors

/-- Live descriptors of an instance. -/
def liveOf (d : Dev) (g i : Nat) : List Desc := d.sched.live.filter (fun y => y.id.graph == g && y.id.inst == i)

/-- Descriptors that hold slots: the live ones, and those whose slots a checker holds back (R333). -/
def slotHolders (d : Dev) : List Desc := d.sched.live ++ d.sched.held

/-- Where an instance may take a slot from (R310): false for its floor, true for the shared part. -/
def slotSource (d : Dev) (g i : Nat) : Option Bool :=
  let gr := graphOf d.img g
  let mine := ((slotHolders d).filter (fun y => y.id.graph == g && y.id.inst == i && !y.shared)).length
  let taken := ((slotHolders d).filter (fun y => y.shared && (graphOf d.img y.id.graph).pool == gr.pool)).length
  if mine < gr.instanceFloor then some false else if taken < sharedSlots d.img gr.pool ∧ 0 < mine then some true else none

/-- The next descriptor of an instance, as it will be instantiated: its bytes with the empty flag where its slot is empty, and the
request it works for. -/
def nextDesc (d : Dev) (g i : Nat) : Desc :=
  let x := getInst d g i
  let b := slice (graphBlob d g) (64 * x.next) 64
  let id : DescId := ⟨g, i, x.next⟩
  if isStep (graphOf d.img g) then
    if dSlotSpecific b then
      match x.slots.find? (fun s => s.1 == dSlot b && openReq d s.2) with
      | some s => { id := id, bytes := b, order := some s.2 }
      | none => { id := id, bytes := b.set 14 (BitVec.ofNat 8 (u8 b 14 ||| 1)) }
    else { id := id, bytes := b }
  else { id := id, bytes := b, order := x.bound }

/-- A descriptor is instantiated. -/
def instantiate (g i : Nat) (d : Dev) : Dev :=
  let x := getInst d g i
  let gr := graphOf d.img g
  if graphRuns d g && x.bound.isSome && !x.cancelled && decide (x.next < gr.descriptors) && decide (d.sched.live.length < 1048576) then
    match slotSource d g i with
    | none => d
    | some shared =>
      let d1 := modSched (fun c => { c with live := c.live ++ [{ nextDesc d g i with shared := shared }], liveHigh := max c.liveHigh (c.live.length + 1) })
        (tap 2 gr.pool 0 gr.part d)
      modInst g i (fun y => { y with next := y.next + 1 }) d1
  else d

/-! ### Ranking (R315, R316) -/

/-- A partition is in quota on a cluster (R315). -/
def inQuota (d : Dev) (c p : Nat) : Bool := decide (tabGet (getCluster d c).charge p 0 < quotaOf d.img p)

/-- Arrival number and order of admission that rank a descriptor: its request's, or those of the oldest request bound in its step. -/
def rankOf (d : Dev) (y : Desc) : Nat × Nat := (getInst d y.id.graph y.id.inst).rank

/-- Priority of a descriptor (R316): the route's, or for a step graph the graph's. -/
def prioOf (d : Dev) (y : Desc) : Nat :=
  let g := graphOf d.img y.id.graph
  if isStep g then g.prio else (getInst d y.id.graph y.id.inst).prio

/-- One ready tile ranks above another on their cluster (R316). -/
def outranks (d : Dev) (a b : Desc) : Bool :=
  let c := dCluster a.bytes
  let qa := inQuota d c (dPart a.bytes)
  let qb := inQuota d c (dPart b.bytes)
  if qa != qb then qa
  else if prioOf d a != prioOf d b then decide (prioOf d b < prioOf d a)
  else if rankOf d a = rankOf d b then decide (a.id.index < b.id.index)
  else earlierKey (rankOf d a) (rankOf d b)

/-- hard_cap holds the tile back (R316). -/
def capped (d : Dev) (y : Desc) : Bool := bit ((partRec? d.img (dPart y.bytes)).getD {}).flags 2 && !inQuota d (dCluster y.bytes) (dPart y.bytes)

/-! ### Placement (R312 to R314) -/

/-- A core is in the schedule and may take new work: available, its cluster powered and not stopped. -/
def coreOn (d : Dev) (u : Nat) : Bool := d.age.avail.getLsbD u && d.power.clusters.getLsbD (u / 6) && !(getCluster d (u / 6)).stopped

/-- A core on its way out for test takes no free tile and starts no strand (R319). -/
def leaving (d : Dev) (u : Nat) : Bool := d.age.testing.any (fun t => t.1 == u)

/-- First 16 KiB unit of a free run of n units in a core's activations region (R314). -/
def frameFit (d : Dev) (u n : Nat) : Option Nat :=
  let total := (coreRec d.img u).act * 4
  let used (k : Nat) : Bool := (getUnit d u).frames.any (fun f => decide (f.2.2.2.1 ≤ k) && decide (k < f.2.2.2.1 + f.2.2.2.2))
  (List.range total).find? (fun s => decide (s + n ≤ total) && (List.range n).all (fun i => !used (s + i)))

/-- Core on which a strand of an instance started. -/
def strandCore (d : Dev) (g i strand : Nat) : Option Nat := ((getInst d g i).strands.find? (fun s => s.1 == strand)).map (fun s => s.2)

/-- The tile's placement is fixed: a scan tile, or a strand tile after its start (R312). -/
def fixedCore (d : Dev) (y : Desc) : Option (Option Nat) :=
  if dKind y.bytes = 3 then some (some (blkCore d (dBlock y.bytes)))
  else if dStrand y.bytes ≠ 0 ∧ dStart y.bytes = false then some (strandCore d y.id.graph y.id.inst (dStrand y.bytes))
  else none

/-- Core whose range of the sweep in progress holds a search tile's first item (R195): of the tile's cluster and in the schedule, else the
tile is free in its cluster (DEDUCED, log 101). -/
def rangeCore (d : Dev) (y : Desc) : Option Nat :=
  if isSearch d.img y.bytes then
    match (catOfTile d y.id y.bytes).bind (fun r => (getCat d r.slot).sweep) with
    | some w =>
      let g := dWord y.bytes 0x28 / 16
      (w.ranges.find? (fun r => decide (r.2.1 ≤ g) && decide (g < r.2.1 + r.2.2) && r.1 / 6 == dCluster y.bytes && coreOn d r.1 && !leaving d r.1)).map
        (fun r => r.1)
    | none => none
  else none

/-- A search tile waits for the sweep that carries its request's queries (R195; DEDUCED, log 101). -/
def searchHeld (d : Dev) (y : Desc) : Bool :=
  isSearch d.img y.bytes && (match catOfTile d y.id y.bytes with
    | some r => let c := getCat d r.slot
      (c.batch ++ c.waiting).any (fun e => (ordersOf d y).contains e.order)
    | none => false)

/-- The unit may run the tile, whatever runs there now. A cluster with no core in the schedule runs no tile (R319), and a muzzled stem
engine none (R324). -/
def mayRun (d : Dev) (y : Desc) (u : Nat) : Bool :=
  let c := dCluster y.bytes
  if dKind y.bytes = 1 then u == 24 + c && (List.range 6).any (fun k => coreOn d (6 * c + k)) && !isMuzzled d (0x18 + c)
  else if 24 ≤ u ∨ coreOn d u = false then false
  else match fixedCore d y with
    | some k => k == some u
    | none => u / 6 == c && !leaving d u && (!dStart y.bytes || (frameFit d u (dFrame y.bytes)).isSome) &&
        ((rangeCore d y).isNone || rangeCore d y == some u)

/-- Key of the column operand that an array tile reads from in1 (R313): its partition, its source address and its length. -/
def weightKey (d : Dev) (y : Desc) : Option (Nat × Nat × Nat) := (columnBlock d y.id y.bytes).map (fun k => (dPart y.bytes, k.1, k.2))

/-- The entry of a core's cache that holds a block (R313). -/
def cached (d : Dev) (u : Nat) (k : Nat × Nat × Nat) : Option (Nat × Nat × Nat × Nat) :=
  (getUnit d u).cache.find? (fun e => (e.1, e.2.1, e.2.2.1) == k)

/-- Cores of a free tile's first preference (R312), ascending: those that hold its weights, or the one that ran the tile before it in its
chain. -/
def prefCores (d : Dev) (y : Desc) : List Nat :=
  let c := dCluster y.bytes
  if dKind y.bytes = 4 then
    let acc := dWord y.bytes 0x2C
    if acc = 0xFFFFFFFF then []
    else (((getInst d y.id.graph y.id.inst).chains.find? (fun k => k.1 == acc)).map (fun k => k.2)).toList
  else match weightKey d y with
    | some k => ((List.range 6).map (fun i => 6 * c + i)).filter (fun u => (cached d u k).isSome)
    | none => []

/-- First preference of a free tile among the cores that may run it: an idle one, else the lowest. -/
def firstPref (d : Dev) (y : Desc) : Option Nat :=
  let us := (prefCores d y).filter (mayRun d y)
  match us.find? (fun u => (tileOf d u).isNone) with | some u => some u | none => us.head?

/-- Idle cores on which a free tile may run, ascending. -/
def idleCores (d : Dev) (y : Desc) : List Nat :=
  ((List.range 6).map (fun i => 6 * dCluster y.bytes + i)).filter (fun u => mayRun d y u && (tileOf d u).isNone)

/-- Core that a free tile takes now: its preferred core, or, once affinity_wait has passed, the lowest idle one. -/
def freePick (d : Dev) (y : Desc) : Option Nat :=
  let hint := if dHint y.bytes < 6 then some (6 * dCluster y.bytes + dHint y.bytes) else none
  match (match firstPref d y with | some u => some u | none => hint.filter (mayRun d y)) with
  | some u => if (tileOf d u).isNone then some u else if y.waited then (idleCores d y).head? else none
  | none => (idleCores d y).head?

/-- The tile may be placed on this idle unit now: a scan tile only while its block is present (R241) and no other waits for the slot
(R240); a free tile where it prefers, or, once it has asked for pre-emption, on the first core that falls idle (R317). -/
def placeable (d : Dev) (y : Desc) (u : Nat) : Bool :=
  y.ready && !y.released && running d (dPart y.bytes) && !capped d y && mayRun d y u && (tileOf d u).isNone &&
    (dKind y.bytes != 3 || (present d (dBlock y.bytes) && !slotWanted d (dBlock y.bytes))) &&
    (if dKind y.bytes = 1 || (fixedCore d y).isSome || y.asked then true else freePick d y == some u)

/-- Highest-ranked ready tile for an idle unit (R317), among some. -/
def pickAmong (p : Desc → Bool) (d : Dev) (u : Nat) : Option Desc :=
  (d.sched.live.filter (fun y => placeable d y u && p y)).foldl
    (fun b y => match b with | some x => if outranks d y x then some y else some x | none => some y) none

/-! ### Pre-emption (R317) -/

/-- Cores of a cluster on which a ready tile asks for pre-emption: it outranks the tile in progress on every core where it may run. It
first asks while none of those is idle, and its requests stand until the first of them to end its commit has taken it. -/
def preemptsOf (d : Dev) (y : Desc) : List Nat :=
  if !(y.ready && !y.released && running d (dPart y.bytes) && !capped d y) || dKind y.bytes == 1 then []
  else
    let us := (List.range 24).filter (mayRun d y)
    if us.all (fun u => match tileOf d u with
      | some t => (desc? d t.d).any (fun z => outranks d y z)
      | none => y.asked) then us else []

/-- Raise and withdraw pre-emption requests. -/
def settlePreempt (d : Dev) : Dev :=
  let us := d.sched.live.flatMap (preemptsOf d)
  modSched (fun c => { c with live := c.live.map (fun y => { y with asked := !(preemptsOf d y).isEmpty }) })
    { d with units := tabMap d.units (fun u x => { x with preempt := us.contains u && x.tile.isSome }) }

/-! ### Readiness and dispatch (R311, R313, R317) -/

/-- Everything that R311 asks of a descriptor but a scan block's presence. -/
def readyBut (d : Dev) (y : Desc) : Bool :=
  live d && !y.released && !y.ready && running d (dPart y.bytes) && waitsMet d y.id y.bytes && walkDone d y.id y.bytes &&
    (match layerOf d y.id y.bytes with | some (w, l) => layerPresent d w l | none => true) &&
    (dKind y.bytes != 3 || (groupReady d y.bytes && !chunkWaits d y)) && !searchHeld d y

/-- Descriptor is released: sent to its engine (SCH_RELEASED). -/
def releaseDesc (x : DescId) (d : Dev) : Dev :=
  modSched (fun c => { c with released := c.released + 1 }) (modDesc x (fun y => { y with released := true, ready := false }) d)

/-- A live descriptor becomes ready and goes to its engine (R311). -/
def descReady (x : DescId) (d0 : Dev) : Dev :=
  match desc? d0 x with
  | none => d0
  | some y =>
    let d := if dKind y.bytes = 3 ∧ waitsMet d0 x y.bytes = true then noteInputs y.bytes d0 else d0
    if !readyBut d y then d
    else if dKind y.bytes = 3 ∧ (present d (dBlock y.bytes) = false ∨ slotWanted d (dBlock y.bytes) = true) then
      if present d (dBlock y.bytes) then d else beginWait (dBlock y.bytes) d
    else if dKind y.bytes = 7 then pump (retire x (signalOwn x y.bytes (releaseDesc x d)))
    else if dKind y.bytes = 6 then
      match xferOf d x y.bytes with
      | some t => modMover (dCluster y.bytes) (fun m => { m with queue := m.queue ++ [t] }) (releaseDesc x d)
      | none => d
    else settlePreempt (modDesc x (fun z => { z with ready := true }) d)

/-- affinity_wait has passed for a free tile (R312). -/
def affinityExpiry (x : DescId) (d : Dev) : Dev := modDesc x (fun y => if y.ready && !y.released then { y with waited := true } else y) d

/-- Blocks of a core's weight cache that a tile in progress reads, which nothing evicts (R313). -/
def pinnedKeys (d : Dev) (u : Nat) : List (Nat × Nat × Nat) :=
  match (tileOf d u).bind (fun t => desc? d t.d) with
  | some y => (weightKey d y).toList
  | none => []

/-- Lowest place of n bytes in a weights region of a size that no entry of the cache overlaps (DESIGN CHOICE, log 99). -/
def cachePlace (size n : Nat) (l : List (Nat × Nat × Nat × Nat)) : Option Nat :=
  ((0 :: l.map (fun e => e.2.2.2 + ceilDiv e.2.2.1 64 * 64)).filter (fun a => decide (a + n ≤ size) &&
    l.all (fun e => decide (a + n ≤ e.2.2.2) || decide (e.2.2.2 + e.2.2.1 ≤ a)))).min?

/-- Evict the least recently used entries that are not pinned until n bytes find a place. -/
def evict (pins : List (Nat × Nat × Nat)) (size n : Nat) : Nat → List (Nat × Nat × Nat × Nat) → List (Nat × Nat × Nat × Nat)
  | 0, l => l
  | k + 1, l =>
    if (cachePlace size n l).isSome then l
    else match l.find? (fun e => !pins.contains (e.1, e.2.1, e.2.2.1)) with
      | some e => evict pins size n k (l.erase e)
      | none => l

/-- The mover of a core's cluster stages the weight block of a tile in the core's weights region (R139, R313), unless it is there. -/
def stageWeights (u : Nat) (y : Desc) (d : Dev) : Dev :=
  match weightKey d y with
  | none => d
  | some k =>
    match cached d u k with
    | some e => modUnit u (fun x => { x with cache := x.cache.erase e ++ [e] }) d
    | none =>
      let size := (coreRec d.img u).wt * 65536
      let kept := evict (pinnedKeys d u) size k.2.2 (getUnit d u).cache.length (getUnit d u).cache
      let at_ := (cachePlace size k.2.2 kept).getD 0
      let d1 := modUnit u (fun x => { x with cache := kept ++ [(k.1, k.2.1, k.2.2, at_)] }) d
      deviceXfer (clusterOf u) k.1 k.2.1 (coreRegion d.img u 1 + at_) (ceilDiv k.2.2 64) d1

/-! ### Codebook banks (R169) -/

/-- Codebook set of a tile, 0 for none (Table 7.8). -/
def codebookOf (d : Dev) (y : Desc) : Nat :=
  if dKind y.bytes = 0 then ((d.img.fmtOpts.find? (fun o => o.template == dOp y.bytes)).map (fun o => o.codebook)).getD 0 else 0

/-- Bank of a core that holds a codebook set. -/
def bankWith (x : Unit_) (k : Nat) : Option Nat :=
  if (if x.bank = 0 then x.banks.1 else x.banks.2) = k then some x.bank
  else if (if x.bank = 0 then x.banks.2 else x.banks.1) = k then some (1 - x.bank) else none

/-- The codebook set of a tile stands in a bank of the core, or it has none. -/
def bankReady (d : Dev) (u : Nat) (y : Desc) : Bool := codebookOf d y == 0 || (bankWith (getUnit d u) (codebookOf d y)).isSome

/-- The device issues the load of a tile's codebook set into the bank that the previous layer did not use (R169, R284). -/
def beginBankLoad (u : Nat) (y : Desc) (d : Dev) : Dev :=
  if bankReady d u y || (getUnit d u).bankLoading then d
  else
    let k := codebookOf d y
    let x : Xfer := { part := dPart y.bytes, src := ((codebookRegion d.img k).map (fun r => r.base)).getD 0,
                      rowGranules := ceilDiv (codebookBytes d.img k) 64, rows := 1, load := some (u, k) }
    modUnit u (fun z => if z.bank = 0 then { z with bankLoading := true, banks := (z.banks.1, 0), bankData := (z.bankData.1, []) }
      else { z with bankLoading := true, banks := (0, z.banks.2), bankData := ([], z.bankData.2) })
      (modMover (clusterOf u) (fun m => { m with queue := m.queue ++ [x] }) d)

/-- The bank that holds a tile's codebook set becomes the active one. -/
def selectBank (u : Nat) (y : Desc) (d : Dev) : Dev :=
  match (if codebookOf d y = 0 then none else bankWith (getUnit d u) (codebookOf d y)) with
  | some b => modUnit u (fun x => { x with bank := b }) d
  | none => d

/-- Take the frame of a strand start on a core (R314), and note where the strand runs. -/
def takeFrame (u : Nat) (y : Desc) (d : Dev) : Dev :=
  if dStart y.bytes then
    let n := dFrame y.bytes
    let at_ := (frameFit d u n).getD 0
    let d1 := tap 4 u 0 (dPart y.bytes) (modUnit u (fun x => { x with frames := x.frames ++ [(y.id.graph, y.id.inst, dStrand y.bytes, at_, n)] }) d)
    modInst y.id.graph y.id.inst (fun x => { x with strands := x.strands ++ [(dStrand y.bytes, u)] }) d1
  else d

/-- Pages that the walk of a tile has fixed. -/
def walkedPages (d : Dev) (x : DescId) : List (Nat × Nat) :=
  ((d.kv.walks.find? (fun w => w.d == x)).bind (fun w => w.pages)).getD []

/-- A tile starts on a unit. -/
def startTile (u : Nat) (y : Desc) (d : Dev) : Dev :=
  let d1 := selectBank u y (stageWeights u y (takeFrame u y d))
  let sc := if dKind y.bytes = 3 then releaseScan u y.bytes d1 else (([], []), d1)
  let pages := walkedPages d y.id
  let t : Tile := { d := y.id, mask := sc.1.1, carried := sc.1.2, pages := pages, lists := (getUnit d u).lists,
                    span := ((advanceCycles d u y.id y.bytes).1, commitCycles d y.id y.bytes pages),
                    levels := (clusterLevel d (clusterOf u), clusterLevel d (clusterOf u)) }
  let d2 := releaseDesc y.id (rampUp u y.id y.bytes (modUnit u (fun x => { x with tile := some t }) sc.2))
  match layerOf d y.id y.bytes with
  | some (w, l) => modWin w (fun x => { x with layer := l }) d2
  | none => d2

/-- The tile that an idle unit takes: the highest-ranked one whose codebook set stands in a bank of the core (R169, R317). -/
def pickFor (d : Dev) (u : Nat) : Option Desc := pickAmong (bankReady d u) d u

/-- Count a placement on a core (R312). -/
def countPlacement (u : Nat) (y : Desc) (d : Dev) : Dev :=
  if 24 ≤ u then d
  else if (fixedCore d y).isNone ∧ u ∈ prefCores d y then modSched (fun c => { c with affHit := c.affHit + 1 }) d
  else modSched (fun c => { c with affMiss := c.affMiss + 1 }) d

/-- The load of the codebook set that the highest-ranked tile of an idle unit needs begins (R169). -/
def prepareBank (u : Nat) (d : Dev) : Dev :=
  match pickAmong (fun _ => true) d u with
  | some y => beginBankLoad u y d
  | none => d

/-- The wake latencies that the first tile of a step ends (R78, R80): the command's value is that of the request that arrived first;
those that arrived later took no longer, and by how much less is left open (log 145). -/
def measureOthers (latency : Nat) : List Nat → Dev → Dev
  | [], d => d
  | o :: rest, d => let c := draw d; measureOthers latency rest (measureLatency o (Config.freeNat c.1 % (latency + 1)) c.2)

/-- Measure the latency of every request of a tile that has not been measured (R80). -/
def measureAll (os : List Nat) (latency : Nat) (d : Dev) : Dev :=
  match firstReq ((os.filterMap (req? d)).filter (fun r => !r.measured)) with
  | none => d
  | some r => measureOthers latency (os.filter (fun o => o != r.order && ((req? d o).any (fun x => !x.measured)))) (measureLatency r.order latency d)

/-- The dispatcher gives an idle unit the highest-ranked ready tile that may run there (R317); the first tile of a request ends its
wake latency (R78). -/
def dispatch (u latency : Nat) (d0 : Dev) : Dev :=
  let d := prepareBank u d0
  if !live d0 || (tileOf d0 u).isSome then d0
  else match pickFor d u with
    | none => d
    | some y =>
      let d1 := startTile u y (countPlacement u y d)
      settlePreempt (measureAll (ordersOf d y) latency d1)

/-! ### Quotas and the backstop (R315, R316, R339) -/

/-- Cycles that a tile in progress may have run so far, as far as its span and what its unit has counted tell (log 144). -/
def elapsedBound (t : Tile) : Nat := t.spent + if t.counted then 0 else if t.committing then t.span.2 else t.span.1

/-- The tile of a unit has run n cycles that are charged while it runs on (R315): its commit will charge the rest. -/
def prepay (u n : Nat) (d : Dev) : Dev :=
  match tileOf d u with
  | some t => chargeTile u (dPart (descBytes d t.d)) n (modUnit u (fun x => { x with tile := some { t with charged := t.charged + n } }) d)
  | none => d

/-- At the end of a budget window, the cycles that its tiles in progress have run so far are charged in it (R315); how many those are of
a tile is left open within its bound (log 144). -/
def flushCharges (c : Nat) (d : Dev) : Dev :=
  ((List.range 6).map (fun k => 6 * c + k) ++ [24 + c]).foldl (fun e u =>
    match tileOf e u with
    | some t => let k := draw e; prepay u (Config.freeNat k.1 % (elapsedBound t - t.charged + 1)) k.2
    | none => e) d

/-- A budget window of a cluster ends and the next starts. -/
def budgetWindow (c : Nat) (d : Dev) : Dev :=
  if live d && d.power.clusters.getLsbD c then settlePreempt (modCluster c (fun x => { x with window := 0, charge := {} }) (flushCharges c d)) else d

/-- Charge n further cycles to a partition's tiles in progress on some units: to each as many as it may have run, what is left over to
the last. -/
def prepayAll : Nat → List Nat → Dev → Dev
  | _, [], d => d
  | n, [u], d => prepay u n d
  | n, u :: v :: rest, d =>
    let k := min n (((tileOf d u).map (fun t => elapsedBound t - t.charged)).getD 0)
    prepayAll (n - k) (v :: rest) (prepay u k d)

/-- Units of a cluster on which a partition's tiles are in progress. -/
def unitsRunning (d : Dev) (c p : Nat) : List Nat :=
  ((List.range 6).map (fun k => 6 * c + k) ++ [24 + c]).filter (fun u => tilePart d u == some p)

/-- A partition's charge reaches its quota on a cluster (R315, R316), once in a window; charge is what it is by then: the cycles since
are those of its tiles in progress there, without which no charge grows. -/
def quotaReached (c p charge : Nat) (d : Dev) : Dev :=
  let now := tabGet (getCluster d c).charge p 0
  if running d p && d.power.clusters.getLsbD c && decide (now < quotaOf d.img p) && decide (quotaOf d.img p ≤ charge) &&
      !(unitsRunning d c p).isEmpty then
    settlePreempt (prepayAll (charge - now) (unitsRunning d c p) d)
  else d

/-- A mover waits for a tag of a row: none of its granules is in flight, the next one needs such a tag, and none may be taken (R287). -/
def waitsForTag (d : Dev) (n row : Nat) : Bool :=
  match (getMover d n).queue.head? with
  | none => false
  | some x => (getMover d n).issued == 0 && !isMuzzled d (0x1C + n) && (tagSource d x.part row).isNone &&
      ((readsMem d.img x && tagRow (xferSrc x x.done) n false == some row) || (x.load.isNone && tagRow (xferDst x x.done) n true == some row))

/-- Row of Table 12.4 that a watch on a tag pool has: DRAM reads and writes, or the stacked-store port of a cluster. -/
def watchRow (watch inst : Nat) : Nat := if watch = 0 then inst else 2 + inst

/-- Requests that wait on a watch of Table 14.4, and whether each holds units of its pool. -/
def watchWaiters (d : Dev) (watch inst : Nat) : List (Nat × Bool) :=
  let open_ (l : List (Nat × Bool)) : List (Nat × Bool) := l.filter (fun w => openReq d w.1)
  match watch with
  | 0 | 1 => open_ ((List.range 4).flatMap (fun n =>
      let row := watchRow watch inst
      match (if waitsForTag d n row then ((getMover d n).queue.head?.bind (fun x => x.d)).bind (desc? d) else none) with
      | some y => (ordersOf d y).map (fun o => (o, d.mov.tags.any (fun t => t.row == row && t.master == 0x1C + n)))
      | none => []))
  | 2 => open_ (d.sched.insts.cells.flatMap (fun c =>
      let g := graphOf d.img (c.1 / 64)
      if g.pool = inst ∧ c.2.bound.isSome = true ∧ c.2.cancelled = false ∧ c.2.next < g.descriptors ∧
          (slotSource d (c.1 / 64) (c.1 % 64)).isNone = true then
        (ordersOfInst d (c.1 / 64) (c.1 % 64)).map (fun o => (o, !(liveOf d (c.1 / 64) (c.1 % 64)).isEmpty))
      else []))
  | 3 => open_ ((d.img.kvs.filter (fun r => r.pool == inst)).flatMap (fun r =>
      match (getKv d r.seq).edits.head? with
      | some (.allocate _ _ o) => if (pageSource d inst r.part).isNone then [(o, decide (0 < (getKv d r.seq).pages))] else []
      | _ => []))
  | 4 => open_ ((d.sched.live.filter (fun y => y.ready && !y.released && dStart y.bytes && dCluster y.bytes == inst &&
      (List.range 6).all (fun k => !(coreOn d (6 * inst + k) && !leaving d (6 * inst + k) && (frameFit d (6 * inst + k) (dFrame y.bytes)).isSome)))).flatMap (fun y =>
        (ordersOf d y).map (fun o => (o, (List.range 24).any (fun u => (getUnit d u).frames.any (fun f =>
          f.1 == y.id.graph && f.2.1 == y.id.inst))))))
  | _ => open_ ((d.sched.live.filter (fun y => y.ready && !y.released && dCluster y.bytes == inst && !capped d y)).flatMap (fun y =>
      (ordersOf d y).map (fun o => (o, false))))

/-- Pool whose freezing takes a watch away (R339): cause code minus 0x30. -/
def watchFrozen (d : Dev) (watch inst : Nat) : Bool :=
  match watch with
  | 0 | 1 => frozen d 1 (watchRow watch inst)
  | 2 => frozen d 2 inst
  | 3 => frozen d 3 inst
  | 4 => (List.range 6).any (fun k => frozen d 4 (6 * inst + k))
  | _ => false

/-- A watch makes no progress (R339): one request ends with 0x37. -/
def backstop (watch inst : Nat) (d : Dev) : Dev :=
  let ws := watchWaiters d watch inst
  let pool := if (ws.filter (fun w => w.2)).isEmpty then ws else ws.filter (fun w => w.2)
  match (pool.map (fun w => w.1)).foldl (fun b o => match b with | some x => some (max x o) | none => some o) (none : Option Nat) with
  | none => d
  | some o =>
    if !live d || watchFrozen d watch inst then d
    else
      let p := ((req? d o).map (fun r => r.q.part)).getD 0
      let kind := if watch = 4 ∨ watch = 5 then (2, inst) else (7, [1, 1, 2, 3].getD watch 0)
      let d1 := recordOn 0xB (1 + watch) 0x37 (some p) kind d
      endReqs [o] 0x37 (modSched (fun c => { c with
        backstop := c.backstop + 1
        backFirst := match c.backFirst with | some x => some x | none => some (watch, p, inst) }) d1)

/-! ### Commands -/

/-- REQUEST_BIND (R304, R305, R320). -/
def execRequestBind (graph : Nat) (s : State) : Result := devStep (requestBind graph) s

/-- DESCRIPTOR_INSTANTIATE (R306, R310). -/
def execDescriptorInstantiate (graph inst : Nat) (s : State) : Result := devStep (instantiate graph inst) s

/-- DESCRIPTOR_READY (R311). -/
def execDescriptorReady (x : DescId) (s : State) : Result := devStep (descReady x) s

/-- TILE_DISPATCH (R312, R317). -/
def execTileDispatch (unit : Fin 28) (latency : Nat) (s : State) : Result := devStep (dispatch unit.val latency) s

/-- AFFINITY_WAIT_EXPIRY (R312). -/
def execAffinityWaitExpiry (x : DescId) (s : State) : Result := devStep (affinityExpiry x) s

/-- BUDGET_WINDOW_START (R315). -/
def execBudgetWindowStart (cluster : Fin 4) (s : State) : Result := devStep (budgetWindow cluster.val) s

/-- QUOTA_REACHED (R316). -/
def execQuotaReached (cluster : Fin 4) (part : Fin 128) (charge : Nat) (s : State) : Result :=
  devStep (quotaReached cluster.val part.val charge) s

/-- STEP_START (R320, R321). -/
def execStepStart (graph : Nat) (s : State) : Result := devStep (stepStart graph) s

/-- BACKSTOP_EXPIRY (R339). -/
def execBackstopExpiry (watch : Fin 6) (instance_ : Nat) (s : State) : Result := devStep (backstop watch.val instance_) s

end Sys2Proof.Machine
end

