-- ==== Sys2Proof/Machine/Search.lean ====
section
/-! DEFINITION. Catalogue search (R188 to R206): top-k lists, batches, sweeps, the two merges and identifications. -/

namespace Sys2Proof.Machine

/-! ### Top-k lists (R189 to R192) -/

/-- One entry ranks above another (R189). -/
def ranksBefore (direction : Nat) (a b : KEntry) : Bool :=
  if a.score = b.score then decide (a.item < b.item) else if direction = 0 then decide (a.score < b.score) else decide (b.score < a.score)

/-- Put an entry at its rank. -/
def rankInsert (direction : Nat) (e : KEntry) : List KEntry → List KEntry
  | [] => [e]
  | x :: r => if ranksBefore direction e x then e :: x :: r else x :: rankInsert direction e r

/-- Offer a value to a list of up to k entries. -/
def offer (direction k : Nat) (e : KEntry) (l : KList) : KList := { l with entries := (rankInsert direction e l.entries).take k }

/-- Offer an entry of another list to a union: an item that both hold stands in it once, where it ranks highest. -/
def unite (direction k : Nat) (e : KEntry) (l : KList) : KList :=
  if l.entries.any (fun x => x.item == e.item && !ranksBefore direction e x) then l
  else offer direction k e { l with entries := l.entries.filter (fun x => x.item != e.item) }

/-- Merge lists: the ranking of R189 over the union, tainted when any is (R190, R191). -/
def mergeLists (direction k : Nat) (ls : List KList) : KList :=
  ls.foldl (fun a l => l.entries.foldl (fun b e => unite direction k e b) { a with tainted := a.tainted || l.tainted }) {}

/-- Key of a core's list: catalogue slot and query row. -/
def listKey (slot row : Nat) : Nat := slot * 64 + row

/-- The list of a catalogue and row in a table of lists. -/
def listAt (t : Tab KList) (slot row : Nat) : KList := tabGet t (listKey slot row) {}

/-- Take the lists of a catalogue out of a core's selector. -/
def dropLists (slot : Nat) (t : Tab KList) : Tab KList := ⟨t.cells.filter (fun c => c.1 / 64 != slot)⟩

/-! ### Batches (R196) -/

/-- Request that a query belongs to: the one bound to its graph instance. -/
def queryOrder (d : Dev) (q : Query) : Option Nat := (ordersOfInst d q.graph q.inst).find? (openReq d)

/-- A query joins the next batch, or waits on a full one (R196). -/
def queryJoin (slot : Nat) (q : Query) (d : Dev) : Dev :=
  match catRec? d.img slot, queryOrder d q with
  | some _, some o =>
    if running d (graphOf d.img q.graph).part then
      let e : QEntry := { q := q, order := o }
      modCat slot (fun c =>
        if c.batch.length < 64 then { c with batch := c.batch ++ [e] }
        else { c with waiting := c.waiting ++ [e], blocked := c.blocked + 1 }) d
    else d
  | _, _ => d

/-- batch_wait has passed for the oldest query of the batch. -/
def batchExpiry (slot : Nat) (d : Dev) : Dev :=
  if (catRec? d.img slot).isSome ∧ (getCat d slot).batch ≠ [] then modCat slot (fun c => { c with expired := true }) d else d

/-- Cores in the schedule, ascending (R22). -/
def coresOn (d : Dev) : List Nat := (List.range 24).filter (fun u => d.age.avail.getLsbD u && d.power.clusters.getLsbD (u / 6))

/-- The groups of 16 items divided among cores in contiguous ranges of equal length, the first cores taking one more where a remainder is
left (R195): core, first group, groups. -/
def sweepRanges (cores : List Nat) (snapshot : Nat) : List (Nat × Nat × Nat) :=
  let n := ceilDiv snapshot 16
  let q := n / max 1 cores.length
  let r := n % max 1 cores.length
  cores.zipIdx.map (fun c => (c.1, c.2 * q + min c.2 r, q + if c.2 < r then 1 else 0))

/-- Search tiles of a catalogue that are in progress belong to no later sweep: what they find goes into none (R199). -/
def staleSearch (slot : Nat) (d : Dev) : Dev :=
  { d with units := tabMap d.units (fun _ u => { u with tile := u.tile.map (fun t =>
      if isSearch d.img (descBytes d t.d) && (catOfTile d t.d (descBytes d t.d)).any (fun r => r.slot == slot) then { t with stale := true } else t) }) }

/-- A sweep starts (R195, R196): with the batch, the count, and the cores in the schedule; waiting queries move up. -/
def sweepStart (slot : Nat) (d : Dev) : Dev :=
  match catRec? d.img slot with
  | none => d
  | some r =>
    let c := getCat d slot
    if live d && c.sweep.isNone && c.batch != [] && coresOn d != [] && d.power.clusters != 0 &&
        (c.batch.length == 64 || c.expired || r.batchWait == 0) then
      modCat slot (fun x => { x with
        sweep := some { queries := x.batch, snapshot := x.count, cores := coresOn d, ranges := sweepRanges (coresOn d) x.count }
        batch := x.waiting.take 64
        waiting := x.waiting.drop 64
        expired := false }) (staleSearch slot { d with units := tabMap d.units (fun _ u => { u with lists := dropLists slot u.lists }) })
    else d

/-! ### Merges (R191, R193) -/

/-- A search tile of a catalogue is in progress on a core of a cluster. -/
def searching (d : Dev) (slot cluster : Nat) : Bool :=
  (List.range 6).any (fun k => (tileOf d (6 * cluster + k)).any (fun t =>
    dKind (descBytes d t.d) == 0 && (catOfTile d t.d (descBytes d t.d)).any (fun r => r.slot == slot)))

/-- A search tile of a request of the sweep has not been released or is in progress (R191). -/
def tilesLeft (d : Dev) (slot : Nat) (w : Sweep) : Bool :=
  let os := w.queries.map (fun e => e.order)
  d.sched.insts.cells.any (fun c =>
    let g := c.1 / 64
    let i := c.1 % 64
    c.2.bound.isSome && !c.2.cancelled && (ordersOfInst d g i).any (fun o => os.contains o && openReq d o) &&
      (entries 64 (graphBlob d g)).zipIdx.any (fun e => isSearch d.img e.1 && (catOfTile d ⟨g, i, e.2⟩ e.1).any (fun r => r.slot == slot) &&
        (decide (c.2.next ≤ e.2) || (desc? d ⟨g, i, e.2⟩).isSome)))

/-- Every item below the snapshot has been searched. -/
def sweepCovered (w : Sweep) : Bool := (List.range w.snapshot).all (searched w)

/-- The last search tile of the sweep has ended: every item has been searched, or none of its requests has a tile left (R191, R195). -/
def sweepDone (d : Dev) (slot : Nat) (w : Sweep) : Bool := sweepCovered w || !tilesLeft d slot w

/-- A core's selector holds lists of a catalogue that no merge has read. -/
def holdsLists (d : Dev) (slot u : Nat) : Bool := (getUnit d u).lists.cells.any (fun c => c.1 / 64 == slot)

/-- Cores of a cluster whose lists its merge stage combines: those of the schedule at the sweep's start, and any other that searched. -/
def mergeCores (d : Dev) (slot cluster : Nat) (w : Sweep) : List Nat :=
  ((List.range 6).map (fun k => 6 * cluster + k)).filter (fun u => w.cores.contains u || holdsLists d slot u)

/-- The merge stage of a cluster has combined the lists of its cores for each query row. -/
def clusterMerge (slot cluster : Nat) (d : Dev) : Dev :=
  match catRec? d.img slot, (getCat d slot).sweep with
  | some r, some w =>
    let us := mergeCores d slot cluster w
    if us.isEmpty || (tabGet? w.merged cluster).isSome || searching d slot cluster || !sweepDone d slot w || !live d then d
    else
      let n := w.queries.length
      let merged : Tab KList := ⟨(List.range n).map (fun q => (q, mergeLists r.direction r.k (us.map (fun u => listAt (getUnit d u).lists slot q))))⟩
      let d1 := us.foldl (fun e u => modUnit u (fun x => { x with kLists := addW x.kLists n, lists := dropLists slot x.lists }) e) d
      modCat slot (fun c => { c with sweep := some { w with merged := tabSet w.merged cluster merged } }) d1
  | _, _ => d

/-- Clusters that took part in a sweep. -/
def sweepClusters (d : Dev) (slot : Nat) (w : Sweep) : List Nat :=
  (List.range 4).filter (fun c => (tabGet? w.merged c).isSome || !(mergeCores d slot c w).isEmpty)

/-! ### Identifications (R199 to R201) -/

/-- Score of a fill entry (R192). -/
def fillScore (direction : Nat) : Int := if direction = 0 then 2147483647 else -2147483648

/-- The list answers the query (R201); a fill entry never counts. -/
def accepted (r : CatRec) (l : KList) : Bool :=
  match l.entries with
  | [] => false
  | x :: rest =>
    let near := if r.direction = 0 then decide (x.score ≤ r.acceptScore) else decide (r.acceptScore ≤ x.score)
    let clear := r.k == 1 || (match rest with
      | y :: _ => decide ((r.minMargin : Int) ≤ if r.direction = 0 then y.score - x.score else x.score - y.score)
      | [] => false)
    near && clear && !l.tainted

/-- A signed score as 4 bytes. -/
def scoreBytes (v : Int) : Bytes := le 4 (v % 4294967296).toNat

/-- Identification body (Table 8.2); list none stands for an error. -/
def identification (r : CatRec) (snapshot : Nat) (q : Query) (list : Option KList) : Bytes :=
  let l := list.getD {}
  let short := decide (l.entries.length < r.k)
  let flags := match list with
    | some _ => b2n (accepted r l) + 2 * b2n l.tainted + 4 * b2n short
    | none => 8
  let body := match list with
    | some _ => l.entries.flatMap (fun e => le 4 e.item ++ scoreBytes e.score) ++
        (List.replicate (r.k - l.entries.length) (le 4 0xFFFFFFFF ++ scoreBytes (fillScore r.direction))).flatten
    | none => zeros (8 * r.k)
  le 8 q.frame ++ le 1 q.stream ++ le 1 flags ++ le 1 r.k ++ le 1 r.slot ++ fit 8 q.box ++ le 2 q.score ++ le 2 q.detection ++
    le 4 snapshot ++ zeros 4 ++ body

/-- One identification leaves before another: frame by frame, in ascending detection index (R200). -/
def leavesBefore (a b : Nat × Nat) : Bool := decide (a.1 < b.1) || (a.1 == b.1 && decide (a.2 < b.2))

/-- Put an identification in its place among those that a request holds back. -/
def identInsert (e : (Nat × Nat) × OutRec) : List ((Nat × Nat) × OutRec) → List ((Nat × Nat) × OutRec)
  | [] => [e]
  | x :: r => if leavesBefore e.1 x.1 then e :: x :: r else x :: identInsert e r

/-- Queries of a request that no sweep has answered yet. -/
def hasQueries (d : Dev) (o : Nat) : Bool :=
  d.cats.cells.any (fun c => c.2.batch.any (fun e => e.order == o) || c.2.waiting.any (fun e => e.order == o) ||
    (match c.2.sweep with | some w => w.queries.any (fun e => e.order == o) | none => false))

/-- Every descriptor of a request's instance has retired. -/
def descsDone (d : Dev) (o : Nat) : Bool :=
  match req? d o with
  | some r => match r.inst with
    | some i => !(d.sched.live.any (fun y => y.id.graph == r.q.graph && y.id.inst == i)) &&
        (getInst d r.q.graph i).next == (graphOf d.img r.q.graph).descriptors
    | none => false
  | none => false

/-- Some query of a request that no sweep has answered leaves before an identification of it. -/
def earlierQuery (d : Dev) (o : Nat) (k : Nat × Nat) : Bool :=
  let hit (e : QEntry) : Bool := e.order == o && leavesBefore (e.q.frame, e.q.detection) k
  d.cats.cells.any (fun c => c.2.batch.any hit || c.2.waiting.any hit || (match c.2.sweep with | some w => w.queries.any hit | none => false))

/-- The identifications that a request holds back and that nothing precedes any more are composed. -/
def flushIdents (o : Nat) (d : Dev) : Dev :=
  match req? d o with
  | none => d
  | some r =>
    let go := r.idents.takeWhile (fun e => !earlierQuery d o e.1)
    go.foldl (fun e x => composeRec o x.2 e) (modReq o (fun q => { q with idents := q.idents.drop go.length }) d)

/-- A request ends: what identifications it still holds back are composed, in their order, since none of its own comes before them any
more (R199, R200). -/
def emitIdents (o : Nat) (d : Dev) : Dev :=
  match req? d o with
  | none => d
  | some r => r.idents.foldl (fun e x => composeRec o x.2 e) (modReq o (fun q => { q with idents := [] }) d)

/-- Compose the identifications of a sweep for the requests that are still open, in the order of R200. -/
def answer (r : CatRec) (snapshot : Nat) (l : List (QEntry × Option KList)) (d : Dev) : Dev :=
  let d1 := l.foldl (fun e x => modReq x.1.order (fun q =>
    if q.ended.isNone then { q with idents := identInsert ((x.1.q.frame, x.1.q.detection),
      { dtype := 0x30, kind := 1, body := identification r snapshot x.1.q x.2, tainted := x.2.any (fun k => k.tainted) }) q.idents } else q) e) d
  (dedup (l.map (fun x => x.1.order))).foldl (fun e o => flushIdents o e) d1

/-- A request whose graph has ended waits only for its identifications: the last of them is its last record (DEDUCED, log 27). -/
def finishAnswered (os : List Nat) (d : Dev) : Dev :=
  os.foldl (fun e o => if openReq e o && descsDone e o && !hasQueries e o then finishReq o e else e) d

/-- The device-wide merge has completed: one identification per query (R191, R192, R200). -/
def deviceMerge (slot cycles : Nat) (d : Dev) : Dev :=
  match catRec? d.img slot, (getCat d slot).sweep with
  | some r, some w =>
    let cs := sweepClusters d slot w
    if live d && cs.all (fun c => (tabGet? w.merged c).isSome) then
      let list (q : Nat) : KList := mergeLists r.direction r.k (cs.map (fun c => tabGet (tabGet w.merged c {}) q {}))
      let found := w.queries.zipIdx.map (fun e => (e.1, some (list e.2)))
      let d1 := modCat slot (fun c => { c with
        sweep := none, sweeps := c.sweeps + 1, queries := addW c.queries w.queries.length
        sweepMax := w32 (max c.sweepMax.toNat cycles)
        device := ⟨w.queries.zipIdx.map (fun e => (e.2, list e.2))⟩ }) (staleSearch slot d)
      let d2 := if found.any (fun e => e.2.any (fun k => k.tainted)) then record 0x66 (some r.part) (0, 0) d1 else d1
      pump (finishAnswered (dedup (w.queries.map (fun e => e.order))) (answer r w.snapshot found d2))
    else d
  | _, _ => d

/-- A tile of the sweep has failed (R199): every query is answered with the error flag and its request ends. -/
def sweepAbort (slot : Nat) (d : Dev) : Dev :=
  match catRec? d.img slot, (getCat d slot).sweep with
  | some r, some w =>
    let d1 := modCat slot (fun c => { c with sweep := none, queries := addW c.queries w.queries.length })
      (staleSearch slot { d with units := tabMap d.units (fun _ u => { u with lists := dropLists slot u.lists }) })
    let os := (dedup (w.queries.map (fun e => e.order))).filter (openReq d1)
    endReqs os 0x60 (os.foldl (fun e o => emitIdents o e) (answer r w.snapshot (w.queries.map (fun e => (e, none))) d1))
  | _, _ => d

/-! ### Enrolment (R197) -/

/-- An enrolment tile commits: it writes item count and advances the count, or finds the catalogue full. -/
def enrol (slot : Nat) (item : Bytes) (os : List Nat) (d : Dev) : Dev :=
  match catRec? d.img slot with
  | none => d
  | some r =>
    let n := (getCat d slot).count
    if r.capacity ≤ n then endReqs os 0x67 (record 0x67 (some r.part) (0, 0) d)
    else
      memStore (regionBase d.img r.region + r.baseOffset + n * r.itemBytes) (fit r.itemBytes item)
        (modCat slot (fun c => { c with count := n + 1 }) d)

/-! ### Commands -/

/-- QUERY_JOIN (R196, R198). -/
def execQueryJoin (slot : Fin 8) (q : Query) (s : State) : Result := unlessWf (.queryJoin slot q) s (devStep (queryJoin slot.val q) s)

/-- BATCH_WAIT_EXPIRY (R196). -/
def execBatchWaitExpiry (slot : Fin 8) (s : State) : Result := devStep (batchExpiry slot.val) s

/-- SWEEP_START (R195, R196). -/
def execSweepStart (slot : Fin 8) (s : State) : Result := devStep (sweepStart slot.val) s

/-- CLUSTER_MERGE_DONE (R191). -/
def execClusterMergeDone (slot : Fin 8) (cluster : Fin 4) (s : State) : Result := devStep (clusterMerge slot.val cluster.val) s

/-- DEVICE_MERGE_DONE (R191, R200). -/
def execDeviceMergeDone (slot : Fin 8) (cycles : Nat) (s : State) : Result := devStep (deviceMerge slot.val cycles) s

end Sys2Proof.Machine
end

