-- ==== Sys2Proof/Machine/Compute.lean ====
section
/-! DEFINITION. What the engines of a core compute up to ramp-down: products and sums of the arrays (R161, R166 to R168, R186),
window taps (R209, R215, R218), the scan (R231, R237), pooling (R219) and the attend pass (R264 to R270). -/

namespace Sys2Proof.Machine

/-! ### Arrays -/

/-- Value of a codebook index (R168): output channel c, reduction index k; from the tables that the core's active bank holds. -/
def codebookValue (d : Dev) (u : Nat) (t : Template) (c k index : Nat) : Nat :=
  let s := codebookSet d.img (fmtOptOf d.img t.id).codebook
  let n := if s.indexBits = 4 then 16 else 256
  let table := if s.granularity = 0 then c else c * ceilDiv s.reduction 128 + k / 128
  let bytes := if s.format = 9 then 2 else 1
  let at_ := (table * n + index % n) * bytes
  let y := getUnit d u
  let tables := if y.bank = 0 then y.bankData.1 else y.bankData.2
  if bytes = 2 then u16 tables at_ else u8 tables at_

/-- Elements of the passes that run: pass, reduction index, row element, column element. -/
def runElems (rows : Nat) (ps : List (Nat × List (Opnd × Opnd))) : List (Nat × Nat × Opnd × Opnd) :=
  ps.flatMap (fun p => p.2.zipIdx.map (fun e => (p.1, p.1 * rows + e.2, e.1.1, e.1.2)))

/-- Bits that differ in two 16-bit words. -/
def hamming (a b : Nat) : Nat := ((List.range 16).filter (fun i => bit a i != bit b i)).length

/-- Result of one element of a cell operation (Table 8.1). -/
def cellElem (op : Nat) (a b : Nat) : Int :=
  let x := intElem 2 a
  let y := intElem 2 b
  match op with
  | 1 => (x - y).natAbs
  | 2 => (x - y) * (x - y)
  | 4 => hamming a b
  | 5 => if y < x then 1 else 0
  | 6 => x + y
  | 7 => x + y
  | _ => x * y

/-- An accumulator and the saturating additions so far (R161). -/
structure Drain where
  value : Word := 0
  sat : Nat := 0
  deriving DecidableEq, Repr

/-- The drain adds an exact column sum to an int32 accumulator. -/
def drainInt (s : Drain) (v : Int) : Drain :=
  let t := s.value.toInt + v
  let c := clampInt (-2147483648) 2147483647 t
  { value := BitVec.ofInt 32 c, sat := s.sat + b2n (t != c) }

/-- A cell operation other than multiply-accumulate over one pass. -/
def drainCell (op : Nat) (s : Drain) (l : List Int) : Drain :=
  if op = 6 then { s with value := BitVec.ofInt 32 (l.foldl min s.value.toInt) }
  else if op = 7 then { s with value := BitVec.ofInt 32 (l.foldl max s.value.toInt) }
  else drainInt s (l.foldl (· + ·) 0)

/-- Initial accumulator of a cell operation (Table 8.1). -/
def cellInit (op : Nat) : Word := if op = 6 then 0x7FFFFFFF#32 else if op = 7 then 0x80000000#32 else 0

/-- A column's floating sum: fp32 additions from reduction row 0 upward, from the first product (DEDUCED, log 30). -/
def columnSum : List Num → Word
  | [] => 0
  | x :: r => r.foldl (fun s p => toF32 (addNum (ofF32 s) p)) (toF32 x)

/-- Scales of a pair of MX operands. -/
def mxScale (a b : Opnd) : Num := mulNum (decodeE8M0 a.scale) (decodeE8M0 b.scale)

/-- Encoding of a weight once decoded: output channel c, reduction index k. -/
def weightAt (d : Dev) (u : Nat) (t : Template) (c k : Nat) (o : Opnd) : Nat :=
  if o.gone then 0 else if t.wFormat = 11 then codebookValue d u t c k o.bits else o.bits

/-- One accumulator of an array tile on a unit: the value that its element holds after the last pass, and its saturating additions. A
block or group whose passes are all skipped leaves the accumulator as it is (R216). -/
def evalCell (d : Dev) (u : Nat) (t : Template) (c : Cell) : Drain :=
  let o := fmtOptOf d.img t.id
  let rows := shapeRows t
  let wf := weightFormat d.img t
  let ps := c.passes
  let init : Word := if bit t.flags 1 then c.init else cellInit t.cellOp
  let weight (k : Nat) (w : Opnd) : Nat := weightAt d u t c.chan k w
  if t.cellOp ≠ 0 then ps.foldl (fun s p => drainCell t.cellOp s (p.2.map (fun e => cellElem t.cellOp e.1.bits e.2.bits))) { value := init }
  else match twoLevel d.img t with
    | some g =>
      let es := runElems rows ps
      let groups := (es.map (fun e => e.2.1 / g)).foldl (fun l i => insertNat i l) []
      { value := groups.foldl (fun acc i =>
          let l := es.filter (fun e => e.2.1 / g == i)
          let dot := l.foldl (fun (s : Int) e =>
            s + (if t.wFormat = 8 then signed 8 (e.2.2.1.bits % 256) * signed 8 (e.2.2.2.bits % 256)
              else intElem t.aFormat e.2.2.1.bits * intElem wf (weight e.2.1 e.2.2.2))) 0
          let one := (l.find? (fun e => e.2.2.1.block.isSome)).getD (l.headD (0, 0, {}, {}))
          let factor := if t.wFormat = 8 then mulNum (mxScale one.2.2.1 one.2.2.2) (.fin false 1 (-12))
            else decodeElem 10 0 ((l.find? (fun e => e.2.2.2.block.isSome)).getD one).2.2.2.scale
          fAdd acc (toF32 (mulNum (ofF32 (fOfInt dot)) factor))) init }
    | none =>
      if intOperands d.img t then
        ps.foldl (fun s p => drainInt s (p.2.zipIdx.foldl (fun (v : Int) e =>
          v + intElem t.aFormat e.1.1.bits * intElem wf (weight (p.1 * rows + e.2) e.1.2)) 0)) { value := init }
      else
        { value := ps.foldl (fun acc p => fAdd acc (columnSum (p.2.zipIdx.map (fun e =>
            let k := p.1 * rows + e.2
            let prod := mulNum (decodeElem t.aFormat o.aVariant e.1.1.bits) (decodeElem wf o.wVariant (weight k e.1.2))
            if 5 ≤ wf ∧ wf ≤ 7 then mulNum prod (mxScale e.1.1 e.1.2) else prod)))) init }

/-! ### Zero gating (R150) -/

/-- A number is zero. -/
def numZero : Num → Bool
  | .fin _ 0 _ => true
  | _ => false

/-- Cell-cycles of a tile's wavefronts that no zero operand gates: the cell's row operand is not zero, nor are all of its weights. -/
def activeCells (d : Dev) (u : Nat) (t : Template) (cells : List Cell) : Nat :=
  let per := weightsPerCell t.wFormat
  let rows := shapeRows t
  let wf := weightFormat d.img t
  let o := fmtOptOf d.img t.id
  let zeroA (e : Opnd) : Bool := if t.aFormat = 12 then e.bits == 0 else numZero (decodeElem t.aFormat o.aVariant e.bits)
  let zeroW (c k : Nat) (e : Opnd) : Bool := if wf = 12 then e.bits == 0 else numZero (decodeElem wf o.wVariant (weightAt d u t c k e))
  let flat (c : Cell) : List (Nat × Nat × Opnd × Opnd) := runElems rows c.passes
  wavefrontCycles d.img t * (cells.zipIdx.filter (fun c => c.1.chan % per == 0)).foldl (fun a c =>
    let mates := (((cells.drop c.2).take per).filter (fun e => e.row == c.1.row)).map (fun e => (e.chan, flat e))
    a + ((flat c.1).zipIdx.filter (fun e => !zeroA e.1.2.2.1 &&
      mates.any (fun l => (l.2[e.2]?).any (fun p => !zeroW l.1 p.2.1 p.2.2.2)))).length) 0

/-- Gated cell-cycles of an array tile (R150): a core has 1,024 cells in every array cycle of a wavefront, and every cell of a bubble and
of an array without an operand is gated (R142, R147; DEDUCED, log 102). -/
def gatedCells (d : Dev) (u : Nat) (t : Template) (cells : List Cell) (passes bubbles : Nat) : Nat :=
  if t.shape = 4 then 0 else (passes * t.rows * wavefrontCycles d.img t + bubbles) * 1024 - activeCells d u t cells

/-! ### Scan (R231, R237) -/

/-- A scan triple: flag, A, B. -/
abbrev ScanTriple := Bool × Word × Word

/-- Phase 1 over one block of up to 16 steps: a, b, b′ and flag of each step. -/
def scanBlock : Option ScanTriple → List (Word × Word × Word × Bool) → List ScanTriple
  | _, [] => []
  | prev, (a, b, b', f) :: r =>
    let p : ScanTriple := match prev with
      | none => (f, a, b')
      | some (g, A, B) => if f then (f, a, b') else (g, fMul a A, fAdd (fMul a B) b)
    p :: scanBlock (some p) r

/-- Outcome of a triple on a carried value. -/
def scanOut (c : Word) (p : ScanTriple) : Word := if p.1 then p.2.2 else fAdd (fMul p.2.1 c) p.2.2

/-- Phases 1 to 3 over the blocks of a chunk: outputs in step order, and the carried value after it. -/
def scanChunk : List (List (Word × Word × Word × Bool)) → Word → List Word × Word
  | [], c => ([], c)
  | blk :: r, c =>
    let ps := scanBlock none blk
    let e := scanChunk r ((ps.getLast?.map (scanOut c)).getD c)
    (ps.map (scanOut c) ++ e.1, e.2)

/-- Blocks of 16 of a list. -/
def blocksOf16 {α : Type} : Nat → List α → List (List α)
  | 0, _ => []
  | n + 1, l => if l.isEmpty then [] else l.take 16 :: blocksOf16 n (l.drop 16)

/-- A scan tile's working area: rows 0 to T − 1 hold the outputs of each element of the slice, row T its carry_out. -/
def evalScan (d : Dev) (x : DescId) (b : Bytes) (tile : Tile) : List AccElem :=
  let k := dBlock b
  let r := blkRec d.img k
  let o := scanOf d.img r.scan
  let T := o.steps
  let width := if o.format = 9 then 16 else 32
  let at_ (ref : Nat) : Nat := (refAddr d x.graph x.inst (dCluster b) (dStrand b) ref).getD 0
  let mapA := at_ (dIn0 b)
  let mapB := at_ (dWord b 0x20)
  let order := if isBackward o then (List.range T).reverse else List.range T
  (List.range o.slice).flatMap (fun i =>
    let n := r.first + dSlice b * o.slice + i
    let h0 := initState d o n
    let off (t : Nat) : Nat := mapBit 0 width 1 T o.elements t 0 n
    let steps := order.map (fun t =>
      let a := mapValue d.mem mapA (off t) width
      let bb := mapValue d.mem mapB (off t) width
      let f := tile.mask.contains t
      (a, bb, (if f && bit o.flags 0 then fAdd (fMul a h0) bb else bb), f))
    let res := scanChunk (blocksOf16 T steps) (tile.carried.getD i (0, false)).1
    let bad := order.foldl (fun (acc : Bool × List Bool) t =>
      let pa := poisonedAt d.mem (mapA + off t / 8)
      let pb := poisonedAt d.mem (mapB + off t / 8)
      let p := if tile.mask.contains t then pb || (pa && bit o.flags 0) else acc.1 || pa || pb
      (p, acc.2 ++ [p])) ((tile.carried.getD i (0, false)).2, [])
    (order.zip (res.1.zip bad.2)).map (fun e => { row := e.1, chan := i, value := e.2.1, poison := e.2.2 : AccElem }) ++
      [{ row := T, chan := i, value := res.2, poison := bad.1 }])

/-! ### Pooling (R219) -/

/-- A window element of a pool tile: an element of its input, or nothing where the window reaches padding. -/
def poolTaps (p : PoolOp) (o : Nat × Nat × Nat) : List Nat :=
  (List.range p.kh).flatMap (fun ky => (List.range p.kw).filterMap (fun kx =>
    match tapIndex 0 o.2.1 p.sh p.padTop ky 1 p.inH, tapIndex 0 o.1 p.sw p.padLeft kx 1 p.inW with
    | some y, some x => some (mapBit 0 1 p.inH p.inW p.channels x y o.2.2)
    | _, _ => none))

/-- Input of a pool tile (in0). -/
def poolSource (d : Dev) (x : DescId) (b : Bytes) : Source :=
  let p := poolOf d.img (dOp b)
  let w := formatBits p.format
  let a := tileRef d x b (dIn0 b)
  { at_ := a, width := w,
    segs := if bit p.flags 0 then some (mapSegments d x a (ceilDiv (mapExtent 0 w p.inH p.inW p.channels) 512)) else none }

/-- Outputs of a pool tile: row and channel of the tile, then x, y and channel of the map. -/
def poolPlaces (img : Image) (blob b : Bytes) : List ((Nat × Nat) × (Nat × Nat × Nat)) :=
  let p := poolOf img (dOp b)
  let g := (outGrid img blob b).1
  (List.range g.rows).flatMap (fun k => (List.range g.chans).map (fun c =>
    ((k, c), (g.first + k) % max 1 p.outW, (g.first + k) / max 1 p.outW, c)))

/-- Outputs of a pool tile of a graph. -/
def poolOuts (d : Dev) (x : DescId) (b : Bytes) : List ((Nat × Nat) × (Nat × Nat × Nat)) := poolPlaces d.img (graphBlob d x.graph) b

/-- Dense granules of a compressed pool input that its windows read with an invalid index entry (R223). -/
def poolInvalid (d : Dev) (x : DescId) (b : Bytes) : Nat :=
  let p := poolOf d.img (dOp b)
  match (poolSource d x b).segs with
  | none => 0
  | some l =>
    let gs := ((poolOuts d x b).flatMap (fun o => (poolTaps p o.2).map (fun n => n * formatBits p.format / 512))).foldl (fun a g => insertNat g a) []
    (gs.filter (mapInvalid d.mem l)).length

/-- A number of bf16 as it stands, a subnormal being itself: the maximum of a window is exact (R219). -/
def exactElem (fmt v : Nat) : Num := if fmt = 9 then decodeMini 8 7 127 2 (v % 65536) else decodeElem fmt 0 v

/-- a is below b, both finite: an exact comparison. -/
def finBelow (na nb : Bool) (a : Nat) (ea : Int) (b : Nat) (eb : Int) : Bool :=
  let s := scaleRat a 1 (ea - eb)
  decide (signedNat na s.1 < signedNat nb b * (s.2 : Int))

/-- One value ranks above another in a maximum, exactly: +0 above −0. -/
def numAbove (x y : Num) : Bool :=
  match x, y with
  | .fin a 0 _, .fin b 0 _ => b && !a
  | .fin a m e, .fin b n f => finBelow b a n f m e
  | .inf a, .inf b => b && !a
  | .inf a, _ => !a
  | _, .inf b => b
  | _, _ => false

/-- A pool window's result: bits in the operator's format, and whether a conversion took place. -/
def evalPool (p : PoolOp) (taps : List Nat) : Conv × Bool :=
  let w := formatBits p.format
  let n := if p.kind = 2 then p.kh * p.kw else taps.length
  if p.kind = 0 then
    let nums := taps.map (fun t => (t, exactElem p.format t))
    let best := nums.foldl (fun (b : Option (Nat × Num)) t =>
      match b with
      | none => some t
      | some x => if x.2 = .nan then some x else if t.2 = .nan ∨ numAbove t.2 x.2 then some t else some x) none
    ({ bits := (best.map (fun b => if b.2 = .nan then (convert p.format 0 0 .nan).bits else b.1)).getD 0 }, false)
  else if p.format ≤ 2 then
    let s := taps.foldl (fun (a : Int) t => a + intElem p.format t) 0
    ({ bits := (roundHalfEven s n % (2 ^ w : Nat)).toNat }, false)
  else
    let s := columnSum (taps.map (fun t => decodeElem p.format 0 t))
    (convert p.format 0 0 (ofF32 (fDiv s (fOfInt n))), true)

/-- A result of a pool tile as its working area holds it until the commit (R220): the bits, and what its conversion counts. -/
def poolCell (m : Mem) (p : PoolOp) (s : Source) (o : (Nat × Nat) × (Nat × Nat × Nat)) : AccElem :=
  let taps := (poolTaps p o.2).map (feedElem m s)
  let r := evalPool p (taps.map (fun t => t.bits))
  { row := o.1.1, chan := o.1.2, value := w32 r.1.bits, scale := w32 (b2n r.2 + 2 * b2n (r.1.clipped && r.2) + 4 * b2n (r.1.nonfinite && r.2)),
    poison := taps.any (fun t => t.poison) }

/-- The working area of a pool tile. -/
def runPool (d : Dev) (x : DescId) (b : Bytes) : List AccElem :=
  (poolOuts d x b).map (poolCell d.mem (poolOf d.img (dOp b)) (poolSource d x b))

/-! ### Attend pass (R263 to R270) -/

/-- The sentinel of the running maximum (R266). -/
def sentinel : Word := 0xFF800000#32

/-- A page as an attend tile reads it: sequence record, page address. -/
structure PageView where
  r : KvRec := {}
  at_ : Nat := 0
  deriving DecidableEq, Repr

/-- Raw element (head, slot, dimension) of a half of a page. -/
def pageBits (m : Mem) (v : PageView) (half h i j : Nat) : Nat :=
  let w := kvBits v.r.format
  rawBits m (v.at_ + halfData v.r half) (pageElem v.r h i j * w) w

/-- Scale block number and place of an element of a half. -/
def pageScaleAt (r : KvRec) (h i j : Nat) : Nat × Nat :=
  let e := pageElem r h i j
  (e / kvBlock r.format, e % kvBlock r.format / 32)

/-- Scale of an element of a half. -/
def pageScale (m : Mem) (v : PageView) (half h i j : Nat) : Num :=
  let s := pageScaleAt v.r h i j
  let at_ := v.at_ + halfScales v.r half + s.1 * 64 + 8
  if v.r.format ≤ 2 then decodeElem 10 0 (u16 (memRead m (at_ + 2 * s.2) 2) 0) else decodeE8M0 (u8 (memRead m (at_ + s.2) 1) 0)

/-- Data or scale of a slot of a half is poisoned. -/
def slotPoisoned (m : Mem) (v : PageView) (half h i : Nat) : Bool :=
  let w := kvBits v.r.format
  let at_ := v.at_ + halfData v.r half + pageElem v.r h i 0 * w / 8
  (granulesOf at_ (v.r.headDim * w / 8)).any (fun g => m.poison.contains g) ||
    (List.range (v.r.headDim / 32)).any (fun k => poisonedAt m (v.at_ + halfScales v.r half + (pageScaleAt v.r h i (32 * k)).1 * 64))

/-- Scale blocks of a half that cover the first slots of a head. -/
def pageBlocks (r : KvRec) (h slots : Nat) : List Nat :=
  (List.range slots).flatMap (fun i => (List.range (r.headDim / 32)).map (fun k => (pageScaleAt r h i (32 * k)).1))

/-- First scale block of a half that covers one of the first slots and whose tag or kind does not match (R177): block, tag, kind. -/
def tagMismatch (m : Mem) (v : PageView) (h slots : Nat) : Option (Nat × Nat × Nat) :=
  let kind := if v.r.format ≤ 2 then 2 else 1
  ([0, 1].flatMap (fun half => (pageBlocks v.r h slots).map (fun k => (half, k)))).findSome? (fun s =>
      let a := v.at_ + halfScales v.r s.1 + s.2 * 64
      let tag := u8 (memRead m a 1) 0
      let seen := u8 (memRead m (a + 1) 1) 0
      if !poisonedAt m a && (tag != s.2 % 256 || seen != kind) then some (s.2, tag, seen) else none)

/-- A query row of an attend tile. -/
structure QueryRow where
  row : Nat := 0
  /-- its elements, with the scales of MX blocks -/
  elems : List Opnd := []
  /-- r_q -/
  rowScale : Word := 0
  /-- backward tile: O, dO, then m and lse -/
  o : List Word := []
  dO : List Word := []
  stats : Word × Word := (0, 0)
  poison : Bool := false
  deriving DecidableEq, Repr

/-- The query operand (in0) of an attend tile: its rows one after the other, int8 with row scales, or MX (R264). -/
def querySource (d : Dev) (x : DescId) (b : Bytes) : Source :=
  let f := (attnOf d.img (dOp b)).format
  { at_ := tileRef d x b (dIn0 b), width := if f ≤ 2 then 8 else formatBits f,
    scales := if f ≤ 2 then none else some { kind := 1, at_ := tileRef d x b (dWord b 0x30), run := 32, first := dWord b 0x34 } }

/-- Row scales of the query rows. -/
def queryFactors (d : Dev) (x : DescId) (b : Bytes) : Option ScaleStream :=
  if (attnOf d.img (dOp b)).format ≤ 2 then some { kind := 3, at_ := tileRef d x b (dWord b 0x30), run := 1, first := dWord b 0x34 } else none

/-- fp32 values of a range, and whether a granule of it is poisoned. -/
def wordsAt (m : Mem) (at_ n : Nat) : List Word × Bool :=
  ((List.range n).map (fun i => w32 (u32 (memRead m (at_ + 4 * i) 4) 0)), (granulesOf at_ (4 * n)).any (fun g => m.poison.contains g))

/-- Row r of an attend tile. A backward tile reads its dO rows, its O rows and its saved m and lse, in this order and as fp32, from its
third ref, after the dK and dV rows there (R271; DESIGN CHOICE, log 63). -/
def queryRow (d : Dev) (x : DescId) (b : Bytes) (r : Nat) : QueryRow :=
  let a := attnOf d.img (dOp b)
  let n := a.headDim
  let es := (List.range n).map (fun j => feedElem d.mem (querySource d x b) (r * n + j))
  let f : Word × Bool := match queryFactors d x b with
    | some s => (w32 (scaleAt d.mem s r), poisonedAt d.mem (s.at_ + r / 8 * 64))
    | none => (0, false)
  if a.kind = 0 then { row := r, elems := es, rowScale := f.1, poison := f.2 || es.any (fun e => e.poison) }
  else
    let base := tileRef d x b (dWord b 0x38) + 2 * a.span * n * 4
    let rows := u8 b 0x23
    let dO := wordsAt d.mem (base + r * n * 4) n
    let o := wordsAt d.mem (base + (rows + r) * n * 4) n
    let st := wordsAt d.mem (base + 2 * rows * n * 4 + r * 8) 2
    { row := r, elems := es, rowScale := f.1, o := o.1, dO := dO.1, stats := (st.1.getD 0 0, st.1.getD 1 0),
      poison := f.2 || es.any (fun e => e.poison) || dO.2 || o.2 || st.2 }

/-- Scale streams of an attend tile's queries with the blocks that it consumes. -/
def queryStreams (d : Dev) (x : DescId) (b : Bytes) : List (ScaleStream × List Nat) :=
  let rows := u8 b 0x23
  let n := (attnOf d.img (dOp b)).headDim
  ((queryFactors d x b).map (fun s => (s, List.range (ceilDiv rows 8)))).toList ++
    ((querySource d x b).scales.map (fun s => (s, List.range (ceilDiv (rows * n) 1024)))).toList

/-- Score of key i of a page for a query row (R264). Each score is one output-stationary pass over head_dim (DEDUCED, log 28). -/
def attScore (m : Mem) (v : PageView) (softmax : Word) (variant h i : Nat) (q : QueryRow) : Word :=
  let f := v.r.format
  let qe (j : Nat) : Nat := (q.elems.getD j {}).bits
  let qs (j : Nat) : Num := decodeE8M0 (q.elems.getD j {}).scale
  let n := v.r.headDim / 32
  if f ≤ 2 then
    let sum := (List.range n).foldl (fun acc k =>
      let dot := (List.range 32).foldl (fun (s : Int) j => s + intElem 2 (qe (32 * k + j)) * intElem f (pageBits m v 0 h i (32 * k + j))) 0
      fAdd acc (toF32 (mulNum (ofF32 (fOfInt dot)) (pageScale m v 0 h i (32 * k))))) 0
    fMul (fMul sum q.rowScale) softmax
  else if f = 8 then
    let s := (List.range n).foldl (fun acc k =>
      let dot := (List.range 32).foldl (fun (s : Int) j => s + signed 8 (qe (32 * k + j) % 256) * signed 8 (pageBits m v 0 h i (32 * k + j))) 0
      fAdd acc (toF32 (mulNum (ofF32 (fOfInt dot)) (mulNum (mulNum (qs (32 * k)) (pageScale m v 0 h i (32 * k))) (.fin false 1 (-12)))))) 0
    fMul s softmax
  else
    let s := columnSum ((List.range v.r.headDim).map (fun j =>
      mulNum (mulNum (decodeElem f variant (qe j)) (decodeElem f variant (pageBits m v 0 h i j))) (mulNum (qs j) (pageScale m v 0 h i j))))
    fMul (fAdd 0 s) softmax

/-- Running state of a query row (R266). -/
structure RowState where
  m : Word := sentinel
  l : Word := 0
  o : List Word := []
  poison : Bool := false
  deriving DecidableEq, Repr

/-- Block scale exponent of an MX block whose largest magnitude is A (R174). -/
def mxExponent (fmt variant : Nat) (a : Num) : Int :=
  let emax : Int := match fmt with
    | 3 => 8
    | 5 => if variant = 0 then 8 else 15
    | 6 => if variant = 0 then 2 else 4
    | 7 => 2
    | _ => 0
  match a with
  | .fin _ 0 _ => -127
  | .fin _ n e => let s := scaleRat n 1 e; clampInt (-127) 127 (floorLog s.1 s.2 - emax)
  | _ => 128

/-- The largest of some numbers that are not negative; NaN and infinity win. -/
def maxNum (l : List Num) : Num := l.foldl (fun a x => if a = .nan ∨ x = .nan then .nan else if numAbove x a then x else a) (.fin false 0 0)

/-- Scaled weights w of the slots for a value block (R266): block of dimension j, weights e of the slots. -/
def attScaled (m : Mem) (v : PageView) (h j : Nat) (e : List Word) : List Num :=
  e.zipIdx.map (fun x => mulNum (ofF32 x.1) (pageScale m v 1 h x.2 (j / 32 * 32)))

/-- Exponents of the blocks of 32 keys of MX weights (R174, R266). -/
def attExponent (w : List Num) (t : Nat) : Int := mxExponent 3 0 (maxNum ((w.drop (t / 32 * 32)).take 32))

/-- Conversions of the weights p of a value block (R164, R266): none where A is 0, for which no p is formed. Of MX pages w is exact. -/
def attProbs (m : Mem) (v : PageView) (h j : Nat) (e : List Word) : List Conv :=
  let w := attScaled m v h j e
  if v.r.format ≤ 2 then
    let f := w.map toF32
    let A := f.foldl fMax 0
    if fIsZero A then [] else f.map (fun x => convert 2 0 0 (ofF32 (fMul x (fDiv 0x42800000#32 A))))
  else if numZero (maxNum w) then []
  else w.zipIdx.map (fun x => convert 3 0 0 (mulNum x.1 (.fin false 1 (-(attExponent w x.2)))))

/-- Contribution of one value block of 32 dimensions to a dimension's output (R266): e weights of the slots, block, dimension. -/
def attValue (m : Mem) (v : PageView) (variant h j : Nat) (e : List Word) : Word :=
  let f := v.r.format
  let w := attScaled m v h j e
  match attProbs m v h j e with
  | [] => 0
  | ps =>
    if f ≤ 2 then
      let acc := ps.zipIdx.foldl (fun (s : Int) x => s + intElem 2 x.1.bits * intElem f (pageBits m v 1 h x.2 j)) 0
      fMul (fMul (fOfInt acc) ((w.map toF32).foldl fMax 0)) 0x3C800000#32
    else fAdd 0 (columnSum (ps.zipIdx.map (fun x =>
      mulNum (mulNum (decodeElem 3 0 x.1.bits) (.fin false 1 (attExponent w x.2))) (decodeElem f variant (pageBits m v 1 h x.2 j)))))

/-- What one page gives a row before its values (R266): the new maximum, alpha, and the weights e of the 64 slots. -/
def attWeights (m : Mem) (v : PageView) (a : AttnOp) (h : Nat) (vis : List Nat) (q : QueryRow) (s : RowState) : Word × Word × List Word :=
  let sc := vis.map (fun i => (i, attScore m v (BitVec.ofNat 32 a.scale) (b2n (bit a.flags 2)) h i q))
  let mp := (sc.drop 1).foldl (fun x y => fMax x y.2) ((sc.head?.map (fun y => y.2)).getD 0)
  let mn := if s.m = sentinel then mp else fMax s.m mp
  (mn, if s.m = sentinel then 0 else fExp (fSub s.m mn),
    (List.range 64).map (fun t => match sc.find? (fun y => y.1 == t) with | some y => fExp (fSub y.2 mn) | none => 0))

/-- One page of the attend pass for a row: the slots that the row sees, in ascending order. A poisoned query poisons the row whatever it
sees (R268). -/
def attPage (m : Mem) (v : PageView) (a : AttnOp) (h : Nat) (vis : List Nat) (q : QueryRow) (s : RowState) : RowState :=
  if vis = [] then { s with poison := s.poison || q.poison }
  else
    let k := attWeights m v a h vis q s
    { m := k.1
      l := fAdd (fMul s.l k.2.1) (k.2.2.foldl fAdd 0)
      o := (List.range v.r.headDim).map (fun j => fAdd (fMul (s.o.getD j 0) k.2.1) (attValue m v (b2n (bit a.flags 2)) h j k.2.2))
      poison := s.poison || q.poison || vis.any (fun i => slotPoisoned m v 0 h i || slotPoisoned m v 1 h i) }

/-- Slots of a logical page that a row sees (R265): below the fill, of a visible page, not after the row's position. -/
def visibleSlots (d : Dev) (s layer page : Nat) (causal : Bool) (posQ : Nat) : List Nat :=
  let r := kvRecOf d.img s
  let e := ptEntry d s layer page
  let seen := !isRing r || decide (tabGet (getKv d s).newest layer 0 < page + r.tablePages)
  if seen then (List.range (min 64 e.fill)).filter (fun i => !causal || decide (64 * page + i ≤ posQ)) else []

/-- Running state that a tile's predecessor committed, or its start (R263, R266). -/
def rowStart (m : Mem) (acc : Option Nat) (dim r : Nat) : RowState :=
  match acc with
  | none => { o := List.replicate dim 0 }
  | some a =>
    let at_ (j : Nat) : Nat := a + (r * (dim + 2) + j) * 4
    let get (j : Nat) : Word := BitVec.ofNat 32 (u32 (memRead m (at_ j) 4) 0)
    { m := get dim, l := get (dim + 1), o := (List.range dim).map get,
      poison := (granulesOf (at_ 0) ((dim + 2) * 4)).any (fun g => m.poison.contains g) }

/-- Pages of an attend tile as its rows see them: view and logical page; none of a padding slot. -/
def tilePages (d : Dev) (b : Bytes) (pages : List (Nat × Nat)) : List (PageView × Nat) :=
  (if dEmpty b then [] else pages).map (fun p => ({ r := kvRecOf d.img (u8 b 0x20), at_ := p.2 }, p.1))

/-- Position of a row's query token (R263). -/
def rowPosition (a : AttnOp) (b : Bytes) (r : Nat) : Nat := dWord b 0x28 + r / max 1 a.qPerKv

/-- Slots of a page that row r of a tile sees. -/
def rowSees (d : Dev) (b : Bytes) (r page : Nat) : List Nat :=
  let a := attnOf d.img (dOp b)
  visibleSlots d (u8 b 0x20) (u8 b 0x21) page (bit a.flags 0) (rowPosition a b r)

/-- Row r of a tile after some of its pages. -/
def rowAfter (d : Dev) (x : DescId) (b : Bytes) (ps : List (PageView × Nat)) (r : Nat) : RowState :=
  let a := attnOf d.img (dOp b)
  let q := queryRow d x b r
  let st := ps.foldl (fun st p => attPage d.mem p.1 a (u8 b 0x22) (rowSees d b r p.2) q st)
    (rowStart d.mem (refAddr d x.graph x.inst (dCluster b) (dStrand b) (dWord b 0x2C)) a.headDim r)
  { st with poison := st.poison || q.poison }

/-- An attend tile's working area: each row's O, then m and l. -/
def evalAttend (d : Dev) (x : DescId) (b : Bytes) (pages : List (Nat × Nat)) : List AccElem :=
  (List.range (u8 b 0x23)).flatMap (fun r =>
    let st := rowAfter d x b (tilePages d b pages) r
    (st.o ++ [st.m, st.l]).zipIdx.map (fun v => { row := r, chan := v.2, value := v.1, poison := st.poison : AccElem }))

/-- Weights e that a page gives the rows of a forward tile that see a slot of it: row, page, weights. -/
def pageWeights (d : Dev) (x : DescId) (b : Bytes) (pages : List (Nat × Nat)) : List (Nat × PageView × List Word) :=
  let a := attnOf d.img (dOp b)
  let ps := tilePages d b pages
  (List.range (u8 b 0x23)).flatMap (fun r => ps.zipIdx.filterMap (fun p =>
    let vis := rowSees d b r p.1.2
    if vis = [] then none
    else some (r, p.1.1, (attWeights d.mem p.1.1 a (u8 b 0x22) vis (queryRow d x b r) (rowAfter d x b (ps.take p.2) r)).2.2)))

/-- A row of a tile sees no key of its sequence (R269). -/
def rowBlind (d : Dev) (b : Bytes) (r : Nat) : Bool :=
  let s := kvRecOf d.img (u8 b 0x20)
  let first := if isRing s then tabGet (getKv d (u8 b 0x20)).newest (u8 b 0x21) 0 + 1 - s.tablePages else 0
  dEmpty b || (List.range s.tablePages).all (fun k => rowSees d b r (first + k) == [])

/-! ### Backward attend pass (R271, R272) -/

/-- An fp32 value rounded to bf16, as the arrays take it. -/
def toBf16 (w : Word) : Num := decodeElem 9 0 (convert 9 0 0 (ofF32 w)).bits

/-- A sum of bf16 products with fp32 accumulation (R271). -/
def dotBf16 (l : List (Word × Word)) : Word := fAdd 0 (columnSum (l.map (fun p => mulNum (toBf16 p.1) (toBf16 p.2))))

/-- Dequantised key (half 0) or value (half 1) of a slot. -/
def dequant (m : Mem) (v : PageView) (half h t j : Nat) : Word :=
  toF32 (mulNum (ofF32 (fOfInt (intElem v.r.format (pageBits m v half h t j)))) (pageScale m v half h t j))

/-- Dequantised element of a query row. -/
def backQuery (q : QueryRow) (j : Nat) : Word := fMul (fOfInt (intElem 2 (q.elems.getD j {}).bits)) q.rowScale

/-- P and dS of one query row for each key of the span (R271); 0 where the key is not visible or the row saw none. -/
def backRow (m : Mem) (v : PageView) (a : AttnOp) (h : Nat) (vis keys : List Nat) (q : QueryRow) : List (Word × Word) :=
  let top := q.stats.1
  let inv := fExp (fSub top q.stats.2)
  let D := (List.range a.headDim).foldl (fun s j => fAdd s (fMul (q.dO.getD j 0) (q.o.getD j 0))) 0
  keys.map (fun t =>
    if top = sentinel ∨ t ∉ vis then (0, 0)
    else
      let p := fMul (fExp (fSub (attScore m v (w32 a.scale) 0 h t q) top)) inv
      let dP := dotBf16 ((List.range a.headDim).map (fun j => (q.dO.getD j 0, dequant m v 1 h t j)))
      (p, fMul p (fSub dP D)))

/-- A backward tile's working area: a dQ row for each query row, then a dK row and a dV row for each key of the span. dQ is added to what
the running-state ref holds, dK and dV to the rows at the start of the third ref's area (DESIGN CHOICE, log 63). -/
def evalBackward (d : Dev) (x : DescId) (b : Bytes) (pages : List (Nat × Nat)) (keyFirst : Nat) : List AccElem :=
  let a := attnOf d.img (dOp b)
  let h := u8 b 0x22
  let rows := u8 b 0x23
  let page := (tilePages d b pages).head?
  let v : PageView := (page.map (fun p => p.1)).getD { r := kvRecOf d.img (u8 b 0x20) }
  let keys := (List.range a.span).map (fun i => keyFirst + i)
  let area (i : Nat) : Option Nat := (refAddr d x.graph x.inst (dCluster b) (dStrand b) (dWord b (if i < rows then 0x2C else 0x38))).map
    (fun k => k + (if i < rows then i else i - rows) * a.headDim * 4)
  let start (i j : Nat) : Word := ((area i).map (fun k => w32 (u32 (memRead d.mem (k + 4 * j) 4) 0))).getD 0
  let startBad (i : Nat) : Bool := (area i).any (fun k => (granulesOf k (a.headDim * 4)).any (fun g => d.mem.poison.contains g))
  let qs := (List.range rows).map (fun r =>
    let q := queryRow d x b r
    let vis := (page.map (fun p => rowSees d b r p.2)).getD []
    (q, vis, backRow d.mem v a h vis keys q))
  let keyBad (t : Nat) : Bool := slotPoisoned d.mem v 0 h t || slotPoisoned d.mem v 1 h t
  let el (i j : Nat) (w : Word) (bad : Bool) : AccElem := { row := i, chan := j, value := fAdd (start i j) w, poison := bad || startBad i }
  qs.zipIdx.flatMap (fun e => (List.range a.headDim).map (fun j =>
    el e.2 j (fMul (w32 a.scale) (dotBf16 ((keys.zip e.1.2.2).map (fun k => (k.2.2, dequant d.mem v 0 h k.1 j)))))
      (e.1.1.poison || keys.any (fun t => e.1.2.1.contains t && keyBad t)))) ++
  keys.zipIdx.flatMap (fun t =>
    let bad := qs.any (fun e => e.2.1.contains t.1 && (e.1.poison || keyBad t.1))
    (List.range a.headDim).flatMap (fun j =>
      [el (rows + t.2) j (fMul (w32 a.scale) (dotBf16 (qs.map (fun e => ((e.2.2.getD t.2 (0, 0)).2, backQuery e.1 j))))) bad,
       el (rows + a.span + t.2) j (dotBf16 (qs.map (fun e => ((e.2.2.getD t.2 (0, 0)).1, e.1.dO.getD j 0)))) bad]))

/-- Values that a backward tile rounds to bf16 (R271): K and V of its keys, dO and Q of its rows, P and dS of each pair. -/
def backRounded (d : Dev) (x : DescId) (b : Bytes) (pages : List (Nat × Nat)) (keyFirst : Nat) : List Word :=
  let a := attnOf d.img (dOp b)
  let h := u8 b 0x22
  let page := (tilePages d b pages).head?
  let v : PageView := (page.map (fun p => p.1)).getD { r := kvRecOf d.img (u8 b 0x20) }
  let keys := (List.range a.span).map (fun i => keyFirst + i)
  let dims := List.range a.headDim
  [0, 1].flatMap (fun half => keys.flatMap (fun t => dims.map (dequant d.mem v half h t))) ++
    (List.range (u8 b 0x23)).flatMap (fun r =>
      let q := queryRow d x b r
      q.dO ++ dims.map (backQuery q) ++
        (backRow d.mem v a h ((page.map (fun p => rowSees d b r p.2)).getD []) keys q).flatMap (fun p => [p.1, p.2]))

/-- Conversions inside an attend tile (R164, R165; DEDUCED, log 103): p of each page, row and value block; in the backward pass those to
bf16. -/
def attendConversions (d : Dev) (x : DescId) (b : Bytes) (pages : List (Nat × Nat)) (keyFirst : Nat) : List Conv :=
  let a := attnOf d.img (dOp b)
  if dEmpty b then []
  else if a.kind = 1 then (backRounded d x b pages keyFirst).map (fun w => convert 9 0 0 (ofF32 w))
  else (pageWeights d x b pages).flatMap (fun p => (List.range (p.2.1.r.headDim / 32)).flatMap (fun k => attProbs d.mem p.2.1 (u8 b 0x22) (32 * k) p.2.2))

/-- Cell-cycles of a forward attend tile that no zero operand gates (R150): in a score pass a query element with the elements of the keys
that a cell holds, in a value pass a weight with its values (DEDUCED, log 102). -/
def attendActive (d : Dev) (x : DescId) (b : Bytes) (pages : List (Nat × Nat)) : Nat :=
  let a := attnOf d.img (dOp b)
  let h := u8 b 0x22
  let per := weightsPerCell a.format
  let zero (f v : Nat) : Bool := numZero (decodeElem f (b2n (bit a.flags 2)) v)
  let held (v : PageView) (half n : Nat) (elem : Nat → Nat) : Nat :=
    ((List.range (n / per)).filter (fun c => (List.range per).any (fun k => !zero a.format (pageBits d.mem v half h (elem (c * per + k) / 256) (elem (c * per + k) % 256))))).length
  let ps := tilePages d b pages
  let scores := (List.range (u8 b 0x23)).foldl (fun n r =>
    let q := queryRow d x b r
    ps.foldl (fun k p => k + (List.range a.headDim).foldl (fun s j =>
      if zero (if a.format ≤ 2 then 2 else a.format) (q.elems.getD j {}).bits then s else s + held p.1 0 64 (fun t => t * 256 + j)) 0) n) 0
  let values := (pageWeights d x b pages).foldl (fun n p => (List.range (a.headDim / 32)).foldl (fun k blk =>
    (attProbs d.mem p.2.1 h (32 * blk) p.2.2).zipIdx.foldl (fun s c =>
      if zero (if a.format ≤ 2 then 2 else 3) c.1.bits then s else s + held p.2.1 1 32 (fun t => c.2 * 256 + 32 * blk + t)) k) n) 0
  scores + values

end Sys2Proof.Machine
end

