-- ==== Sys2Proof/Machine/Tile.lean ====
section
/-! DEFINITION. A tile up to ramp-down (R148 to R153, R177, R188, R215) and what interrupts it (Table 6.4, R423, R451). -/

namespace Sys2Proof.Machine

/-! ### What a tile reads (R151, R281) -/

/-- Granules of a scale stream: kind, and the scales that it holds (Table 7.3). -/
def streamGranules (kind n : Nat) : Nat := ceilDiv n (scalesPer kind)

/-- Granules of a map that may be compressed (R222): at least one segment of it all. -/
def mapGranules (zc : Bool) (bits : Nat) : Nat := let n := ceilDiv bits 512; if zc then segmentSize n else n

/-- Granules from the start of an area, in which elements of a width at given numbers lie. -/
def elemGranules (w : Nat) (ns : List Nat) : List Nat :=
  (ns.flatMap (fun n => [n * w / 512, (n * w + w - 1) / 512])).foldl (fun l g => insertNat g l) []

/-- Elements of its map that the taps of a window tile read (R214); what the generator makes is read nowhere. -/
def windowElems (v : ConvOp) (rows first n : Nat) : List Nat :=
  let skip := skippedTaps v first n
  (List.range n).flatMap (fun p => ((List.range (v.kh * v.kw)).filter (fun t => !skip.contains t)).flatMap (fun t =>
    (List.range (groupSpan v rows)).filterMap (fun c => match windowPlace v rows first p t c with
      | .elem k => some k
      | .made _ => none)))

/-- Granules of the row operand of an array or stem tile: those that its taps read of a map (R214), the reserved ones of a compressed
map, else its rows. -/
def rowGranules (img : Image) (blob b : Bytes) (rows : Nat) : List Nat :=
  let t := templateOf img (dOp b)
  let w := operandBits t.aFormat
  match convOf img (dOp b) with
  | some v =>
    if bit v.flags 0 then List.range (mapGranules true (mapExtent v.inLayout w v.inH v.inW v.inC))
    else elemGranules w (windowElems v (if t.shape = 4 then v.inC else shapeRows t) (outGrid img blob b).1.first rows)
  | none => List.range (mapGranules false (rows * reductionLength t * w))

/-- Inputs of an array or stem tile: row operand, column operand, accumulate_in, and their scales. -/
def arraySpans (img : Image) (blob b : Bytes) : List (Nat × List Nat) :=
  let t := templateOf img (dOp b)
  let g := initGrid img blob b
  let n := g.1.rows
  let rowEls := match convOf img (dOp b) with
    | some v => mapExtent v.inLayout 1 v.inH v.inW v.inC
    | none => n * reductionLength t
  let colEls := match (if t.shape = 4 then convOf img (dOp b) else none) with
    | some v => v.outC * v.kh * v.kw * v.inC
    | none => reductionLength t * ((if t.dataflow = 1 then t.kBlocks else 1) * blockColumns t)
  [(dIn0 b, rowGranules img blob b n),
   (dWord b 0x20, if bit t.flags 2 then [] else List.range (ceilDiv (colEls * if t.wFormat = 12 then 16 else storedBits img t) 512)),
   (dWord b 0x24, if bit t.flags 1 then elemGranules 32 ((List.range n).flatMap (fun r => (List.range g.1.chans).map (fun c => g.2 r c / 32))) else []),
   (dWord b 0x34, List.range (if bit (fmtOptOf img t.id).scaleFlags 0 then streamGranules 3 n
     else if 5 ≤ t.aFormat ∧ t.aFormat ≤ 8 then streamGranules 1 (ceilDiv rowEls 32) else 0)),
   (dWord b 0x38, List.range (if 5 ≤ t.wFormat ∧ t.wFormat ≤ 8 then streamGranules 1 (ceilDiv colEls 32) else match twoLevel img t with
     | some k => streamGranules 2 (ceilDiv colEls k)
     | none => 0))]

/-- Granules of a scatter tile's key or value map, of elements of a width (R260). -/
def scatterMap (img : Image) (b : Bytes) (width : Nat) : List Nat :=
  let r := kvRecOf img (u8 b 0x24)
  List.range (ceilDiv (mapExtent 0 width 1 (u16 b 0x26) (r.kvHeads * r.headDim)) 512)

/-- Inputs of a tile that its descriptor names, and the granules that it reads of each, from the ref on (R151). The items of a search
tile are those of its catalogue; a scatter tile's maps are taken as bf16, which both their formats cover. -/
def inputSpans (img : Image) (blob b : Bytes) : List (Nat × List Nat) :=
  let w (n : Nat) : Nat := dWord b n
  match dKind b with
  | 2 =>
    let p := poolOf img (dOp b)
    let bits := formatBits p.format
    [(dIn0 b, if bit p.flags 0 then List.range (mapGranules true (mapExtent 0 bits p.inH p.inW p.channels))
      else elemGranules bits ((poolPlaces img blob b).flatMap (fun o => poolTaps p o.2)))]
  | 3 =>
    let s := scanOf img (dOp b)
    let width := if s.format = 9 then 16 else 32
    let r := blkRec img (u16 b 0x28)
    let l := elemGranules 1 ((List.range s.slice).flatMap (fun i => (List.range s.steps).map (fun t =>
      mapBit 0 width 1 s.steps s.elements t 0 (r.first + u16 b 0x2A * s.slice + i))))
    [(dIn0 b, l), (w 0x20, l), (w 0x24, if bit s.flags 1 then l else [])]
  | 4 =>
    let a := attnOf img (dOp b)
    let rows := u8 b 0x23
    let els := rows * a.headDim
    [(dIn0 b, List.range (ceilDiv (els * if a.format ≤ 2 then 8 else formatBits a.format) 512)),
     (w 0x2C, List.range (ceilDiv ((if a.kind = 1 then els else rows * (a.headDim + 2)) * 32) 512)),
     (w 0x30, List.range (if a.format ≤ 2 then streamGranules 3 rows else streamGranules 1 (ceilDiv els 32))),
     (w 0x38, List.range (if a.kind = 1 then ceilDiv ((2 * a.span * a.headDim + 2 * els + 2 * rows) * 32) 512 else 0))]
  | 5 => [(dIn0 b, scatterMap img b 16), (w 0x20, scatterMap img b 16)]
  | 6 => []
  | 7 => []
  | _ => arraySpans img blob b

/-- Granules of the pages that an attend tile reads (R250): of its head, the slots below fill with their scale blocks. -/
def pageReads (d : Dev) (b : Bytes) (pages : List (Nat × Nat)) : List Nat :=
  let r := kvRecOf d.img (u8 b 0x20)
  let h := u8 b 0x22
  pages.flatMap (fun q =>
    let fill := min 64 (ptEntry d (u8 b 0x20) (u8 b 0x21) q.1).fill
    [0, 1].flatMap (fun half =>
      granulesOf (q.2 + halfData r half + pageElem r h 0 0 * kvBits r.format / 8) (fill * r.headDim * kvBits r.format / 8) ++
        (pageBlocks r h fill).map (fun k => (q.2 + halfScales r half) / 64 + k)))

/-- Granules that a tile reads where they stand: its inputs, but for a weight block, which a mover has staged (R139), and its pages. -/
def tileReads (d : Dev) (x : DescId) (b : Bytes) (pages : List (Nat × Nat)) : List Nat :=
  let spans := inputSpans d.img (graphBlob d x.graph) b
  let own := if dEmpty b && dKind b == 4 then [] else if dKind b = 0 then spans.filter (fun s => s.1 != dWord b 0x20) else spans
  dedup (own.flatMap (fun s => match refAddr d x.graph x.inst (dCluster b) (dStrand b) s.1 with
    | some a => s.2.map (fun k => a / 64 + k)
    | none => []) ++ (if dKind b = 4 ∧ dEmpty b = false then pageReads d b pages else []))

/-- A tile's reads of the stacked store and DRAM: their traffic (R289), and the errors that they meet (R297, R301). -/
def tileRead (u : Nat) (x : DescId) (b : Bytes) (pages : List (Nat × Nat)) (run : TileRun) (d : Dev) : Dev :=
  let gs := tileReads d x b pages
  touchGranules gs false (readErrors (some (dPart b)) (1, u) gs run.uncorrectable run.corrected d)

/-- First granule of some inputs of a tile that its partition may not read. -/
def spanBreach (d : Dev) (x : DescId) (b : Bytes) (l : List (Nat × List Nat)) : Option Nat :=
  l.findSome? (fun s => (refAddr d x.graph x.inst (dCluster b) (dStrand b) s.1).bind (fun a =>
    (s.2.find? (fun k => !tileMayRead d (dPart b) (a + 64 * k))).map (fun k => a + 64 * k)))

/-- A granule of a tile's inputs that its partition may not read (R19, R281); whose items a search tile may read is settled in the image
(R198). -/
def readBreach (d : Dev) (x : DescId) (b : Bytes) : Option Nat :=
  if dEmpty b && dKind b == 4 then none
  else match spanBreach d x b (inputSpans d.img (graphBlob d x.graph) b) with
    | some a => some a
    | none => match (searchItems d x b).bind (fun _ => columnBlock d x b) with
      | some k => ((granulesOf k.1 k.2).find? (fun g => !mapped d (64 * g))).map (fun g => 64 * g)
      | none => none

/-- A granule of a scatter tile's maps, as wide as they turn out, that its partition may not read (R19, R260). -/
def scatterBreach (d : Dev) (x : DescId) (b : Bytes) (bf16 : Bool) : Option Nat :=
  if dKind b = 5 ∧ dEmpty b = false then
    spanBreach d x b ([dIn0 b, dWord b 0x20].map (fun r => (r, scatterMap d.img b (if bf16 then 16 else 32))))
  else none

/-- Statistics bytes that a tile's commit adds to on a core (R180, R224). -/
def statsAreas (img : Image) (u : Nat) (b : Bytes) : List (Nat × Nat) :=
  if 24 ≤ u then []
  else
    ((rqOf img b).filter (fun r => bit r.flags 3)).toList.map (fun r => (regionBase img r.statsRegion + r.statsOffset + u * r.channels * 8, r.channels * 8)) ++
      ((zcOf img b).filter (fun z => z.statsRegion != 0)).toList.map (fun z => (regionBase img z.statsRegion + z.statsOffset + u * 16, 16))

/-- Granules that a tile's commit writes: of its destination, of statistics areas, of pages. -/
def tileWrites (d : Dev) (u : Nat) (x : DescId) (pages : List (Nat × Nat)) (b : Bytes) : List Nat :=
  if dKind b = 5 then scatterGranules d pages b
  else if isSearch d.img b then [] else destList d x b ++ (statsAreas d.img u b).flatMap (fun s => granulesOf s.1 s.2)

/-- A granule that a tile's commit writes and its partition may not (R19, R281). -/
def writeBreach (d : Dev) (u : Nat) (x : DescId) (pages : List (Nat × Nat)) (b : Bytes) : Option Nat :=
  ((tileWrites d u x pages b).find? (fun g => !tileMayWrite d (dPart b) (64 * g))).map (fun g => 64 * g)

/-! ### Counters of the advancing part (R147, R150, R158, R210, R215, R223) -/

/-- What the advancing part of a tile adds to its unit's counters. -/
structure AdvCounts where
  /-- bubbles from leashes -/
  bubbles : Nat := 0
  /-- gated cell-cycles -/
  gated : Nat := 0
  /-- invalid index entries -/
  zcBad : Nat := 0
  /-- conversions, those clipped, those not finite (R164, R165) -/
  converted : Nat := 0
  clipped : Nat := 0
  nonfinite : Nat := 0
  /-- governor bubbles (R421) -/
  throttle : Nat := 0

/-- Count the advancing part of a tile. -/
def countAdvance (u : Nat) (x : DescId) (b : Bytes) (run : TileRun) (n : AdvCounts) (d : Dev) : Dev :=
  let a := advanceCycles d u x b
  let window := dKind b == 2 || (dKind b == 0 && (convOf d.img (dOp b)).isSome)
  let d1 := modUnit u (fun y => { y with
    adv := addW y.adv a.1
    bubble := addW y.bubble n.bubbles
    throttle := addW y.throttle n.throttle
    gated := addW y.gated ((y.gatedPart + n.gated) / 256)
    gatedPart := (y.gatedPart + n.gated) % 256
    converted := addW y.converted n.converted
    clipped := addW y.clipped n.clipped
    nonfinite := addW y.nonfinite n.nonfinite
    passes := if window then addW y.passes a.2.1 else y.passes
    skipped := addW y.skipped a.2.2
    lbMiss := if window then addW y.lbMiss run.lbMiss else y.lbMiss
    zcBad := addW y.zcBad n.zcBad
    leash := {}
    blocks := blocksAfter d u x b
    tile := y.tile.map (fun t => { t with counted := true, spent := t.spent + a.1 + n.bubbles + n.throttle }) }) d
  let d2 := (List.range n.nonfinite).foldl (fun e _ => record 0x65 (some (dPart b)) (1, u) e) d1
  (List.range n.zcBad).foldl (fun e _ => record 0x68 (some (dPart b)) (1, u) e) d2

/-! ### Faults -/

/-- A tile of a unit is aborted: a search tile ends its sweep (R199), a scan tile poisons its slice (R243). -/
def stopTile (u cause : Nat) (d : Dev) : Dev :=
  match tileOf d u with
  | none => d
  | some t =>
    let b := descBytes d t.d
    let d1 := if isSearch d.img b then (match catOfTile d t.d b with | some r => sweepAbort r.slot d | none => d) else d
    abortTile u cause (if dKind b = 3 then abortSlice b d1 else d1)

/-- A core is the last of its cluster in the schedule. -/
def lastOfCluster (d : Dev) (u : Nat) : Bool :=
  ((List.range 6).filter (fun k => d.age.avail.getLsbD (6 * (u / 6) + k) && 6 * (u / 6) + k != u)).isEmpty

/-- The next test that waits starts once no core is out or on its way out (R449). -/
def nextTest (d : Dev) : Dev :=
  match d.age.testing, d.age.tests with
  | none, t :: rest => modAge (fun a => { a with testing := some t, tests := rest, lastTest := (a.lastTest.1, a.lastTest.2.1, t.1) }) d
  | _, _ => d

/-- Queue a requested self-test (R449): denied for a retired core and for the last of its cluster. -/
def queueTest (u kind : Nat) (d : Dev) : Bool × Dev :=
  if d.age.retired.getLsbD u || lastOfCluster d u then (false, d)
  else (true, nextTest (modAge (fun a => { a with tests := a.tests ++ [(u, kind)] }) d))

/-- A core counts a fault of its own (R451): reaching retire_aborts queues a kind-2 test. -/
def coreFault (u : Nat) (d : Dev) : Dev :=
  if 24 ≤ u then d
  else
    let n := (getUnit d u).faults + 1
    let d1 := modUnit u (fun x => { x with faults := n }) d
    if d.img.rel.retireAborts ≠ 0 ∧ n = d.img.rel.retireAborts then (queueTest u 2 d1).2 else d1

/-- An uncorrectable fault of a tile (Table 6.4, R153): the detector's own code and 0x60, in ascending order (R439). -/
def faultTile (u code : Nat) (injected : Bool) (d : Dev) : Dev :=
  let p := tilePart d u
  let d1 := recordAt (max 0x60 code) p (1, u) none injected (recordAt (min 0x60 code) p (1, u) none injected d)
  stopTile u 0x60 (coreFault u d1)

/-- A scale block does not match (R177): counted, captured, and the tile stops with 0x61. -/
def tagFail (u kind expected observed : Nat) (injected : Bool) (d : Dev) : Dev :=
  let p := tilePart d u
  let d1 := modUnit u (fun x => { x with
    tagErr := x.tagErr + 1
    tagFirst := match x.tagFirst with | some f => some f | none => some (kind, expected, observed) }) d
  stopTile u 0x61 (recordAt 0x61 p (1, u) none injected d1)

/-- The accumulators of an array or stem tile with what reaches them; none of another tile. -/
def cellsOf (d : Dev) (u : Nat) (x : DescId) (b : Bytes) : List Cell :=
  if dKind b ≤ 1 then tileCells d u x b (searchItems d x b) (searchRows d x b) else []

/-- Scale streams that a tile consumes, with the blocks consumed (R177); those of pages apart. -/
def scaleStreams (d : Dev) (u : Nat) (x : DescId) (b : Bytes) (cells : List Cell) : List (ScaleStream × List Nat) :=
  if dKind b ≤ 1 then tileStreams d u x b cells else if dKind b = 4 ∧ dEmpty b = false then queryStreams d x b else []

/-- First scale block of a page that a tile reads and that does not match: kind, tags expected and observed. -/
def pageMismatch (d : Dev) (b : Bytes) (pages : List (Nat × Nat)) : Option (Nat × Nat × Nat) :=
  if dKind b = 4 ∧ dEmpty b = false then
    pages.findSome? (fun q => (tagMismatch d.mem { r := kvRecOf d.img (u8 b 0x20), at_ := q.2 } (u8 b 0x22)
      (min 64 (ptEntry d (u8 b 0x20) (u8 b 0x21) q.1).fill)).map (fun m =>
        (if (kvRecOf d.img (u8 b 0x20)).format ≤ 2 then 2 else 1, m.1 % 256, m.2.1)))
  else none

/-- First scale block that a tile consumes and that does not match its data block (R177). -/
def tileMismatch (d : Dev) (u : Nat) (x : DescId) (b : Bytes) (cells : List Cell) (pages : List (Nat × Nat)) : Option (Nat × Nat × Nat) :=
  match (scaleStreams d u x b cells).findSome? (fun s => streamMismatch d.mem s.1 s.2) with
  | some m => some m
  | none => pageMismatch d b pages

/-- First pairing that a tile checks: kind, and the tag it expects. -/
def firstPair (d : Dev) (u : Nat) (x : DescId) (b : Bytes) (cells : List Cell) (pages : List (Nat × Nat)) : Option (Nat × Nat) :=
  match (scaleStreams d u x b cells).findSome? (fun s => s.2.head?.map (fun k => (s.1.kind, (s.1.first + k) % 256))) with
  | some p => some p
  | none => if dKind b = 4 ∧ dEmpty b = false ∧ pages ≠ [] then some (if (kvRecOf d.img (u8 b 0x20)).format ≤ 2 then 2 else 1, 0) else none

/-- What an injection does to a tile at its ramp-down (Table 19.2): none, or the state after a tile that has stopped; and whether
a poisoned granule has entered the tile. -/
def injectTile (u : Nat) (b : Bytes) (pair : Option (Nat × Nat)) (d : Dev) : Option Dev × Bool × Dev :=
  match d.err.armed with
  | none => (none, false, d)
  | some (id, mode) =>
    let cls := id / 4096
    let inst := id % 4096
    let arrays := u < 24 && (dKind b == 0 || dKind b == 4) && inst / 4 == u
    if cls = 4 ∧ arrays = true then (some (faultTile u 0x6A true (fired d)), false, d)
    else if cls = 5 ∧ arrays = true then (some (faultTile u 0x69 true (fired d)), false, d)
    else if cls = 1 ∧ inst = u ∧ u < 24 then
      if mode = 0 then (none, false, recordAt 0x10 (some (dPart b)) (1, u) none true (fired d))
      else (some (faultTile u 0x13 true (fired d)), false, d)
    else if cls = 6 ∧ inst = u then
      if mode = 0 then (none, true, recordAt 0x24 (some (dPart b)) (4, u) none true (fired d))
      else (some (stopTile u 0x25 (recordAt 0x25 (some (dPart b)) (4, u) none true (fired d))), false, d)
    else match pair with
      | some p =>
        if cls = 8 ∧ inst = u then
          let c := draw (fired d)
          (some (tagFail u p.1 p.2 (Config.freeNat c.1 % 256) true c.2), false, d)
        else (none, false, d)
      | none => (none, false, d)

/-! ### Ramp-down -/

/-- Offer a search tile's scores to its working lists (R188 to R190): the lists, values offered and values withheld. -/
def offerAll (r : CatRec) (snapshot base : Nat) (l : List (Cell × Word)) (lists : Tab KList) : Tab KList × Nat × Nat :=
  l.foldl (fun acc c =>
    let item := base + c.1.chan
    let k := listKey r.slot c.1.row
    if snapshot ≤ item then acc
    else if c.1.poison then (tabMod acc.1 k {} (fun x => { x with tainted := true }), acc.2.1, acc.2.2 + 1)
    else (tabMod acc.1 k {} (offer r.direction r.k { score := c.2.toInt, item := item }), acc.2.1 + 1, acc.2.2)) (lists, 0, 0)

/-- A search tile offers its scores to its working lists; bad says that a poisoned beat reached the tile. -/
def runSearch (d : Dev) (x : DescId) (b : Bytes) (vals : List (Cell × Word)) (bad : Bool) (t : Tile) : Tile :=
  match catOfTile d x b with
  | some r =>
    match (getCat d r.slot).sweep with
    | some w =>
      let rows := vals.filter (fun v => !searched w (dWord b 0x28 + v.1.chan))
      let o := offerAll r w.snapshot (dWord b 0x28) (rows.map (fun v => ({ v.1 with poison := v.1.poison || bad }, v.2))) t.lists
      { t with lists := o.1, offered := o.2 }
    | none => t
  | none => t

/-- The working area of an array or stem tile: its accumulators, lists and counts. -/
def runArray (d : Dev) (u : Nat) (x : DescId) (b : Bytes) (cells : List Cell) (bad : Bool) (t : Tile) : Tile :=
  let tm := templateOf d.img (dOp b)
  let vals := cells.map (fun c => (c, evalCell d u tm c))
  let t1 := { t with accSat := vals.foldl (fun a v => a + v.2.sat) 0 }
  if isSearch d.img b then runSearch d x b (vals.map (fun v => (v.1, v.2.value))) bad t1
  else { t1 with acc := vals.map (fun v => { row := v.1.row, chan := v.1.chan, value := v.2.value, scale := v.1.rowScale, poison := v.1.poison || bad }) }

/-- The working area of a tile by its kind. -/
def runTile (d : Dev) (u : Nat) (b : Bytes) (run : TileRun) (cells : List Cell) (bad : Bool) (t : Tile) : Tile :=
  let area (l : List AccElem) : Tile := { t with acc := if bad then l.map (fun e => { e with poison := true }) else l }
  match dKind b with
  | 2 => area (runPool d t.d b)
  | 3 => area (evalScan d t.d b t)
  | 4 => area (if (attnOf d.img (dOp b)).kind = 0 then evalAttend d t.d b t.pages else evalBackward d t.d b t.pages run.keyFirst)
  | 5 => t
  | _ => runArray d u t.d b cells bad t

/-- The drains write a tile's working area into the accumulators region of its core (R139), from its start, four bytes for each element
(DESIGN CHOICE, log 105). -/
def storeAcc (u : Nat) (acc : List AccElem) (d : Dev) : Dev :=
  if 24 ≤ u then d
  else
    let base := coreRegion d.img u 2
    let bad := (acc.zipIdx.filter (fun e => e.1.poison)).map (fun e => (base + 4 * e.2) / 64)
    { d with mem := poisonGranules bad (cleanGranules (granulesOf base (4 * acc.length))
        (memWrite d.mem base (acc.flatMap (fun e => le 4 e.value.toNat)))) }

/-- What a pass of a weight-stationary tile gives a column at a row: the pass's own sum (R140). -/
def passSum (d : Dev) (u : Nat) (t : Template) (c : Cell) (n : Nat) : Nat :=
  (evalCell d u { t with flags := 0 } { c with passes := (c.passes.drop n).take 1 }).value.toNat

/-- Result number n that an array tile gives a column output: of wavefront n, or, output-stationary, accumulator row n of the passes. -/
def arrayResult (d : Dev) (u : Nat) (x : DescId) (b : Bytes) (j n : Nat) : Nat :=
  let t := templateOf d.img (dOp b)
  let f := tileFeed d u x b (searchItems d x b)
  let cols := blockColumns t
  let k := shapeRows t
  let side := if t.shape = 0 then j / max 1 cols else 0
  if t.dataflow = 1 then (evalCell d u t (feedCell d.mem f (side * 16 + n % max 1 k) (n / max 1 k * cols + j % max 1 cols))).value.toNat
  else passSum d u t (feedCell d.mem f (side * t.rows + n % max 1 t.rows) (j % max 1 cols)) (n / max 1 t.rows)

/-- Result number n of a forward attend tile at a column output (R264, R266): a score, or what a page adds to an output. -/
def attendResult (d : Dev) (x : DescId) (b : Bytes) (pages : List (Nat × Nat)) (j n : Nat) : Nat :=
  let a := attnOf d.img (dOp b)
  let h := u8 b 0x22
  let cols := 16 * weightsPerCell a.format
  let r := j / 16 * 16 + n % 16
  let keyPasses := 64 / cols
  let per := keyPasses + a.headDim / cols
  let c := n / 16 % max 1 per * cols + j % 16
  match (tilePages d b pages)[n / 16 / max 1 per]? with
  | none => 0
  | some p =>
    if c < 64 then (attScore d.mem p.1 (w32 a.scale) (b2n (bit a.flags 2)) h c (queryRow d x b r)).toNat
    else (((pageWeights d x b pages).find? (fun e => e.1 == r && e.2.1 == p.1)).map (fun e =>
      (attValue d.mem p.1 (b2n (bit a.flags 2)) h (c - 64) e.2.2).toNat)).getD 0

/-- Leash bubbles of a tile (R147), and whether an entry's parity failed. -/
def tileBubbles (d : Dev) (u : Nat) (t : Tile) (b : Bytes) (stalls : List (List Nat × List Nat)) : Edge :=
  leashRun (tileEdges d u t.d b)
    (if dKind b = 0 then arrayResult d u t.d b else if dKind b = 4 ∧ (attnOf d.img (dOp b)).kind = 0 then attendResult d t.d b t.pages else fun _ _ => 0)
    (getUnit d u).leash stalls

/-- Gated cell-cycles of an attend tile (R150); those of a backward tile, whose products the manual does not lay out on the arrays, are
left open (log 7). -/
def attendGated (d : Dev) (u : Nat) (x : DescId) (b : Bytes) (pages : List (Nat × Nat)) (bubbles : Nat) : Nat :=
  let all := ((tileEdges d u x b).waves + bubbles) * 1024
  if (attnOf d.img (dOp b)).kind = 1 then Config.freeNat d.freeCtr % (all + 1) else all - attendActive d x b pages

/-- What the advancing part of a tile counts. -/
def advCounts (d : Dev) (u : Nat) (t : Tile) (b : Bytes) (run : TileRun) (cells : List Cell) : AdvCounts :=
  let bubbles := (tileBubbles d u t b run.stalls).bubbles
  let a := advanceCycles d u t.d b
  let throttle := throttleBubbles (a.1 + bubbles) t.levels run.throttle
  let convs := if dKind b = 4 then attendConversions d t.d b t.pages run.keyFirst else []
  { bubbles := bubbles
    throttle := throttle
    gated := if dKind b = 0 then gatedCells d u (templateOf d.img (dOp b)) cells a.2.1 (bubbles + throttle)
      else if dKind b = 4 then attendGated d u t.d b t.pages (bubbles + throttle) else 0
    zcBad := if dKind b = 2 then poolInvalid d t.d b else if dKind b ≤ 1 then cellsInvalid d t.d b cells else 0
    converted := convs.length
    clipped := (convs.filter (fun c => c.clipped)).length
    nonfinite := (convs.filter (fun c => c.nonfinite)).length }

/-- Ramp-down of a tile ends and its commit begins. A tile that has touched what its partition does not own is muzzled with its core
(R19, R324). -/
def advanceEnd (u : Nat) (run : TileRun) (d : Dev) : Dev :=
  match tileOf d u with
  | none => d
  | some t =>
    match desc? d t.d with
    | none => d
    | some y =>
      let b := y.bytes
      let k := dKind b
      if !live d || t.committing || t.stopped || ((k == 4 || k == 5) && isMuzzled d (0x28 + clusterOf u)) then d
      else match readBreach d t.d b with
      | some a => muzzle u (dPart b) 0x40 (some a) false d
      | none =>
        let d := tileRead u t.d b t.pages run d
        let cells := cellsOf d u t.d b
        let n := advCounts d u t b run cells
        let d1 := countAdvance u t.d b run n (draw d).2
        if (tileBubbles d u t b run.stalls).bad then faultTile u 0x6A false d1
        else match tileMismatch d u t.d b cells t.pages with
        | some m => tagFail u m.1 m.2.1 m.2.2 false d1
        | none =>
          let inj := injectTile u b (firstPair d u t.d b cells t.pages) d1
          match inj.1 with
          | some e => e
          | none =>
            let d2 := inj.2.2
            let t1 := runTile d u b run cells inj.2.1 t
            let a := advanceCycles d u t.d b
            let t2 := { t1 with committing := true, passes := a.2, counted := false, spent := t.spent + a.1 + n.bubbles + n.throttle }
            let d3 := storeAcc u t1.acc (modUnit u (fun x => { x with tile := some t2, accSat := addW x.accSat t1.accSat }) d2)
            (List.range t1.accSat).foldl (fun e _ => record 0x64 (some (dPart b)) (1, u) e) d3

/-! ### Commands and hard stops -/

/-- An uncorrectable fault of a tile is detected (R152, R153). -/
def tileFault (u code : Nat) (d : Dev) : Dev :=
  match tileOf d u with
  | some t => if live d && !t.stopped then faultTile u code false d else d
  | none => d

/-- Address of the scale block that a tile pairs with a data block (R176, R177): of the operand whose scales are of a kind, the block
with the data block's index; none for a block that the tile does not consume. -/
def pairAt (d : Dev) (u : Nat) (x : DescId) (b : Bytes) (cells : List Cell) (pages : List (Nat × Nat)) (kind block : Nat) : Option Nat :=
  match (scaleStreams d u x b cells).findSome? (fun s =>
    if s.1.kind = kind then (s.2.find? (fun k => s.1.first + k == block)).map (fun k => s.1.at_ + k * 64) else none) with
  | some a => some a
  | none =>
    let r := kvRecOf d.img (u8 b 0x20)
    if dKind b = 4 ∧ dEmpty b = false ∧ kind = (if r.format ≤ 2 then 2 else 1) then
      pages.findSome? (fun q => [0, 1].findSome? (fun half => (pageBlocks r (u8 b 0x22) (min 64 (ptEntry d (u8 b 0x20) (u8 b 0x21) q.1).fill)).find? (fun k => k == block)
        |>.map (fun k => q.2 + halfScales r half + k * 64)))
    else none

/-- A tile meets a scale block that does not match its data block (R177, R178): what the requantisation unit has seen of it, which a
slipped transfer may have put in the place of the block that memory holds. A poisoned block is not compared: its granule is poisoned. -/
def scaleCheck (u block kind tag seen : Nat) (poisoned : Bool) (d : Dev) : Dev :=
  match tileOf d u with
  | some t =>
    let b := descBytes d t.d
    match (if live d && !t.stopped then pairAt d u t.d b (cellsOf d u t.d b) t.pages kind block else none) with
    | some a =>
      if poisoned then { d with mem := poisonGranules [a / 64] d.mem }
      else if tag % 256 ≠ block % 256 ∨ seen % 256 ≠ kind then tagFail u kind (block % 256) (tag % 256) false d
      else d
    | none => d
  | none => d

/-- A hard stop reaches the tile of a unit (Table 6.4, R154): its work so far is counted, once. -/
def hardStopTile (u : Nat) (d : Dev) : Dev :=
  match tileOf d u with
  | none => d
  | some t =>
    let held (e : Dev) : Dev :=
      let k := lostWork u t e
      modUnit u (fun x => { x with tile := some { k.1 with stopped := true, halted := true }, leash := {} }) k.2
    if t.stopped then d
    else if t.committing then held d
    else if t.replay then stopTile u 0x63 (record 0x63 (tilePart d u) (1, u) d)
    else record 0x62 (tilePart d u) (1, u) (held d)

/-- The governor releases the tile of a unit: it replays, or restarts its commit. -/
def releaseTile (u : Nat) (d : Dev) : Dev :=
  match tileOf d u with
  | none => d
  | some t =>
    let l := clusterLevel d (clusterOf u)
    if !t.stopped then d
    else if t.committing then modUnit u (fun x => { x with tile := some { t with stopped := false, counted := false } }) d
    else rampUp u t.d (descBytes d t.d) (modUnit u (fun x => { x with
      tile := some { t with stopped := false, replay := true, counted := false, levels := (l, l) }, replays := x.replays + 1 }) d)

/-- TILE_ADVANCE_END (R148, R151). -/
def execTileAdvanceEnd (unit : Fin 28) (run : TileRun) (s : State) : Result := devStep (advanceEnd unit.val run) s

/-- TILE_FAULT (R152, R153, R438). -/
def execTileFault (unit : Fin 28) (detector : Nat) (s : State) : Result :=
  unlessWf (.tileFault unit detector) s (devStep (tileFault unit.val detector) s)

/-- SCALE_TAG_MISMATCH (R177, R178). -/
def execScaleTagMismatch (unit : Fin 28) (dataBlock kind tag seenKind : Nat) (poisoned : Bool) (s : State) : Result :=
  devStep (scaleCheck unit.val dataBlock kind tag seenKind poisoned) s

end Sys2Proof.Machine
end

