-- ==== Sys2Proof/Machine/Commit.lean ====
section
/-! DEFINITION. The commit of a tile (R151): requantisation and conversion (R164 to R174), scale streams (R175), statistics (R180,
R182), zero compression (R222 to R224), the scatter of keys and values (R260), and what follows from the signal. -/

namespace Sys2Proof.Machine

/-! ### Values before conversion (R170, R171) -/

/-- An element that the commit writes: its place, its value and its table channel. -/
structure OutEl where
  row : Nat := 0
  chan : Nat := 0
  /-- offset in bits from the destination -/
  off : Nat := 0
  /-- channel of the requantisation table -/
  entry : Nat := 0
  /-- fp32 value y -/
  y : Word := 0
  /-- exact value of mode 0, as a quotient -/
  exact : Option (Int × Nat) := none
  /-- bits written as they are -/
  raw : Option Nat := none
  poison : Bool := false
  deriving DecidableEq, Repr

/-- An element as written: its bits, what was counted, and its error (R182). -/
structure OutVal where
  off : Nat := 0
  width : Nat := 0
  bits : Nat := 0
  entry : Nat := 0
  converted : Bool := false
  clipped : Bool := false
  nonfinite : Bool := false
  err : Word := 0
  poison : Bool := false
  deriving DecidableEq, Repr

/-- Accumulator through its table's entry (R170, R171): int says that it holds int32. -/
def requant (rq : Option RqTable) (int : Bool) (e : AccElem) (o : OutEl) : OutEl :=
  match rq with
  | none => { o with y := if int then fOfInt e.value.toInt else e.value, raw := some e.value.toNat }
  | some r =>
    let n := r.entries.getD o.entry {}
    if r.mode = 0 then
      let p := (e.value.toInt + signed 32 n.bias) * signed 32 n.mult
      let den := 2 ^ (31 + n.shift)
      { o with y := ratToF32 (decide (p < 0)) p.natAbs den, exact := some (p, den) }
    else
      let a := if int then fOfInt e.value.toInt else e.value
      let m := BitVec.ofNat 32 n.mult
      let b := BitVec.ofNat 32 n.bias
      { o with y := if r.mode = 1 then fAdd (fMul a m) b else fAdd (fMul (fMul a e.scale) m) b }

/-- The element-wise program over the tile's values, with a scan tile's gate values after them (R151, R229; log 10). -/
def runProgram (blob : Nat) (gates : List Word) (l : List OutEl) : List OutEl :=
  if blob = 0 then l
  else
    let out := Config.elementWise blob (l.map (fun e => e.y) ++ gates)
    l.zipIdx.map (fun e => { e.1 with y := out.getD e.2 0, exact := none, raw := e.1.raw.map (fun _ => (out.getD e.2 0).toNat) })

/-! ### Conversion (R164, R165, R172, R174) -/

/-- What the elements of one scale share: the scale's encoding, whether its elements are all written 0, and poison. -/
structure GScale where
  bits : Nat := 0
  /-- exponent X of an MX block -/
  exp : Int := 0
  /-- factor or divisor, fp32 -/
  factor : Word := 0
  /-- value of the scale, fp32 -/
  decoded : Word := 0
  /-- not finite -/
  bad : Bool := false
  /-- the magnitude is 0 -/
  zero : Bool := false
  deriving DecidableEq, Repr

/-- Q of R172 and R174. -/
def quantMax (format : Nat) : Nat := if format = 1 then 7 else if format = 3 then 448 else 127

/-- fp16 encoding of the exact quotient of a magnitude and an integer. -/
def halfQuotient (a : Word) (q : Nat) : Nat :=
  match ofF32 a with
  | .fin _ m e => let s := scaleRat m 1 e; (encodeMini 5 10 15 false s.1 (s.2 * q) 2047 5).getD 0x7C00
  | .inf _ => 0x7C00
  | .nan => 0x7E00

/-- Scale of a run of elements from its largest magnitude: kinds 1, 2 and 3 (R172, R174). factor is what an element is multiplied by
(kind 3) or divided by (kind 2), decoded what the scale stands for. -/
def groupScale (kind format variant : Nat) (a : Word) : GScale :=
  let finite := fFinite a.toNat
  if kind = 3 then
    let q := fOfInt (quantMax format)
    let r := if finite then fDiv a q else canonicalNan
    { bits := r.toNat, factor := fDiv q a, decoded := r, bad := !finite, zero := fIsZero a }
  else if kind = 2 then
    let s := halfQuotient a (quantMax format)
    let v := toF32 (decodeElem 10 0 s)
    { bits := s, factor := v, decoded := v, zero := fIsZero v }
  else
    let X := mxExponent format variant (ofF32 a)
    if finite then { bits := (X + 127).toNat, exp := X } else { bits := 255, bad := true }

/-- Number of bits of a raw value or a format. -/
def elemWidth (format : Nat) (e : OutEl) : Nat := if e.raw.isSome then 32 else formatBits format

/-- Convert one element (R164, R165, R182): its scale, if the output is scaled. The error of a scaled output is y less the element times
its scale (DEDUCED, log 79). -/
def convertEl (format variant : Nat) (z : Int) (sc : Option (Nat × GScale)) (e : OutEl) : OutVal :=
  let base : OutVal := { off := e.off, width := elemWidth format e, entry := e.entry, poison := e.poison }
  match e.raw with
  | some v => { base with bits := v }
  | none =>
    let done (c : Conv) (err : Word) : OutVal :=
      { base with bits := c.bits, converted := true, clipped := c.clipped, nonfinite := c.nonfinite, err := err }
    match sc with
    | none =>
      match e.exact with
      | some (n, den) =>
        let c := convInt format z n den
        let k := n - (intElem format c.bits - z) * den
        done c (ratToF32 (decide (k < 0)) k.natAbs den)
      | none =>
        let c := convert format variant z (ofF32 e.y)
        done c (fSub e.y (toF32 (outValue format variant z c.bits)))
    | some (kind, g) =>
      let own := ofF32 e.y
      if g.bad then
        { base with bits := 0, converted := true, nonfinite := true, err := fSub e.y canonicalNan,
                    clipped := (match own with | .inf _ => true | .nan => format ≤ 2 || format == 8 | _ => false) }
      else if g.zero then done {} (fSub e.y 0)
      else if kind = 1 then
        let c := convert format variant 0 (mulNum own (.fin false 1 (-g.exp)))
        done c (fSub e.y (toF32 (mulNum (decodeElem format variant c.bits) (.fin false 1 g.exp))))
      else
        let x := if kind = 3 then fMul e.y g.factor else fDiv e.y g.factor
        let c := convert format variant 0 (ofF32 x)
        done c (fSub e.y (toF32 (mulNum (outValue format variant 0 c.bits) (ofF32 g.decoded))))

/-- Largest magnitudes, and poison, of the scales that a tile's elements share. -/
def gatherScales (no : OutEl → Nat) (l : List OutEl) : Tab (Word × Bool) :=
  l.foldl (fun t e => tabMod t (no e) (0, false) (fun a => (fMaxAbs a.1 e.y, a.2 || e.poison))) {}

/-! ### Writing -/

/-- Write a field of bits at a bit offset from an address. -/
def writeBits (base off width v : Nat) (m : Mem) : Mem :=
  let a := base + off / 8
  let sh := off % 8
  let n := (sh + width + 7) / 8
  let old := (memRead m a n).foldr (fun x acc => x.toNat + 256 * acc) 0
  memWrite m a (le n (old - old / 2 ^ sh % 2 ^ width * 2 ^ sh + v % 2 ^ width * 2 ^ sh))

/-- Bits written into each granule, and whether one of them is poisoned. -/
def granuleTotals (l : List OutVal) : Tab (Nat × Bool) :=
  l.foldl (fun t v => tabMod t (v.off / 512) (0, false) (fun g => (g.1 + v.width, g.2 || v.poison))) {}

/-- Write elements from an address: a granule with a poisoned element is poisoned, one wholly written with good data is clean (R298). -/
def writeVals (base : Nat) (l : List OutVal) (m : Mem) : Mem :=
  let t := (granuleTotals l).cells
  let bad := (t.filter (fun g => g.2.2)).map (fun g => base / 64 + g.1)
  let good := (t.filter (fun g => !g.2.2 && g.2.1 == 512)).map (fun g => base / 64 + g.1)
  poisonGranules bad (cleanGranules good (l.foldl (fun a v => writeBits base v.off v.width v.bits a) m))

/-- Write one scale of a scale block (Table 7.3): block address, place, kind, index of the data block, and the scales that the block
holds. Reserved bytes and unused places are written as 0, and so are the other places of a block that belonged to other data. -/
def writeScale (a place kind index count bits : Nat) (m : Mem) : Mem :=
  let size := if kind = 1 then 1 else if kind = 2 then 2 else 4
  let old := memRead m a 64
  let same := u8 old 1 == kind && u8 old 0 == index % 256
  let n := max count (place + 1)
  let body := if same then (old.drop 8).take (n * size) else zeros (n * size)
  memWrite m a (fit 64 (le 1 index ++ le 1 kind ++ le 2 n ++ zeros 4 ++ body.take (place * size) ++ le size bits ++ body.drop ((place + 1) * size)))

/-- Scales that a block of a page holds once a place is written (R251): those before it stay. -/
def pageCount (m : Mem) (a kind index place : Nat) : Nat :=
  let old := memRead m a 8
  if u8 old 1 = kind ∧ u8 old 0 = index % 256 then max (u16 old 2) (place + 1) else place + 1

/-- Write a tile's scale stream (R175; log 29): where block k of the stream lies, and how many scales it holds. -/
def writeScales (at_ count : Nat → Nat) (kind per : Nat) (l : List (Nat × GScale × Bool)) (m : Mem) : Mem :=
  let blocks := dedup (l.map (fun s => s.1 / per))
  let bad := (l.filter (fun s => s.2.2)).map (fun s => at_ (s.1 / per) / 64)
  let good := (blocks.filter (fun k => decide (count k ≤ (l.filter (fun s => s.1 / per == k)).length))).map (fun k => at_ k / 64)
  poisonGranules bad (cleanGranules good
    (l.foldl (fun a s => writeScale (at_ (s.1 / per)) (s.1 % per) kind (s.1 / per) (count (s.1 / per)) s.2.1.bits a) m))

/-- A dense granule as a compressed segment stores it: kind, and its stored bytes (Table 9.3). -/
def zcBlock (g : Bytes) (bad : Bool) : Nat × Bytes :=
  let n := (g.filter (fun b => b != 0)).length
  if bad then (2, g)
  else if n = 0 then (0, [])
  else if n ≤ 56 then (1, fit 64 (le 8 (BitVec.ofNat 64 (Sys2Proof.Machine.mapBits 64 (fun i => g.getD i 0 != 0))).toNat ++ g.filter (fun b => b != 0)))
  else (2, g)

/-- Write dense granules as a segment at an address (R222); the counts of zero, compressed and raw granules. -/
def writeSegment (base : Nat) (l : List (Bytes × Bool)) (m : Mem) : Mem × Nat × Nat × Nat :=
  let kinds := l.map (fun g => (zcBlock g.1 g.2, g.2))
  let idx := ceilDiv l.length 16 * 64
  let r := kinds.zipIdx.foldl (fun (acc : Mem × Nat) k =>
    let kind := k.1.1.1
    let at_ := base + idx + acc.2 * 64
    let m1 := memWrite acc.1 (base + 4 * k.2) (le 4 (kind * 1073741824 + if kind = 0 then 0 else acc.2))
    if kind = 0 then (m1, acc.2)
    else
      let m2 := cleanGranules [at_ / 64] (memWrite m1 at_ k.1.1.2)
      (if k.1.2 then poisonGranules [at_ / 64] m2 else m2, acc.2 + 1)) (cleanGranules (granulesOf base idx) (memWrite m base (zeros idx)), 0)
  (r.1, (kinds.filter (fun k => k.1.1 == 0)).length, (kinds.filter (fun k => k.1.1 == 1)).length, (kinds.filter (fun k => k.1.1 == 2)).length)

/-! ### Counting conversions (R164, R165, R180, R182) -/

/-- Add one conversion's error to the watched slots of its table and channel. -/
def watchVal (img : Image) (u table : Nat) (v : OutVal) (x : Unit_) : Unit_ :=
  (img.watched.filter (fun w => w.core == u && w.table == table && w.channel == v.entry)).foldl (fun y w =>
    { y with watch := tabMod y.watch w.slot {} (fun s =>
        if s.count = 0xFFFFFFFF#32 then s else { sumsq := fAdd s.sumsq (fMul v.err v.err), count := s.count + 1 }) }) x

/-- Count the conversions of a commit on a unit, with cause code 0x65 for each that was not finite. -/
def countVals (u part : Nat) (rq : Option RqTable) (l : List OutVal) (d : Dev) : Dev :=
  let cs := l.filter (fun v => v.converted)
  let bad := (cs.filter (fun v => v.nonfinite)).length
  let d1 := modUnit u (fun x =>
    let y := { x with converted := addW x.converted cs.length, clipped := addW x.clipped (cs.filter (fun v => v.clipped)).length,
                      nonfinite := addW x.nonfinite bad }
    match rq with
    | some r => cs.foldl (fun z v => watchVal d.img u r.id v z) y
    | none => y) d
  let d2 := (List.range bad).foldl (fun e _ => record 0x65 (some part) (1, u) e) d1
  match rq with
  | some r =>
    if bit r.flags 3 ∧ u < 24 then
      let base := regionBase d2.img r.statsRegion + r.statsOffset + u * r.channels * 8
      { d2 with mem := cs.foldl (fun m v => statAdd (base + v.entry * 8 + 4) 1 (if v.clipped then statAdd (base + v.entry * 8) 1 m else m)) d2.mem }
    else d2
  | none => d2

/-! ### Tiles with a feature-map or row destination -/

/-- The gate map of a scan tile (R229): its address, and the bit of step t of the slice's element i. -/
def gateMap (d : Dev) (x : DescId) (b : Bytes) : Option (Nat × (Nat → Nat → Nat)) :=
  let r := blkRec d.img (dBlock b)
  let o := scanOf d.img r.scan
  (if bit o.flags 1 then refAddr d x.graph x.inst (dCluster b) (dStrand b) (dWord b 0x24) else none).map (fun a =>
    (a, fun t i => mapBit 0 (if o.format = 9 then 16 else 32) 1 o.steps o.elements t 0 (r.first + dSlice b * o.slice + i)))

/-- Gate values of a scan tile, step by step for each element (R229). -/
def gateValues (d : Dev) (x : DescId) (b : Bytes) : List Word :=
  let o := scanOf d.img (blkRec d.img (dBlock b)).scan
  match gateMap d x b with
  | none => []
  | some m => (List.range o.slice).flatMap (fun i => (List.range o.steps).map (fun t => mapValue d.mem m.1 (m.2 t i) (if o.format = 9 then 16 else 32)))

/-- The gate of step t of the slice's element i lies in a poisoned granule. -/
def gateBad (d : Dev) (x : DescId) (b : Bytes) (t i : Nat) : Bool :=
  match gateMap d x b with
  | none => false
  | some m => poisonedAt d.mem (m.1 + m.2 t i / 8)

/-- Rows of an attend tile with no visible key (R269): their sum is 0 at the end of the chain. -/
def maskedRows (dim : Nat) (acc : List AccElem) : List Nat :=
  (acc.filter (fun e => e.chan == dim + 1 && fIsZero e.value)).map (fun e => e.row)

/-- The value of an attend row at the end of its chain (R266, R269). -/
def attFinal (dim : Nat) (acc : List AccElem) (e : AccElem) : AccElem :=
  let at_ (j : Nat) : Word := ((acc.find? (fun x => x.row == e.row && x.chan == j)).map (fun x => x.value)).getD 0
  let m := at_ dim
  let l := at_ (dim + 1)
  if fIsZero l then { e with value := if e.chan < dim then 0 else sentinel }
  else if e.chan < dim then { e with value := fDiv e.value l }
  else if e.chan = dim then e
  else { e with value := fAdd m (fLn l) }

/-- The elements that a tile commits, in the order of its working area, before conversion. -/
def outEls (d : Dev) (x : DescId) (b : Bytes) (t : Tile) : List OutEl :=
  let gb := graphBlob d x.graph
  let g := outGrid d.img gb b
  let rq := rqOf d.img b
  match dKind b with
  | 3 =>
    let r := blkRec d.img (dBlock b)
    let o := scanOf d.img r.scan
    let l := (t.acc.filter (fun e => decide (e.row < o.steps))).map (fun e =>
      requant rq false e { row := e.row, chan := e.chan, off := g.2 e.row e.chan, entry := r.first + dSlice b * o.slice + e.chan,
                               poison := e.poison || gateBad d x b e.row e.chan })
    runProgram o.ewBlob (gateValues d x b) l
  | 4 =>
    let a := attnOf d.img (dOp b)
    let more := hasSuccessor gb b || a.kind == 1
    let acc := if more then t.acc else t.acc.map (attFinal a.headDim t.acc)
    (acc.filter (fun e => decide (e.chan < g.1.chans))).map (fun e =>
      let o : OutEl := { row := e.row, chan := e.chan, off := g.2 e.row e.chan, entry := e.chan, poison := e.poison }
      if more || decide (a.headDim ≤ e.chan) then { o with y := e.value, raw := some e.value.toNat } else requant rq false e o)
  | _ =>
    let tm := templateOf d.img (dOp b)
    let l := (t.acc.filter (fun e => decide (e.row < g.1.rows) && decide (e.chan < g.1.chans))).map (fun e =>
      requant rq (intArea d.img tm) e { row := e.row, chan := e.chan, off := g.2 e.row e.chan, entry := e.chan, poison := e.poison })
    runProgram tm.ewBlob [] l

/-- Channel places beyond C in the last group of a layout-0 map hold 0 (R207). -/
def padVals (img : Image) (gb b : Bytes) : List OutVal :=
  let w := formatBits (outFormat img b)
  let g := outGrid img gb b
  let last := g.1.chan0 + g.1.chans
  if g.1.layout = 0 ∧ (dKind b ≠ 3 ∨ last = g.1.width) then
    (List.range g.1.rows).flatMap (fun k => (List.range (ceilDiv last 16 * 16 - last)).map (fun c =>
      { off := g.2 k (g.1.chans + c), width := w : OutVal }))
  else []

/-- The values of a pool tile, which its working area has held since ramp-down (R220). -/
def poolVals (d : Dev) (x : DescId) (b : Bytes) (t : Tile) : List OutVal :=
  let p := poolOf d.img (dOp b)
  let g := outGrid d.img (graphBlob d x.graph) b
  t.acc.map (fun e =>
    { off := g.2 e.row e.chan, width := formatBits p.format, bits := e.value.toNat, entry := e.chan, converted := bit e.scale.toNat 0,
      clipped := bit e.scale.toNat 1, nonfinite := bit e.scale.toNat 2, poison := e.poison : OutVal })

/-- The values of a tile with the scales they travel with: number, scale, poison. A block of elements that two tiles share takes each
time the scale of the committing tile's own elements (DESIGN CHOICE, log 141). -/
def convertAll (d : Dev) (x : DescId) (b : Bytes) (els : List OutEl) : List OutVal × List (Nat × GScale × Bool) :=
  let rq := rqOf d.img b
  let format := outFormat d.img b
  let variant := (rq.map (fun r => r.flags % 2)).getD 0
  let zp (e : OutEl) : Int := (rq.map (fun r => (r.entries.getD e.entry {}).zero)).getD 0
  match scaleKind d.img b with
  | none => (els.map (fun e => convertEl format variant (zp e) none e), [])
  | some (kind, _) =>
    let g := (outGrid d.img (graphBlob d x.graph) b).1
    let w := formatBits format
    let no (e : OutEl) : Nat := scaleNo kind g w e.row e.chan e.off
    let scaled := els.filter (fun e => e.raw.isNone)
    let t := (gatherScales no scaled).cells.map (fun c => (c.1, groupScale kind format variant c.2.1, c.2.2))
    let tab : Tab (GScale × Bool) := ⟨t⟩
    (els.map (fun e =>
      let s := tabGet tab (no e) ({}, false)
      convertEl format variant 0 (some (kind, s.1)) { e with poison := e.poison || (e.raw.isNone && s.2) }), t)

/-- Write a tile's output at its destination: dense or zero-compressed, with its scale stream. -/
def writeOutput (u : Nat) (x : DescId) (b : Bytes) (vals : List OutVal) (scales : List (Nat × GScale × Bool)) (d : Dev) : Dev :=
  let gb := graphBlob d x.graph
  match destAddr d x b with
  | none => d
  | some base =>
    let all := padVals d.img gb b ++ vals
    let g := (outGrid d.img gb b).1
    let w := formatBits (outFormat d.img b)
    let withScales (at_ : Nat → Nat) (m : Mem) : Mem :=
      match scaleKind d.img b with
      | some (kind, per) => writeScales at_ (scaleCount kind per g w) kind per scales m
      | none => m
    match zcOf d.img b with
    | some z =>
      let dense := denseGranules d.img gb b
      let blocks := scaleBlocks d.img gb b
      let m := writeVals 0 all {}
      let s := writeSegment base (dense.map (fun g => (memRead m (64 * g) 64, m.poison.contains g))) d.mem
      let m1 := withScales (fun k => base + (segmentSize dense.length + blocks.findIdx (fun j => j == k)) * 64) s.1
      let stats := regionBase d.img z.statsRegion + z.statsOffset + u * 16
      let m2 := if z.statsRegion = 0 ∨ 24 ≤ u then m1
        else statAdd stats dense.length (statAdd (stats + 4) s.2.1 (statAdd (stats + 8) s.2.2.1 (statAdd (stats + 12) s.2.2.2 m1)))
      modUnit u (fun y => { y with zcGranules := addW y.zcGranules dense.length, zcBlocks := addW y.zcBlocks (s.2.2.1 + s.2.2.2) })
        { d with mem := m2 }
    | none => { d with mem := withScales (fun k => base + (scaleBase g + k) * 64) (writeVals base all d.mem) }

/-! ### Scatter (R260) -/

/-- The quantised blocks of a scatter tile: for each token, head, half and block of 32, its page place, elements and scale. -/
def scatterBlocks (d : Dev) (x : DescId) (b : Bytes) (pages : List (Nat × Nat)) (bf16 : Bool) :
    List ((Nat × Nat × Nat × Nat × Nat) × List OutVal × GScale × Bool) :=
  let r := kvRecOf d.img (u8 b 0x24)
  let n := u16 b 0x26
  let width := if bf16 then 16 else 32
  let kind := if r.format ≤ 2 then 2 else 1
  let src (half : Nat) : Nat :=
    (refAddr d x.graph x.inst (dCluster b) (dStrand b) (if half = 0 then dIn0 b else dWord b 0x20)).getD 0
  let variant := b2n (bit (attnOf d.img (dOp b)).flags 2)
  (scatterSlots d pages b).flatMap (fun s => (List.range r.kvHeads).flatMap (fun h => [0, 1].flatMap (fun half =>
    (List.range (r.headDim / 32)).map (fun k =>
      let els := (List.range 32).map (fun j =>
        let c := h * r.headDim + 32 * k + j
        let off := mapBit 0 width 1 n (r.kvHeads * r.headDim) s.1 0 c
        ({ row := s.1, chan := c, off := pageElem r h s.2.2 (32 * k + j) * kvBits r.format,
           y := mapValue d.mem (src half) off width, poison := poisonedAt d.mem (src half + off / 8) } : OutEl))
      let bad := els.any (fun e => e.poison)
      let g := groupScale kind r.format variant (els.foldl (fun a e => fMaxAbs a e.y) 0)
      ((s.2.1, s.2.2, h, half, k), els.map (fun e => convertEl r.format variant 0 (some (kind, g)) { e with poison := bad }), g, bad)))))

/-- A scatter tile writes its slots (R260, R261): granules that hold only slots written now lose earlier poison, and so do those that an
append which stopped had poisoned and left otherwise as they were. -/
def scatterCommit (u : Nat) (x : DescId) (b : Bytes) (pages : List (Nat × Nat)) (bf16 : Bool) (d : Dev) : Dev :=
  let q := u8 b 0x24
  let r := kvRecOf d.img q
  let kind := if r.format ≤ 2 then 2 else 1
  let blocks := scatterBlocks d x b pages bf16
  let kept := pages.flatMap (fun p =>
    (List.range (min 64 (ptEntry d q (u8 b 0x25) p.1).fill)).flatMap (fun i => slotGranules r p.2 i 0 ++ slotGranules r p.2 i 1))
  let spoiled := (getKv d q).spoiled
  let clean := (scatterGranules d pages b).filter (fun g => !kept.contains g || spoiled.contains g)
  let m0 := cleanGranules clean d.mem
  let m1 := blocks.foldl (fun m k =>
    let at_ := k.1.1
    let half := k.1.2.2.2.1
    let e := pageElem r k.1.2.2.1 k.1.2.1 (32 * k.1.2.2.2.2)
    let n := e / kvBlock r.format
    let sb := at_ + halfScales r half + n * 64
    let m2 := k.2.1.foldl (fun a v => writeBits (at_ + halfData r half) v.off v.width v.bits a) m
    let place := e % kvBlock r.format / 32
    let m3 := writeScale sb place kind n (pageCount m2 sb kind n place) k.2.2.1.bits m2
    if k.2.2.2 then
      poisonGranules (sb / 64 :: granulesOf (at_ + halfData r half + e * kvBits r.format / 8) (4 * kvBits r.format)) m3
    else m3) m0
  countVals u (dPart b) none (blocks.flatMap (fun k => k.2.1))
    (modKv q (fun k => { k with spoiled := k.spoiled.filter (fun g => !clean.contains g) }) { d with mem := m1 })

/-! ### The end of commit -/

/-- What a tile writes and counts by its kind. -/
def commitKind (u : Nat) (x : DescId) (b : Bytes) (t : Tile) (out : CommitData) (d : Dev) : Dev :=
  let c := clusterOf u
  let p := dPart b
  match dKind b with
  | 2 =>
    let vals := poolVals d x b t
    writeOutput u x b vals [] (countVals u p none vals (modUnit u (fun y => { y with poolTiles := y.poolTiles + 1 }) d))
  | 3 =>
    let r := blkRec d.img (dBlock b)
    let o := scanOf d.img r.scan
    let vals := convertAll d x b (outEls d x b t)
    let carry := t.acc.filter (fun e => e.row == o.steps)
    let d1 := writeOutput u x b vals.1 vals.2 (countVals u p (rqOf d.img b) vals.1
      (modUnit u (fun y => { y with scTiles := y.scTiles + 1, scFlags := addW y.scFlags t.mask.length }) d))
    let d2 := storeElems (dBlock b) (dSlice b * o.slice) (carry.map (fun e => (e.value, e.poison))) d1
    applySlice b d2
  | 4 =>
    let a := attnOf d.img (dOp b)
    let d0 := modCluster c (fun k => { k with attTiles := k.attTiles + 1 }) d
    let vals := convertAll d x b (outEls d x b t)
    let d1 := writeOutput u x b vals.1 vals.2 (countVals u p (rqOf d.img b) vals.1 d0)
    let bad := (dedup ((t.acc.filter (fun e => e.poison && decide (e.row < u8 b 0x23))).map (fun e => e.row))).length
    if a.kind = 1 then modCluster c (fun k => { k with attPoisoned := addW k.attPoisoned bad }) d1
    else
      let last := !hasSuccessor (graphBlob d x.graph) b
      let masked := if last then maskedRows a.headDim t.acc else []
      let d2 := if last then modCluster c (fun k => { k with attMasked := addW k.attMasked masked.length, attPoisoned := addW k.attPoisoned bad }) d1 else d1
      if masked != [] || (List.range (u8 b 0x23)).any (rowBlind d b) then record 0x73 (some p) (1, u) d2 else d2
  | 5 =>
    let q := u8 b 0x24
    let d1 := modCluster c (fun k => { k with attScatter := k.attScatter + 1 }) d
    if dEmpty b then d1
    else
      let d2 := scatterCommit u x b t.pages out.bf16 d1
      { d2 with kv := { d2.kv with scattered := d2.kv.scattered ++ [(x, q, u8 b 0x25, scatterFirst d b, u16 b 0x26)] } }
  | _ =>
    if isSearch d.img b then
      match (if t.stale then none else catOfTile d x b) with
      | some r =>
        modCat r.slot (fun k => { k with sweep := k.sweep.map (fun w => { w with done := w.done ++ [tileItems d.img b] }) })
          (modUnit u (fun y => { y with
            lists := ⟨(dropLists r.slot y.lists).cells ++ (t.lists.cells.filter (fun k => k.1 / 64 == r.slot))⟩
            offered := addW y.offered t.offered.1
            kPoisoned := addW y.kPoisoned t.offered.2 }) d)
      | none => d
    else
      let vals := convertAll d x b (outEls d x b t)
      writeOutput u x b vals.1 vals.2 (countVals u p (rqOf d.img b) vals.1 d)

/-- Tier of the request that a descriptor works for. -/
def tierOfDesc (d : Dev) (y : Desc) : Nat := (((ordersOf d y).head?.bind (req? d)).map (fun r => r.tier)).getD 0

/-- A tile's access to samples of a pre-roll tile (R85, R86): denied, waiting for the copy, or answered for that request. -/
inductive PreRead where
  | denied
  | waits
  | given (order : Nat) (samples : List Int)
  deriving DecidableEq, Repr

/-- Samples that tiles of the requests os read: of the pre-roll tile of one of them, within its window (R86); a sample not yet copied
is waited for (R85). -/
def readPreroll (d : Dev) (os : List Nat) (k : Nat × Nat × Int × Nat) : PreRead :=
  match d.reqs.find? (fun r => os.contains r.order && r.tier == k.1 && r.q.arrival == k.2.1 && r.ended.isNone) with
  | none => .denied
  | some r =>
    match r.grant with
    | none => .denied
    | some g =>
      let o := (k.2.2.1 - g.start).toNat
      if k.2.2.1 < g.start ∨ g.size < o + k.2.2.2 then .denied
      else if g.tile.length < o + k.2.2.2 then .waits
      else .given r.order ((g.tile.drop o).take k.2.2.2)

/-- A denied access ends the tile's requests with 0x45 (R86). The tile ends without commit, and nothing of it has taken effect (DESIGN
CHOICE, log 110). -/
def denyTile (u : Nat) (t : Tile) (p : Nat) (d : Dev) : Dev :=
  failDesc t.d 0x45 (clearTile u (record 0x45 (some p) (1, u) (endWork u t d)))

/-- Granules of the output regions of a partition's channels, where record bodies are composed (R364). -/
def inOutput (d : Dev) (p g : Nat) : Bool :=
  (d.img.channels.filter (fun c => c.part == p)).any (fun c => (regionAt d.img (64 * g)).any (fun r => r.id == c.region))

/-- A record that a tile composes is tainted (R298) when the tile has written a poisoned granule of an output region of its partition; one
whose body other tiles have written is as the program finds it, and clean while no granule there is poisoned (DEDUCED, log 153). -/
def taintOf (d : Dev) (y : Desc) (x : OutRec) : OutRec :=
  let bad := d.mem.poison.filter (inOutput d (dPart y.bytes))
  let own := destList d y.id y.bytes
  { x with tainted := bad.any (fun g => own.contains g) || (x.tainted && !bad.isEmpty) }

/-- What a tile thread's program composed at the commit: records, wakes of a Point graph (R68), its last record (R73). -/
def emitAll (y : Desc) (out : CommitData) (d : Dev) : Dev :=
  let os := (ordersOf d y).filter (openReq d)
  let d1 := match os.head? with
    | some o => out.recs.foldl (fun e r => composeRec o (taintOf d y r) e) d
    | none => d
  let point := tierOfDesc d y == 2
  let d2 := out.wakes.foldl (fun e w => if point && w.wf && w.source == 2 && w.target == 3 then wake w e else e) d1
  if out.last then os.foldl (fun e o => if hasQueries e o then e else finishReq o e) d2 else d2

/-- The catalogue that a tile enrols into and the item: of its own partition alone (R197). -/
def enrolling (d : Dev) (b : Bytes) (out : CommitData) : Option (CatRec × Bytes) :=
  match out.enrol with
  | some (slot, item) => ((catRec? d.img (slot % 8)).filter (fun r => r.part == dPart b)).map (fun r => (r, item))
  | none => none

/-- The tile's enrolment finds its catalogue full: the tile writes nothing (R197). -/
def enrolsFull (d : Dev) (b : Bytes) (out : CommitData) : Bool := (enrolling d b out).any (fun e => decide (e.1.capacity ≤ (getCat d e.1.slot).count))

/-- Array cycles from a tile's first ramp-up cycle to the end of its commit (R315): what its unit has counted of it, and the commit; of
a tile that a hard stop has held, at least those, since the hold counts in none. -/
def tileCycles (t : Tile) (commit measured : Nat) : Nat := max t.charged (max (t.spent + commit) (if t.halted then measured else 0))

/-- The commit of a tile: its effects become visible in one step, its barrier is signalled, the unit is free. -/
def commitTile (u : Nat) (t : Tile) (y : Desc) (out : CommitData) (d : Dev) : Dev :=
  let b := y.bytes
  let os := ordersOf d y
  let cyc := commitCycles d t.d b t.pages
  let lay := layerOf d t.d b
  let d1 := if enrolsFull d b out then d else touchGranules (tileWrites d u t.d t.pages b) true (commitKind u t.d b t out d)
  let d2 := modUnit u (fun x => { x with tiles := x.tiles + 1, commit := addW x.commit cyc }) d1
  let total := tileCycles t cyc out.cycles
  let d3 := endWait u (min out.waited total) d2
  let d4 := chargeTile u (dPart b) (total - t.charged) d3
  let d5 := match enrolling d4 b out with | some (r, item) => enrol r.slot item (os.filter (openReq d4)) d4 | none => d4
  let d6 := emitAll y out d5
  let d7 := if dKind b = 4 then modInst t.d.graph t.d.inst (fun i => { i with chains := (i.chains.filter (fun k => k.1 != dOut b)) ++ [(dOut b, u)] }) d6
    else d6
  let d8 := windowStall t.d lay (retire t.d (signalOwn t.d b (clearTile u d7)))
  settlePreempt (pump d8)

/-- Commit ends, once the samples that the tile reads of a pre-roll tile have been copied (R85). A write of what its partition does
not own is discarded, and the core muzzled, as it is where a scatter tile's maps are not its partition's (R19, R258, R324). -/
def commitEnd (u : Nat) (out : CommitData) (d : Dev) : Dev :=
  match tileOf d u with
  | none => d
  | some t =>
    match desc? d t.d with
    | none => d
    | some y =>
      let b := y.bytes
      if !live d || !t.committing || t.stopped || ((dKind b == 4 || dKind b == 5) && isMuzzled d (0x28 + clusterOf u)) then d
      else match scatterBreach d t.d b out.bf16 with
      | some a => muzzle u (dPart b) 0x40 (some a) false d
      | none => match writeBreach d u t.d t.pages b with
      | some a => badWrite u (dPart b) a d
      | none => match out.preroll.map (readPreroll d (ordersOf d y)) with
        | none => commitTile u t y out d
        | some .waits => d
        | some .denied => settlePreempt (denyTile u t (dPart b) d)
        | some (.given o l) => commitTile u t y out (modReq o (fun r => { r with samples := l }) d)

/-- TILE_COMMIT_END (R151). -/
def execTileCommitEnd (unit : Fin 28) (out : CommitData) (s : State) : Result := devStep (commitEnd unit.val out) s

end Sys2Proof.Machine
end

