-- ==== Sys2Proof/Machine/Camera.lean ====
section
/-! DEFINITION. Camera intake, the image pipeline's conversion and frame descriptors, thumbnails, and sensor control (R112 to R135,
R181, R365, R480, R481). -/

namespace Sys2Proof.Machine

/-! ### Lookups -/

/-- The full receiver of a port is powered and configured (R112, R135). -/
def rxOn (d : Dev) (port vc : Nat) : Bool :=
  live d && d.power.isp && d.img.rxPorts.any (fun r => r.port == port && (bit r.flags 0 || decide (vc < 4)))

/-- Streams of a port and virtual channel, in record order. -/
def streamsOn (img : Image) (port vc : Nat) : List CamRec := img.cams.filter (fun r => r.port == port && r.vc == vc)

/-- Bits of a pixel of a data type on the link: RAW8 to RAW14, YUV422. -/
def pixelBits (dt : Nat) : Nat :=
  if dt = 0x2A then 8 else if dt = 0x2B then 10 else if dt = 0x2C then 12 else if dt = 0x2D then 14 else 16

/-- A RAW data type. -/
def isRaw (dt : Nat) : Bool := dt == 0x2A || dt == 0x2B || dt == 0x2C || dt == 0x2D

/-- A long packet of Table 5.1. -/
def supportedLong (dt : Nat) : Bool := isRaw dt || dt == 0x1E || dt == 0x12

/-- Declared length of a line in bytes. -/
def lineBytes (r : CamRec) : Nat := ceilDiv (r.width * pixelBits r.dt) 8

/-- Key of a port and virtual channel. -/
def rxKey (port vc : Nat) : Nat := port * 16 + vc

/-- CSI-2 frame in reception. -/
def csiFrame (d : Dev) (port vc : Nat) : Option CsiFrame := tabGet? d.cam.rx (rxKey port vc)

/-- Put the CSI-2 frame in reception. -/
def putCsi (port vc : Nat) (c : CsiFrame) (d : Dev) : Dev := modCam (fun x => { x with rx := tabSet x.rx (rxKey port vc) c }) d

/-! ### The controller ports (R130, R131) -/

/-- Issue operations on the controller ports. -/
def issue (ops : List BusOp) (d : Dev) : Dev := modCam (fun c => { c with issued := c.issued ++ ops }) d

/-- A command that may issue operations begins. -/
def freshBus (d : Dev) : Dev := modCam (fun c => { c with issued := [] }) d

/-! ### Raw frames in memory (R23, R124) -/

/-- Bytes between the lines of a raw frame in its buffer: whole granules. The layout of a raw buffer is the model's (DESIGN CHOICE, log
116): line l of buffer b at (b × height + l) times this, and the reference after the last buffer. -/
def lineStride (r : CamRec) : Nat := ceilDiv (lineBytes r) 64 * 64

/-- Place of a line of buffer b, where the region holds it. -/
def linePlace (d : Dev) (r : CamRec) (b l : Nat) : Option Nat :=
  let off := (b * r.height + l) * lineStride r
  match region? d.img r.region with
  | some g => if off + lineStride r ≤ g.pages * 4096 then some (g.base + off) else none
  | none => none

/-- Write a line with its poison at a place. -/
def storeLine (a : Nat) (r : CamRec) (l : Bytes × List Nat) (d : Dev) : Dev :=
  let e := remoteStore a (fit (lineStride r) l.1) d
  { e with mem := poisonGranules (l.2.map (fun g => a / 64 + g)) e.mem }

/-- Add lines to a frame: a pipe-1 frame's go to its raw buffer. -/
def addLines (r : CamRec) (ls : List (Bytes × List Nat)) (f : RawFrame) (d : Dev) : RawFrame × Dev :=
  ls.foldl (fun x l =>
    let n := x.1.lines.length
    match (if r.pipe = 1 then linePlace x.2 r f.buf n else none) with
    | some a => ({ x.1 with lines := x.1.lines ++ [([], l.2)] }, storeLine a r l x.2)
    | none => ({ x.1 with lines := x.1.lines ++ [l] }, x.2)) (f, d)

/-- The granules of n bytes at a place that are poisoned, counted from it. -/
def poisonIn (d : Dev) (a n : Nat) : List Nat := (List.range (ceilDiv n 64)).filter (fun g => poisonedAt d.mem (a + 64 * g))

/-- A line as its pipe reads it: bytes and poisoned granules. -/
def rawLine (d : Dev) (r : CamRec) (f : RawFrame) (l : Nat) : Bytes × List Nat :=
  match (if r.pipe = 1 then linePlace d r f.buf l else none) with
  | some a => (memRead d.mem a (lineBytes r), poisonIn d a (lineBytes r))
  | none => f.lines.getD l ([], [])

/-- The raw frame as its pipe reads it. -/
def rawFrame (d : Dev) (r : CamRec) (f : RawFrame) : List (Bytes × List Nat) := (List.range r.height).map (rawLine d r f)

/-! ### Headers (R113) -/

/-- A packet header's check: whether the packet is used. A natural error keeps an injection armed (R446). -/
def header (port : Nat) (ecc : Ecc) (d : Dev) : Bool × Dev :=
  let corr (e : Dev) : Dev := modCamPort port (fun p => { p with eccCorr := p.eccCorr + 1 }) e
  let drop (inj : Bool) (e : Dev) : Dev := recordAt 0x50 none (0, 0) none inj (modCamPort port (fun p => { p with eccDrop := p.eccDrop + 1 }) e)
  match ecc, armedOn d 9 port with
  | .corrected, _ => (true, corr d)
  | .bad, _ => (false, drop false d)
  | .ok, some 0 => (true, corr (fired d))
  | .ok, some _ => (false, drop true (fired d))
  | .ok, none => (true, d)

/-! ### Sensor settings (R131 to R133) -/

/-- Settings in effect for a frame (R133). -/
def settingsOf (d : Dev) (r : CamRec) (frame : Nat) : Nat :=
  match (getSensor d r.sensor).applied.find? (fun a => decide (a.1 ≤ frame)) with
  | some a => a.2
  | none => 0

/-- Write that transfer k of a block makes: hold_on, the entries in order, hold_off; a NACK is followed by hold_off. -/
def blockWrite (r : SensorRec) (b : SetBlock) (k : Nat) (nacked : Bool) : BusOp :=
  if nacked then .write r.port r.dynAddr r.holdReg r.holdOff
  else if k = 0 then .write r.port r.dynAddr r.holdReg r.holdOn
  else if k ≤ b.entries.length then .write r.port r.dynAddr (b.entries.getD (k - 1) (0, 0)).1 (b.entries.getD (k - 1) (0, 0)).2
  else .write r.port r.dynAddr r.holdReg r.holdOff

/-- Issue a write of a block. -/
def issueBlock (n : Nat) (b : SetBlock) (k : Nat) (nacked : Bool) (d : Dev) : Dev :=
  issue [blockWrite (getSensor d n).cfg b k nacked] d

/-- Table entry of a sensor. -/
def sensorOf (img : Image) (n : Nat) : SensorRec := (img.sensors.find? (fun r => r.sensor == n)).getD {}

/-- A frame end of the sensor's stream is received: a block that waits starts unless one is in progress (R131). -/
def startBlock (r : CamRec) (d : Dev) : Dev :=
  let s := getSensor d r.sensor
  match s.waiting, s.cur with
  | some b, none =>
    if s.held.isSome then d
    else issueBlock r.sensor b 0 false (modSensor r.sensor (fun x => { x with
        waiting := none, cfg := sensorOf d.img r.sensor, cur := some (b, 0, (getStream d r.stream).frame, false) }) d)
  | _, _ => d

/-! ### Opening and closing frames (R114 to R118, R124) -/

/-- The stream's frame or sample accounting is frozen (R333), or its channel muzzled (R324): its frames are received, numbered and counted
as dropped (R334). -/
def streamFrozen (d : Dev) (s : Nat) : Bool := frozen d 5 s || frozen d 6 s || isMuzzled d (0x40 + s)

/-- Number the next frame of a stream (R116 to R118): the stream's new entry, whether the frame follows a join, and a gap. -/
def numberFrame (r : CamRec) (fn : Nat) (s : CamStream) : CamStream × Bool × Bool :=
  let joined := s.state != 1
  let a := if r.fnMode = 1 ∧ joined = false then (fn + r.fnWrap - s.prevFn % r.fnWrap) % r.fnWrap else 1
  let step := if a = 0 then 1 else a
  let gaps := if a = 0 then 1 else a - 1
  ({ s with state := 1, joins := if joined then satAdd 255 s.joins 1 else s.joins,
            frame := if s.seen then (s.frame + step) % 2 ^ 48 else 0, seen := true, prevFn := fn,
            gaps := if s.seen then addW s.gaps gaps else s.gaps },
    joined, s.seen && decide (1 < step))

/-- Frames of a stream that hold a raw buffer (R124). -/
def buffersHeld (c : Camera) (s : Nat) : Nat :=
  (c.queue.filter (fun f => f.stream == s)).length + (c.pipe1.toList.filter (fun f => f.stream == s)).length + (tabGet c.streams s {}).heldBufs

/-- What a CSI-2 frame start finds for a pipe-1 stream (R124): none with a buffer free, else the oldest complete frame, whose buffer the
incoming frame reuses, or no frame. Whether a frame of the stream opens shows only later, so pipe 1 waits at that oldest frame until
then (DEDUCED, log 117). -/
def claimOf (d : Dev) (r : CamRec) : Option (Nat × Option Nat) :=
  if r.pipe = 1 ∧ r.rawBuffers ≤ buffersHeld d.cam r.stream then
    some (r.stream, (d.cam.queue.find? (fun f => f.stream == r.stream)).map (fun f => f.number))
  else none

/-- A complete frame that gives way if a frame of its stream opens. -/
def claimed (d : Dev) (f : RawFrame) : Bool := d.cam.rx.cells.any (fun c => c.2.claims.contains (f.stream, some f.number))

/-- Lowest raw buffer of a stream that no frame holds. -/
def freeBuffer (c : Camera) (s : Nat) : Nat :=
  ((List.range 4).find? (fun b => !(c.queue ++ c.pipe1.toList).any (fun f => f.stream == s && f.buf == b))).getD 0

/-- A raw buffer and a numbered frame are returned to their pools; a frozen pool's checker holds the buffer (R333). -/
def returnFrame (s : Nat) (pipe1 : Bool) (d : Dev) : Dev :=
  let p := (streamOwner d.img s).getD 0
  let d1 := if pipe1 then (if frozen d 5 s then modStream s (fun x => { x with heldBufs := x.heldBufs + 1 }) d else tap 5 s 1 p d) else d
  tap 6 s 1 p d1

/-- A frame opens at the first long packet of its data type (R115, R124). What its frame start found is settled there; a frame that
opens again in the same CSI-2 frame, after its stream became idle, finds what is there now (DESIGN CHOICE, log 128). -/
def openFrame (r : CamRec) (c : CsiFrame) (d : Dev) : Dev :=
  let k := numberFrame r c.fn (getStream d r.stream)
  let p := (streamOwner d.img r.stream).getD 0
  let ice := streamFrozen d r.stream
  let d1 := tap 6 r.stream 0 p (modStream r.stream (fun _ => k.1) d)
  let claim := if ice then none
    else if c.opened.contains r.stream then claimOf d1 r
    else c.claims.find? (fun k => k.1 == r.stream)
  let old := (claim.bind (fun k => k.2)).bind (fun n => d1.cam.queue.find? (fun f => f.stream == r.stream && f.number == n))
  let d2 := if ice then modStream r.stream (fun s => { s with dropped := s.dropped + 1 }) d1
    else if claim.isSome then
      returnFrame r.stream old.isSome (dropFrame r.stream (modCam (fun x => { x with queue := x.queue.filter (fun g => some g != old) }) d1))
    else d1
  let lost := ice || (claim.isSome && old.isNone)
  let d3 := if r.pipe = 1 ∧ lost = false then tap 5 r.stream 0 p d2 else d2
  let f : RawFrame := { stream := r.stream, number := k.1.frame, sensorFn := c.fn, joined := k.2.1, gap := k.2.2,
                        buf := (old.map (fun o => o.buf)).getD (freeBuffer d3.cam r.stream), embedded := c.embedded, dropped := lost }
  modStream r.stream (fun s => { s with openFrame := some f }) d3

/-- Granules of a line of n bytes. -/
def lineGranules (n : Nat) : List Nat := List.range (ceilDiv n 64)

/-- A line that is missing: padding, poisoned whole. -/
def missingLine (r : CamRec) : Bytes × List Nat := (zeros (lineBytes r), lineGranules (lineBytes r))

/-- A line as kept: cut or padded to length, the missing granules poisoned, all of them when its CRC failed (R113, R114). The padding is
zeros (DESIGN CHOICE, log 129). -/
def keptLine (r : CamRec) (bytes : Bytes) (crcOk : Bool) : Bytes × List Nat :=
  let n := lineBytes r
  (fit n bytes, (lineGranules n).filter (fun g => !crcOk || decide (bytes.length / 64 ≤ g ∧ bytes.length < n)))

/-- The open frame of a stream closes (R114): missing lines are poisoned; it goes to its pipe. -/
def closeFrame (r : CamRec) (d : Dev) : Dev :=
  match (getStream d r.stream).openFrame with
  | none => d
  | some f =>
    let d1 := modStream r.stream (fun s => { s with openFrame := none }) d
    if f.dropped then d1
    else
      let gone := r.height - f.lines.length
      let missing := f.missing + gone
      let held := d1.cam.places - (d1.cam.pipe0.map (fun x => x.left)).sum
      let x := addLines r (List.replicate gone (missingLine r)) { f with missing := missing, truncated := decide (0 < missing), left := held } d1
      let g := x.1
      let d2 := if missing = 0 then x.2
        else record 0x52 (streamOwner d.img r.stream) (3, r.stream) (modStream r.stream (fun s => { s with trunc := s.trunc + 1 }) x.2)
      if r.pipe = 0 then modCam (fun c => { c with pipe0 := c.pipe0 ++ [g] }) d2
      else modCam (fun c => { c with queue := c.queue ++ [g] }) d2

/-- A CSI-2 frame closes (R115): every open frame of it closes, and one that matched no record is counted. -/
def closeCsi (port vc : Nat) (d : Dev) : Dev :=
  match csiFrame d port vc with
  | none => d
  | some c =>
    let d1 := (streamsOn d.img port vc).foldl (fun e r => settleHeld r (closeFrame r e)) d
    let d2 := modCam (fun x => { x with rx := tabDrop x.rx (rxKey port vc) }) d1
    if c.matched then d2 else info 0x5B (modCamPort port (fun p => { p with unmatched := p.unmatched + 1 }) d2)

/-- A line packet of a stream of the full receiver. A packet that comes after the stream became idle with its frame open opens another
frame of it (DESIGN CHOICE, log 128). -/
def lineArrives (r : CamRec) (c : CsiFrame) (port vc : Nat) (bytes : Bytes) (crcOk : Bool) (d : Dev) : Dev :=
  let c1 := { c with matched := true }
  if r.pipe = 2 then putCsi port vc c1 d
  else
    let fresh := (getStream d r.stream).openFrame.isNone
    let d1 := putCsi port vc { c1 with opened := if fresh then c1.opened ++ [r.stream] else c1.opened } d
    let d2 := if fresh then settleHeld r (openFrame r c1 d1) else d1
    let f := ((getStream d2 r.stream).openFrame.getD {})
    let f1 := { f with crcError := f.crcError || !crcOk }
    let f2 := { f1 with flawed := f1.flawed || !crcOk || decide (bytes.length < lineBytes r) }
    let put (x : RawFrame × Dev) : Dev := modStream r.stream (fun s => { s with openFrame := some x.1 }) x.2
    if f.dropped || decide (r.height ≤ f.lines.length) then put (f1, d2)
    else if r.pipe = 0 ∧ 2 ≤ d2.cam.places then put (addLines r [missingLine r] { f1 with missing := f1.missing + 1 } d2)
    else
      let d3 := if r.pipe = 0 then modCam (fun x => { x with places := x.places + 1 }) d2 else d2
      put (addLines r [keptLine r bytes crcOk] f2 d3)

/-- A long packet arrives (R112, R113, R115). -/
def longPacket (port vc dtype : Nat) (bytes : Bytes) (crcOk : Bool) (d : Dev) : Dev :=
  if !supportedLong dtype then info 0x5B (modCamPort port (fun p => { p with unmatched := p.unmatched + 1 }) d)
  else
    let d1 := if crcOk then d else info 0x51 (modCamPort port (fun p => { p with crcErr := p.crcErr + 1 }) d)
    match csiFrame d1 port vc with
    | none => d1
    | some c =>
      if c.lost then d1
      else if dtype = 0x12 then
        let more := some (c.embedded.getD [] ++ bytes)
        let d2 := putCsi port vc { c with embedded := more } d1
        (streamsOn d.img port vc).foldl (fun e r => modStream r.stream (fun s =>
          { s with openFrame := s.openFrame.map (fun f => { f with embedded := more }) }) e) d2
      else match (streamsOn d.img port vc).find? (fun r => r.dt == dtype) with
        | some r => lineArrives r c port vc bytes crcOk d1
        | none => d1

/-- A frame start is lost (R113): packets up to the next one belong to no frame, even while an earlier CSI-2 frame has not ended. -/
def loseStart (port vc : Nat) (d : Dev) : Dev :=
  match csiFrame d port vc with
  | some c => putCsi port vc { c with lost := true } d
  | none => d

/-- CSI2_FRAME_START (R115): fn is the frame number field, 0 when not sent. -/
def execCsi2FrameStart (port : Fin 4) (vc : Fin 16) (fn : Nat) (ecc : Ecc) (s : State) : Result :=
  unlessWf (.csi2FrameStart port vc fn ecc) s (devStep (fun d =>
    if rxOn d port.val vc.val then
      let h := header port.val ecc d
      if h.1 then
        let d1 := closeCsi port.val vc.val h.2
        putCsi port.val vc.val { fn := fn, claims := (streamsOn d1.img port.val vc.val).filterMap (claimOf d1) } d1
      else loseStart port.val vc.val h.2
    else d) s)

/-- CSI2_LONG_PACKET (R113). -/
def execCsi2LongPacket (port : Fin 4) (vc : Fin 16) (dtype : Nat) (bytes : Bytes) (crcOk : Bool) (ecc : Ecc) (s : State) : Result :=
  devStep (fun d =>
    if rxOn d port.val vc.val then
      let h := header port.val ecc d
      if h.1 then longPacket port.val vc.val dtype bytes crcOk h.2 else h.2
    else d) s

/-- CSI2_FRAME_END (R114): blocks that wait on a stream whose frame ends start (R131). After a lost frame start it ends the CSI-2 frame
that is still open (DESIGN CHOICE, log 130). -/
def execCsi2FrameEnd (port : Fin 4) (vc : Fin 16) (ecc : Ecc) (s : State) : Result :=
  devStep (fun d =>
    if rxOn d port.val vc.val then
      let h := header port.val ecc d
      if h.1 then
        let ended := (streamsOn h.2.img port.val vc.val).filter (fun r => (getStream h.2 r.stream).openFrame.isSome)
        ended.foldl (fun e r => startBlock r e) (freshBus (closeCsi port.val vc.val h.2))
      else h.2
    else d) s

/-- STREAM_IDLE (R116). -/
def execStreamIdle (stream : Fin 48) (s : State) : Result :=
  devStep (fun d =>
    match camRec? d.img stream.val with
    | none => d
    | some r =>
      if (getStream d stream.val).state = 1 then
        record 0x5C (streamOwner d.img stream.val) (3, stream.val)
          (modStream stream.val (fun x => { x with state := 2, leaves := satAdd 255 x.leaves 1 }) (closeFrame r d))
      else d) s

/-! ### Output (R125 to R129, R181, R365, R480, R481) -/

/-- Byte offsets in a line of the bytes that hold pixel x, in the packing of CSI-2 (PRESUMED, log 118). -/
def pixelBytes (dt x : Nat) : List Nat :=
  if dt = 0x2A then [x]
  else if dt = 0x2B then [x / 4 * 5 + x % 4, x / 4 * 5 + 4]
  else if dt = 0x2C then [x / 2 * 3 + x % 2, x / 2 * 3 + 2]
  else if dt = 0x2D then [x / 4 * 7 + x % 4, x / 4 * 7 + 4 + x % 4 * 6 / 8, x / 4 * 7 + 4 + (x % 4 * 6 + 5) / 8]
  else [x / 2 * 4, x / 2 * 4 + 1 + x % 2 * 2, x / 2 * 4 + 2]

/-- Columns and rows of the red, green and blue pixels of a Bayer quad, in the plane order of raw4: R, Gr, Gb, B (R125). -/
def bayerAt (d : Dev) (r : CamRec) (plane : Nat) : Nat × Nat :=
  let b := Config.bayer (blobBytes d r.tuning)
  ((b + plane % 2) % 2, (b / 2 + plane / 2) % 2)

/-- What scaling a frame to its output starts from. -/
structure RawSource where
  /-- lines of the raw frame with their poison -/
  lines : List (Bytes × List Nat) := []
  /-- the crop, in pixels of the planes: x, y, width, height -/
  crop : Nat × Nat × Nat × Nat := (0, 0, 0, 0)

/-- The source of a frame; raw4 works on half-resolution planes (R125). -/
def sourceOf (d : Dev) (r : CamRec) (o : TensorOut) (g : RawFrame) : RawSource :=
  let h := if o.format = 2 then 2 else 1
  { lines := rawFrame d r g, crop := (o.cropX / h, o.cropY / h, o.cropW / h, o.cropH / h) }

/-- Red, green or blue of a YUV422 pixel by the matrix of ITU-R BT.601, whose coefficients are PRESUMED (log 131): the exact value of
full-range or of studio-range samples, brought to a neighbouring integer and limited to 8 bits. Range and rounding are free values. -/
def bt601 (plane y u v : Nat) : Nat :=
  let t := Config.bt601Studio
  let y1 : Int := if t then ((y : Int) - 16) * 255 * 224 else y
  let u1 : Int := if t then ((u : Int) - 128) * 255 * 219 else (u : Int) - 128
  let v1 : Int := if t then ((v : Int) - 128) * 255 * 219 else (v : Int) - 128
  let num : Int :=
    if plane = 0 then 587000 * y1 + 822974 * v1
    else if plane = 1 then 587000 * y1 - 202008 * u1 - 419198 * v1
    else 587000 * y1 + 1040164 * u1
  let den : Int := if t then 587000 * (219 * 224) else 587000
  let up : Int := if num % den != 0 && Config.bt601Up plane y u v then 1 else 0
  (clampInt 0 255 (num / den + up)).toNat

/-- Value of pixel (x, y) of plane c before step 7: of a YUV422 input its luma or RGB; of a RAW input the value after step 3 for raw4,
else after step 6 (R121). -/
def planeValue (d : Dev) (r : CamRec) (o : TensorOut) (f : IspFrame) (s : RawSource) (c y x : Nat) : Nat :=
  if isRaw r.dt then
    if o.format = 2 then
      let k := bayerAt d r c
      min (2 ^ pixelBits r.dt - 1) (f.mosaic.getD ((2 * y + k.2) * r.width + 2 * x + k.1) 0)
    else min 255 (f.pixels.getD ((c * r.height + y) * r.width + x) 0)
  else
    let b := (s.lines.getD y ([], [])).1
    let q := x / 2 * 4
    let luma := u8 b (q + 1 + x % 2 * 2)
    if o.format = 1 then luma else bt601 c luma (u8 b q) (u8 b (q + 2))

/-- Input pixels that an output pixel reads along an axis of m pixels scaled to n (R480, step 7): its own where the axis is not scaled,
else two neighbours; where they begin is open (free value, log 119). -/
def scaleTaps (m n i : Nat) : List Nat :=
  if m = n then [i]
  else
    let j := min (m - 1) (i * m / n + Config.scaleShift m n i % (m / max 1 n + 1))
    if j + 1 < m then [j, j + 1] else [j]

/-- Input pixels, row and column, that an output pixel reads. -/
def tapsOf (o : TensorOut) (s : RawSource) (y x : Nat) : List (Nat × Nat) :=
  (scaleTaps s.crop.2.2.2 o.outH y).flatMap (fun j => (scaleTaps s.crop.2.2.1 o.outW x).map (fun i => (s.crop.2.1 + j, s.crop.1 + i)))

/-- Bilinear scaling of a neighbourhood: between its least and its greatest value. -/
def scaled (o : TensorOut) (s : RawSource) (y x : Nat) (vs : List Nat) : Nat :=
  match vs with
  | [v] => v
  | _ => max (vs.foldl min (vs.headD 0)) (min (vs.foldl max 0)
      (Config.bilinear s.crop.2.2.1 s.crop.2.2.2 o.outW o.outH x y vs))

/-- Channel values of a frame's output before R126, in plane, row, column order. -/
def outValues (d : Dev) (r : CamRec) (o : TensorOut) (g : RawFrame) (f : IspFrame) : List Nat :=
  let s := sourceOf d r o g
  (List.range (planesOf o)).flatMap (fun c => (List.range o.outH).flatMap (fun y => (List.range o.outW).map (fun x =>
    scaled o s y x ((tapsOf o s y x).map (fun p => planeValue d r o f s c p.1 p.2)))))

/-- Conversion of a channel value (R126): q and whether it saturated. A raw4 value is first reduced to 8 bits. -/
def convertPixel (r : CamRec) (o : TensorOut) (c v : Nat) : Int × Bool :=
  let p : Int := if o.format = 2 then min 255 (roundHalfEven v (2 ^ (pixelBits r.dt - 8))) else (v : Int)
  let q := roundHalfEven ((p - (o.mean / 256 ^ c % 256 : Nat)) * (o.scale / 65536 ^ c % 65536 : Nat)) 16384
  let k := clampInt (-128) 127 q
  (k, k != q)

/-- Converted values of a frame's output with what saturated. -/
def outPixels (r : CamRec) (o : TensorOut) (vs : List Nat) : List (Int × Bool) :=
  vs.zipIdx.map (fun v => convertPixel r o (v.2 / (o.outW * o.outH)) v.1)

/-- Bytes of the tiles in the order of R125. -/
def tilesOf (o : TensorOut) (qs : List (Int × Bool)) : Bytes :=
  (List.range (ceilDiv o.outH 32)).flatMap (fun ty => (List.range (ceilDiv o.outW 32)).flatMap (fun tx =>
    (List.range (planesOf o)).flatMap (fun c => (List.range 1024).map (fun i =>
      let y := ty * 32 + i / 32
      let x := tx * 32 + i % 32
      if y < o.outH ∧ x < o.outW then BitVec.ofInt 8 (qs.getD ((c * o.outH + y) * o.outW + x) (0, false)).1 else BitVec.ofNat 8 o.pad))))

/-! ### Poison through the pipeline (R480) -/

/-- Some of these bytes of a line lie in poisoned granules. -/
def bytesBad (l : Bytes × List Nat) (bs : List Nat) : Bool := bs.any (fun b => l.2.contains (b / 64))

/-- Some raw pixel within 3 lines and 3 columns of this one is poisoned. -/
def rawBad (r : CamRec) (s : RawSource) (cy cx : Nat) : Bool :=
  (List.range 7).any (fun i =>
    let l := s.lines.getD (cy + i - 3) ([], [])
    !l.2.isEmpty && decide (3 ≤ cy + i) && (List.range 7).any (fun j =>
      decide (3 ≤ cx + j) && decide (cx + j < r.width + 3) && bytesBad l (pixelBytes r.dt (cx + j - 3))))

/-- Input pixel (x, y) of plane c carries poison: of a RAW frame when its raw pixel or a neighbour does; of a YUV422 frame when its own
bytes do. -/
def inputBad (d : Dev) (r : CamRec) (o : TensorOut) (s : RawSource) (c y x : Nat) : Bool :=
  if isRaw r.dt then
    let k := if o.format = 2 then bayerAt d r c else (0, 0)
    let m := if o.format = 2 then 2 else 1
    rawBad r s (m * y + k.2) (m * x + k.1)
  else
    let b := pixelBytes r.dt x
    bytesBad (s.lines.getD y ([], [])) (if o.format = 1 then (b.drop 1).take 1 else b)

/-- Poisoned 64-byte granules of a frame's tiles: those with a poisoned pixel. -/
def badGranules (d : Dev) (r : CamRec) (o : TensorOut) (g : RawFrame) : List Nat :=
  let s := sourceOf d r o g
  if s.lines.all (fun l => l.2.isEmpty) then []
  else (List.range (tileBytes o / 64)).filter (fun k =>
    let t := k / 16 / planesOf o
    (List.range 64).any (fun i =>
      let y := t / ceilDiv o.outW 32 * 32 + k % 16 * 2 + i / 32
      let x := t % ceilDiv o.outW 32 * 32 + i % 32
      decide (y < o.outH) && decide (x < o.outW) &&
        (tapsOf o s y x).any (fun p => inputBad d r o s (k / 16 % planesOf o) p.1 p.2)))

/-! ### Temporal noise reduction (R122) -/

/-- Place of a line of a stream's reference frame. -/
def refPlace (d : Dev) (r : CamRec) (l : Nat) : Option Nat := linePlace d r r.rawBuffers l

/-- Poisoned granules of a line of the reference; what its region does not hold counts as clean. -/
def refPoison (d : Dev) (r : CamRec) (l : Nat) : List Nat := ((refPlace d r l).map (fun a => poisonIn d a (lineBytes r))).getD []

/-- The frame is the one after the reference, and no join lies between. -/
def mayBlend (d : Dev) (r : CamRec) (g : RawFrame) : Bool :=
  isRaw r.dt && !g.joined && (getStream d r.stream).ref == some ((g.number + 2 ^ 48 - 1) % 2 ^ 48)

/-- Some blending takes place: some granule of the reference is not poisoned. -/
def blends (d : Dev) (r : CamRec) (g : RawFrame) : Bool :=
  mayBlend d r g && (List.range r.height).any (fun l => (lineGranules (lineBytes r)).any (fun k => !(refPoison d r l).contains k))

/-- A line of the new reference: what step 1 made of it, with the current pixels where the reference was poisoned; its poison is the
current line's (DEDUCED, log 123). -/
def refLine (d : Dev) (r : CamRec) (g : RawFrame) (f : IspFrame) (l : Nat) : Bytes × List Nat :=
  let cur := rawLine d r g l
  let old := if mayBlend d r g then refPoison d r l else []
  let new := f.reference.getD l []
  ((List.range (lineBytes r)).map (fun i => if old.contains (i / 64) then cur.1.getD i 0 else new.getD i 0), cur.2)

/-- The frame becomes the stream's reference. -/
def writeReference (r : CamRec) (g : RawFrame) (f : IspFrame) (d : Dev) : Dev :=
  if isRaw r.dt then
    let e := (List.range r.height).foldl (fun e l =>
      match refPlace d r l with
      | some a => storeLine a r (refLine d r g f l) e
      | none => e) d
    modStream r.stream (fun s => { s with ref := some g.number }) e
  else modStream r.stream (fun s => { s with ref := none }) d

/-! ### Statistics and descriptors -/

/-- Pixels of a plane that saturated. -/
def clippedIn (o : TensorOut) (qs : List (Int × Bool)) (c : Nat) : Nat :=
  (((qs.drop (c * (o.outW * o.outH))).take (o.outW * o.outH)).filter (fun q => q.2)).length

/-- Clip statistics of a stream (R181). -/
def clipFrame (r : CamRec) (o : TensorOut) (qs : List (Int × Bool)) (d : Dev) : Dev :=
  match d.img.clipStats.find? (fun k => k.stream == r.stream) with
  | none => d
  | some k =>
    let base := regionBase d.img k.region + k.offset
    countRemote base 2 { d with mem := (List.range (planesOf o)).foldl (fun m c =>
        statAdd (base + c * 8 + 4) (o.outW * o.outH) (statAdd (base + c * 8) (clippedIn o qs c) m)) d.mem }

/-- Add to a counter of a list. -/
def bump (i n : Nat) (l : List Nat) : List Nat := l.modify i (fun v => v + n)

/-- Zone of a pixel in the 16 × 16 grid of a frame (equal parts: DEDUCED, log 120). -/
def zoneOf (r : CamRec) (y x : Nat) : Nat := y * 16 / r.height * 16 + x * 16 / r.width

/-- The raw values after step 3 with the plane and the zone of each. -/
def mosaicOf (d : Dev) (r : CamRec) (f : IspFrame) : List (Nat × Nat × Nat) :=
  (List.range (r.width * r.height)).filterMap (fun i =>
    let y := i / r.width
    let x := i % r.width
    ((List.range 4).find? (fun c => bayerAt d r c == (x % 2, y % 2))).map (fun c =>
      (c, zoneOf r y x, min (2 ^ pixelBits r.dt - 1) (f.mosaic.getD i 0))))

/-- Histogram of the 8-bit green values (R129); the reduction to 8 bits is R126's (DEDUCED, log 120). -/
def histogram (r : CamRec) (m : List (Nat × Nat × Nat)) : List Nat :=
  m.foldl (fun h v => if v.1 = 1 ∨ v.1 = 2 then bump (min 255 (roundHalfEven v.2.2 (2 ^ (pixelBits r.dt - 8))).toNat) 1 h else h)
    (List.replicate 256 0)

/-- Sums of R, G and B by zone, without the values within 2 % of full scale (R129). -/
def whiteBalance (r : CamRec) (m : List (Nat × Nat × Nat)) : List Nat :=
  let full := 2 ^ pixelBits r.dt - 1
  m.foldl (fun h v => if 50 * (full - v.2.2) ≤ full then h else bump (3 * v.2.1 + (v.1 + 1) / 2) v.2.2 h) (List.replicate 768 0)

/-- Sums of the absolute Laplacian by zone (R129). -/
def sharpness (r : CamRec) (f : IspFrame) : List Nat :=
  (List.range (r.width * r.height)).foldl (fun h i => bump (zoneOf r (i / r.width) (i % r.width)) (f.laplacian.getD i 0) h) (List.replicate 256 0)

/-- Statistics block of a RAW stream (R129, Table 5.4). -/
def statsBlock (d : Dev) (r : CamRec) (number settings : Nat) (f : IspFrame) : Bytes :=
  let m := mosaicOf d r f
  le 8 number ++ le 4 settings ++ zeros 20 ++ (histogram r m ++ whiteBalance r m ++ sharpness r f).flatMap (fun v => le 4 (v % 4294967296))

/-- Granules of a statistics block that hold anything computed from a poisoned pixel (R298): the histogram takes every green pixel, a
zone's sums the pixels of the zone. -/
def badStats (d : Dev) (r : CamRec) (s : RawSource) : List Nat :=
  if s.lines.all (fun l => l.2.isEmpty) then []
  else dedup ((List.range (r.width * r.height)).flatMap (fun i =>
    let y := i / r.width
    let x := i % r.width
    if rawBad r s y x then
      let c := ((List.range 4).find? (fun c => bayerAt d r c == (x % 2, y % 2))).getD 0
      (if c = 1 ∨ c = 2 then List.range 17 else []) ++
        [(0x420 + 4 * (3 * zoneOf r y x + (c + 1) / 2)) / 64, (0x1020 + 4 * zoneOf r y x) / 64]
    else []))

/-- Write the statistics block of a RAW frame with its poison. -/
def writeStats (r : CamRec) (o : TensorOut) (g : RawFrame) (f : IspFrame) (a : Nat) (d0 d : Dev) : Dev :=
  let e := remoteStore a (statsBlock d0 r g.number (settingsOf d0 r g.number) f) d
  { e with mem := poisonGranules ((badStats d0 r (sourceOf d0 r o g)).map (fun k => a / 64 + k)) e.mem }

/-- Frame descriptor (Table 5.3). -/
def frameDesc (g : RawFrame) (tnr : Bool) (settings poisoned stats : Nat) : Bytes :=
  let flags := b2n g.truncated + 2 * b2n g.crcError + 4 * b2n g.gap + 8 * b2n g.joined + 16 * b2n tnr + 32 * b2n g.missed +
    64 * b2n g.embedded.isSome + 128 * b2n (poisoned != 0 || g.flawed)
  let bad := (g.lines.filter (fun l => !l.2.isEmpty)).length
  le 1 g.stream ++ le 1 flags ++ le 2 g.sensorFn ++ le 4 settings ++ le 8 g.number ++ le 2 (g.lines.length - bad) ++ le 2 bad ++
    le 4 poisoned ++ le 4 stats ++ zeros 4

/-- Luma (plane 0) or colour difference of an RGB pixel by the matrix of ITU-R BT.601, whose coefficients are PRESUMED (log 131): the
exact value, full-range or studio-range, brought to a neighbouring integer. Range and rounding are free values. -/
def yuvOf (plane r g b : Nat) : Nat :=
  let luma : Int := 299 * r + 587 * g + 114 * b
  let num : Int := if plane = 0 then luma else if plane = 1 then 1000 * b - luma else 1000 * r - luma
  let den : Int := if plane = 0 then 1000 else if plane = 1 then 1772 else 1402
  let q : Int × Int := if Config.yuvStudio then (num * (if plane = 0 then 219 else 224), den * 255) else (num, den)
  let up : Int := if q.1 % q.2 != 0 && Config.yuvUp plane r g b then 1 else 0
  let base : Int := if plane = 0 then (if Config.yuvStudio then 16 else 0) else 128
  (clampInt 0 255 (base + q.1 / q.2 + up)).toNat

/-- Lines of an RGB output in YUV420 8-bit: a line of luma, then one with the colour of both before each two pixels (the order of CSI-2,
PRESUMED, log 157). -/
def yuvLines (o : TensorOut) (vs : List Nat) : Bytes :=
  let at_ (c x y : Nat) : Nat := vs.getD ((c * o.outH + min y (o.outH - 1)) * o.outW + min x (o.outW - 1)) 0
  let pixel (plane x y : Nat) : Nat := yuvOf plane (at_ 0 x y) (at_ 1 x y) (at_ 2 x y)
  let colour (plane x y : Nat) : Nat := Config.chroma [pixel plane x y, pixel plane (x + 1) y, pixel plane x (y + 1), pixel plane (x + 1) (y + 1)]
  (List.range o.outH).flatMap (fun y =>
    if y % 2 = 0 then (List.range o.outW).map (fun x => BitVec.ofNat 8 (pixel 0 x y))
    else (List.range (ceilDiv o.outW 2)).flatMap (fun k =>
      [colour 1 (2 * k) (y - 1), pixel 0 (2 * k) y, colour 2 (2 * k) (y - 1), pixel 0 (2 * k + 1) y].map (BitVec.ofNat 8)))

/-- Send a processed frame on its pass-through channel (R364, R365): its descriptor, then the frame. -/
def passThrough (r : CamRec) (o : TensorOut) (lines : List (Bytes × List Nat)) (vs : List Nat) (desc : Bytes) (d : Dev) : Dev :=
  match d.img.channels.zipIdx.find? (fun c => bit c.1.types 4 && c.1.stream == r.stream) with
  | none => d
  | some c =>
    if 256 ≤ (getTx d c.1.port).queue.length then
      record 0x22 (streamOwner d.img r.stream) (3, r.stream) (modTx c.1.port (fun t => { t with dropped := t.dropped + 1 }) d)
    else
      let body := if c.1.format = 1 then lines.flatMap (fun l => if l.2.isEmpty then l.1 else zeros l.1.length)
        else if o.format = 0 then yuvLines o vs else Config.yuv420 o.outW o.outH vs
      modTx c.1.port (fun t => { t with queue := t.queue ++ [⟨c.2, if c.1.format = 1 then 0x2B else 0x18, desc ++ body⟩] }) d

/-- A processed frame's tiles, statistics and clip statistics are written (R127, R129, R181, R480). -/
def writeTiles (r : CamRec) (o : TensorOut) (g : RawFrame) (f : IspFrame) (base : Nat) (vs : List Nat) (bad : List Nat) (d : Dev) : Dev :=
  let qs := outPixels r o vs
  let d1 := remoteStore base (tilesOf o qs) d
  let d2 := { d1 with mem := poisonGranules (bad.map (fun k => base / 64 + k)) d1.mem }
  let d3 := if isRaw r.dt && bit o.flags 1 then writeStats r o g f (base + tileBytes o) d d2 else d2
  clipFrame r o qs d3

/-- A processed frame is written (R127): tiles with their poison (R480), statistics, clip statistics, descriptor; then the frame
wake and the pass-through frame. -/
def writeFrame (r : CamRec) (o : TensorOut) (g : RawFrame) (f : IspFrame) (d : Dev) : Dev :=
  let off := g.number % max 1 (slotCount d.img o) * slotBytes o
  let vs := outValues d r o g f
  let bad := badGranules d r o g
  let nBad := (dedup (bad.map (fun k => k / (16 * planesOf o)))).length
  let stats := isRaw r.dt && bit o.flags 1
  let desc := frameDesc g (blends d r g) (settingsOf d r g.number) nBad (if stats then off + tileBytes o else 0xFFFFFFFF)
  let d1 := writeTiles r o g f (regionBase d.img o.region + off) vs bad (writeReference r g f d)
  let d2 := returnFrame r.stream (r.pipe == 1) (remoteStore (descPlace d.img o g.number) desc d1)
  let d3 := if bit o.flags 2 then wake { source := 4, target := 2, stream := r.stream, cls := 0, score := 65535, onset := g.number } d2 else d2
  if bit o.flags 0 then passThrough r o (rawFrame d r g) vs desc d3 else d3

/-- Granules of a frame that its pipe reads: the lines of a raw buffer, and the reference where it may blend. -/
def ispReads (d : Dev) (r : CamRec) (g : RawFrame) : List Nat :=
  let lines (at_ : Nat → Option Nat) : List Nat :=
    (List.range r.height).flatMap (fun l => match at_ l with | some a => granulesOf a (lineBytes r) | none => [])
  (if r.pipe = 1 then lines (linePlace d r g.buf) else []) ++ (if mayBlend d r g then lines (refPlace d r) else [])

/-- The pipe's reads of a frame: traffic of a remote master (R289), and the errors that they meet (R297, R301). -/
def ispRead (r : CamRec) (g : RawFrame) (f : IspFrame) (d : Dev) : Dev :=
  let gs := ispReads d r g
  countRemote 0 (gs.filter (fun k => decide (64 * k < 0x1000000000))).length
    (readErrors (streamOwner d.img r.stream) (3, r.stream) gs f.uncorrectable f.corrected d)

/-- A frame leaves its pipe; one that its stream's muzzle dropped in it is not written (R324). -/
def finishFrame (g : RawFrame) (f : IspFrame) (d : Dev) : Dev :=
  match camRec? d.img g.stream, outOf d.img g.stream with
  | some r, some o => if g.dropped then returnFrame g.stream (r.pipe == 1) d else writeFrame r o g f (ispRead r g f d)
  | _, _ => d

/-- Pipe 0 finishes a line (R123); with the last line of a closed frame the frame's output is written. A frame whose lines were all
done at its close leaves at the next such command (DEDUCED, log 33). -/
def lineDone (f : IspFrame) (d : Dev) : Dev :=
  match d.cam.pipe0 with
  | [] => modCam (fun c => { c with places := c.places - 1 }) d
  | g :: rest =>
    let free := if g.left = 0 then 0 else 1
    let d1 := modCam (fun c => { c with places := c.places - free }) d
    if g.left ≤ 1 then finishFrame g f (modCam (fun c => { c with pipe0 := rest }) d1)
    else modCam (fun c => { c with pipe0 := { g with left := g.left - 1 } :: rest }) d1

/-- PIPE0_LINE_DONE. -/
def execPipe0LineDone (out : IspFrame) (s : State) : Result := devStep (fun d => if live d && d.power.isp then lineDone out d else d) s

/-- PIPE1_FRAME_START (R124): the first complete frame in frame-end order, of the streams whose channel is not muzzled (R324). -/
def execPipe1FrameStart (s : State) : Result :=
  devStep (fun d =>
    match d.cam.pipe1, d.cam.queue.find? (fun f => !isMuzzled d (0x40 + f.stream)) with
    | none, some f => if live d && d.power.isp && !claimed d f then modCam (fun c => { c with pipe1 := some f, queue := c.queue.erase f }) d else d
    | _, _ => d) s

/-- ISP cycles of a frame in pipe 1 (R124). -/
def pipe1Cost (r : CamRec) : Nat := r.width * r.height + 16 * r.height + 2048

/-- PIPE1_FRAME_DONE. -/
def execPipe1FrameDone (out : IspFrame) (s : State) : Result :=
  devStep (fun d =>
    match d.cam.pipe1 with
    | some g =>
      if live d && d.power.isp then
        let cost := ((camRec? d.img g.stream).map pipe1Cost).getD 0
        finishFrame g out (modCam (fun c => { c with pipe1 := none, busy := addW c.busy cost }) d)
      else d
    | none => d) s

/-! ### Thumbnails (R119, R120) -/

/-- Luma of a line of a thumbnail stream (R120): the RAW8 samples, or the Y samples of YUV422. -/
def lumaOf (r : CamRec) (line : Bytes) : Bytes :=
  fit r.width (if r.dt = 0x1E then (List.range r.width).map (fun x => line.getD (2 * x + 1) 0) else line)

/-- A thumbnail as its buffer holds it (R120): header, then each luma value less 128. -/
def thumbBytes (stream number : Nat) (truncated crc : Bool) (luma : Bytes) : Bytes :=
  le 8 number ++ le 1 stream ++ le 1 (b2n truncated + 2 * b2n crc) ++ zeros 22 ++ luma.map (fun v => v - 128)

/-- Bytes of a thumbnail buffer (R120). -/
def thumbSize (r : CamRec) : Nat := ceilDiv (32 + r.width * r.height) 4096 * 4096

/-- The lean receiver has received a thumbnail: headers corrected and packets dropped for their headers, lines whose CRC failed. -/
def thumbnail (r : CamRec) (fn : Nat) (lines : List Bytes) (crcOk : List Bool) (dropped corrected : Nat) (d : Dev) : Dev :=
  let p := streamOwner d.img r.stream
  let crcErrors := (crcOk.filter (fun k => !k)).length
  let truncated := decide (lines.length < r.height)
  let d0 := infoN 0x51 crcErrors (infoN 0x50 dropped (modCamPort r.port (fun x =>
    { x with eccCorr := addW x.eccCorr corrected, eccDrop := addW x.eccDrop dropped, crcErr := addW x.crcErr crcErrors }) d))
  let k := numberFrame r fn (getStream d0 r.stream)
  let d1 := tap 6 r.stream 0 (p.getD 0) (modStream r.stream (fun _ => k.1) d0)
  let d2 := if truncated then record 0x52 p (3, r.stream) (modStream r.stream (fun s => { s with trunc := s.trunc + 1 }) d1) else d1
  if streamFrozen d2 r.stream then modStream r.stream (fun s => { s with dropped := s.dropped + 1 }) d2
  else
    let th := tabGet d2.audio.thumbs r.stream {}
    let b := th.received % 2
    let d3 := if th.read.getLsbD b then d2 else modStream r.stream (fun s => { s with dropped := s.dropped + 1 }) d2
    let t : Thumbs := { received := th.received + 1, read := th.read &&& ~~~ BitVec.ofNat 2 (2 ^ b) }
    let luma := fit (r.width * r.height) (lines.flatMap (lumaOf r))
    let body := thumbBytes r.stream k.1.frame truncated (decide (0 < crcErrors)) luma
    tap 5 r.stream 0 (p.getD 0) { d3 with audio := { d3.audio with
      thumbs := tabSet d3.audio.thumbs r.stream t, sram := memWrite d3.audio.sram (r.region + b * thumbSize r) body } }

/-- THUMBNAIL_RECEIVED: the lines of a thumbnail with the result of their CRC, the packets dropped for their headers, and the headers
corrected. A thumbnail is received by one command, so its frame end follows it: held and waiting blocks go on (R131, R132). -/
def execThumbnailReceived (stream : Fin 48) (fn : Nat) (lines : List Bytes) (crcOk : List Bool) (dropped corrected : Nat) (s : State) : Result :=
  unlessWf (.thumbnailReceived stream fn lines crcOk dropped corrected) s (devStep (fun d =>
    match camRec? d.img stream.val with
    | none => d
    | some r =>
      if !(live d && d.power.perk && r.pipe == 2) then d
      else
        let h := header r.port .ok d
        if h.1 then startBlock r (freshBus (settleHeld r (thumbnail r fn lines crcOk dropped corrected h.2))) else h.2) s)

/-! ### Sensor control (R130 to R133) -/

/-- Whether a provisional ID is a sensor's, under its mask. -/
def pidMatches (r : SensorRec) (pid : Nat) : Bool := (pid &&& r.pidMask) == (r.pid &&& r.pidMask)

/-- A blob has been placed. -/
def blobPlaced (d : Dev) (id : Nat) : Bool := d.img.blobs.zipIdx.any (fun y => y.1.id == id && (tabGet d.boot.blobs y.2 {}).placed)

/-- The initial writes of a sensor are issued, and its joined bit is set (R130); no block has applied since (R133). -/
def initSensor (r : SensorRec) (d : Dev) : Dev :=
  issue ((entries 4 (blobBytes d r.initBlob)).map (fun e => .write r.port r.dynAddr (u16 e 0) (u8 e 2)))
    (modSensor r.sensor (fun s => { s with joined := true, applied := [] }) d)

/-- A sensor has its address by the operations given; its initial writes follow as soon as their blob is there. An init_blob of 0 means
that it has none (DESIGN CHOICE, log 132). -/
def joinSensor (r : SensorRec) (ops : List BusOp) (d : Dev) : Dev :=
  let d1 := issue ops (modSensor r.sensor (fun s => { s with addressed := true }) d)
  if r.initBlob = 0 ∨ blobPlaced d1 r.initBlob = true then initSensor r d1 else d1

/-- A target answers ENTDAA (R130). One without an entry takes the next address from 0x60 and is sent DISEC; after 0x6F it is left
without an address. An address once given is not given again, to the same target either (DESIGN CHOICE, log 133). -/
def targetFound (port pid : Nat) (d : Dev) : Dev :=
  match d.img.sensors.find? (fun r => r.port == port && !bit r.flags 0 && pidMatches r pid) with
  | some r => joinSensor r [.entdaa port pid r.dynAddr] d
  | none =>
    let given := tabGet d.cam.unmatched port []
    let a := 0x60 + given.length
    if given.length < 16 then
      info 0x5F (issue [.entdaa port pid a, .disec port a] (modCam (fun c => { c with unmatched := tabSet c.unmatched port (given ++ [(a, pid)]) }) d))
    else info 0x5F d

/-- SENSOR_HOT_JOIN. -/
def execSensorHotJoin (port : Fin 2) (pid : Nat) (s : State) : Result :=
  unlessWf (.sensorHotJoin port pid) s (devStep (fun d =>
    if live d && d.img.ctrlPorts.any (fun r => r.port == port.val && bit r.flags 0) then targetFound port.val pid (freshBus d) else d) s)

/-- Addresses given at acceptance (R130): sensors that took their address by SETDASA or stand on I2C, then targets that answered
ENTDAA. Every sensor is addressed anew, and its initial writes follow (DEDUCED, log 134). -/
def assignAddresses (present : List Nat) (found : List (Fin 2 × Nat)) (d : Dev) : Dev :=
  let d1 := (d.img.sensors.filter (fun r => present.contains r.sensor && r.staticAddr != 0 && d.img.ctrlPorts.any (fun c => c.port == r.port))).foldl
    (fun e r => joinSensor r (if bit r.flags 0 then [] else [.setdasa r.port r.staticAddr r.dynAddr]) e)
    (freshBus (modCam (fun c => { c with sensors := tabMap c.sensors (fun _ s => { s with joined := false, addressed := false }) }) d))
  found.foldl (fun e t => if e.img.ctrlPorts.any (fun c => c.port == t.1.val) then targetFound t.1.val t.2 e else e) d1

/-- SETTINGS_BLOCK_POST (R131): a tile thread of the stream's owner posts a block. -/
def execSettingsBlockPost (sensor : Fin 32) (part : Fin 128) (settingsId : Nat) (entries : List (Nat × Nat)) (s : State) : Result :=
  unlessWf (.settingsBlockPost sensor part settingsId entries) s (devStep (fun d =>
    match sensorStream d.img sensor.val with
    | none => d
    | some r =>
      if !(live d && streamOwner d.img r.stream == some part.val && d.img.sensors.any (fun x => x.sensor == sensor.val)) then d
      else
        let d1 := if (getSensor d sensor.val).waiting.isSome then
          modStream r.stream (fun x => { x with setMiss := x.setMiss + 1 }) d else d
        modSensor sensor.val (fun x => { x with waiting := some ⟨settingsId, entries⟩ }) d1) s)

/-- The hold_off of a block has ended: M is the last frame whose frame start was received, which may be one that has not opened
yet (R115, R132). Of a thumbnail only its end is seen: whether one is in reception is a free value (DESIGN CHOICE, log 135). -/
def blockEnds (n : Nat) (b : SetBlock) (from_ : Nat) (d : Dev) : Dev :=
  let d1 := modSensor n (fun s => { s with cur := none }) d
  match sensorStream d.img n with
  | none => d1
  | some r =>
    if r.pipe = 2 then
      let k := draw d1
      if live d1 && d1.power.perk && Config.freeBool k.1 then modSensor n (fun s => { s with held := some (b.id, from_) }) k.2
      else applyBlock n b.id from_ (getStream k.2 r.stream).frame k.2
    else match csiFrame d1 r.port r.vc with
    | some c =>
      if c.opened.contains r.stream then applyBlock n b.id from_ (getStream d1 r.stream).frame d1
      else modSensor n (fun s => { s with held := some (b.id, from_) }) d1
    | none => applyBlock n b.id from_ (getStream d1 r.stream).frame d1

/-- A block ended by a NACK (R133). -/
def blockNacked (n : Nat) (d : Dev) : Dev :=
  let st := (sensorStream d.img n).map (fun r => r.stream)
  record 0x5E (st.bind (streamOwner d.img)) (3, st.getD 0) (modSensor n (fun s => { s with cur := none, nack := true }) d)

/-- A transfer of the block in progress ends. After a NACK of the hold_off write itself no other one follows (DESIGN CHOICE, log 136). -/
def transferDone (n : Nat) (ack : Bool) (d : Dev) : Dev :=
  match (getSensor d n).cur with
  | none => d
  | some (b, k, from_, nacked) =>
    if nacked then blockNacked n d
    else if ack then
      if k = b.entries.length + 1 then blockEnds n b from_ d
      else issueBlock n b (k + 1) false (modSensor n (fun s => { s with cur := some (b, k + 1, from_, false) }) d)
    else if k = b.entries.length + 1 then blockNacked n d
    else issueBlock n b k true (modSensor n (fun s => { s with cur := some (b, k, from_, true) }) d)

/-- SETTINGS_TRANSFER_DONE (R132, R133). The controller ports are always on, so a block in progress goes on while the device boots. -/
def execSettingsTransferDone (sensor : Fin 32) (ack : Bool) (s : State) : Result :=
  devStep (fun d => transferDone sensor.val ack (freshBus d)) s

end Sys2Proof.Machine
end

