-- ==== Sys2Proof/Machine/Record.lean ====
section
/-! DEFINITION. The byte layout of the image header, the manifest and the control records, and the rules that each record meets
on its own (R40 to R49, R89 to R459, the record tables of each chapter). -/

namespace Sys2Proof.Machine

/-! ### Layouts -/

/-- Image header (02_image_and_boot R40, R41, R61, Table 2.3). -/
def parseImgHeader (b : Bytes) : ImgHeader where
  magic := u32 b 0
  version := u16 b 4
  hlen := u16 b 6
  mode := u8 b 8
  clock := u8 b 9
  dummy := u8 b 10
  readOp := u8 b 11
  switchOp := u8 b 12
  switchVal := u8 b 13
  switchAddr := u32 b 16
  manifestOffset := u32 b 20
  manifestLength := u32 b 24
  securityVersion := u8 b 28
  nandDevices := u8 b 29
  signer := slice b 32 64
  signature := slice b 96 64
  raw := slice b 0 96

/-- Record entry of the manifest (Table 2.6). -/
def parseRecEntry (b : Bytes) : RecEntry where
  ty := u16 b 0
  version := u16 b 2
  length := u32 b 4
  offset := u32 b 8
  reserved := u32 b 12
  digest := slice b 16 32

/-- Blob entry of the manifest (Table 2.7). -/
def parseBlobEntry (b : Bytes) : BlobEntry where
  id := u32 b 0
  medium := u8 b 4
  flags := u8 b 5
  reserved := u16 b 6
  offset := u32 b 8
  length := u32 b 12
  digest := slice b 16 32

/-- Record 0x0103, boot policy (Table 2.12). -/
def parseBootPolicy (b : Bytes) : BootPolicy where
  marginOffset := u32 b 0
  errlogOffset := u32 b 4
  eraseKib := u16 b 8
  retries := u8 b 10
  errorAction := u8 b 11
  spacingLog2 := u8 b 12
  advanceFloor := u8 b 13

/-- Record 0x0104, SPI-NAND geometry (Table 2.13). -/
def parseNandGeom (b : Bytes) : NandGeom where
  pageBytes := u16 b 0
  spareBytes := u16 b 2
  pagesPerBlock := u16 b 4
  blocks := u16 b 6
  readMode := u8 b 8
  clock := u8 b 9
  dummy := u8 b 10
  markerPages := u8 b 11

/-- Record 0x0201, tier parameters (Table 3.7). -/
def parseTierRec (b : Bytes) : TierRec where
  tier := u8 b 0
  total := u8 b 1
  shared := u8 b 2
  d0 := u8 b 4
  d1 := u8 b 5
  d2 := u8 b 6
  d3 := u8 b 7
  idleHold := u32 b 8

/-- Record 0x0202 entry, credit floors (Table 3.8). -/
def parseFloorRec (b : Bytes) : FloorRec where
  part := u8 b 0
  f1 := u8 b 1
  f2 := u8 b 2
  f3 := u8 b 3

/-- Record 0x0203 entry, route (Table 3.9). -/
def parseRoute (b : Bytes) : Route where
  target := u8 b 0
  stream := u8 b 1
  cls := u8 b 2
  prio := u8 b 3
  part := u8 b 4
  graph := u16 b 6

/-- Record 0x0204 entry, pre-roll policy (Table 3.10). -/
def parsePrePolicy (b : Bytes) : PrePolicy where
  part := u8 b 0
  flags := u8 b 1
  pre := u32 b 4
  post := u32 b 8

/-- Record 0x0205 entry, wake input (Table 3.11). -/
def parseWakeInput (b : Bytes) : WakeInput where
  input := u8 b 0
  mode := u8 b 1
  stream := u8 b 2
  cls := u8 b 3

/-- Record 0x0301, audio inputs (Table 4.4). -/
def parseAudioIn (b : Bytes) : AudioIn where
  pdmLines := u8 b 0
  pdmClocks := u8 b 1
  tdmEnable := u8 b 2
  tdmSlots := u8 b 3
  slotBits := u8 b 4
  tdmFlags := u8 b 5

/-- Record 0x0302, audio stream (Table 4.5). -/
def parseAudioRec (b : Bytes) : AudioRec where
  stream := u8 b 0
  slot := u8 b 1
  kind := u8 b 2
  source := u8 b 3
  gain := signed 8 (u8 b 4)
  flags := u8 b 5
  hold := u8 b 6
  threshold := u8 b 7
  fall := u8 b 8
  rise := u8 b 9
  cls := u8 b 10
  floorInit := signed 16 (u16 b 12)

/-- Record 0x0303, Perk graph (Table 4.6). -/
def parsePerkGraph (b : Bytes) : PerkGraph where
  graph := u16 b 0
  inputKind := u8 b 2
  outputs := u8 b 3
  maxSteps := u16 b 4
  lookback := u16 b 6
  sramOffset := u32 b 8
  sramBytes := u32 b 12
  blob := u32 b 16
  wakeScore := u16 b 20
  classBase := u8 b 22

/-- Record 0x0401, receive port (Table 5.5). -/
def parseRxPort (b : Bytes) : RxPort where
  port := u8 b 0
  lanes := u8 b 1
  rate := u16 b 2
  flags := u8 b 4

/-- Record 0x0402, camera stream (Table 5.6). -/
def parseCamRec (b : Bytes) : CamRec where
  stream := u8 b 0
  port := u8 b 1
  vc := u8 b 2
  dt := u8 b 3
  width := u16 b 4
  height := u16 b 6
  period := u32 b 8
  idleFrames := u8 b 12
  pipe := u8 b 13
  rawBuffers := u8 b 14
  sensor := u8 b 15
  latency := u8 b 16
  fnMode := u8 b 17
  fnWrap := u16 b 18
  region := u32 b 20
  tuning := u32 b 24

/-- Record 0x0403, tensor output (Table 5.7). -/
def parseTensorOut (b : Bytes) : TensorOut where
  stream := u8 b 0
  format := u8 b 1
  pad := u8 b 2
  flags := u8 b 3
  cropX := u16 b 4
  cropY := u16 b 6
  cropW := u16 b 8
  cropH := u16 b 10
  outW := u16 b 12
  outH := u16 b 14
  mean := u32 b 16
  scale := u64 b 20
  region := u32 b 28

/-- Record 0x0404, sensor table entry (Table 5.8). -/
def parseSensorRec (b : Bytes) : SensorRec where
  sensor := u8 b 0
  port := u8 b 1
  flags := u8 b 2
  staticAddr := u8 b 3
  dynAddr := u8 b 4
  holdOn := u8 b 5
  holdOff := u8 b 6
  pid := u64 b 8
  pidMask := u64 b 16
  holdReg := u16 b 24
  initBlob := u32 b 28

/-- Record 0x0405, controller port (Table 5.9). -/
def parseCtrlPort (b : Bytes) : CtrlPort where
  port := u8 b 0
  flags := u8 b 1
  sdrKhz := u16 b 2
  i2cKhz := u16 b 4

/-- Record 0x0501, core configuration (Table 6.6). -/
def parseCoreRec (b : Bytes) : CoreRec where
  core := u8 b 0
  act := u8 b 1
  wt := u8 b 2
  acc := u8 b 3
  state := u8 b 4
  ramp := u8 b 5

/-- Record 0x0502 entry, tile template (Table 6.7). -/
def parseTemplate (b : Bytes) : Template where
  id := u16 b 0
  dataflow := u8 b 2
  shape := u8 b 3
  wFormat := u8 b 4
  aFormat := u8 b 5
  cellOp := u8 b 6
  flags := u8 b 7
  kBlocks := u16 b 8
  rows := u16 b 10
  planned := u16 b 12
  commit := u16 b 14
  outElements := u32 b 16
  requant := u32 b 20
  ewBlob := u32 b 24

/-- Requantisation entry (Table 7.6). -/
def parseRqEntry (b : Bytes) : RqEntry where
  mult := u32 b 0
  bias := u32 b 4
  shift := u8 b 8
  zero := signed 8 (u8 b 9)

/-- Record 0x0601, requantisation table (Table 7.5). -/
def parseRqTable (b : Bytes) : RqTable where
  id := u32 b 0
  mode := u8 b 4
  format := u8 b 5
  flags := u8 b 6
  channels := u16 b 8
  statsRegion := u32 b 12
  statsOffset := u32 b 16
  entries := (entries 12 (b.drop 24)).map parseRqEntry

/-- Record 0x0602, codebook set (Table 7.7). -/
def parseCodebook (b : Bytes) : Codebook where
  id := u32 b 0
  indexBits := u8 b 4
  format := u8 b 5
  granularity := u8 b 6
  tables := u32 b 8
  reduction := u32 b 12
  blob := u32 b 16

/-- Record 0x0603 entry, template format options (Table 7.8). -/
def parseFmtOpt (b : Bytes) : FmtOpt where
  template := u16 b 0
  wVariant := u8 b 2
  aVariant := u8 b 3
  groupLog2 := u8 b 4
  scaleFlags := u8 b 5
  codebook := u32 b 8

/-- Record 0x0604 entry, watched channel (Table 7.9). -/
def parseWatched (b : Bytes) : Watched where
  core := u8 b 0
  slot := u8 b 1
  channel := u16 b 2
  table := u32 b 4

/-- Record 0x0605 entry, camera clip statistics (Table 7.10). -/
def parseClipStat (b : Bytes) : ClipStat where
  stream := u8 b 0
  region := u32 b 4
  offset := u32 b 8

/-- Record 0x0701, catalogue (Table 8.4). -/
def parseCatRec (b : Bytes) : CatRec where
  slot := u8 b 0
  part := u8 b 1
  cellOp := u8 b 2
  direction := u8 b 3
  dims := u16 b 4
  k := u8 b 6
  itemBytes := u32 b 8
  baseCount := u32 b 12
  capacity := u32 b 16
  region := u32 b 20
  baseOffset := u32 b 24
  blob := u32 b 28
  template := u16 b 32
  batchWait := u32 b 36
  acceptScore := signed 32 (u32 b 40)
  minMargin := u32 b 44
  queryMask := u64 b 48 + 2 ^ 64 * u64 b 56

/-- Record 0x0801 entry, convolution operator (Table 9.4). -/
def parseConvOp (b : Bytes) : ConvOp where
  template := u16 b 0
  kind := u8 b 2
  padMode := u8 b 3
  inH := u16 b 4
  inW := u16 b 6
  inC := u16 b 8
  outC := u16 b 10
  groups := u16 b 12
  kh := u8 b 14
  kw := u8 b 15
  sh := u8 b 16
  sw := u8 b 17
  dh := u8 b 18
  dw := u8 b 19
  padTop := u16 b 20
  padBottom := u16 b 22
  padLeft := u16 b 24
  padRight := u16 b 26
  outPadH := u8 b 28
  outPadW := u8 b 29
  padValue := u16 b 30
  outH := u16 b 32
  outW := u16 b 34
  inLayout := u8 b 36
  outLayout := u8 b 37
  flags := u8 b 38

/-- Record 0x0802 entry, pool operator (Table 9.5). -/
def parsePoolOp (b : Bytes) : PoolOp where
  id := u16 b 0
  kind := u8 b 2
  format := u8 b 3
  inH := u16 b 4
  inW := u16 b 6
  channels := u16 b 8
  kh := u8 b 10
  kw := u8 b 11
  sh := u8 b 12
  sw := u8 b 13
  padTop := u8 b 14
  padBottom := u8 b 15
  padLeft := u8 b 16
  padRight := u8 b 17
  outH := u16 b 18
  outW := u16 b 20
  planned := u16 b 22
  commit := u16 b 24
  outElements := u16 b 26
  flags := u8 b 28

/-- Record 0x0803 entry, compressed output (Table 9.6). -/
def parseZcOut (b : Bytes) : ZcOut where
  producer := u16 b 0
  statsRegion := u32 b 4
  statsOffset := u32 b 8

/-- Record 0x0901 entry, scan operator (Table 10.3). -/
def parseScanOp (b : Bytes) : ScanOp where
  id := u16 b 0
  direction := u8 b 2
  format := u8 b 3
  steps := u16 b 4
  slice := u8 b 6
  flags := u8 b 7
  elements := u32 b 8
  planned := u16 b 12
  commit := u16 b 14
  requant := u32 b 16
  ewBlob := u32 b 20
  initBlob := u32 b 24

/-- Record 0x0902 entry, state block (Table 10.4). -/
def parseBlockRec (b : Bytes) : BlockRec where
  id := u16 b 0
  scan := u16 b 2
  seq := u8 b 4
  core := u8 b 5
  spillTier := u8 b 6
  first := u16 b 8
  count := u16 b 10
  slotOffset := u32 b 12
  storeRegion := u32 b 16
  storeOffset := u32 b 20
  dramRegion := u32 b 24
  dramOffset := u32 b 28

/-- Record 0x0903 entry, sequence (Table 10.5). -/
def parseSeqRec (b : Bytes) : SeqRec where
  seq := u8 b 0
  stream := u8 b 1
  part := u8 b 2
  flags := u8 b 3
  forward := u16 b 4
  backward := u16 b 6
  lookahead := u8 b 8
  idleCycles := u32 b 12

/-- Record 0x0A01 entry, attention operator (Table 11.7). -/
def parseAttnOp (b : Bytes) : AttnOp where
  id := u16 b 0
  kind := u8 b 2
  format := u8 b 3
  headDim := u16 b 4
  kvHeads := u8 b 6
  qPerKv := u8 b 7
  scale := u32 b 8
  span := u8 b 12
  flags := u8 b 13
  planned := u16 b 14
  commit := u16 b 16
  requant := u32 b 20

/-- Record 0x0A02 entry, key-value sequence (Table 11.8). -/
def parseKvRec (b : Bytes) : KvRec where
  seq := u8 b 0
  part := u8 b 1
  format := u8 b 2
  flags := u8 b 3
  headDim := u16 b 4
  kvHeads := u8 b 6
  layers := u8 b 7
  tablePages := u16 b 8
  pool := u8 b 10
  region := u32 b 12
  offset := u32 b 16

/-- Record 0x0A03 entry, page pool (Table 11.9). -/
def parsePagePool (b : Bytes) : PagePool where
  pool := u8 b 0
  format := u8 b 1
  headDim := u16 b 2
  kvHeads := u8 b 4
  region := u32 b 8
  offset := u32 b 12
  pages := u32 b 16
  shared := u32 b 20

/-- Record 0x0A04 entry, pool floor (Table 11.10). -/
def parsePageFloor (b : Bytes) : PageFloor where
  pool := u8 b 0
  part := u8 b 1
  floor := u16 b 2

/-- Record 0x0B01 entry, region (Table 12.6). -/
def parseRegion (b : Bytes) : Region where
  id := u32 b 0
  part := u8 b 4
  kind := u8 b 5
  flags := u8 b 6
  base := u64 b 8
  pages := u32 b 16
  blob := u32 b 20
  backing := u32 b 24

/-- Record 0x0B02, memory configuration (Table 12.7). -/
def parseMemCfg (b : Bytes) : MemCfg where
  rate := u16 b 0
  ranks := u8 b 2
  flags := u8 b 3
  shareRead := u8 b 4
  shareWrite := u8 b 5
  shareRemote := u8 b 6
  scrubLog2 := u8 b 7
  retainMask := u64 b 8

/-- Record 0x0B03 entry, tag floors (Table 12.8). -/
def parseTagFloor (b : Bytes) : TagFloor where
  part := u8 b 0
  read := u8 b 1
  write := u8 b 2
  s0 := u8 b 4
  s1 := u8 b 5
  s2 := u8 b 6
  s3 := u8 b 7

/-- Window layer entry (Table 12.9). -/
def parseWinLayer (b : Bytes) : WinLayer where
  offset := u32 b 0
  bytes := u32 b 4

/-- Record 0x0B04, weight window (Table 12.9). -/
def parseWindowRec (b : Bytes) : WindowRec where
  window := u8 b 0
  part := u8 b 1
  depth := u8 b 2
  home := u8 b 3
  layers := u16 b 4
  windowRegion := u32 b 8
  slotBytes := u32 b 12
  sourceRegion := u32 b 16
  timeout := u32 b 20
  entries := (entries 8 (b.drop 32)).map parseWinLayer

/-- Record 0x0B05 entry, barrier cells (Table 12.10). -/
def parseCellRange (b : Bytes) : CellRange where
  cluster := u8 b 0
  part := u8 b 1
  first := u16 b 2
  count := u16 b 4

/-- Record 0x0C01 entry, partition (Table 13.7). -/
def parsePartRec (b : Bytes) : PartRec where
  part := u8 b 0
  flags := u8 b 1
  affinityWait := u16 b 2
  streams := u64 b 4
  quota := u32 b 12
  sram := u64 b 16

/-- Record 0x0C03 entry, descriptor pool (Table 13.9). -/
def parseDescPool (b : Bytes) : DescPool where
  pool := u8 b 0
  part := u8 b 1
  region := u32 b 4
  offset := u32 b 8
  slots := u32 b 12

/-- Record 0x0C04 entry, graph (Table 13.10). -/
def parseGraph (b : Bytes) : Graph where
  id := u16 b 0
  part := u8 b 2
  pool := u8 b 3
  instances := u8 b 4
  batchShape := u8 b 5
  regionCount := u8 b 6
  prio := u8 b 7
  descriptors := u32 b 8
  blob := u32 b 12
  barrierBase := u16 b 16
  barrierCells := u16 b 18
  instanceFloor := u32 b 20
  sramStride := u32 b 24
  memStride := u32 b 28
  regions := (entries 4 (b.drop 32)).map (fun e => u32 e 0)

/-- Record 0x0D01, host interfaces (Table 15.14). -/
def parseHostIf (b : Bytes) : HostIf where
  txLanes := u8 b 0
  txFlags := u8 b 1
  txRate := u16 b 2
  ibiSpacing := u32 b 4
  telemetryPeriod := u32 b 8
  gpioFunction := slice b 12 16
  gpioPolarity := u16 b 28
  telemetryWords := u8 b 30
  offsets := (entries 4 (b.drop 32)).map (fun e => u32 e 0)

/-- Record 0x0D02 entry, output channel (Table 15.15). -/
def parseChannel (b : Bytes) : Channel where
  part := u8 b 0
  port := u8 b 1
  vc := u8 b 2
  types := u8 b 3
  stream := u8 b 4
  format := u8 b 5
  region := u32 b 8

/-- Record 0x0D03 entry, host policy (Table 15.16). -/
def parseHostPolicy (b : Bytes) : HostPolicy where
  part := u8 b 0
  flags := u8 b 1
  ibiMask := u8 b 2

/-- Weight key entry of record 0x0E01 (Table 16.13). -/
def parseKeyEntry (b : Bytes) : KeyEntry where
  blob := u32 b 0
  index := u8 b 4

/-- Record 0x0E01, weight keys (Table 16.13). -/
def parseKeyRec (b : Bytes) : KeyRec where
  offset := u32 b 0
  keyCount := u16 b 4
  count := u16 b 6
  entries := (entries 8 (b.drop 16)).map parseKeyEntry

/-- Record 0x0E02 entry, session authentication (Table 16.14). -/
def parseAuthRec (b : Bytes) : AuthRec where
  part := u8 b 0
  hash := slice b 4 32

/-- Record 0x0E03, return unlock (Table 16.15). -/
def parseUnlockRec (b : Bytes) : UnlockRec where
  deviceId := slice b 0 32
  signature := slice b 32 64

/-- Record 0x0F01, Kennel interface (Table 17.9). -/
def parseKenRec (b : Bytes) : KenRec where
  part := u8 b 0
  flags := u8 b 1

/-- Record 0x1001, power (Table 18.8). -/
def parsePowerRec (b : Bytes) : PowerRec where
  limit := u16 b 0
  topPoint := u8 b 2
  watchdog := u16 b 4

/-- Record 0x1101, reliability policy (Table 19.7). -/
def parseRelRec (b : Bytes) : RelRec where
  selftestLog2 := u8 b 0
  bankLog2 := u8 b 1
  measureLog2 := u8 b 2
  retireAborts := u8 b 3
  abortLog2 := u8 b 4
  baseAllow := u8 b 5
  g0 := u8 b 8
  g1 := u8 b 9
  g2 := u8 b 10
  d0 := u16 b 12
  d1 := u16 b 14
  d2 := u16 b 16
  u0 := u8 b 18
  u1 := u8 b 19
  u2 := u8 b 20


/-! ### Helpers -/

/-- A value lies in an inclusive range. -/
def rng (lo hi v : Nat) : Bool := decide (lo ≤ v) && decide (v ≤ hi)

/-- Every listed reserved field (offset, size) is 0 (R12). -/
def rsv (fs : List (Nat × Nat)) (b : Bytes) : Bool := fs.all (fun f => zeroField b f.1 f.2)

/-- A body of whole entries of a size, between lo and hi of them, each of which passes a test. -/
def eachEntry (size lo hi : Nat) (b : Bytes) (p : Bytes → Bool) : Bool :=
  b.length % size == 0 && rng lo hi (b.length / size) && (entries size b).all p

/-- No two spans (class, first, past the last) of one class overlap; empty spans overlap nothing. -/
def apart : List (Nat × Nat × Nat) → Bool
  | [] => true
  | x :: r => r.all (fun y => x.1 != y.1 || decide (x.2.2 ≤ y.2.1) || decide (y.2.2 ≤ x.2.1) || decide (x.2.2 ≤ x.2.1) ||
      decide (y.2.2 ≤ y.2.1)) && apart r

/-- Keys of entries, each used once. -/
def once {α β : Type} [DecidableEq β] (f : α → β) (l : List α) : Bool := distinct (l.map f)

/-- Commit time of a number of output elements (R151). -/
def recCommitCycles (n : Nat) : Nat := ceilDiv n 64 + 16

/-- The ramps that a core can have (R149). -/
def ramps : List Nat := [16, 32, 64]

/-! ### Planned cycles -/

/-- Planned cycles of an array template on a core of ramp R (R148, R187). -/
def arrayCycles (R cyc : Nat) (t : Template) : Nat :=
  let s := passTimes t
  let wp := t.rows * cyc
  max R s.1 + (t.kBlocks - 1) * max wp s.1 + wp + s.2 + R

/-- Planned cycles of a pool operator (R220). -/
def poolCycles (R : Nat) (p : PoolOp) : Nat := R + ceilDiv p.outElements 64 * p.kh * p.kw + 8 + R

/-- Planned cycles of a scan operator (R233). -/
def scanCycles (R : Nat) (s : ScanOp) : Nat :=
  let B := ceilDiv s.steps 16
  R + ceilDiv (s.slice * B) 64 * 16 + B * ceilDiv s.slice 64 + ceilDiv (s.slice * s.steps) 64 + 8 + R

/-- Planned cycles of an attention operator (R267, R272). -/
def attnCycles (R : Nat) (a : AttnOp) : Nat :=
  if a.kind = 0 then 2 * R + 48 + a.span * a.headDim * kvBits a.format
  else 2 * R + 48 + a.span * a.headDim * (kvBits a.format + 32) / 128

/-! ### Operators -/

/-- A pair of operand formats that Table 6.2 lists; codebook indices stand as their decoded format. -/
def formatPair (w a : Nat) : Bool :=
  [(2, 2), (8, 8), (3, 3), (3, 4), (4, 3), (4, 4), (5, 5), (6, 6), (1, 1), (1, 2), (7, 7), (0, 2), (9, 9), (10, 10)].contains (w, a)

/-- A template on its own (R141, R143 to R151, R166, R167, R185, R186, R188, Table 6.7); what depends on a codebook or on format
options is checked with the records that hold them. -/
def templateOk (t : Template) : Bool :=
  rng 1 65535 t.id && rng 0 1 t.dataflow && rng 0 4 t.shape && rng 1 2048 t.kBlocks && rng 1 2048 t.rows && rng 1 2048 t.planned &&
  rng 1 15360 t.outElements && t.commit == recCommitCycles t.outElements && rng 0 256 t.commit && decide (t.flags < 16) && decide (t.cellOp < 8) &&
  (!bit t.flags 0 || [1, 2, 3, 4, 9, 10].contains t.wFormat) &&
  (if t.shape = 4 then t.dataflow == 0 && t.wFormat == 2 && t.aFormat == 2 && t.cellOp == 0 && !bit t.flags 2
   else !bit t.flags 3 &&
    (if t.cellOp = 0 then
      (if t.wFormat = 11 then [2, 3, 4, 9].contains t.aFormat else
        formatPair t.wFormat t.aFormat && ramps.any (fun R => arrayCycles R (if t.wFormat = 9 ∨ t.wFormat = 10 then 4 else 1) t == t.planned)) &&
      (!(decide (5 ≤ t.wFormat) && decide (t.wFormat ≤ 8)) || reductionLength t % 32 == 0) && (t.wFormat != 8 || t.shape != 3)
     else
      t.dataflow == 1 && (if t.cellOp = 4 then t.wFormat == 12 && t.aFormat == 12 else t.wFormat == 2 && t.aFormat == 2) &&
      (decide (6 ≤ t.cellOp) || decide (reductionLength t ≤ 8192)) && ramps.any (fun R => arrayCycles R 1 t == t.planned))) &&
  (!bit t.flags 2 || (t.outElements == 1 && t.commit == 17))

/-- Output extent of an axis of a convolution of kinds 0 to 2, or of a pool (R212). -/
def outExtent (H k s dil lo hi : Nat) : Int := Int.fdiv ((H : Int) + lo + hi - dil * (k - 1) - 1) (s : Int) + 1

/-- Output extent of an axis of a transposed convolution (R212). -/
def outExtentT (H k s dil lo hi pad : Nat) : Int := ((H : Int) - 1) * s + dil * (k - 1) + 1 - lo - hi + pad

/-- One axis of a convolution (R211, R212, Table 9.1). -/
def axisOk (kind H k s dil lo hi outPad O : Nat) : Bool :=
  rng 1 4096 H && rng 1 15 k && rng 1 16 s && rng 1 64 dil && decide (lo ≤ dil * (k - 1)) && decide (hi ≤ dil * (k - 1)) && rng 1 4096 O &&
  (if kind = 3 then decide (outPad < s) && decide (outExtentT H k s dil lo hi outPad = (O : Int))
   else outPad == 0 && decide (outExtent H k s dil lo hi = (O : Int)))

/-- A convolution operator on its own (R211, R212, R217, Table 9.4). -/
def convOk (v : ConvOp) : Bool :=
  rng 1 65535 v.template && rng 0 3 v.kind && rng 0 2 v.padMode && (v.kind != 3 || v.padMode == 0) && rng 1 16384 v.inC && rng 1 16384 v.outC &&
  (match v.kind with
   | 1 => v.groups == v.inC && v.groups == v.outC
   | 2 => decide (1 ≤ v.groups) && v.inC % v.groups == 0 && v.outC % v.groups == 0
   | _ => v.groups == 1) &&
  axisOk v.kind v.inH v.kh v.sh v.dh v.padTop v.padBottom v.outPadH v.outH &&
  axisOk v.kind v.inW v.kw v.sw v.dw v.padLeft v.padRight v.outPadW v.outW &&
  (v.padMode == 1 || v.padValue == 0) && rng 0 1 v.inLayout && rng 0 1 v.outLayout && decide (v.flags < 2)

/-- A pool operator on its own (R211, R212, R219, R220, Table 9.5). -/
def poolOk (p : PoolOp) : Bool :=
  rng 1 65535 p.id && rng 0 2 p.kind && [1, 2, 3, 4, 9, 10].contains p.format && rng 1 4096 p.inH && rng 1 4096 p.inW && rng 1 16384 p.channels &&
  rng 1 16 p.kh && rng 1 16 p.kw && rng 1 16 p.sh && rng 1 16 p.sw && decide (p.padTop < p.kh) && decide (p.padBottom < p.kh) &&
  decide (p.padLeft < p.kw) && decide (p.padRight < p.kw) && rng 1 4096 p.outH && rng 1 4096 p.outW &&
  decide (outExtent p.inH p.kh p.sh 1 p.padTop p.padBottom = (p.outH : Int)) && decide (outExtent p.inW p.kw p.sw 1 p.padLeft p.padRight = (p.outW : Int)) &&
  rng 1 15360 p.outElements && p.commit == recCommitCycles p.outElements && rng 1 2048 p.planned && ramps.any (fun R => poolCycles R p == p.planned) &&
  decide (p.flags < 4)

/-- A scan operator on its own (R230, R233, Table 10.3). -/
def scanOk (s : ScanOp) : Bool :=
  rng 1 65535 s.id && rng 0 1 s.direction && (s.format == 9 || s.format == 31) && rng 1 1024 s.steps && [1, 2, 4, 8, 16, 32, 48, 64].contains s.slice &&
  decide (s.slice * (s.steps + 1) ≤ 15360) && decide (s.flags < 4) && rng 1 16384 s.elements && s.elements % s.slice == 0 &&
  s.commit == recCommitCycles (s.slice * (s.steps + 1)) && rng 0 256 s.commit && rng 1 2048 s.planned && ramps.any (fun R => scanCycles R s == s.planned) &&
  (bit s.flags 0 == (s.initBlob != 0))

/-- An attention operator on its own (R263, R267, R272, Table 11.7). -/
def attnOk (a : AttnOp) : Bool :=
  rng 1 65535 a.id && rng 0 1 a.kind && (if a.kind = 0 then [1, 2, 5, 8].contains a.format && rng 1 8 a.span else [1, 2].contains a.format && (a.span == 16 || a.span == 32)) &&
  (a.headDim == 64 || a.headDim == 128) && rng 1 16 a.kvHeads && rng 1 16 a.qPerKv && rng 1 2139095039 a.scale && decide (a.flags < 8) &&
  rng 1 2048 a.planned && ramps.any (fun R => attnCycles R a == a.planned) &&
  a.commit == recCommitCycles (if a.kind = 0 then 64 * (a.headDim + 2) else (16 + 2 * a.span) * a.headDim)

/-- A requantisation table on its own (R170 to R174, R180, Tables 7.5 and 7.6). -/
def requantOk (r : RqTable) : Bool :=
  rng 1 4294967295 r.id && rng 0 2 r.mode && (rng 1 10 r.format || r.format == 31) && (r.mode != 0 || r.format == 1 || r.format == 2) &&
  decide (r.flags < 16) && (!bit r.flags 0 || r.format == 5 || r.format == 6) && (!bit r.flags 1 || r.format == 1 || r.format == 2) &&
  (!bit r.flags 2 || r.format == 1 || r.format == 2 || r.format == 3) && rng 1 16384 r.channels && r.entries.length == r.channels &&
  (bit r.flags 3 || r.statsRegion == 0) && r.statsOffset % 64 == 0 &&
  r.entries.all (fun e =>
    (if r.mode = 0 then decide (e.shift < 32) else e.shift == 0 && fFinite e.mult && fFinite e.bias) &&
    (if r.format = 1 then decide (-8 ≤ e.zero) && decide (e.zero ≤ 7) else r.format == 2 || e.zero == 0))

/-- A codebook set on its own (R168, R169, Table 7.7). -/
def codebookOk (c : Codebook) : Bool :=
  rng 1 4294967295 c.id && (c.indexBits == 4 || c.indexBits == 8) && [2, 3, 4, 9].contains c.format && rng 0 1 c.granularity &&
  decide (1 ≤ c.tables) && decide (c.tables * 2 ^ c.indexBits * (if c.format = 9 then 2 else 1) ≤ 32768) && (c.granularity == 0 || c.reduction % 128 == 0)

/-! ### Records of Sniff, the cameras and memory -/

/-- Tier parameters on their own (Tables 3.1 and 3.7). -/
def tierOk (t : TierRec) : Bool :=
  rng 1 3 t.tier && rng 1 (if t.tier = 1 then 8 else if t.tier = 2 then 64 else 16) t.total && decide (t.shared ≤ t.total) &&
  [t.d0, t.d1, t.d2, t.d3].all (fun q => decide (q ≤ 32)) && decide (6144 ≤ t.idleHold)

/-- Routes of one record (R91, R342, Table 3.9). -/
def routesOk (l : List Route) : Bool :=
  l.all (fun r => rng 1 3 r.target && (decide (r.stream < 48) || r.stream == 255) && decide (r.prio < 4) && decide (r.part < 128)) &&
  once (fun r => (r.target, r.stream, r.cls)) l &&
  l.all (fun r => l.all (fun q => r.target == 1 || r.stream == 255 || q.target != r.target || q.stream != r.stream || q.prio == r.prio))

/-- Audio inputs (R94, Table 4.4). -/
def audioInOk (a : AudioIn) : Bool :=
  decide (a.tdmEnable < 2) && rng 1 16 a.tdmSlots && [16, 24, 32].contains a.slotBits && decide (a.tdmFlags < 8) &&
  (List.range 8).all (fun n => !bit a.pdmLines n || a.pdmClocks / 4 ^ (n / 2) % 4 != 3) &&
  (a.tdmEnable == 0 || decide (a.tdmSlots * a.slotBits * 48000 ≤ 24576000))

/-- Audio stream (Table 4.5). -/
def audioRecOk (a : AudioRec) : Bool :=
  decide (a.stream < 48) && decide (a.slot < 8) && decide (a.kind < 2) && decide (a.source < 16) && decide (-48 ≤ a.gain) && decide (a.gain ≤ 48) &&
  decide (a.flags < 4) && rng 1 16 a.hold && decide (a.fall < 8) && rng 4 15 a.rise && decide (a.fall < a.rise) && decide (a.cls < 255) &&
  decide (-1024 ≤ a.floorInit) && decide (a.floorInit ≤ 0)

/-- Perk graph (Table 4.6). -/
def perkOk (g : PerkGraph) : Bool :=
  decide (g.inputKind < 2) && rng 1 32 g.outputs && decide (1 ≤ g.maxSteps) && rng 0 200 g.lookback && (g.inputKind == 0 || g.lookback == 0) &&
  g.sramOffset % 4096 == 0 && g.sramBytes % 4096 == 0 && decide (g.sramBytes ≠ 0) && decide (g.sramOffset + g.sramBytes ≤ 1048576) &&
  decide (g.classBase + g.outputs ≤ 255)

/-- Receive port (R112, R119, Table 5.5). -/
def rxPortOk (p : RxPort) : Bool :=
  decide (p.port < 4) && [1, 2, 4].contains p.lanes && rng 80 4500 p.rate && decide (p.flags < 8) &&
  (!bit p.flags 1 || (p.lanes == 1 && decide (p.rate ≤ 800)))

/-- Camera stream (R120, R123, Table 5.6). -/
def camOk (c : CamRec) : Bool :=
  decide (c.stream < 48) && decide (c.port < 4) && decide (c.vc < 16) && [0x1E, 0x2A, 0x2B, 0x2C, 0x2D].contains c.dt && rng 16 4096 c.width && rng 16 2304 c.height &&
  rng 61440 6144000 c.period && decide (1 ≤ c.idleFrames) && decide (c.pipe < 3) && (if c.pipe = 1 then rng 1 4 c.rawBuffers else c.rawBuffers == 0) &&
  (decide (c.sensor < 32) || c.sensor == 255) && decide (c.latency < 8) && decide (c.fnMode < 2) && (if c.fnMode = 1 then decide (2 ≤ c.fnWrap) else c.fnWrap == 0) &&
  (c.pipe != 2 || (rng 16 256 c.width && rng 16 256 c.height && (c.dt == 0x1E || c.dt == 0x2A) && c.region % 4096 == 0 && c.tuning == 0)) &&
  (if c.dt = 0x1E then c.tuning == 0 else c.pipe == 2 || (c.tuning != 0 && c.region != 0)) && (c.pipe != 0 || decide ((c.width + 16) * c.height * 6144000 ≤ 600000000 * c.period))

/-- Tensor output (R125, Table 5.7). -/
def outOk (o : TensorOut) : Bool :=
  decide (o.stream < 48) && decide (o.format < 3) && decide (o.flags < 8) && o.cropX % 2 == 0 && o.cropY % 2 == 0 && rng 16 4096 o.outW && rng 16 2304 o.outH &&
  (if o.format = 2 then o.cropW % 2 == 0 && o.cropH % 2 == 0 && rng o.outW (16 * o.outW) (o.cropW / 2) && rng o.outH (16 * o.outH) (o.cropH / 2)
   else rng o.outW (16 * o.outW) o.cropW && rng o.outH (16 * o.outH) o.cropH)

/-- Sensor table entry (Table 5.8). -/
def sensorOk (r : SensorRec) : Bool :=
  decide (r.sensor < 32) && decide (r.port < 2) && decide (r.flags < 8) && decide (r.staticAddr < 128) && rng 8 0x5F r.dynAddr &&
  (!bit r.flags 0 || r.dynAddr == r.staticAddr) && decide (r.pid < 2 ^ 48) && decide (r.pidMask < 2 ^ 48)

/-- Catalogue (R194, Table 8.4). -/
def catOk (c : CatRec) : Bool :=
  decide (c.slot < 8) && decide (c.part < 128) && rng 1 7 c.cellOp && decide (c.direction < 2) && rng 1 64 c.k &&
  (if c.cellOp = 4 then rng 256 16384 c.dims && c.dims % 256 == 0 && c.itemBytes == ceilDiv (c.dims / 8) 64 * 64
   else rng 16 4096 c.dims && c.dims % 16 == 0 && c.itemBytes == ceilDiv c.dims 64 * 64) &&
  rng 1 4194304 c.capacity && decide (c.baseCount ≤ c.capacity) && c.baseOffset % 64 == 0 && (c.baseCount == 0) == (c.blob == 0) &&
  decide (c.batchWait ≤ 0xFFFFFF) && decide (c.minMargin ≤ 0x7FFFFFFF) && bit c.queryMask c.part

/-- A region lies wholly in DRAM (Table 1.4). -/
def inDram (r : Region) : Bool := decide (r.base + r.pages * 4096 ≤ 0x800000000)

/-- A region lies wholly in the stacked store. -/
def inStore (r : Region) : Bool := decide (0x1000000000 ≤ r.base) && decide (r.base + r.pages * 4096 ≤ 0x1006000000)

/-- Regions of one record (R282, Table 12.6). -/
def regionsOk (l : List Region) : Bool :=
  l.all (fun r => decide (1 ≤ r.id) && decide (r.part < 128) && decide (r.kind < 4) && decide (r.flags < 2) && r.base % 4096 == 0 && decide (1 ≤ r.pages) && (inDram r || inStore r)) &&
  once (fun r => r.id) l && apart (l.map (fun r => (0, r.base, r.base + r.pages * 4096)))

/-- Memory configuration (R289, Table 12.7). -/
def memCfgOk (m : MemCfg) : Bool :=
  (if bit m.flags 1 then [3200, 4266, 5500, 6400, 7500, 8533].contains m.rate else [3200, 4266, 5500, 6400].contains m.rate) && rng 1 2 m.ranks && decide (m.flags < 4) &&
  rng 1 98 m.shareRead && rng 1 98 m.shareWrite && rng 1 98 m.shareRemote && m.shareRead + m.shareWrite + m.shareRemote == 100 &&
  (if bit m.flags 0 then rng 30 40 m.scrubLog2 else m.scrubLog2 == 0) && decide (m.retainMask < 2 ^ 48) &&
  decide (((List.range 48).filter (fun b => bit m.retainMask b)).length ≤ 16)

/-- Weight window (R290, Table 12.9). -/
def windowOk (w : WindowRec) : Bool :=
  decide (w.window < 4) && decide (w.part < 128) && rng 2 4 w.depth && decide (w.home < 4) && rng 1 512 w.layers && w.entries.length == w.layers &&
  decide (1 ≤ w.slotBytes) && w.slotBytes % 4096 == 0 && rng 16384 268435456 w.timeout &&
  w.entries.all (fun e => e.offset % 4096 == 0 && e.bytes % 64 == 0 && rng 64 w.slotBytes e.bytes)

/-- Partitions of one record (R315, R322, Table 13.7). -/
def partsOk (l : List PartRec) : Bool :=
  let sram (p : PartRec) (n : Nat) : Nat × Nat := (p.sram / 65536 ^ n % 256, p.sram / 65536 ^ n / 256 % 256)
  l.all (fun p => decide (p.part < 128) && decide (p.flags < 8) && decide (p.affinityWait ≤ 4096) && decide (p.streams < 2 ^ 48) && (p.quota != 0 || !bit p.flags 2) &&
    (List.range 4).all (fun n => decide ((sram p n).1 ≤ 63) && decide ((sram p n).1 + (sram p n).2 ≤ 64))) &&
  once (fun p => p.part) l && l.any (fun p => p.part == 0) && (List.range 48).all (fun s => decide ((l.filter (fun p => bit p.streams s)).length ≤ 1)) &&
  apart (l.flatMap (fun p => (List.range 4).map (fun n => (n, (sram p n).1, (sram p n).1 + (sram p n).2))))

/-- Graph record (Table 13.10). -/
def graphOk (g : Graph) : Bool :=
  rng 1 65535 g.id && decide (g.part < 128) && [0, 1, 4, 8, 16].contains g.batchShape && (if g.batchShape = 0 then rng 1 64 g.instances && g.prio == 0 else g.instances == 2 && decide (g.prio < 4)) &&
  rng 0 63 g.regionCount && g.regions.length == g.regionCount && rng 1 16777215 g.descriptors && rng 1 2048 g.barrierCells && decide (1 ≤ g.instanceFloor) &&
  decide (g.barrierBase + g.instances * g.barrierCells ≤ 8192)

/-- Host interfaces (R361, R367, Table 15.14). -/
def hostIfOk (h : HostIf) : Bool :=
  [0, 1, 2, 4].contains (h.txLanes % 8) && [0, 1, 2, 4].contains (h.txLanes / 16 % 8) && !bit h.txLanes 3 && !bit h.txLanes 7 && decide (h.txFlags < 16) &&
  rng 80 4500 h.txRate && decide (h.ibiSpacing ≤ 6144000) && (h.telemetryPeriod == 0 || decide (61440 ≤ h.telemetryPeriod)) &&
  h.gpioFunction.all (fun f => decide (f.toNat ≤ 6)) && decide ((h.gpioFunction.filter (fun f => f == 2)).length ≤ 1) && rng 0 64 h.telemetryWords &&
  h.offsets.length == h.telemetryWords && h.offsets.all (fun o => o % 4 == 0 && decide (o < 0x100000))

/-- Output channels of one record (R362, Table 15.15). -/
def channelsOk (l : List Channel) : Bool :=
  l.all (fun c => decide (c.part < 128) && decide (c.port < 2) && decide (c.vc < 16) && decide (c.types < 32) &&
    (if bit c.types 4 then decide (c.stream < 48) && decide (c.format < 2) else c.stream == 255 && c.format == 0)) &&
  l.all (fun c => l.all (fun e => c.port != e.port || c.vc != e.vc || c.part == e.part)) &&
  once id (l.flatMap (fun c => ((List.range 4).filter (fun t => bit c.types t)).map (fun t => (c.part, t)))) &&
  once (fun c => c.stream) (l.filter (fun c => bit c.types 4))

/-- Reliability policy (Table 19.7). -/
def relOk (r : RelRec) : Bool :=
  (r.selftestLog2 == 0 || rng 36 44 r.selftestLog2) && (r.bankLog2 == 0 || rng 36 44 r.bankLog2) && rng 32 44 r.measureLog2 && rng 30 44 r.abortLog2 && decide (1 ≤ r.baseAllow) &&
  [r.g0, r.g1, r.g2].all (fun g => decide (g ≤ 100) && g % 5 == 0) && [r.d0, r.d1, r.d2].all (fun v => decide (v ≤ 1024)) && [r.u0, r.u1, r.u2].all (fun u => rng 1 64 u)

/-! ### One record on its own -/

/-- What the checks of one record read besides it. -/
structure RecCtx where
  /-- nand_devices of the header -/
  nand : Nat := 0
  /-- flash density -/
  density : Nat := 0
  /-- erase blocks that SFDP names, KiB -/
  erase : List Nat := []
  /-- lifecycle state -/
  life : Nat := 0

/-- The two device-written regions lie in the flash at erase-block boundaries (R35, R40, R63, Table 2.12). -/
def bootPolicyOk (c : RecCtx) (b : BootPolicy) : Bool :=
  [4, 64, 256].contains b.eraseKib && c.erase.contains b.eraseKib && b.marginOffset % (b.eraseKib * 1024) == 0 && b.errlogOffset % (b.eraseKib * 1024) == 0 &&
  decide (b.marginOffset + 2 * b.eraseKib * 1024 ≤ c.density) && decide (b.errlogOffset + 2 * b.eraseKib * 1024 ≤ c.density) &&
  decide (b.retries ≤ 3) && decide (b.errorAction ≤ 1) && rng 30 40 b.spacingLog2 && decide (b.advanceFloor ≤ 1)

/-- Bytes of data that one BCH codeword protects, and of its parity in the spare area (R36). -/
def chunkBytes : Nat × Nat := (1024, 28)

/-- Chunks of a page. -/
def chunksOf (g : NandGeom) : Nat := g.pageBytes / chunkBytes.1

/-- SPI-NAND geometry (R36, Table 2.13): the parity of each chunk fits the spare area. -/
def nandOk (c : RecCtx) (g : NandGeom) : Bool :=
  (g.pageBytes == 2048 && decide (64 ≤ g.spareBytes) || g.pageBytes == 4096 && decide (128 ≤ g.spareBytes)) && (g.pagesPerBlock == 64 || g.pagesPerBlock == 128) &&
  rng 512 8192 g.blocks && decide (g.readMode < 3) && decide (g.clock ≤ if g.readMode = 2 then 104 else 133) && decide (g.dummy < 16) && decide (g.markerPages < 2) &&
  decide (chunksOf g * chunkBytes.2 ≤ g.spareBytes) && decide (g.pageBytes * g.pagesPerBlock * g.blocks * c.nand ≤ 2147483648)

/-- The equal fields of the capability table (Table 2.11): offset, size, value on B0. -/
def capability : List (Nat × Nat × Nat) :=
  [(0, 2, 0x3648), (2, 1, 0xB0), (3, 1, 1), (4, 1, 4), (5, 1, 6), (6, 1, 4), (7, 1, 24), (8, 2, 4096), (10, 2, 96), (12, 2, 128), (14, 1, 48), (15, 1, 4), (16, 1, 2), (17, 1, 8)]

/-- The capability table matches, dram_min_mib apart (R49). A set bit above format_mask's last format counts as an unsupported format
(R49, 0xA2), not as a reserved field (R12) (DESIGN CHOICE, log 121). -/
def capabilityOk (b : Bytes) : Bool :=
  capability.all (fun f => (if f.2.1 = 1 then u8 b f.1 else u16 b f.1) == f.2.2) && decide (u32 b 20 < 8192)

/-- A record body meets its own rules. Types that no chapter defines meet none (R46). -/
def bodyOk (c : RecCtx) (ty : Nat) (b : Bytes) : Bool :=
  let one (n : Nat) (fs : List (Nat × Nat)) : Bool := b.length == n && rsv fs b
  let each (n lo hi : Nat) (fs : List (Nat × Nat)) : Bool := eachEntry n lo hi b (rsv fs)
  match ty with
  | 0x0101 => decide (0x48 ≤ b.length) && u32 b 4 + 0x48 == b.length
  | 0x0102 => one 32 [(18, 2), (28, 4)]
  | 0x0103 => one 16 [(14, 2)] && bootPolicyOk c (parseBootPolicy b)
  | 0x0104 => one 16 [(12, 4)] && c.nand != 0 && nandOk c (parseNandGeom b)
  | 0x0201 => one 16 [(3, 1), (12, 4)] && tierOk (parseTierRec b)
  | 0x0202 => each 4 1 128 [] && (let l := (entries 4 b).map parseFloorRec; l.all (fun f => decide (f.part < 128)) && once (fun f => f.part) l)
  | 0x0203 => each 8 1 1024 [(5, 1)] && routesOk ((entries 8 b).map parseRoute)
  | 0x0204 => each 12 0 128 [(2, 2)] && (let l := (entries 12 b).map parsePrePolicy
      l.all (fun f => decide (f.part < 128) && decide (f.flags < 8) && decide (f.pre + f.post ≤ 32768)) && once (fun f => f.part) l)
  | 0x0205 => each 4 1 48 [] && (let l := (entries 4 b).map parseWakeInput
      l.all (fun f => decide (f.input < 0x30) && decide (f.mode < 4) && (decide (f.stream < 48) || f.stream == 255) && decide (f.cls < 255)) && once (fun f => f.input) l)
  | 0x0301 => one 8 [(6, 2)] && audioInOk (parseAudioIn b)
  | 0x0302 => one 16 [(11, 1), (14, 2)] && audioRecOk (parseAudioRec b)
  | 0x0303 => one 24 [(23, 1)] && perkOk (parsePerkGraph b)
  | 0x0401 => one 8 [(5, 3)] && rxPortOk (parseRxPort b)
  | 0x0402 => one 32 [(28, 4)] && camOk (parseCamRec b)
  | 0x0403 => one 32 [] && outOk (parseTensorOut b)
  | 0x0404 => one 32 [(7, 1), (26, 2)] && sensorOk (parseSensorRec b)
  | 0x0405 => one 8 [(6, 2)] && (let p := parseCtrlPort b; decide (p.port < 2) && decide (p.flags < 2) && rng 100 12500 p.sdrKhz && [100, 400, 1000].contains p.i2cKhz)
  | 0x0501 => one 8 [(6, 2)] && (let r := parseCoreRec b; decide (r.core < 24) && r.act + r.wt + r.acc + r.state == 24 && decide (r.ramp < 3))
  | 0x0502 => each 32 1 16384 [(28, 4)] && (let l := (entries 32 b).map parseTemplate; l.all templateOk && once (fun t => t.id) l)
  | 0x0601 => decide (24 ≤ b.length) && (b.length - 24) % 12 == 0 && rsv [(7, 1), (10, 2), (20, 4)] b && (entries 12 (b.drop 24)).all (rsv [(10, 2)]) && requantOk (parseRqTable b)
  | 0x0602 => one 20 [(7, 1)] && codebookOk (parseCodebook b)
  | 0x0603 => each 12 1 16384 [(6, 2)] && (let l := (entries 12 b).map parseFmtOpt
      l.all (fun o => decide (o.wVariant < 2) && decide (o.aVariant < 2) && (o.groupLog2 == 0 || rng 5 8 o.groupLog2) && decide (o.scaleFlags < 2)) && once (fun o => o.template) l)
  | 0x0604 => each 8 1 384 [] && (let l := (entries 8 b).map parseWatched; l.all (fun w => decide (w.core < 24) && decide (w.slot < 16)) && once (fun w => (w.core, w.slot)) l)
  | 0x0605 => each 12 1 40 [(1, 3)] && (let l := (entries 12 b).map parseClipStat; l.all (fun w => decide (w.stream < 48) && w.offset % 64 == 0) && once (fun w => w.stream) l)
  | 0x0701 => one 64 [(7, 1), (34, 2)] && catOk (parseCatRec b)
  | 0x0801 => each 40 1 16384 [(39, 1)] && (let l := (entries 40 b).map parseConvOp; l.all convOk && once (fun v => v.template) l)
  | 0x0802 => each 32 1 65535 [(29, 3)] && (let l := (entries 32 b).map parsePoolOp; l.all poolOk && once (fun v => v.id) l)
  | 0x0803 => each 16 1 65535 [(2, 2), (12, 4)] && (let l := (entries 16 b).map parseZcOut; l.all (fun z => z.statsOffset % 64 == 0) && once (fun v => v.producer) l)
  | 0x0901 => each 32 1 65535 [(28, 4)] && (let l := (entries 32 b).map parseScanOp; l.all scanOk && once (fun v => v.id) l)
  | 0x0902 => each 32 1 65535 [(7, 1)] && (let l := (entries 32 b).map parseBlockRec
      l.all (fun r => decide (1 ≤ r.id) && decide (r.seq < 64) && decide (r.core < 24) && rng 1 2 r.spillTier && decide (1 ≤ r.count) && r.slotOffset % 4096 == 0 &&
        r.storeOffset % 4096 == 0 && r.dramOffset % 4096 == 0 && (r.spillTier == 1 || r.storeRegion == 0)) && once (fun r => r.id) l)
  | 0x0903 => each 16 1 64 [(9, 3)] && (let l := (entries 16 b).map parseSeqRec
      l.all (fun r => decide (r.seq < 64) && (decide (r.stream < 48) || r.stream == 255) && decide (r.part < 128) && decide (r.flags < 4) &&
        (if bit r.flags 0 then rng 1 64 r.lookahead else r.backward == 0 && r.lookahead == 0)) && once (fun r => r.seq) l)
  | 0x0A01 => each 32 1 65535 [(18, 2), (24, 8)] && (let l := (entries 32 b).map parseAttnOp; l.all attnOk && once (fun r => r.id) l)
  | 0x0A02 => each 32 1 256 [(11, 1), (20, 12)] && (let l := (entries 32 b).map parseKvRec
      l.all (fun r => decide (r.part < 128) && [1, 2, 5, 8].contains r.format && decide (r.flags < 2) && (r.headDim == 64 || r.headDim == 128) && rng 1 16 r.kvHeads && rng 1 64 r.layers &&
        rng (if bit r.flags 0 then 2 else 1) 512 r.tablePages && decide (r.pool < 16) && r.offset % 64 == 0) && once (fun r => r.seq) l)
  | 0x0A03 => each 24 1 16 [(5, 3)] && (let l := (entries 24 b).map parsePagePool
      l.all (fun r => decide (r.pool < 16) && [1, 2, 5, 8].contains r.format && (r.headDim == 64 || r.headDim == 128) && rng 1 16 r.kvHeads && r.offset % 4096 == 0 && rng 1 0xFFFFFF r.pages) &&
        once (fun r => r.pool) l)
  | 0x0A04 => each 4 0 2048 [] && (let l := (entries 4 b).map parsePageFloor; l.all (fun r => decide (r.part < 128)) && once (fun r => (r.pool, r.part)) l)
  | 0x0B01 => each 32 1 1024 [(7, 1), (28, 4)] && regionsOk ((entries 32 b).map parseRegion)
  | 0x0B02 => one 32 [(16, 16)] && memCfgOk (parseMemCfg b)
  | 0x0B03 => each 8 0 128 [(3, 1)] && (let l := (entries 8 b).map parseTagFloor
      let sum (f : TagFloor → Nat) : Nat := l.foldl (fun a t => a + f t) 0
      l.all (fun t => decide (t.part < 128)) && once (fun t => t.part) l && decide (sum (fun t => t.read) ≤ 240) && decide (sum (fun t => t.write) ≤ 112) &&
        decide (sum (fun t => t.s0) ≤ 64) && decide (sum (fun t => t.s1) ≤ 64) && decide (sum (fun t => t.s2) ≤ 64) && decide (sum (fun t => t.s3) ≤ 64))
  | 0x0B04 => decide (32 ≤ b.length) && (b.length - 32) % 8 == 0 && rsv [(6, 2), (24, 8)] b && windowOk (parseWindowRec b)
  | 0x0B05 => each 8 0 8192 [(6, 2)] && (let l := (entries 8 b).map parseCellRange
      l.all (fun r => decide (r.cluster < 4) && decide (r.part < 128) && decide (1 ≤ r.count) && decide (r.first + r.count ≤ 2048)) &&
        apart (l.map (fun r => (r.cluster, r.first, r.first + r.count))))
  | 0x0C01 => each 32 1 128 [(24, 8)] && partsOk ((entries 32 b).map parsePartRec)
  | 0x0C02 => one 16 [(4, 12)] && rng 65536 268435456 (u32 b 0)
  | 0x0C03 => each 16 1 256 [(2, 2)] && (let l := (entries 16 b).map parseDescPool
      l.all (fun r => decide (r.part < 128) && r.offset % 4096 == 0 && rng 1 1048576 r.slots) && once (fun r => r.pool) l)
  | 0x0C04 => decide (32 ≤ b.length) && (b.length - 32) % 4 == 0 && graphOk (parseGraph b)
  | 0x0D01 => decide (32 ≤ b.length) && (b.length - 32) % 4 == 0 && rsv [(31, 1)] b && hostIfOk (parseHostIf b)
  | 0x0D02 => each 12 1 64 [(6, 2)] && channelsOk ((entries 12 b).map parseChannel)
  | 0x0D03 => each 4 0 128 [(3, 1)] && (let l := (entries 4 b).map parseHostPolicy
      l.all (fun r => decide (r.part < 128) && decide (r.flags < 4) && decide (r.ibiMask < 8)) && once (fun r => r.part) l)
  | 0x0E01 => decide (16 ≤ b.length) && (b.length - 16) % 8 == 0 && rsv [(8, 8)] b && (entries 8 (b.drop 16)).all (rsv [(5, 3)]) &&
      (let r := parseKeyRec b
       r.offset % 4096 == 0 && rng 1 64 r.keyCount && rng 1 4095 r.count && r.entries.length == r.count && r.entries.all (fun e => decide (e.index < r.keyCount)) &&
         once (fun (e : KeyEntry) => e.blob) r.entries)
  | 0x0E02 => each 36 1 127 [(1, 3)] && (let l := (entries 36 b).map parseAuthRec; l.all (fun r => rng 1 127 r.part) && once (fun r => r.part) l)
  | 0x0E03 => one 96 [] && c.life == 4
  | 0x0F01 => one 4 [(2, 2)] && (let r := parseKenRec b; decide (r.part < 128) && decide (r.flags < 2))
  | 0x1001 => one 16 [(3, 1), (6, 10)] && (let r := parsePowerRec b; rng 2000 10000 r.limit && decide (r.topPoint < 3) && rng 50 1000 r.watchdog)
  | 0x1101 => one 24 [(6, 2), (11, 1), (21, 3)] && relOk (parseRelRec b)
  | 0x1102 => one 4 [(2, 2)] && u16 b 0 % 2 == 0
  | _ => false

/-- Cause of rejection of a record's body, none when it stands (R45, R48, R49). A record 0x0102 that breaks R12 and R49 both is
rejected for R12, with 0xA1 (DESIGN CHOICE, log 121). -/
def bodyCause (c : RecCtx) (ty : Nat) (b : Bytes) : Option Nat :=
  if !bodyOk c ty b then some 0xA1
  else if ty = 0x0101 ∧ Config.ecdsaVerify Config.makerKey (slice b 0x48 (u32 b 4)) (slice b 8 64) = false then some 0xA0
  else if ty = 0x0102 ∧ capabilityOk b = false then some 0xA2
  else none

/-- A record type of which an image holds at most one, checked as the records stream in (R47). -/
def soleType (ty : Nat) : Bool := rng 0x0101 0x0104 ty

/-- Padding of a body to the next 16-byte boundary (Table 2.8: counted from the record's header). -/
def padTo (n : Nat) : Nat := (16 - (n + 8) % 16) % 16

/-- Cause of rejection of a manifest's record as it streams in: entry, header, digest, order and version, then its own rules (R40,
R45 to R47). -/
def recordCause (c : RecCtx) (img : Image) (i : Nat) (bytes : Bytes) : Option Nat :=
  let e := img.recs.getD i {}
  let body := slice bytes 8 e.length
  if decide (0x800000 < e.length) || e.offset % 16 != 0 || e.reserved != 0 || decide (c.density < e.offset + 8 + e.length + padTo e.length) then some 0xA1
  else if bytes.length != 8 + e.length + padTo e.length then some 0xA1
  else if u16 bytes 0 != e.ty || u16 bytes 2 != e.version || u32 bytes 4 != e.length then some 0xA1
  else if Config.sha256 (bytes.take (8 + e.length)) != e.digest then some 0xA1
  else if e.version != 1 || !zeroField bytes (8 + e.length) (padTo e.length) then some 0xA1
  else if decide (0 < i) && decide (e.ty < (img.recs.getD (i - 1) {}).ty) then some 0xA1
  else if decide (0 < i) && soleType e.ty && e.ty == (img.recs.getD (i - 1) {}).ty then some 0xA1
  else bodyCause c e.ty body

/-- Put a record's body into the image, and count its entries. -/
def addRecord (ty : Nat) (b : Bytes) (img : Image) : Image :=
  let n (k : Nat) : Image := { img with counts := img.counts ++ [k] }
  let one := n 1
  let many (size : Nat) : Image := n (b.length / size)
  match ty with
  | 0x0101 => { one with fwVersion := u32 b 0, fwDigest := Config.sha256 (slice b 0x48 (u32 b 4)) }
  | 0x0102 => { one with dramMin := u32 b 24 }
  | 0x0103 => { one with boot := some (parseBootPolicy b) }
  | 0x0104 => { one with nand := some (parseNandGeom b) }
  | 0x0201 => { one with tiers := img.tiers ++ [parseTierRec b] }
  | 0x0202 => { many 4 with floors := img.floors ++ (entries 4 b).map parseFloorRec }
  | 0x0203 => { many 8 with routes := img.routes ++ (entries 8 b).map parseRoute }
  | 0x0204 => { many 12 with prePolicies := img.prePolicies ++ (entries 12 b).map parsePrePolicy }
  | 0x0205 => { many 4 with wakeInputs := img.wakeInputs ++ (entries 4 b).map parseWakeInput }
  | 0x0301 => { one with audioIn := some (parseAudioIn b) }
  | 0x0302 => { one with audio := img.audio ++ [parseAudioRec b] }
  | 0x0303 => { one with perk := img.perk ++ [parsePerkGraph b] }
  | 0x0401 => { one with rxPorts := img.rxPorts ++ [parseRxPort b] }
  | 0x0402 => { one with cams := img.cams ++ [parseCamRec b] }
  | 0x0403 => { one with outs := img.outs ++ [parseTensorOut b] }
  | 0x0404 => { one with sensors := img.sensors ++ [parseSensorRec b] }
  | 0x0405 => { one with ctrlPorts := img.ctrlPorts ++ [parseCtrlPort b] }
  | 0x0501 => { one with cores := img.cores ++ [parseCoreRec b] }
  | 0x0502 => { many 32 with templates := img.templates ++ (entries 32 b).map parseTemplate }
  | 0x0601 => { one with requants := img.requants ++ [parseRqTable b] }
  | 0x0602 => { one with codebooks := img.codebooks ++ [parseCodebook b] }
  | 0x0603 => { many 12 with fmtOpts := img.fmtOpts ++ (entries 12 b).map parseFmtOpt }
  | 0x0604 => { many 8 with watched := img.watched ++ (entries 8 b).map parseWatched }
  | 0x0605 => { many 12 with clipStats := img.clipStats ++ (entries 12 b).map parseClipStat }
  | 0x0701 => { one with cats := img.cats ++ [parseCatRec b] }
  | 0x0801 => { many 40 with convs := img.convs ++ (entries 40 b).map parseConvOp }
  | 0x0802 => { many 32 with pools := img.pools ++ (entries 32 b).map parsePoolOp }
  | 0x0803 => { many 16 with zcOuts := img.zcOuts ++ (entries 16 b).map parseZcOut }
  | 0x0901 => { many 32 with scans := img.scans ++ (entries 32 b).map parseScanOp }
  | 0x0902 => { many 32 with blocks := img.blocks ++ (entries 32 b).map parseBlockRec }
  | 0x0903 => { many 16 with seqs := img.seqs ++ (entries 16 b).map parseSeqRec }
  | 0x0A01 => { many 32 with attns := img.attns ++ (entries 32 b).map parseAttnOp }
  | 0x0A02 => { many 32 with kvs := img.kvs ++ (entries 32 b).map parseKvRec }
  | 0x0A03 => { many 24 with pagePools := img.pagePools ++ (entries 24 b).map parsePagePool }
  | 0x0A04 => { many 4 with pageFloors := img.pageFloors ++ (entries 4 b).map parsePageFloor }
  | 0x0B01 => { many 32 with regions := img.regions ++ (entries 32 b).map parseRegion }
  | 0x0B02 => { one with mem := some (parseMemCfg b) }
  | 0x0B03 => { many 8 with tagFloors := img.tagFloors ++ (entries 8 b).map parseTagFloor }
  | 0x0B04 => { one with windows := img.windows ++ [parseWindowRec b] }
  | 0x0B05 => { many 8 with cellRanges := img.cellRanges ++ (entries 8 b).map parseCellRange }
  | 0x0C01 => { many 32 with parts := img.parts ++ (entries 32 b).map parsePartRec }
  | 0x0C02 => { one with window := u32 b 0 }
  | 0x0C03 => { many 16 with descPools := img.descPools ++ (entries 16 b).map parseDescPool }
  | 0x0C04 => { one with graphs := img.graphs ++ [parseGraph b] }
  | 0x0D01 => { one with hostIf := some (parseHostIf b) }
  | 0x0D02 => { many 12 with channels := img.channels ++ (entries 12 b).map parseChannel }
  | 0x0D03 => { many 4 with policies := img.policies ++ (entries 4 b).map parseHostPolicy }
  | 0x0E01 => { one with keys := some (parseKeyRec b) }
  | 0x0E02 => { many 36 with auths := img.auths ++ (entries 36 b).map parseAuthRec }
  | 0x0E03 => { one with unlock := some (parseUnlockRec b) }
  | 0x0F01 => { one with ken := some (parseKenRec b) }
  | 0x1001 => { one with power := parsePowerRec b }
  | 0x1101 => { one with rel := parseRelRec b }
  | 0x1102 => { one with injMask := u16 b 0 }
  | _ => one

end Sys2Proof.Machine
end

