-- ==== Sys2Proof/Machine/Cross.lean ====
section
/-! DEFINITION. The checks of acceptance that involve more than one record (R52, R479 step 5), and the rules of R308 that only a
loaded graph blob can show. Each check answers the lowest record index it involves. -/

namespace Sys2Proof.Machine

/-! ### Entries with the record they stand in -/

/-- Record index of every entry of a type, in manifest order. -/
def recIdx (img : Image) (ty : Nat) : List Nat :=
  (img.recs.zip img.counts).zipIdx.flatMap (fun p => if p.1.1.ty = ty then List.replicate p.1.2 p.2 else [])

/-- Entries of a type with their record indexes. -/
def tagged {α : Type} (img : Image) (ty : Nat) (xs : List α) : List (Nat × α) := (recIdx img ty).zip xs

/-- Index of the first record of a type. -/
def firstIdx (img : Image) (ty : Nat) : Nat := (img.recs.findIdx? (fun e => e.ty == ty)).getD noEntry

/-- A check that names a record: the lowest that it involves (R52). An entry that names another one involves that other's record
where there is one (DEDUCED, log 126). -/
def ck (i : Nat) (ok : Bool) : List Nat := if ok then [] else [i]

/-- The lower of a record's index and those of some entries' records. -/
def lowest {α : Type} (i : Nat) (l : List (Nat × α)) (p : α → Bool) : Nat := (l.filter (fun x => p x.2)).foldl (fun a x => min a x.1) i

/-- A check of an entry against the one it names. -/
def mate {α : Type} (i : Nat) (o : Option (Nat × α)) (p : α → Bool) : List Nat :=
  match o with
  | none => [i]
  | some (j, y) => ck (min i j) (p y)

/-- Checks of every entry of a list. -/
def forAll {α : Type} (l : List (Nat × α)) (f : Nat → α → List Nat) : List Nat := l.flatMap (fun x => f x.1 x.2)

/-- A key that two entries share. -/
def dups {α β : Type} [DecidableEq β] (key : α → β) : List (Nat × α) → List Nat
  | [] => []
  | x :: r => ck x.1 (!r.any (fun y => key y.2 == key x.2)) ++ dups key r

/-- Spans (first, past the last) that overlap. -/
def clashes : List (Nat × Nat × Nat) → List Nat
  | [] => []
  | x :: r => (r.filter (fun y => decide (y.2.1 < x.2.2) && decide (x.2.1 < y.2.2))).map (fun y => min x.1 y.1) ++ clashes r

/-- Blob of an identifier exists. -/
def blobThere (img : Image) (b : Nat) : Bool := img.blobs.any (fun e => e.id == b)

/-- Blob of an identifier exists, or the identifier is 0. -/
def blobOr0 (img : Image) (b : Nat) : Bool := b == 0 || blobThere img b

/-- Region entries with their record. -/
def regionsT (img : Image) : List (Nat × Region) := tagged img 0x0B01 img.regions

/-- A region that a record names: its kind, its owner where one is required, and a size in bytes. -/
def regionNamed (img : Image) (i r kind : Nat) (owner : Option Nat) (bytes : Nat) (p : Region → Bool) : List Nat :=
  mate i ((regionsT img).find? (fun x => x.2.id == r)) (fun x =>
    x.kind == kind && (match owner with | some o => x.part == o | none => true) && decide (bytes ≤ x.pages * 4096) && p x)

/-- Any place. -/
def anywhere (_ : Region) : Bool := true

/-! ### Counts and identifiers -/

/-- How many records of a type an image holds (R89 to R459). -/
def countRules : List (Nat × Nat × Nat) :=
  [(0x0201, 3, 3), (0x0202, 0, 1), (0x0203, 0, 1), (0x0204, 0, 1), (0x0205, 0, 1), (0x0301, 0, 1), (0x0302, 0, 8), (0x0303, 0, 16), (0x0402, 0, 40),
   (0x0404, 0, 32), (0x0502, 1, 1024), (0x0603, 0, 1), (0x0604, 0, 1), (0x0605, 0, 1), (0x0701, 0, 8), (0x0801, 0, 1), (0x0802, 0, 1), (0x0803, 0, 1),
   (0x0901, 0, 1), (0x0902, 0, 1), (0x0903, 0, 1), (0x0A01, 0, 1), (0x0A02, 0, 1), (0x0A03, 0, 1), (0x0A04, 0, 1), (0x0B01, 1, 1), (0x0B02, 1, 1), (0x0B03, 0, 1),
   (0x0B04, 0, 4), (0x0B05, 0, 1), (0x0C01, 1, 1), (0x0C02, 1, 1), (0x0C03, 1, 1024), (0x0C04, 1, 1024), (0x0D01, 1, 1), (0x0D02, 1, 1), (0x0D03, 0, 1),
   (0x0E02, 0, 1), (0x0E03, 0, 1), (0x0F01, 0, 1), (0x1001, 0, 1), (0x1101, 0, 1), (0x1102, 0, 1)]

/-- Records of a type. -/
def recCount (img : Image) (ty : Nat) : Nat := (img.recs.filter (fun e => e.ty == ty)).length

/-- Too many or too few records of a type. -/
def crossCounts (img : Image) : List Nat :=
  let enc := if img.blobs.any (fun b => bit b.flags 0) then 1 else 0
  ((0x0E01, enc, enc) :: countRules).flatMap (fun r =>
    let n := recCount img r.1
    if n < r.2.1 then [noEntry] else ck (firstIdx img r.1) (decide (n ≤ r.2.2))) ++
  ck (firstIdx img 0x0502) (decide (img.templates.length ≤ 16384))

/-- Identifiers that two records share. -/
def crossUnique (img : Image) : List Nat :=
  dups (fun (x : TierRec) => x.tier) (tagged img 0x0201 img.tiers) ++
  dups (fun (x : AudioRec) => x.stream) (tagged img 0x0302 img.audio) ++ dups (fun (x : AudioRec) => x.slot) (tagged img 0x0302 img.audio) ++
  dups (fun (x : AudioRec) => (x.kind, x.source)) (tagged img 0x0302 img.audio) ++ dups (fun (x : PerkGraph) => x.graph) (tagged img 0x0303 img.perk) ++
  dups (fun (x : RxPort) => x.port) (tagged img 0x0401 img.rxPorts) ++ dups (fun (x : CamRec) => x.stream) (tagged img 0x0402 img.cams) ++
  dups (fun (x : CamRec) => (x.port, x.vc, x.dt)) (tagged img 0x0402 img.cams) ++ dups (fun (x : TensorOut) => x.stream) (tagged img 0x0403 img.outs) ++
  dups (fun (x : SensorRec) => x.sensor) (tagged img 0x0404 img.sensors) ++ dups (fun (x : SensorRec) => (x.port, x.dynAddr)) (tagged img 0x0404 img.sensors) ++
  dups (fun (x : CtrlPort) => x.port) (tagged img 0x0405 img.ctrlPorts) ++ dups (fun (x : CoreRec) => x.core) (tagged img 0x0501 img.cores) ++
  dups (fun (x : RqTable) => x.id) (tagged img 0x0601 img.requants) ++ dups (fun (x : Codebook) => x.id) (tagged img 0x0602 img.codebooks) ++
  dups (fun (x : CatRec) => x.slot) (tagged img 0x0701 img.cats) ++ dups (fun (x : WindowRec) => x.window) (tagged img 0x0B04 img.windows) ++
  dups (fun (x : DescPool) => x.pool) (tagged img 0x0C03 img.descPools) ++ dups (fun (x : Graph) => x.id) (tagged img 0x0C04 img.graphs) ++
  dups id ((tagged img 0x0502 (img.templates.map (fun t => t.id))) ++ (tagged img 0x0802 (img.pools.map (fun p => p.id))) ++
    (tagged img 0x0901 (img.scans.map (fun p => p.id))) ++ (tagged img 0x0A01 (img.attns.map (fun p => p.id))))

/-- Owners that record 0x0C01 does not declare (R322). -/
def crossOwners (img : Image) : List Nat :=
  let own (ty : Nat) (l : List Nat) : List Nat := forAll (tagged img ty l) (fun i p => ck i (declared img p))
  own 0x0202 (img.floors.map (fun f => f.part)) ++ own 0x0203 (img.routes.map (fun r => r.part)) ++ own 0x0701 (img.cats.map (fun c => c.part)) ++
  own 0x0903 (img.seqs.map (fun c => c.part)) ++ own 0x0A02 (img.kvs.map (fun c => c.part)) ++ own 0x0A04 (img.pageFloors.map (fun c => c.part)) ++
  own 0x0B01 (img.regions.map (fun c => c.part)) ++ own 0x0B03 (img.tagFloors.map (fun c => c.part)) ++ own 0x0B04 (img.windows.map (fun c => c.part)) ++
  own 0x0B05 (img.cellRanges.map (fun c => c.part)) ++ own 0x0C03 (img.descPools.map (fun c => c.part)) ++ own 0x0C04 (img.graphs.map (fun c => c.part)) ++
  own 0x0D02 (img.channels.map (fun c => c.part)) ++
  ck (firstIdx img 0x0C01) (decide (img.parts.foldl (fun a p => a + p.quota) 0 ≤ 7 * img.window))

/-! ### Cascade and Sniff -/

/-- Index of a tier's own record. -/
def tierIdx (img : Image) (t : Nat) : Nat := lowest noEntry (tagged img 0x0201 img.tiers) (fun x => x.tier == t)

/-- Credits that a partition can hold at a tier (R304). -/
def creditNeed (img : Image) (t p : Nat) : Nat := floorOf img p t + (tierRec img t).shared

/-- Tiers, floors and routes (R90, R91, R107). -/
def crossCascade (img : Image) : List Nat :=
  let graphsT := tagged img 0x0C04 img.graphs
  let t3 := (img.routes.filter (fun r => r.target == 3)).map (fun r => (graphOf img r.graph).batchShape)
  forAll (tagged img 0x0201 img.tiers) (fun i t =>
    ck i (t.total == t.shared + img.floors.foldl (fun a f => a + (if t.tier = 1 then f.f1 else if t.tier = 2 then f.f2 else f.f3)) 0) ++
    ck i (t.tier != 3 || t3.isEmpty || decide (t.total ≤ t3.foldl max 0))) ++
  forAll (tagged img 0x0203 img.routes) (fun i r =>
    ck i (r.stream == 255 || streamOwner img r.stream == some r.part) ++
    (if r.target = 1 then
      mate i ((tagged img 0x0303 img.perk).find? (fun g => g.2.graph == r.graph)) (fun g =>
        if g.inputKind = 0 then (audioRec? img r.stream).isSome else (camRec? img r.stream).any (fun c => c.pipe == 2))
     else mate i (graphsT.find? (fun g => g.2.id == r.graph)) (fun g => r.target == 2 || isStep g)))

/-- Stage ratios of Table 4.2, CIC, half-band and FIR, from a source (kind 0: a PDM clock code; kind 1: TDM) to the 16 kHz output or
the 48 kHz one; none where the combination is not supported (R96) or the clock is off. -/
def stageRatios (kind clock : Nat) (high : Bool) : Option (Nat × Nat × Nat) :=
  match kind, clock, high with
  | 0, 0, false => some (24, 2, 1)
  | 0, 1, false => some (48, 2, 1)
  | 0, 1, true => some (16, 2, 1)
  | 0, 2, false => some (96, 2, 1)
  | 0, 2, true => some (32, 2, 1)
  | 1, _, false => some (1, 1, 3)
  | 1, _, true => some (1, 1, 1)
  | _, _, _ => none

/-- Audio streams and Perk graphs (R95, R96, R110). The region of an audio graph holds the feature buffers of credits_total instances,
whose size is a free value (DESIGN CHOICE, log 115). -/
def crossAudio (img : Image) : List Nat :=
  let input := (tagged img 0x0301 img.audioIn.toList).head?
  forAll (tagged img 0x0302 img.audio) (fun i a =>
    ck i (!img.cams.any (fun c => c.stream == a.stream)) ++
    mate i input (fun r =>
      if a.kind = 0 then
        let clock := r.pdmClocks / 4 ^ (a.source / 4) % 4
        bit r.pdmLines (a.source / 2) && (stageRatios 0 clock false).isSome && (!bit a.flags 0 || (stageRatios 0 clock true).isSome)
      else r.tdmEnable == 1 && decide (a.source < r.tdmSlots))) ++
  forAll (tagged img 0x0303 img.perk) (fun i g => ck i (blobThere img g.blob) ++
    ck (min i (tierIdx img 1)) (g.inputKind != 0 || decide ((tierRec img 1).total * Config.featureBytes ≤ g.sramBytes))) ++
  (let thumb (c : CamRec) : Nat := 2 * (ceilDiv (32 + c.width * c.height) 4096 * 4096)
   clashes ((tagged img 0x0303 img.perk).map (fun g => (g.1, g.2.sramOffset, g.2.sramOffset + g.2.sramBytes)) ++
    ((tagged img 0x0402 img.cams).filter (fun c => c.2.pipe == 2)).map (fun c => (c.1, c.2.region, c.2.region + thumb c.2))) ++
   forAll ((tagged img 0x0402 img.cams).filter (fun c => c.2.pipe == 2)) (fun i c => ck i (decide (c.region + thumb c ≤ 1048576))))

/-! ### Cameras -/

/-- Ports, streams, outputs and sensors (R115, R119, R125, R136, R481). -/
def crossCamera (img : Image) : List Nat :=
  let ports := tagged img 0x0401 img.rxPorts
  let cams := tagged img 0x0402 img.cams
  dups (fun _ => ()) (ports.filter (fun p => bit p.2.flags 1)) ++ dups (fun _ => ()) (cams.filter (fun c => c.2.pipe == 0)) ++
  forAll cams (fun i c =>
    mate i (ports.find? (fun p => p.2.port == c.port)) (fun p => (decide (c.vc < 4) || bit p.flags 0) && (c.pipe != 2 || bit p.flags 1)) ++
    ck i (c.sensor == 255 || img.sensors.any (fun s => s.sensor == c.sensor)) ++ ck i (blobOr0 img c.tuning) ++
    ck i (c.pipe == 2 || img.outs.any (fun o => o.stream == c.stream)) ++
    (if c.pipe = 1 ∨ (c.pipe = 0 ∧ c.region ≠ 0) then regionNamed img i c.region 0 none 0 anywhere else [])) ++
  forAll (tagged img 0x0403 img.outs) (fun i o =>
    mate i (cams.find? (fun c => c.2.stream == o.stream)) (fun c =>
      c.pipe != 2 && (o.format != 2 || isRaw c.dt) && decide (o.cropX + o.cropW ≤ c.width) && decide (o.cropY + o.cropH ≤ c.height)) ++
    regionNamed img i o.region 0 none (2 * slotBytes o) anywhere) ++
  forAll (tagged img 0x0404 img.sensors) (fun i s =>
    ck i (s.initBlob == 0 || img.blobs.any (fun b => b.id == s.initBlob && b.length % 4 == 0)))

/-! ### Operators -/

/-- Channels of a tile of a template. -/
def tileChans (img : Image) (t : Template) : Nat := t.outElements / max 1 (tilePositions img t)

/-- A producer's tile output is a whole number of granules (R222), with the channel places that layout 0 adds to a map; a template
without an operator record writes its channels one after the other. -/
def wholeOutput (img : Image) (id : Nat) : Bool :=
  match img.templates.find? (fun t => t.id == id) with
  | some t =>
    let bits := formatBits (((requantOf img t.requant).map (fun r => r.format)).getD 31)
    let chans := if (convOf img id).any (fun v => v.outLayout == 0) then ceilDiv (tileChans img t) 16 * 16 else tileChans img t
    tilePositions img t * chans * bits % 512 == 0
  | none =>
    let p := poolOf img id
    let chans := if bit p.flags 1 then p.channels else ceilDiv p.channels 16 * 16
    p.outElements / max 1 p.channels * chans * formatBits p.format % 512 == 0

/-- A template whose output splits a row across tiles does not quantise rows (R172). -/
def rowsWhole (img : Image) (t : Template) (r : RqTable) : Bool :=
  !bit r.flags 2 || (match convOf img t.id with | some v => tileChans img t == v.outC | none => true)

/-- Channels that a tile of a grouped operator can have: a weight block packs as many groups as its reduction rows hold, else the tile
takes one group's inputs (R217). -/
def groupChans (v : ConvOp) (rows : Nat) : Nat := max 1 (rows / max 1 (v.inC / max 1 v.groups)) * (v.outC / max 1 v.groups)

/-- Templates with the tables and options they name (R166 to R173, R183, R208, R217, R221, R225). The row operand of a window operator
lies in layout 0, where 32 elements in stored order do not stand along the reduction axis: MX formats break R166 there. -/
def crossTemplates (img : Image) : List Nat :=
  let opts := tagged img 0x0603 img.fmtOpts
  let books := tagged img 0x0602 img.codebooks
  let tmpls := tagged img 0x0502 img.templates
  let convs := tagged img 0x0801 img.convs
  forAll tmpls (fun i t =>
    ck i (blobOr0 img t.ewBlob) ++
    (if t.requant = 0 then ck i (t.shape != 4 && !bit (fmtOptOf img t.id).scaleFlags 0)
     else mate i ((tagged img 0x0601 img.requants).find? (fun r => r.2.id == t.requant)) (fun r =>
      (r.mode != 0 || intArea img t) && ((r.mode == 2) == bit (fmtOptOf img t.id).scaleFlags 0) && (t.shape != 4 || r.format == 2) && rowsWhole img t r)) ++
    ck i (t.wFormat != 11 || img.fmtOpts.any (fun o => o.template == t.id)) ++
    ck i (t.shape != 4 || img.convs.any (fun v => v.template == t.id))) ++
  forAll opts (fun i o =>
    mate i (tmpls.find? (fun t => t.2.id == o.template)) (fun t =>
      (o.wVariant == 0 || t.wFormat == 5 || t.wFormat == 6) && (o.aVariant == 0 || t.aFormat == 5 || t.aFormat == 6) &&
      (o.groupLog2 == 0 || (decide (t.wFormat ≤ 1) && 2 ^ o.groupLog2 % (shapeDims t.shape).1 == 0 && reductionLength t % 2 ^ o.groupLog2 == 0)) &&
      ((t.wFormat == 11) == (o.codebook != 0))) ++
    (if o.codebook = 0 then [] else mate (lowest i tmpls (fun t => t.id == o.template)) (books.find? (fun c => c.2.id == o.codebook)) (fun c =>
      let t := templateOf img o.template
      formatPair c.format t.aFormat && ramps.any (fun R => arrayCycles R (if c.format = 9 then 4 else 1) t == t.planned)))) ++
  forAll books (fun i c => ck i (img.blobs.any (fun b => b.id == c.blob && decide (codebookSize c ≤ b.length)))) ++
  forAll convs (fun i v =>
    mate i (tmpls.find? (fun t => t.2.id == v.template)) (fun t =>
      t.dataflow == 0 && t.cellOp == 0 &&
      (if t.shape = 4 then
        v.inLayout == 1 && v.kind == 0 && t.outElements % v.outC == 0 && decide ((if bit t.flags 3 then v.outC else v.inC) ≤ 4) &&
          t.planned == 32 + ceilDiv (if bit t.flags 3 then v.inC else v.outC) 64 * (t.outElements / v.outC) * v.kh * v.kw + 24 + 32
       else v.inLayout == 0 && !(decide (5 ≤ t.aFormat) && decide (t.aFormat ≤ 8)) &&
        (v.groups == 1 || decide (tileChans img t ≤ groupChans v (shapeDims t.shape).1)) && t.kBlocks == v.kh * v.kw * ceilDiv (v.inC / v.groups) (shapeDims t.shape).1))) ++
  forAll (tagged img 0x0803 img.zcOuts) (fun i z =>
    ck i (img.templates.any (fun t => t.id == z.producer) || img.pools.any (fun p => p.id == z.producer)) ++
    ck (min (lowest i tmpls (fun t => t.id == z.producer)) (lowest i (tagged img 0x0802 img.pools) (fun p => p.id == z.producer)))
      (wholeOutput img z.producer) ++
    (if z.statsRegion = 0 then [] else regionNamed img i z.statsRegion 0 none (z.statsOffset + 24 * 16) anywhere)) ++
  forAll (tagged img 0x0601 img.requants) (fun i r =>
    if bit r.flags 3 then regionNamed img i r.statsRegion 0 none (r.statsOffset + 24 * r.channels * 8) anywhere else []) ++
  forAll (tagged img 0x0604 img.watched) (fun i w =>
    mate i ((tagged img 0x0601 img.requants).find? (fun r => r.2.id == w.table)) (fun r => decide (w.channel < r.channels))) ++
  forAll (tagged img 0x0605 img.clipStats) (fun i w =>
    mate i ((tagged img 0x0403 img.outs).find? (fun o => o.2.stream == w.stream)) (fun _ => true) ++
    regionNamed img (lowest i (tagged img 0x0403 img.outs) (fun o => o.stream == w.stream)) w.region 0 none
      (w.offset + 8 * planesOf ((outOf img w.stream).getD {})) anywhere) ++
  forAll (tagged img 0x0701 img.cats) (fun i c =>
    ck i (c.blob == 0 || img.blobs.any (fun b => b.id == c.blob && b.length == c.baseCount * c.itemBytes)) ++ mate i (tmpls.find? (fun t => t.2.id == c.template)) (fun t => t.cellOp == c.cellOp && bit t.flags 2) ++
    regionNamed img i c.region 0 (some c.part) (c.baseOffset + c.capacity * c.itemBytes) anywhere)

/-- Bytes of a state block (R238). -/
def blockBytes (r : BlockRec) : Nat := ceilDiv (64 + 4 * r.count) 4096 * 4096

/-- Scan operators, state blocks and sequences (R238, R246, R247, R319). -/
def crossScan (img : Image) : List Nat :=
  let scans := tagged img 0x0901 img.scans
  let seqs := tagged img 0x0903 img.seqs
  forAll scans (fun i s =>
    ck i (blobOr0 img s.ewBlob && (s.initBlob == 0 || img.blobs.any (fun b => b.id == s.initBlob && b.length == 4 * s.elements))) ++
    (if s.requant = 0 then [] else mate i ((tagged img 0x0601 img.requants).find? (fun r => r.2.id == s.requant)) (fun r =>
      r.mode == 1 && (!bit r.flags 2 || s.slice == s.elements))) ++
    (let bs := img.blocks.filter (fun b => b.scan == s.id)
     ck i (bs.foldl (fun a b => a + b.count) 0 == s.elements && bs.all (fun b => decide (b.first + b.count ≤ s.elements)) &&
       apart (bs.map (fun b => (0, b.first, b.first + b.count)))))) ++
  forAll (tagged img 0x0902 img.blocks) (fun i b =>
    mate i (scans.find? (fun s => s.2.id == b.scan)) (fun s => b.first % s.slice == 0 && b.count % s.slice == 0) ++
    mate i (seqs.find? (fun s => s.2.seq == b.seq)) (fun s => s.forward == b.scan || (bit s.flags 0 && s.backward == b.scan)) ++
    ck (min i (((tagged img 0x0501 img.cores).find? (fun c => c.2.core == b.core)).map (fun c => c.1) |>.getD i))
      (decide (b.slotOffset + blockBytes b ≤ (coreRec img b.core).state * 65536)) ++
    (let owner := (img.seqs.find? (fun s => s.seq == b.seq)).map (fun s => s.part)
     (if b.spillTier = 1 then regionNamed img i b.storeRegion 0 owner (b.storeOffset + blockBytes b) inStore else []) ++
     regionNamed img i b.dramRegion 0 owner (b.dramOffset + blockBytes b) inDram)) ++
  forAll seqs (fun i s =>
    ck i (s.stream == 255 || streamOwner img s.stream == some s.part) ++
    mate i (scans.find? (fun o => o.2.id == s.forward)) (fun o => o.direction == 0) ++
    (if bit s.flags 0 then
      mate i (scans.find? (fun o => o.2.id == s.backward)) (fun o =>
        o.direction == 1 && (img.scans.find? (fun f => f.id == s.forward)).any (fun f => f.steps == o.steps)) ++
      ck i (audioRec? img s.stream).isSome
     else []) ++
    ck (min i (firstIdx img 0x0902)) (decide ((img.blocks.filter (fun b => b.seq == s.seq)).foldl (fun a b => a + b.count) 0 ≤ 65536))) ++
  (List.range 4).flatMap (fun n =>
    if img.blocks.any (fun b => b.core / 6 == n) then
      let units := (List.range 6).map (fun k => (coreRec img (n * 6 + k)).state)
      ck (lowest (firstIdx img 0x0902) (tagged img 0x0501 img.cores) (fun c => c.core / 6 == n)) (units.all (fun u => u == units.headD 0))
    else [])

/-- Attention operators, sequences and pools (R252, R254, R269, R274). -/
def crossKv (img : Image) : List Nat :=
  let pools := tagged img 0x0A03 img.pagePools
  forAll (tagged img 0x0A01 img.attns) (fun i a =>
    if a.requant = 0 then [] else mate i ((tagged img 0x0601 img.requants).find? (fun r => r.2.id == a.requant)) (fun r =>
      r.mode == 1 && r.entries.all (fun e => e.bias == 0))) ++
  forAll (tagged img 0x0A02 img.kvs) (fun i s =>
    mate i (pools.find? (fun p => p.2.pool == s.pool)) (fun p => p.format == s.format && p.headDim == s.headDim && p.kvHeads == s.kvHeads) ++
    regionNamed img i s.region 2 (some s.part) (s.offset + 64 + s.layers * s.tablePages * 16) anywhere) ++
  clashes ((tagged img 0x0A02 img.kvs).map (fun s =>
    let a := regionBase img s.2.region + s.2.offset; (s.1, a, a + 64 + s.2.layers * s.2.tablePages * 16))) ++
  forAll pools (fun i p =>
    ck i ((img.pageFloors.filter (fun f => f.pool == p.pool)).foldl (fun a f => a + f.floor) 0 + p.shared == p.pages) ++
    regionNamed img i p.region 0 none (p.offset + p.pages * pageBytes p.format p.kvHeads p.headDim) anywhere) ++
  forAll (tagged img 0x0A04 img.pageFloors) (fun i f => mate i (pools.find? (fun p => p.2.pool == f.pool)) (fun _ => true))

/-! ### Memory, graphs, host, security -/

/-- A stacked-store region of kind 0 to 2 that lies outside retain_mask in part (R282). -/
def needsBacking (img : Image) (r : Region) : Bool :=
  decide (0x1000000000 ≤ r.base) && decide (r.kind ≤ 2) &&
    (List.range 48).any (fun b => !bit (retainMask img) b && decide (r.base < bankBase b + 0x200000) && decide (bankBase b < r.base + r.pages * 4096))

/-- Regions, windows and their places (R282, R283, R290). -/
def crossMemory (img : Image) : List Nat :=
  forAll (regionsT img) (fun i r =>
    ck (min i (firstIdx img 0x0102)) (!inDram r || decide (r.base + r.pages * 4096 ≤ mappedBytes img img.dramMin)) ++ ck i (blobOr0 img r.blob) ++
    (if needsBacking img r then
      ck i (match region? img r.backing with
        | some k => inDram k && k.kind == 0 && k.pages == r.pages && k.part == r.part && decide ((img.regions.filter (fun x => x.backing == k.id)).length = 1)
        | none => false)
     else ck i (r.backing == 0))) ++
  forAll (tagged img 0x0B04 img.windows) (fun i w =>
    regionNamed img i w.windowRegion 3 (some w.part) (w.depth * w.slotBytes) inStore ++
    regionNamed img i w.sourceRegion 1 (some w.part) (w.entries.foldl (fun a e => max a (e.offset + e.bytes)) 0) inDram)

/-- Cell k belongs to a partition (Table 12.10). -/
def cellOwner (img : Image) (k p : Nat) : Bool :=
  img.cellRanges.any (fun r => r.part == p && r.cluster == k / 2048 && decide (r.first ≤ k % 2048) && decide (k % 2048 < r.first + r.count))

/-- Descriptor pools and graphs (R304, R310, Tables 13.9 and 13.10). -/
def crossGraphs (img : Image) : List Nat :=
  let pools := tagged img 0x0C03 img.descPools
  forAll pools (fun i p =>
    regionNamed img i p.region 0 (some p.part) (p.offset + p.slots * 64) inDram ++
    ck i (decide ((img.graphs.filter (fun g => g.pool == p.pool)).foldl (fun a g => a + g.instances * g.instanceFloor) 0 ≤ p.slots))) ++
  ck (firstIdx img 0x0C03) (decide (img.descPools.foldl (fun a p => a + p.slots) 0 ≤ 1048576)) ++
  forAll (tagged img 0x0C04 img.graphs) (fun i g =>
    mate i (pools.find? (fun p => p.2.pool == g.pool)) (fun p => p.part == g.part) ++
    ck i (img.blobs.any (fun b => b.id == g.blob && b.length == g.descriptors * 64)) ++
    g.regions.flatMap (fun r => mate i ((regionsT img).find? (fun x => x.2.id == r)) (fun x => x.part == g.part)) ++
    ck (min i (firstIdx img 0x0B05)) ((List.range (g.instances * g.barrierCells)).all (fun k => cellOwner img (g.barrierBase + k) g.part)) ++
    (List.range 3).flatMap (fun k =>
      let t := k + 1
      let named := t != 1 && img.routes.any (fun r => r.target == t && r.graph == g.id)
      ck (min i (tierIdx img t)) (!named || decide (creditNeed img t g.part ≤ if isStep g then g.batchShape else g.instances))))

/-- Host interfaces, security and the Kennel (R362, R365, R366, R391, R409). -/
def crossHost (img : Image) : List Nat :=
  let h := (tagged img 0x0D01 img.hostIf.toList).head?
  forAll (tagged img 0x0D02 img.channels) (fun i c =>
    mate i h (fun r => r.txLanes / 16 ^ c.port % 8 != 0 && (decide (c.vc < 4) || bit r.txFlags (2 + c.port))) ++
    (if c.stream = 255 then [] else
      mate i ((tagged img 0x0403 img.outs).find? (fun o => o.2.stream == c.stream)) (fun o => bit o.flags 0) ++
      mate i ((tagged img 0x0402 img.cams).find? (fun o => o.2.stream == c.stream)) (fun o => c.format == 0 || o.dt == 0x2B)) ++
    regionNamed img i c.region 0 (some c.part) 0 anywhere) ++
  ck (firstIdx img 0x0D02) (img.channels.any (fun c => c.part == 0 && bit c.types 1)) ++
  (match img.keys with
   | none => []
   | some k => ck (firstIdx img 0x0E01) (k.entries.all (fun e => img.blobs.any (fun b => b.id == e.blob && bit b.flags 0)) &&
      img.blobs.all (fun b => !bit b.flags 0 || k.entries.any (fun e => e.blob == b.id)))) ++
  (match img.ken with
   | none => []
   | some k => ck (firstIdx img 0x0F01) (declared img k.part) ++
      ck (lowest (firstIdx img 0x0F01) (tagged img 0x0D03 img.policies) (fun h => h.part == k.part)) (bit (policyOf img k.part).flags 1))

/-! ### Layout of the image in its media (R40) -/

/-- Bytes of a blob with its segment table (R44). -/
def blobExtent (b : BlobEntry) : Nat := ceilDiv (ceilDiv b.length 1048576 * 32) 4096 * 4096 + b.length

/-- Bytes of a record with its header and padding. -/
def recExtent (e : RecEntry) : Nat := 8 + e.length + padTo e.length

/-- Regions of the xSPI medium: record index, or 0x8000 + blob index, or 0x7FFF for header and manifest, which also names a clash of
something with these (DESIGN CHOICE, log 121). -/
def xspiSpans (img : Image) : List (Nat × Nat × Nat) :=
  [(noEntry, 0, 256), (noEntry, img.header.manifestOffset, img.header.manifestOffset + img.header.manifestLength)] ++
  img.recs.zipIdx.map (fun e => (e.2, e.1.offset, e.1.offset + recExtent e.1)) ++
  (match img.boot with
   | some b => [(firstIdx img 0x0103, b.marginOffset, b.marginOffset + 2 * b.eraseKib * 1024), (firstIdx img 0x0103, b.errlogOffset, b.errlogOffset + 2 * b.eraseKib * 1024)]
   | none => []) ++
  (match img.keys with
   | some k => [(firstIdx img 0x0E01, k.offset, k.offset + 4096)]
   | none => []) ++
  (img.blobs.zipIdx.filter (fun b => b.1.medium == 0)).map (fun b => (0x8000 + b.2, b.1.offset, b.1.offset + blobExtent b.1))

/-- What breaks R40: overlaps in a medium, regions past the capacity of the xSPI flash, and totals. -/
def crossLayout (density : Nat) (img : Image) : List Nat :=
  clashes (xspiSpans img) ++ (xspiSpans img).flatMap (fun s => ck s.1 (decide (s.2.2 ≤ density))) ++
  clashes ((img.blobs.zipIdx.filter (fun b => b.1.medium == 1)).map (fun b => (0x8000 + b.2, b.1.offset, b.1.offset + blobExtent b.1))) ++
  ck 0 (decide (img.recs.foldl (fun a e => a + recExtent e) 0 ≤ 16777216)) ++
  img.blobs.zipIdx.flatMap (fun b =>
    ck (0x8000 + b.2) (decide (b.1.medium < 2) && decide (b.1.flags < 2) && b.1.reserved == 0 && (b.1.medium == 0 || img.header.nandDevices != 0) && b.1.offset % 4096 == 0 && rng 1 0x80000000 b.1.length &&
      ((img.blobs.filter (fun x => x.id == b.1.id)).length == 1)))

/-- Every check of R479 step 5: the lowest record index among those that fail, blob entries (0x8000 and up) after all records. -/
def crossCheck (density : Nat) (img : Image) : Option Nat :=
  (crossCounts img ++ crossUnique img ++ crossOwners img ++ crossCascade img ++ crossAudio img ++ crossCamera img ++ crossTemplates img ++ crossScan img ++
    crossKv img ++ crossMemory img ++ crossGraphs img ++ crossHost img ++ crossLayout density img).min?

/-! ### A graph's descriptors (R308, R309) -/

/-- A ref of a graph of n regions (Table 13.3). -/
def refOk (n ref : Nat) : Bool :=
  ref == 0xFFFFFFFF || (let space := ref / 1073741824; let ix := ref / 16777216 % 64; if space < 2 then ix == 0 else decide (ix < n))

/-- A transfer body (R277, Table 12.3). -/
def transferOk (b : Bytes) : Bool :=
  decide (u8 b 0x3C < 3) && zeroField b 0x3D 3 && (u8 b 0x3C == 2 || (u64 b 0x20 % 64 == 0 && decide (u64 b 0x20 < 2 ^ 40))) && u64 b 0x28 % 64 == 0 && decide (u64 b 0x28 < 2 ^ 40) &&
    rng 1 4096 (u16 b 0x30) && rng 1 4096 (u16 b 0x32) && u32 b 0x34 % 64 == 0 && u32 b 0x38 % 64 == 0

/-- The refs of a descriptor (Tables 13.1 and 13.2). -/
def descRefs (b : Bytes) : List Nat :=
  [dOut b, dIn0 b] ++ (match dKind b with
    | 0 => [0x20, 0x24, 0x34, 0x38]
    | 1 => [0x20, 0x24, 0x34, 0x38]
    | 3 => [0x20, 0x24]
    | 4 => [0x2C, 0x30, 0x38]
    | 5 => [0x20]
    | _ => []).map (dWord b)

/-- A space-0 ref lies within its strand's frame, a space-1 ref within its partition's cluster SRAM in every instance (R309). -/
def refPlaced (img : Image) (g : Graph) (blob b : Bytes) (ref : Nat) : Bool :=
  let off := ref % 16777216
  if ref = 0xFFFFFFFF then true
  else if ref / 1073741824 = 0 then
    (entries 64 blob).any (fun y => dStart y && dStrand y == dStrand b && decide (off < dFrame y * 256))
  else if ref / 1073741824 = 1 then
    match partRec? img g.part with
    | some p =>
      let s := p.sram / 65536 ^ dCluster b % 65536
      let first := s % 256 * 1024
      (List.range (max 1 g.instances)).all (fun i => let k := off + i * g.sramStride
        decide (first ≤ k) && decide (k < first + s / 256 * 1024))
    | none => false
  else true

/-! ### Places that a graph names (R151, R281, R285) -/

/-- Where a ref of a descriptor lies in an instance: 0 and a granule of the address space, or 1 + its strand and a granule of the
strand's frame (R305, R309). -/
def refSpot (img : Image) (g : Graph) (b : Bytes) (i ref : Nat) : Option (Nat × Nat) :=
  let off := ref % 16777216
  let space := ref / 1073741824
  if ref = 0xFFFFFFFF then none
  else if space = 0 then some (1 + dStrand b, off)
  else if space = 1 then some (0, clusterBase (dCluster b) / 64 + off + i * g.sramStride)
  else some (0, regionBase img (g.regions.getD (ref / 16777216 % 64) 0) / 64 + off + if space = 2 then i * g.memStride else 0)

/-- Instances of a graph. -/
def instancesOf (g : Graph) : List Nat := List.range (max 1 g.instances)

/-- Two lists of granules of one class share none. -/
def granulesApart (a b : List Nat) : Bool :=
  let low (l : List Nat) : Nat := l.foldl min (l.headD 0)
  let high (l : List Nat) : Nat := l.foldl max 0
  a.isEmpty || b.isEmpty || decide (high a < low b) || decide (high b < low a) || a.all (fun k => !b.contains k)

/-- A tile's destination overlaps none of its inputs in any instance (R151), as far as the descriptor and its operator show (DEDUCED, log
62). -/
def destApart (img : Image) (g : Graph) (blob b : Bytes) : Bool :=
  dOut b == 0xFFFFFFFF || (let ins := inputSpans img blob b
    let out := destGranules img blob b
    (instancesOf g).all (fun i => match refSpot img g b i (dOut b) with
      | none => true
      | some o => ins.all (fun s => match refSpot img g b i s.1 with
        | none => true
        | some p => p.1 != o.1 || granulesApart (s.2.map (fun k => p.2 + k)) (out.map (fun k => o.2 + k)))))

/-- Rows of a transfer in an instance (R277, R285): class, first granule, past the last. -/
def xferRows (g : Graph) (b : Bytes) (i : Nat) (src : Bool) : List (Nat × Nat × Nat) :=
  let flags := u8 b 0x0E
  let first := u64 b (if src then 0x20 else 0x28) % 2 ^ 40 / 64 + if bit flags (if src then 2 else 3) then i * g.memStride else 0
  let cls := if bit flags (if src then 4 else 5) then 1 + dStrand b else 0
  let stride := u32 b (if src then 0x34 else 0x38) / 64
  if src ∧ u8 b 0x3C = 2 then []
  else (List.range (u16 b 0x32)).map (fun r => (cls, first + r * stride, first + r * stride + u16 b 0x30))

/-- Rows share no granule. -/
def rowsApart (a b : List (Nat × Nat × Nat)) : Bool :=
  let low (l : List (Nat × Nat × Nat)) : Nat := l.foldl (fun n x => min n x.2.1) ((l.headD (0, 0, 0)).2.1)
  let high (l : List (Nat × Nat × Nat)) : Nat := l.foldl (fun n x => max n x.2.2) 0
  decide (high a ≤ low b) || decide (high b ≤ low a) ||
    a.all (fun x => b.all (fun y => x.1 != y.1 || decide (x.2.2 ≤ y.2.1) || decide (y.2.2 ≤ x.2.1)))

/-- Granules from a to e lie in regions of a partition of some kinds. -/
def covered (img : Image) (p : Nat) (kinds : List Nat) : Nat → Nat → Nat → Bool
  | 0, a, e => decide (e ≤ a)
  | n + 1, a, e => decide (e ≤ a) || (match img.regions.find? (fun r => r.part == p && kinds.contains r.kind &&
      decide (r.base / 64 ≤ a) && decide (a < r.base / 64 + r.pages * 64)) with
    | some r => covered img p kinds n (r.base / 64 + r.pages * 64) e
    | none => false)

/-- A row of granules lies where the partition of a graph may reach (R281): its regions of some kinds, its cluster SRAM, the frame of
the strand; a place in core SRAM shows only at run time. -/
def rowReached (img : Image) (blob : Bytes) (p : Nat) (kinds : List Nat) (r : Nat × Nat × Nat) : Bool :=
  if r.2.2 ≤ r.2.1 then true
  else if r.1 ≠ 0 then (entries 64 blob).any (fun y => dStart y && dStrand y + 1 == r.1 && decide (r.2.2 ≤ dFrame y * 256))
  else if clusterBase 0 ≤ 64 * r.2.1 then
    decide (0x400000 ≤ (64 * r.2.1 - clusterBase 0) % 0x1000000) ||
      (ownsClusterSram img p (64 * r.2.1) && ownsClusterSram img p (64 * (r.2.2 - 1)))
  else covered img p kinds img.regions.length r.2.1 r.2.2

/-- What a tile or a transfer reads and writes lies where R281 permits, as far as it shows in the image (R282). -/
def reachOk (img : Image) (g : Graph) (blob b : Bytes) : Bool :=
  let one (p : Nat × Nat) (k : Nat) : Nat × Nat × Nat := (p.1, p.2 + k, p.2 + k + 1)
  (instancesOf g).all (fun i =>
    if dKind b = 6 then
      (xferRows g b i true).all (rowReached img blob g.part [0, 1]) && (xferRows g b i false).all (rowReached img blob g.part [0])
    else
      (inputSpans img blob b).all (fun s => match refSpot img g b i s.1 with
        | some p => s.2.all (fun k => rowReached img blob g.part [0, 1, 2, 3] (one p k))
        | none => true) &&
      (match refSpot img g b i (dOut b) with
        | some p => (destGranules img blob b).all (fun k => rowReached img blob g.part [0] (one p k))
        | none => true))

/-- A descriptor waits on the cell that another signals. -/
def signals (a b : Bytes) : Bool := dSignal a != 0xFFFF && (u16 b 8 == dSignal a || u16 b 10 == dSignal a)

/-- Descriptors that barriers order after some (DEDUCED, log 106: a wait on a cell stands for a wait on each of its signals). -/
def orderedAfter (bs : List Bytes) : Nat → List Nat → List Nat
  | 0, s => s
  | n + 1, s =>
    let more := (List.range bs.length).filter (fun j => !s.contains j && s.any (fun i => signals (bs.getD i []) (bs.getD j [])))
    if more.isEmpty then s else orderedAfter bs n (s ++ more)

/-- Barriers order descriptor j after descriptor i. -/
def follows (bs : List Bytes) (i j : Nat) : Bool := i != j && (orderedAfter bs bs.length [i]).contains j

/-- No transfer's source overlaps its own destination, and transfers of an instance whose destinations overlap are ordered (R285; DEDUCED,
log 143). -/
def xfersOk (g : Graph) (blob : Bytes) : Bool :=
  let bs := entries 64 blob
  let xs := bs.zipIdx.filter (fun e => dKind e.1 == 6)
  (instancesOf g).all (fun i => xs.all (fun x =>
    rowsApart (xferRows g x.1 i true) (xferRows g x.1 i false) &&
      xs.all (fun y => decide (y.2 ≤ x.2) || rowsApart (xferRows g x.1 i false) (xferRows g y.1 i false) || follows bs x.2 y.2 || follows bs y.2 x.2)))

/-- A ref of the activations region or the cluster SRAM, where the feeders of a core read (R139, R229). -/
def nearRef (ref : Nat) : Bool := decide (ref / 1073741824 < 2)

/-- A wait of a descriptor. -/
def hasWait (b : Bytes) : Bool := u16 b 8 != 0xFFFF || u16 b 10 != 0xFFFF

/-- The barriers that order an append (R260): a scatter tile waits and signals, it follows every tile that writes one of its maps, and
the attend tiles of its layer that stand after it follow it; another attend tile of the layer waits (DEDUCED, log 106). -/
def appendBarriers (bs : List Bytes) (b : Bytes) (n : Nat) : Bool :=
  if dKind b = 5 then
    hasWait b && dSignal b != 0xFFFF && bs.zipIdx.all (fun y =>
      (dKind y.1 ≥ 6 || dOut y.1 == 0xFFFFFFFF || (dOut y.1 != dIn0 b && dOut y.1 != dWord b 0x20) || follows bs y.2 n) &&
      (dKind y.1 != 4 || u8 y.1 0x20 != u8 b 0x24 || u8 y.1 0x21 != u8 b 0x25 || decide (y.2 < n) || follows bs n y.2))
  else dKind b != 4 || hasWait b || !bs.any (fun y => dKind y == 5 && u8 y 0x24 == u8 b 0x20 && u8 y 0x25 == u8 b 0x21)

/-- Granules that a scatter tile writes at its commit, by its first position. -/
def scatterSize (r : KvRec) (b : Bytes) : Nat :=
  (dedup ((List.range (u16 b 0x26)).flatMap (fun i =>
    let pos := dWord b 0x28 + i
    let page := pos / 64 * 4294967296
    slotGranules r page (pos % 64) 0 ++ slotGranules r page (pos % 64) 1))).length

/-- Every core of a cluster passes a test on its ramp (R149). -/
def clusterRamps (img : Image) (n : Nat) (p : Nat → Bool) : Bool := (List.range 6).all (fun k => p (rampOf img (6 * n + k)))

/-- Bytes that a tile of a template has staged in a weights region (R313): its column operand, or the items of a search tile. -/
def stagedBytes (img : Image) (t : Template) : Nat :=
  if bit t.flags 2 then ((img.cats.filter (fun c => c.template == t.id)).map (fun c => t.kBlocks * blockColumns t * c.itemBytes)).foldl max 0
  else columnBytes img t

/-- A descriptor of a graph (R149, R304, R308, R313, Tables 13.1 and 13.2); the templates it names run on every core of its cluster. -/
def descOk (img : Image) (g : Graph) (b : Bytes) : Bool :=
  let cell (o : Nat) : Bool := u16 b o == 0xFFFF || decide (u16 b o < g.barrierCells)
  let n := dCluster b
  let t := templateOf img (dOp b)
  decide (dKind b < 8) && u8 b 1 == g.part && decide (u8 b 4 < 4) && decide (u8 b 5 < 32) && (decide (dHint b < 6) || dHint b == 7) && cell 8 && cell 10 && cell 12 &&
  decide (u8 b 14 < 64) && !dEmpty b && (if dStart b then rng 1 96 (dFrame b) else dFrame b == 0) && (descRefs b).all (refOk g.regionCount) &&
  (match dKind b with
   | 0 => img.templates.any (fun x => x.id == dOp b && x.shape != 4) && nearRef (dIn0 b) && zeroField b 0x3C 4 &&
      clusterRamps img n (fun R => arrayCycles R (wavefrontCycles img t) t == t.planned) &&
        (List.range 6).all (fun k => decide (stagedBytes img t ≤ (coreRec img (6 * n + k)).wt * 65536))
   | 1 => img.templates.any (fun x => x.id == dOp b && x.shape == 4) && zeroField b 0x3C 4
   | 2 => img.pools.any (fun x => x.id == dOp b) && nearRef (dIn0 b) && zeroField b 0x20 8 && zeroField b 0x2C 20 && clusterRamps img n (fun R => poolCycles R (poolOf img (dOp b)) == (poolOf img (dOp b)).planned)
   | 3 => img.scans.any (fun x => x.id == dOp b) && nearRef (dIn0 b) && nearRef (dWord b 0x20) &&
      (nearRef (dWord b 0x24) || (dWord b 0x24 == 0xFFFFFFFF && !bit (scanOf img (dOp b)).flags 1)) &&
      img.blocks.any (fun x => x.id == u16 b 0x28 && x.scan == dOp b && x.core / 6 == n && decide (u16 b 0x2A < x.count / max 1 (scanOf img (dOp b)).slice) &&
        img.seqs.any (fun q => q.seq == x.seq && q.part == g.part)) && zeroField b 0x34 12 &&
      clusterRamps img n (fun R => scanCycles R (scanOf img (dOp b)) == (scanOf img (dOp b)).planned)
   | 4 => (match img.kvs.find? (fun r => r.seq == u8 b 0x20) with
      | some r => let a := attnOf img (dOp b)
        img.attns.any (fun x => x.id == dOp b) && r.part == g.part && r.format == a.format && r.headDim == a.headDim && r.kvHeads == a.kvHeads && decide (u8 b 0x21 < r.layers) &&
          decide (u8 b 0x22 < r.kvHeads) && rng 1 (if a.kind = 0 then 64 else 16) (u8 b 0x23) && nearRef (dIn0 b) && zeroField b 0x3C 4 &&
          (a.kind == 1 || dWord b 0x38 == 0xFFFFFFFF) && clusterRamps img n (fun R => attnCycles R a == a.planned)
      | none => false)
   | 5 => (match img.kvs.find? (fun r => r.seq == u8 b 0x24) with
      | some r => let a := attnOf img (dOp b)
        img.attns.any (fun x => x.id == dOp b) && r.part == g.part && r.format == a.format && r.headDim == a.headDim && r.kvHeads == a.kvHeads && decide (u8 b 0x25 < r.layers) &&
          rng 1 64 (u16 b 0x26) && zeroField b 0x2C 20 && decide (scatterSize r b + 16 ≤ 256) &&
          clusterRamps img n (fun R => decide (2 * R + ceilDiv (2 * u16 b 0x26 * r.kvHeads * r.headDim) 64 + 16 ≤ 2048))
      | none => false)
   | 6 => dOut b == 0xFFFFFFFF && dIn0 b == 0xFFFFFFFF && dOp b == 0 && transferOk b
   | _ => dOut b == 0xFFFFFFFF && dIn0 b == 0xFFFFFFFF && dOp b == 0 && zeroField b 0x20 32)

/-- Values of a loaded codebook blob are finite (R168). -/
def codebookFinite (c : Codebook) (blob : Bytes) : Bool :=
  let n := c.tables * 2 ^ c.indexBits
  (List.range n).all (fun k => match decodeElem c.format 0 (if c.format = 9 then u16 blob (2 * k) else u8 blob k) with | .fin _ _ _ => true | _ => false)

/-- Bytes beyond the vector within an item of a loaded catalogue are 0 (R194). -/
def catPadding (c : CatRec) (blob : Bytes) : Bool :=
  let n := if c.cellOp = 4 then c.dims / 8 else c.dims
  (List.range c.baseCount).all (fun i => zeroField blob (i * c.itemBytes + n) (c.itemBytes - n))

/-- A search tile's graph may query its catalogue (R198): of the catalogues whose template it names, the one in the region that its
column operand names, else the first (log 26). No descriptor names an enrolment; a graph of another partition cannot name the
catalogue's region (R322). -/
def mayQuery (img : Image) (g : Graph) (b : Bytes) : Bool :=
  let cs := img.cats.filter (fun c => c.template == dOp b)
  let ref := dWord b 0x20
  let named := cs.find? (fun c => decide (2147483648 ≤ ref) && ref != 0xFFFFFFFF && g.regions.getD (ref / 16777216 % 64) 0 == c.region)
  !isSearch img b || (match named with
    | some c => bit c.queryMask g.part
    | none => cs.head?.all (fun c => bit c.queryMask g.part))

/-- A route of T2 takes requests from T1 (R68, R79): a Perk graph of its stream emits its class. -/
def fromPerk (img : Image) (r : Route) : Bool :=
  r.target == 2 && img.routes.any (fun q => q.target == 1 && q.stream == r.stream && img.perk.any (fun k =>
    k.graph == q.graph && (r.cls == 255 || (decide (k.classBase ≤ r.cls) && decide (r.cls < k.classBase + k.outputs)))))

/-- A granule of the address space lies in a retained bank (R79, R278). -/
def retainedGranule (img : Image) (k : Nat) : Bool :=
  decide (0x1000000000 ≤ 64 * k) && decide (64 * k < 0x1006000000) && bit (retainMask img) ((64 * k - 0x1000000000) / 0x200000)

/-- What a descriptor reads through a ref comes from retained banks, in every instance: it lies there, or the transfers of its graph
that bring it to SRAM take it from there (R79). -/
def retainedSpan (img : Image) (g : Graph) (blob b : Bytes) (s : Nat × List Nat) : Bool :=
  (instancesOf g).all (fun i => match refSpot img g b i s.1 with
    | none => true
    | some p =>
      if p.1 = 0 ∧ 64 * p.2 < clusterBase 0 then s.2.all (fun k => retainedGranule img (p.2 + k))
      else (entries 64 blob).all (fun y => dKind y != 6 || ((xferRows g y i false).zip (xferRows g y i true)).all (fun r =>
        r.1.1 != p.1 || s.2.all (fun k => decide (p.2 + k < r.1.2.1) || decide (r.1.2.2 ≤ p.2 + k)) ||
          (r.2.1 == 0 && (List.range (r.2.2.2 - r.2.2.1)).all (fun k => retainedGranule img (r.2.2.1 + k))))))

/-- A graph that a route from T1 names keeps its weights with their scales, and what its first tiles read of memory, in retained banks
(R79). First tiles are those that wait on nothing (DEDUCED, log 107). -/
def perkGraphOk (img : Image) (g : Graph) (blob b : Bytes) : Bool :=
  !img.routes.any (fun r => r.graph == g.id && fromPerk img r) ||
    (inputSpans img blob b).all (fun s =>
      (hasWait b && !(decide (dKind b ≤ 1) && !isSearch img b && (s.1 == dWord b 0x20 || s.1 == dWord b 0x38))) || retainedSpan img g blob b s)

/-- A wholly loaded blob meets the rules of the records that name it; what it breaks withdraws the image (R51, R79, R136, R168, R194,
R198, R260, R282, R285, R308). -/
def blobOk (img : Image) (id : Nat) (bytes : Bytes) : Bool :=
  img.graphs.all (fun g => g.blob != id || (xfersOk g bytes && (entries 64 bytes).zipIdx.all (fun e =>
    let b := e.1
    descOk img g b && (descRefs b).all (refPlaced img g bytes b) && destApart img g bytes b && reachOk img g bytes b &&
      appendBarriers (entries 64 bytes) b e.2 && mayQuery img g b && perkGraphOk img g bytes b))) &&
  img.codebooks.all (fun c => c.blob != id || codebookFinite c bytes) && img.cats.all (fun c => c.blob != id || catPadding c bytes) &&
  img.sensors.all (fun s => s.initBlob != id || (entries 4 bytes).all (fun e => u8 e 3 == 0))

end Sys2Proof.Machine
end

