-- ==== Sys2Proof/Machine/Boot.lean ====
section
/-! DEFINITION. Power-on, PORST_N, the boot sequence (Table 2.15, R35 to R62, R100, R372 to R376, R382, R429, R457) and the writes to
the attached flash (R63 to R67). -/

namespace Sys2Proof.Machine

/-! ### Power-on and PORST_N -/

/-- Every domain but the Kennel is reset, and stays in reset (R428), with XSPI_RESET_N low (R471); cause is the bit of PWR_RESET_CAUSE. -/
def heldReset (cause : Nat) (d : Dev) : Dev :=
  let r := fullReset d
  { r with flash := { r.flash with resetN := false }, power := { r.power with cause := cause } }

/-- Header and payload of a copy as the flash holds them (Table 2.19). -/
def parseCopy (b : Bytes) : Copy := ⟨u32 b 0, u32 b 4, u32 b 8, u32 b 12, slice b 32 (u32 b 8)⟩

/-- The integrator has rewritten the flash while PORST_N was low (R39): margin plan copy A and B, error log copy A and B. -/
def rewriteFlash (l : List Bytes) (f : Flash) : Flash :=
  { f with planA := parseCopy (l.getD 0 []), planB := parseCopy (l.getD 1 []), logA := parseCopy (l.getD 2 []),
           logB := parseCopy (l.getD 3 []) }

/-- A power-on reset taken while PORST_N is high: boot follows with the straps as last sampled (DEDUCED, log 34). -/
def brownOut (d : Dev) : Dev :=
  let r := heldReset 1 d
  if d.boot.step = .held then r
  else beginBoot { r with flash := { r.flash with resetN := d.flash.resetN }, boot := { r.boot with straps := d.boot.straps }, power := { r.power with xtal := true, fll := true } }

/-- PORST_N goes low for a time in nanoseconds (R428). -/
def porstLow (nanos : Nat) (d : Dev) : Dev :=
  if 10000 ≤ nanos ∨ (1000 ≤ nanos ∧ Config.porstActs nanos = true) then heldReset 2 d else d

/-- PORST_N rises (R57): straps sampled, XSPI_RESET_N goes high (R471), boot begins. -/
def porstHigh (straps : Nat) (rewritten : Option (List Bytes)) (d : Dev) : Dev :=
  if d.boot.step = .held then
    let f := match rewritten with | some l => rewriteFlash l d.flash | none => d.flash
    beginBoot { d with flash := { f with resetN := true }, boot := { d.boot with straps := straps }, power := { d.power with xtal := true, fll := true } }
  else d

/-! ### Steps 3 to 6 -/

/-- The SFDP table has been read (R35). -/
def sfdpRead (density : Option Nat) (erase : List (Nat × Nat)) (d : Dev) : Dev :=
  if d.boot.step = .sfdp then
    match density with
    | some n => if n = 0 then bootFail 0xA0 0 noEntry noSeg d
      else setPhase 1 (modBoot (fun b => { b with density := some n, erase := erase, step := .header }) d)
    | none => bootFail 0xA0 0 noEntry noSeg d
  else d

/-- The header is well formed (Table 2.3, R478). -/
def headerOk (b : Bytes) : Bool :=
  let h := parseImgHeader b
  h.magic == 0x4F4A4C47 && h.version == 1 && h.hlen == 0x100 && decide (h.mode ≤ 2) && rng 25 200 h.clock &&
    (h.mode != 0 || decide (h.clock ≤ 25)) && decide (h.dummy ≤ 31) && (h.switchOp != 0 || h.mode == 0) &&
    h.manifestOffset % 4096 == 0 && rng 0x30 0x40000 h.manifestLength && decide (h.securityVersion ≤ 63) && decide (h.nandDevices ≤ 2) &&
    zeroField b 14 2 && zeroField b 30 2 && zeroField b 160 96

/-- The header has been read twice (R61): by command 0x13 in 1S-1S-1S, and, when well formed, in the target mode. -/
def headerRead (first second : Bytes) (d : Dev) : Dev :=
  if d.boot.step = .header then
    let d1 := modBoot (fun b => { b with sent := [0x13] }) d
    if headerOk first then
      let d2 := sendRead { d1 with img := { header := parseImgHeader first } }
      if first = second then modBoot (fun b => { b with step := .manifest }) d2 else bootFail 0xA0 0 noEntry noSeg d2
    else bootFail 0xA0 0 noEntry noSeg d1
  else d

/-- The manifest's own structure (R478, Table 2.5). -/
def manifestOk (b : Bytes) : Bool :=
  u16 b 0 == 1 && rng 3 1024 (u16 b 2) && decide (u16 b 4 ≤ 4095) && zeroField b 6 2 && b.length == 0x30 + 48 * (u16 b 2 + u16 b 4)

/-- Image with the manifest's entries. -/
def withManifest (b : Bytes) (img : Image) : Image :=
  { img with imageId := u64 b 8, chainFinal := slice b 16 32, recs := ((entries 48 (b.drop 0x30)).take (u16 b 2)).map parseRecEntry,
             blobs := ((entries 48 (b.drop 0x30)).drop (u16 b 2)).map parseBlobEntry }

/-- The manifest has been read (R41 to R43, R478, R479 step 2). signer is the key hash that the lifecycle state accepts. -/
def manifestRead (signer : Option Bytes) (floor : Nat) (b : Bytes) (d0 : Dev) : Dev :=
  let h := d0.img.header
  if d0.boot.step = .manifest ∧ b.length = h.manifestLength then
    let d := sendRead d0
    let msg := h.raw ++ b
    if signer ≠ some (Config.sha256 h.signer) ∨ Config.ecdsaVerify h.signer msg h.signature = false then
      bootFail 0xA0 0 noEntry noSeg d
    else if h.securityVersion < floor then bootFail 0xA4 0 noEntry noSeg d
    else if manifestOk b then
      let bt := { d.boot with digest := Config.sha256 msg, verified := true, step := .records, nextRec := 0, chain := zeros 32 }
      setPhase 3 (setPhase 2 { d with img := withManifest b d.img, boot := bt })
    else bootFail 0xA1 0 noEntry noSeg d
  else d0

/-- A required record is missing (R47). -/
def recordsMissing (img : Image) : Bool :=
  recCount img 0x0101 == 0 || recCount img 0x0102 == 0 || recCount img 0x0103 == 0 ||
    (img.header.nandDevices != 0 && recCount img 0x0104 == 0)

/-- The last record has been read: chain and required records (R45, R47), then DRAM training. An image that fails both is reported
for its chain (DESIGN CHOICE, log 121). -/
def recordsEnd (d : Dev) : Dev :=
  if d.boot.chain ≠ d.img.chainFinal then bootFail 0xA1 0 0 noSeg d
  else if recordsMissing d.img then bootFail 0xA1 0 noEntry noSeg d
  else setPhase 4 (modBoot (fun b => { b with step := .training }) d)

/-- A control record has been read (R45 to R49): header, body and padding. -/
def recordRead (life : Nat) (b : Bytes) (d0 : Dev) : Dev :=
  if d0.boot.step = .records then
    let d := sendRead d0
    let i := d.boot.nextRec
    let e := d.img.recs.getD i {}
    let c : RecCtx := { nand := d.img.header.nandDevices, density := d.boot.density.getD 0, erase := d.boot.erase.map (fun e => e.1), life := life }
    match recordCause c d.img i b with
    | some cause => bootFail cause 0 i noSeg d
    | none =>
      let img := addRecord e.ty (slice b 8 e.length) d.img
      let bt := { d.boot with nextRec := i + 1, chain := Config.sha256 (d.boot.chain ++ e.digest) }
      let bt2 := if e.ty = 0x0103 then { bt with policyOk := true, policy := img.boot.getD {} } else bt
      let d1 := { d with img := img, boot := bt2 }
      if i + 1 = img.recs.length then recordsEnd d1 else d1
  else d0

/-- The blocks of a SPI-NAND device that carry no factory bad-block marker, ascending (R38). -/
def goodOf (markers : List Bool) : List Nat := (List.range markers.length).filter (fun k => !markers.getD k true)

/-- DRAM training ends (R49, R473), and SPI-NAND loading starts (R59): the device finds the blocks of each SPI-NAND device that
carry no factory bad-block marker (R38, R40). -/
def trainingDone (passed : Bool) (mib : Nat) (markers : List (List Bool)) (d : Dev) : Dev :=
  if d.boot.step = .training then
    if passed then
      let d1 := modBoot (fun b => { b with trained := true, mib := mib, goodBlocks := markers.map goodOf, step := .acceptance }) d
      let d2 := modPower (fun p => { p with dram := true }) d1
      if mib < d.img.dramMin then bootFail 0xA2 0 (firstIdx d.img 0x0102) noSeg d2 else d2
    else bootFail 0xA5 0 noEntry noSeg d
  else d

/-! ### Blobs (R44, R51, R58, R59, R283, R374) -/

/-- Segments of a blob. -/
def segmentsOf (b : BlobEntry) : Nat := ceilDiv b.length 1048576

/-- Logical SPI-NAND capacity (R40). -/
def nandCapacity (d : Dev) : Nat :=
  let g := d.img.nand.getD {}
  g.pageBytes * g.pagesPerBlock * ((d.boot.goodBlocks.take d.img.header.nandDevices).map List.length).sum

/-- Where a logical page of SPI-NAND lies (R38): device, block, page of the block. -/
def nandPlace (d : Dev) (p : Nat) : Nat × Nat × Nat :=
  let g := d.img.nand.getD {}
  let n := d.img.header.nandDevices
  let q := p / n
  (p % n, (d.boot.goodBlocks.getD (p % n) []).getD (q / g.pagesPerBlock) 0, q % g.pagesPerBlock)

/-- The pages that n bytes at a logical byte address touch. -/
def nandPagesOf (d : Dev) (a n : Nat) : List (Nat × Nat × Nat) :=
  let pb := (d.img.nand.getD {}).pageBytes
  (List.range (ceilDiv (a + n) pb - a / pb)).map (fun i => nandPlace d (a / pb + i))

/-- Bit errors of each chunk of a page of n chunks, as one read of it shows them. -/
def pageChunks (n : Nat) (errors : List Nat) : List Nat := (List.range n).map (fun k => errors.getD k 0)

/-- The BCH code corrects a chunk of at most 16 bit errors (R36). -/
def chunkGood (errors : Nat) : Bool := decide (errors ≤ 16)

/-- The reads made of a page, by the bit errors of their chunks: again while a chunk is uncorrectable (R51). -/
def readsMade : List (List Nat) → List (List Nat)
  | [] => []
  | r :: rest => if r.all chunkGood then [r] else r :: readsMade rest

/-- Bits that the reads of a page of n chunks correct: the first read, and at most three rereads. -/
def pageCorrected (n : Nat) (first : List Nat) (again : List (List Nat)) : Nat :=
  ((readsMade (((first :: again).take 4 ++ [[], [], []]).take 4 |>.map (pageChunks n))).map (fun r => (r.filter chunkGood).sum)).sum

/-- A subject of Point uses the blob (DEDUCED, log 35): a Perk graph, a graph that a T2 route names or one of its regions, a
codebook set, a catalogue, an operator's program or initial state, a camera's tuning or a sensor's first settings. -/
def pointUses (img : Image) (id : Nat) : Bool :=
  let graphs := img.graphs.filter (fun g => img.routes.any (fun r => r.target == 2 && r.graph == g.id))
  img.perk.any (fun g => g.blob == id) ||
    graphs.any (fun g => g.blob == id || img.regions.any (fun r => r.blob == id && g.regions.contains r.id)) ||
    img.codebooks.any (fun c => c.blob == id) || img.cats.any (fun c => c.blob == id) ||
    img.templates.any (fun t => t.ewBlob == id) || img.scans.any (fun o => o.ewBlob == id || o.initBlob == id) ||
    img.cams.any (fun c => c.tuning == id) || img.sensors.any (fun r => r.initBlob == id)

/-- Blobs that step 8 loads (R59): those in xSPI, and those of a subject of Point, whatever their medium. -/
def atPoint (img : Image) (b : BlobEntry) : Bool := b.medium == 0 || pointUses img b.id

/-- The device halts when the margin is exhausted at 350 MHz (R456). -/
def marginHalt (d : Dev) : Dev := haltDevice (deviceSnapshot (info 0x97 d))

/-- A blob fails: the image is withdrawn, and every open request ends with 0xA1 (R51). -/
def withdraw (entry seg : Nat) (d : Dev) : Dev :=
  let open_ := (d.reqs.filter (fun r => r.ended.isNone)).map (fun r => r.order)
  bootFail 0xA1 1 entry seg (endReqs open_ 0xA1 d)

/-- Content key of a blob (record 0x0E01). -/
def contentKey (d : Dev) (id : Nat) : Bytes :=
  match (d.img.keys.getD {}).entries.find? (fun e => e.blob == id) with
  | some e => d.boot.keys.getD e.index []
  | none => []

/-- Decrypt a blob segment by segment (R374). -/
def decryptBlob (key : Bytes) (id : Nat) : Nat → Nat → Bytes → Bytes
  | 0, _, _ => []
  | n + 1, k, b => Config.ctrDecrypt key id k (b.take 1048576) ++ decryptBlob key id n (k + 1) (b.drop 1048576)

/-- Where a blob goes: regions that it fills, catalogues whose items it holds, state blocks that start from it, sensors whose first writes it holds. -/
def spreadBlob (id : Nat) (b : Bytes) (d : Dev) : Dev :=
  let d1 := (d.img.regions.filter (fun r => r.blob == id)).foldl (fun e r => remoteStore r.base b e) d
  let d2 := (d1.img.cats.filter (fun c => c.blob == id && c.baseCount != 0)).foldl
    (fun e c => remoteStore (regionBase e.img c.region + c.baseOffset) b e) d1
  let starts (r : BlockRec) : Bool := (scanOf d2.img r.scan).initBlob == id && (getBlk d2 r.id).chunks == 0
  let d3 := (d2.img.blocks.filter starts).foldl (fun e r => initBlk r.id e) d2
  (d3.img.sensors.filter (fun s => s.initBlob == id && (getSensor d3 s.sensor).addressed && !(getSensor d3 s.sensor).joined)).foldl
    (fun e s => initSensor s e) d3

/-- Place a checked blob of an accepted image. -/
def placeBlob (k : Nat) (d : Dev) : Dev :=
  if d.boot.step != .loading then d
  else
    let e := d.img.blobs.getD k {}
    let x := tabGet d.boot.blobs k {}
    let b := if bit e.flags 0 then decryptBlob (contentKey d e.id) e.id (segmentsOf e) 0 x.stored else x.stored
    if blobOk d.img e.id b then
      let bs := tabSet d.boot.blobs k { x with placed := true, bytes := b, stored := [] }
      let left := d.img.blobs.zipIdx.any (fun y => bit y.1.flags 0 && !(tabGet bs y.2 {}).placed)
      spreadBlob e.id b (modBoot (fun t => { t with blobs := bs, keys := if left then t.keys else [] }) d)
    else withdraw k noSeg d

/-- The running phase is reached (Table 2.17, R55). -/
def reachRunning (d : Dev) : Dev :=
  setPhase 9 (modBoot (fun b => { b with fetch := true, step := .running, reached := true, failedResets := 0 }) d)

/-- What the blobs placed so far allow: Point, then Fetch (Table 2.15, steps 8 and 9). -/
def advanceLoad (d : Dev) : Dev :=
  if d.boot.step != .loading then d
  else
    let placed (p : BlobEntry → Bool) : Bool := d.img.blobs.zipIdx.all (fun y => !p y.1 || (tabGet d.boot.blobs y.2 {}).placed)
    let d1 :=
      if !d.boot.point && placed (atPoint d.img) then
        if d.age.loaded = true ∧ d.age.cap = 3 then marginHalt d
        else setPhase 7 (modBoot (fun b => { b with point := true }) (clustersUp d))
      else d
    if d1.boot.step != .loading || !d1.boot.point then d1
    else if placed (fun _ => true) then reachRunning (if d1.img.blobs.all (atPoint d1.img) then d1 else setPhase 8 d1)
    else setPhase 8 d1

/-- Count corrected SPI-NAND bits. -/
def countCorrected (n : Nat) (d : Dev) : Dev := modBoot (fun b => { b with corrected := satAdd 4294967295 b.corrected n }) d

/-- A segment table (no segment) or a segment has been read from the blob's medium: from SPI-NAND page by page, each at most four
times, with the bit errors of each chunk as first read and as reread. -/
def mediumRead (e : BlobEntry) (seg : Option Nat) (n : Nat) (first : List (List Nat)) (again : List (List (List Nat))) (d : Dev) : Dev :=
  if e.medium = 1 then
    let table := ceilDiv (32 * segmentsOf e) 4096 * 4096
    let at_ := match seg with | none => e.offset | some k => e.offset + table + k * 1048576
    let pages := nandPagesOf d at_ n
    let bits := ((List.range pages.length).map (fun i => pageCorrected (chunksOf (d.img.nand.getD {})) (first.getD i []) (again.getD i []))).sum
    modBoot (fun b => { b with nandPages := pages }) (countCorrected bits d)
  else sendRead d

/-- A segment table (no segment) or a segment of a blob has been read (R51). -/
def blobRead (k : Nat) (seg : Option Nat) (bytes : Bytes) (first : List (List Nat)) (again : List (List (List Nat))) (d0 : Dev) : Dev :=
  let e := d0.img.blobs.getD k {}
  let x := tabGet d0.boot.blobs k {}
  let next := match x.table with | none => none | some _ => some x.next
  if (d0.boot.step = .acceptance ∨ d0.boot.step = .loading) ∧ k < d0.img.blobs.length ∧ x.done = false ∧ seg = next then
    let d := mediumRead e seg bytes.length first again d0
    let put (y : BlobState) (f : Dev) : Dev := modBoot (fun b => { b with blobs := tabSet b.blobs k y }) f
    if e.medium = 1 ∧ nandCapacity d < e.offset + blobExtent e then withdraw k noSeg d
    else match x.table with
      | none =>
        if bytes.length = 32 * segmentsOf e ∧ Config.sha256 bytes = e.digest then put { x with table := some bytes } d
        else withdraw k noSeg d
      | some t =>
        let n := min 1048576 (e.length - x.next * 1048576)
        if bytes.length = n ∧ Config.sha256 bytes = slice t (32 * x.next) 32 then
          let y := { x with next := x.next + 1, stored := x.stored ++ bytes, done := decide (x.next + 1 = segmentsOf e) }
          let d1 := put y d
          if y.done then advanceLoad (placeBlob k d1) else d1
        else withdraw k x.next d
  else d0

/-! ### Step 7 -/

/-- The RETURN unlock (R382): none when boot goes on, else the entry named. -/
def unlockFails (o : Otp) (img : Image) : Option Nat :=
  if lifecycle o = 4 then
    match img.unlock with
    | some u => if u.deviceId == deviceId o && Config.ecdsaVerify Config.makerKey u.deviceId u.signature then none
      else some (firstIdx img 0x0E03)
    | none => some noEntry
  else none

/-- Key-encryption key of the weights (Table 16.2). -/
def weightKek (o : Otp) (img : Image) (eph : Bytes) : Bytes :=
  Config.hkdf (Config.ecdhX ((wrapKey o).getD []) eph) (deviceId o) (ascii "KYNER KEK" ++ le 8 img.imageId) 32

/-- The key block (R375, R376): the unwrapped content keys, or none when a check fails. -/
def openKeyBlock (o : Otp) (img : Image) (kb : Bytes) : Option (List Bytes) :=
  let n := u16 kb 6
  if decryptState o && u32 kb 0 == 0x4B42594B && u16 kb 4 == 1 && rng 1 64 n && slice kb 8 32 == deviceId o && u64 kb 40 == img.imageId &&
      (img.keys.map (fun k => k.keyCount)) == some n then
    let kek := weightKek o img (slice kb 64 64)
    ((List.range n).map (fun i => Config.keyUnwrap kek (slice kb (128 + 40 * i) 40))).foldr
      (fun x l => match x, l with | some k, some r => some (k :: r) | _, _ => none) (some [])
  else none

/-- The image holds encrypted blobs. -/
def encrypted (img : Image) : Bool := img.blobs.any (fun b => bit b.flags 0)

/-- Nominal cluster rail of an operating point, mV (Table 18.3). -/
def nominalRail (p : Nat) : Nat := if p = 0 then 750 else if p = 1 then 650 else 550

/-- Cluster rail of a point with its guardband (R418). -/
def railOf (a : Age) (p : Nat) : Nat := nominalRail p + 5 * min 20 (a.guard.getD p 0)

/-- Code of the highest operating point that top_point, the thermal cap and the margin cap all allow (R418). -/
def capPoint (d : Dev) : Nat := max (max d.img.power.topPoint d.power.thermal) d.age.cap

/-- Guardbands by base_guard (R457). -/
def defaultGuard (r : RelRec) : List Nat := [r.g0 / 5, r.g1 / 5, r.g2 / 5]

/-- The margin plan is read at step 7 (R64, R450, R457, Table 19.5); its guardband reaches the rails (R418). -/
def readPlan (d : Dev) : Dev :=
  let f := d.flash
  let d1 := match newestCopy 1 (eraseBytes d) f.planA f.planB with
    | none =>
      let zero := List.replicate 40 0
      let g := defaultGuard d.img.rel
      info 0xA8 (modAge (fun a => { a with guard := g, retired := 0, cap := 0, loaded := false, baseline := zero, last := zero, since := 0 }) d)
    | some isA =>
      let b := (if isA then f.planA else f.planB).payload
      let words (o : Nat) : List Nat := (List.range 40).map (fun i => u16 b (o + 2 * i))
      modAge (fun a => { a with
        loaded := true, cap := u8 b 2 % 4, retired := BitVec.ofNat 24 (u32 b 4), guard := [u8 b 8, u8 b 9, u8 b 10]
        baseline := words 0x0C, last := words 0x5C, since := u32 b 0xAC }) d
  modPower (fun p => { p with rail := railOf d1.age p.point, raising := decide (capPoint d1 < p.point) }) d1

/-- Error record that a snapshot holds (Table 19.3). -/
def restoredErr (b : Bytes) (e : Err) : Err :=
  let fc := BitVec.ofNat 32 (u32 b 0x14)
  let ah := u32 b 0x20
  let fp := if fc.getLsbD 7 then some (fieldOf fc 6 0) else none
  let fa := if bit ah 31 then some (u32 b 0x1C + ah % 256 * 4294967296) else none
  let fd := (u32 b 0x18 / 16777216, u32 b 0x18 % 16777216)
  { e with
    entries := (List.range 64).foldl (fun t i =>
      let a := BitVec.ofNat 32 (u32 b (0x34 + 8 * i))
      let c := BitVec.ofNat 32 (u32 b (0x38 + 8 * i))
      let p := if c.getLsbD 15 then some (fieldOf c 14 8) else none
      let x : ErrEntry := { used := true, injected := a.getLsbD 30, cause := fieldOf a 15 8, count := fieldOf c 31 16, part := p }
      if a.getLsbD 31 then tabSet t i x else t) {}
    first := if fc.getLsbD 31 then some { injected := fc.getLsbD 30, cause := fieldOf fc 15 8, part := fp, detail := fd, addr := fa } else none
    overflow := BitVec.ofNat 32 (u32 b 0x24)
    overSet := bit (u32 b 0x10) 3 }

/-- The error log is read at step 7 (R64, R443): its snapshot is restored when the boot follows a reset that clears the record and
nothing has been recorded since (DEDUCED, log 36). -/
def readLog (d : Dev) : Dev :=
  let f := d.flash
  match newestCopy 2 (eraseBytes d) f.logA f.logB with
  | none => info 0xA8 d
  | some isA =>
    if d.power.cause ≤ 4 ∧ (errUsed d.err).isEmpty = true then modErr (restoredErr (if isA then f.logA else f.logB).payload) d else d

/-- The arbiter starts afresh (R429): what still waits is shed, with cause code 0x54. -/
def freshTier (t : Nat) (d : Dev) : Dev :=
  let left := waitingOf (getTier d t)
  let d1 := modTier t (fun x => { x with queues := {}, pending := [], held := {}, sharedHeld := 0, returned := [], highest := {}, idle := false }) d
  left.foldl (fun e q => record 0x54 (some q.part) (6, t) (modTier t (fun x => { x with shed := x.shed + 1 }) e)) d1

/-- Clock of an audio source as R100 compares it: the code of the line's PDM clock, or the TDM fields. -/
def audioClock (img : Image) (r : AudioRec) : Nat × AudioIn :=
  let a := img.audioIn.getD {}
  if r.kind = 0 then (a.pdmClocks / 4 ^ (r.source / 2 % 8 / 2) % 4, {})
  else (0, { a with pdmLines := 0, pdmClocks := 0 })

/-- The inputs take the newly accepted image's settings. The lock, the count of good frames and the stuck lines carry over, since
the spec resets them nowhere but with the always-on domain (DESIGN CHOICE, log 112). -/
def startInput (d : Dev) : Dev := { d with audio := { d.audio with input := d.img.audioIn.getD {} } }

/-- Each slot under the newly accepted image (R100): kept, started or stopped. A stopped stream's indices end, and its slot's INDEX
reads 0 from then on (DESIGN CHOICE, log 112). Its LEVEL keeps its floor and level, and the LEVEL of a stream that starts keeps the level
of the slot's former one until its first frame (DESIGN CHOICE, log 112). -/
def startSlot (a : Nat) (d : Dev) : Dev :=
  modSlot a (fun s =>
    match d.img.audio.find? (fun r => r.slot == a) with
    | none => { s with active := false, preroll := {}, index := 0, index48 := 0 }
    | some r =>
      let c := audioClock d.img r
      let kept := s.active && s.cfg.stream == r.stream && s.cfg.kind == r.kind && s.cfg.source == r.source && s.clock == c
      let b : AudioSlot := if kept then s else { level := s.level, decide := s.decide, filled := s.filled, saturated := s.saturated }
      { b with
        active := true, cfg := r, clock := c, floor := r.floorInit * 65536, armed := true, run := 0
        index48 := if kept && bit r.flags 0 && !bit s.cfg.flags 0 then 3 * s.index else b.index48 }) d

/-- What the records of the image say of catalogues, state blocks and page tables starts in force (R206, R239, R254, R429). -/
def startBlocks (d : Dev) : Dev :=
  let d1 := d.img.cats.foldl (fun e c => modCat c.slot (fun x => { x with count := c.baseCount }) e) d
  let d2 := d1.img.blocks.foldl (fun e r => initBlk r.id (modBlk r.id (fun x => { x with place := r.spillTier }) e)) d1
  d2.img.kvs.foldl (fun e r => writeTable r.seq {} e) d2

/-- Acceptance succeeds (step 7). -/
def accept (o : Otp) (keys : List Bytes) (present : List Nat) (found : List (Fin 2 × Nat)) (d : Dev) : Dev :=
  let d1 := modBoot (fun b => { b with accepted := true, unlocked := decide (lifecycle o = 4), keys := keys, unwrapped := keys.length, step := .loading }) d
  let d2 := readPlan (readLog d1)
  let d3 := (List.range 8).foldl (fun e a => startSlot a e) (freshTier 3 (freshTier 2 (freshTier 1 (startInput d2))))
  let d4 := assignAddresses present found (startBlocks d3)
  let d5 := setPhase 6 (setPhase 5 (modBoot (fun b => { b with sniff := true }) d4))
  let ready := (List.range d.img.blobs.length).filter (fun k => (tabGet d.boot.blobs k {}).done)
  advanceLoad (ready.foldl (fun e k => placeBlob k e) d5)

/-- Step 7 (R479, steps 5 to 7). -/
def acceptance (o : Otp) (kb : Bytes) (present : List Nat) (found : List (Fin 2 × Nat)) (d : Dev) : Dev :=
  if d.boot.step = .acceptance then
    match crossCheck (d.boot.density.getD 0) d.img with
    | some i => if i < 0x8000 then bootFail 0xA1 0 i noSeg d else bootFail 0xA1 1 (i - 0x8000) noSeg d
    | none =>
      match unlockFails o d.img with
      | some i => bootFail 0xA6 0 i noSeg d
      | none =>
        match (if encrypted d.img then openKeyBlock o d.img kb else some []) with
        | none => bootFail 0xA9 0 (firstIdx d.img 0x0E01) noSeg d
        | some ks => accept o ks present found d
  else d

/-- The rollback floor rises when boot reaches the running phase (R43). before is the device before the command. -/
def raiseFloor (before : Dev) (s : State) : State :=
  let v := s.dev.img.header.securityVersion
  if before.boot.step != .running && s.dev.boot.step == .running && s.dev.boot.policy.advanceFloor == 1 && decide (s.otp.floor < v) then
    { s with otp := { s.otp with floor := v } }
  else s

/-- A meaning of the boot that may reach the running phase. -/
def bootStep (f : Dev → Dev) (s : State) : Result := wholeStep (fun t => raiseFloor t.dev { t with dev := f t.dev }) s

/-! ### Device-written regions -/

/-- Start the error-log write that waits, if the spacing and the flash allow it (R67). -/
def startDueLog (d : Dev) : Dev :=
  match d.flash.logDue with
  | some r =>
    if d.flash.spacing = false ∧ d.flash.writing.isNone = true then
      modFlash (fun f => { f with logDue := none, spacing := true }) (startWrite true (snapshotBytes r d) d)
    else d
  | none => d

/-- Start the margin-plan write that waits, if the flash is free. -/
def startDuePlan (d : Dev) : Dev :=
  match d.flash.planDue with
  | some p => if d.flash.writing.isNone then startWrite false p (modFlash (fun f => { f with planDue := none }) d) else d
  | none => d

/-- The minimum spacing of error-log writes has passed (R67). -/
def spacingEnds (d : Dev) : Dev := if d.flash.spacing then startDueLog (modFlash (fun f => { f with spacing := false }) d) else d

/-- FLASH_WRITE_DONE: the write in progress ends with its read-back (R65), and what waits for the flash starts. -/
def writeEnds (same : Bool) (d : Dev) : Dev :=
  if d.flash.writing.isNone then d
  else
    let d0 := sendRead d
    startDueLog (startDuePlan (endWrite same d0))

/-! ### Commands -/

/-- POWER_ON (R428). -/
def execPowerOn (s : State) : Result := devStep (heldReset 1) s

/-- BROWN_OUT (R463): the rail stays below its limit for a time in microseconds. -/
def execBrownOut (_rail : Fin 2) (micros : Nat) (s : State) : Result := devStep (fun d => if 2 ≤ micros then brownOut d else d) s

/-- PORST_N_ASSERT (R39, R428). -/
def execPorstAssert (nanos : Nat) (s : State) : Result := devStep (porstLow nanos) s

/-- PORST_N_RELEASE (R57). -/
def execPorstRelease (straps : Fin 4) (rewritten : Option (List Bytes)) (s : State) : Result := devStep (porstHigh straps.val rewritten) s

/-- SFDP_READ_DONE (R35): the density, if the table states one, and the erase commands it names: block size in KiB, opcode. -/
def execSfdpReadDone (density : Option Nat) (eraseKib : List (Nat × Nat)) (s : State) : Result := devStep (sfdpRead density eraseKib) s

/-- HEADER_READ_DONE (R61). -/
def execHeaderReadDone (first second : Bytes) (s : State) : Result :=
  unlessWf (.headerReadDone first second) s (devStep (headerRead first second) s)

/-- MANIFEST_READ_DONE (R478). -/
def execManifestReadDone (bytes : Bytes) (s : State) : Result := devStep (manifestRead (signerHash s.otp) s.otp.floor bytes) s

/-- RECORD_READ_DONE (R45). -/
def execRecordReadDone (bytes : Bytes) (s : State) : Result := devStep (recordRead (lifecycle s.otp) bytes) s

/-- DRAM_TRAINING_DONE (R49, R26): the factory bad-block markers of each SPI-NAND device, by block. -/
def execDramTrainingDone (passed : Bool) (mib : Nat) (goodBlocks : List (List Bool)) (s : State) : Result :=
  unlessWf (.dramTrainingDone passed mib goodBlocks) s (devStep (trainingDone passed mib goodBlocks) s)

/-- IMAGE_ACCEPTANCE (R479): the key block as read, the sensors present on static addresses, the targets that ENTDAA found. -/
def execImageAcceptance (keyBlock : Bytes) (present : List Nat) (found : List (Fin 2 × Nat)) (s : State) : Result :=
  unlessWf (.imageAcceptance keyBlock present found) s (bootStep (acceptance s.otp keyBlock present found) s)

/-- BLOB_SEGMENT_READ_DONE (R51): from SPI-NAND with the bit errors of each chunk, page by page, as first read, and of each reread
that uncorrectable ones lead to. -/
def execBlobSegmentReadDone (entry : Nat) (segment : Option Nat) (bytes : Bytes) (corrected : List (List Nat))
    (uncorrectable : List (List (List Nat))) (s : State) : Result :=
  bootStep (blobRead entry segment bytes corrected uncorrectable) s

/-- ERRLOG_SPACING_EXPIRY (R67). -/
def execErrlogSpacingExpiry (s : State) : Result := devStep spacingEnds s

/-- FLASH_WRITE_DONE (R65). -/
def execFlashWriteDone (same : Bool) (s : State) : Result := devStep (writeEnds same) s

end Sys2Proof.Machine
end

