-- ==== Sys2Proof/Machine/Power.lean ====
section
/-! DEFINITION. Clocks, operating points, the governor, hard stops, temperature, the watchdog and cluster resets (R415 to R430). -/

namespace Sys2Proof.Machine

/-! ### Clocks (R416, R417) -/

/-- The always-on domain runs: it is not held in reset. -/
def awake (d : Dev) : Bool := d.boot.step != .held

/-- The 32.768 kHz crystal stops, or an injection makes it count as stopped for one check (R416, R444). -/
def crystalStop (d : Dev) : Dev :=
  if awake d && d.power.fll then
    let inj := (armedOn d 0xF 1).isSome
    recordOn 0xF 1 0x96 none (0, 0) (modPower (fun p => { p with xtal := inj && p.xtal, fll := false }) d)
  else d

/-- The crystal runs and the FLL has relocked. -/
def crystalRestart (d : Dev) : Dev := if awake d then modPower (fun p => { p with xtal := true, fll := true }) d else d

/-- A PLL in use loses lock (R417): its clocks are gated; without the supervisor's own clock no snapshot is written. -/
def pllLost (k : Nat) (d : Dev) : Dev :=
  if pllLocked d.power k then
    let d1 := modPower (fun p => { p with lost := p.lost ++ [k] }) d
    deviceError false (k != 3) (if k = 0 then recordOn 0xF 0 0x95 none (0, 0) d1 else info 0x95 d1)
  else d

/-! ### Operating points (R418, R419) -/

/-- A hard stop holds some cluster: a change of point waits (R419). -/
def anyStopped (d : Dev) : Bool := (List.range 4).any (fun n => (getCluster d n).stopped)

/-- Step up by one point: the voltage first, then the divider when the change ends. -/
def stepUp (d : Dev) : Dev :=
  let n := d.power.point - 1
  modPower (fun p => { p with changing := some n, rail := railOf d.age n, stepUp := p.stepUp + 1 }) d

/-- Step down to a point: the divider first, then the voltage when the change ends. -/
def stepDownTo (n : Nat) (d : Dev) : Dev :=
  modPower (fun p => { p with point := n, changing := some n, stepDown := p.stepDown + 1 }) d

/-- The point never stands above the caps (R418): a higher one, in force or on its way, steps down. -/
def enforceCap (d : Dev) : Dev :=
  let c := min 2 (capPoint d)
  if d.power.point < c then stepDownTo c d
  else match d.power.changing with
    | some n => if n < c then modPower (fun p => { p with changing := some p.point }) d else d
    | none => d

/-- The rails follow a raised guardband of the point in force (R455). -/
def settleRail (d : Dev) : Dev :=
  if d.power.changing.isNone && d.power.rail != railOf d.age d.power.point then modPower (fun p => { p with changing := some p.point }) d else d

/-- One step of the raise after boot (R418). -/
def bootRaise (d : Dev) : Dev :=
  if live d && d.power.raising && d.power.changing.isNone && decide (capPoint d < d.power.point) then stepUp d else d

/-- A change of point or of guardband completes; one under a hard stop waits for its release (R419). -/
def changeDone (d : Dev) : Dev :=
  match d.power.changing with
  | some n =>
    if anyStopped d then d
    else modPower (fun p => { p with point := n, rail := railOf d.age n, changing := none, raising := p.raising && decide (capPoint d < n) }) d
  | none => d

/-! ### The governor (R420, R421) -/

/-- Some PLL is in use, so the reference runs and the governor samples (R415). -/
def refRunning (p : Power) : Bool := (List.range 5).any (fun k => pllInUse p k)

/-- Mean of the last periods; which way an inexact mean is rounded is open (log 7). -/
def meanPower (l : List Nat) (d : Dev) : Nat × Dev :=
  let s := l.foldl (fun a x => a + x) 0
  if s % l.length = 0 then (s / l.length, d)
  else let c := draw d; (s / l.length + Config.freeNat c.1 % 2, c.2)

/-- The decisions of one period (R420), q being the mean power plus 100 mW. -/
def decide420 (limit q : Nat) (p : Power) : Power :=
  let p1 :=
    if limit < q then { p with level := min 15 (p.level + 1), calm := 0 }
    else if 100 * q < 97 * limit then
      if 10 ≤ p.calm + 1 then { p with level := p.level - 1, calm := 0 } else { p with calm := p.calm + 1 }
    else p
  { p1 with high := if 8 ≤ p1.level then p1.high + 1 else 0, low := if p1.level = 0 ∧ 10 * q < 8 * limit then p1.low + 1 else 0 }

/-- Grade maximum in °C (R424): 95 for KC3648-I, 105 for KC3648-E. -/
def gradeMax (o : Otp) : Int := if o.grade = 1 then 105 else 95

/-- Hottest sensor of the powered dies (R424). -/
def hottest (d : Dev) : Int := if computeOn d then max d.power.base d.power.compute else d.power.base

/-- The thermal cap moves one point lower (R424). -/
def capDown (inj : Bool) (d : Dev) : Dev :=
  if d.power.thermal < 2 then
    enforceCap (recordAt 0x93 none (0, 0) none inj (modPower (fun p => { p with thermal := p.thermal + 1, caps := p.caps + 1 }) d))
  else d

/-- Grade maximum + 15 °C: cause code 0x94; clusters, ISP and Perk go down at once, then R53 or R55 (R424). -/
def shutdown (inj : Bool) (d : Dev) : Dev :=
  deviceError true true (recordAt 0x94 none (0, 0) none inj (if d.power.isp then ispDown d else d))

/-- An injection on a junction sensor takes this period's reading (R444, R446). -/
def injectTemp (mx : Int) (d : Dev) : Dev :=
  let hit (k : Nat) : Option Nat := if k = 2 ∧ computeOn d = false then none else armedOn d 0xF k
  let put (k : Nat) (v : Int) (e : Dev) : Dev := modPower (fun p => if k = 2 then { p with compute := v } else { p with base := v }) e
  match hit 2, hit 3 with
  | some m, _ => if m = 0 then capDown true (put 2 (mx + 1) (fired d)) else shutdown true (put 2 (mx + 15) (fired d))
  | none, some m => if m = 0 then capDown true (put 3 (mx + 1) (fired d)) else shutdown true (put 3 (mx + 15) (fired d))
  | none, none => d

/-- One period of the governor: mean power in mW, hottest sensors (R420, R424). -/
def governorPeriod (mx : Int) (mw : Nat) (base compute : Int) (d : Dev) : Dev :=
  if awake d then
    let d1 := modPower (fun p => { p with base := base, compute := if p.clusters != 0 then compute else p.compute }) d
    if refRunning d1.power then
      let l := (mw :: d1.power.means).take 100
      let m := meanPower l d1
      let pk := if m.1 > m.2.power.peak.toNat then w32 m.1 else m.2.power.peak
      let d2 := modPower (fun p => { p with means := l, mean := m.1 % 65536, peak := pk }) m.2
      let d3 := if d2.power.changing.isNone then modPower (decide420 d2.img.power.limit (mw + 100)) d2 else d2
      injectTemp mx (noteLevels (modPower (fun p => { p with throttled := if 0 < p.level then p.throttled + 1 else p.throttled }) d3))
    else injectTemp mx d1
  else d

/-- L has been 8 or more for 100 periods (R420). -/
def governorDown (d : Dev) : Dev :=
  if awake d && decide (100 ≤ d.power.high) && decide (d.power.point < 2) && d.power.changing.isNone then
    stepDownTo (d.power.point + 1) (noteLevels (modPower (fun p => { p with level := 0, high := 0, raising := false }) d))
  else d

/-- Low power for 1,000 periods (R420). -/
def governorUp (d : Dev) : Dev :=
  if awake d && decide (1000 ≤ d.power.low) && decide (capPoint d < d.power.point) && d.power.changing.isNone then
    stepUp (modPower (fun p => { p with low := 0 }) d)
  else d

/-! ### Temperature (R424) -/

/-- A full 1 ms above the grade maximum. -/
def thermalStep (mx : Int) (d : Dev) : Dev := if awake d && decide (mx < hottest d) then capDown false d else d

/-- 100 ms below the grade maximum − 5 °C. -/
def thermalRecover (mx : Int) (d : Dev) : Dev :=
  if awake d && decide (hottest d < mx - 5) then modPower (fun p => { p with thermal := p.thermal - 1 }) d else d

/-- The grade maximum + 15 °C is reached. -/
def thermalShutdown (mx : Int) (d : Dev) : Dev := if awake d && decide (mx + 15 ≤ hottest d) then shutdown false d else d

/-- Boot starts after a 0x94 reset. -/
def cooldownBoot (mx : Int) (d : Dev) : Dev :=
  if d.boot.step = .cooling ∧ hottest d < mx - 15 then beginBoot d else d

/-! ### Hard stops (R154, R423) -/

/-- Units of a cluster: its cores and its stem engine. -/
def unitsOf (n : Nat) : List Nat := (List.range 6).map (fun k => 6 * n + k) ++ [24 + n]

/-- The unit's tile replays after an earlier hard stop. -/
def replaying (d : Dev) (u : Nat) : Bool := (tileOf d u).any (fun t => t.replay)

/-- The rail of a cluster falls below 90 % of its set voltage: its tiles first, those that replay last, so that the codes of the
cycle are recorded in ascending order (R439). -/
def hardStop (n : Nat) (d : Dev) : Dev :=
  if d.power.clusters.getLsbD n && !(getCluster d n).stopped then
    let d1 := modCluster n (fun c => { c with stopped := true, hardStops := c.hardStops + 1 }) d
    let us := (unitsOf n).filter (fun u => !replaying d u) ++ (unitsOf n).filter (fun u => replaying d u)
    recordOn 0xC n 0x92 none (2, n) (modPower (fun p => { p with hardStops := p.hardStops + 1 }) (us.foldl (fun e u => hardStopTile u e) d1))
  else d

/-- The rail has recovered: the cluster is released at hold level 8 (R421). -/
def hardRelease (n : Nat) (d : Dev) : Dev :=
  if (getCluster d n).stopped then
    (unitsOf n).foldl (fun e u => releaseTile u e) (modCluster n (fun c => { c with stopped := false, hold := true }) d)
  else d

/-- The hold level ends. -/
def holdEnds (n : Nat) (d : Dev) : Dev := noteLevels (modCluster n (fun c => { c with hold := false }) d)

/-! ### The watchdog and cluster resets (R428, R430) -/

/-- The firmware has not serviced the watchdog; only power-on and PORST_N end the halted state (R54). -/
def watchdog (d : Dev) : Dev := if awake d && d.power.sup && d.boot.step != .halted then watchdogReset d else d

/-- Descriptors of a cluster that are released. -/
def releasedOn (d : Dev) (n : Nat) : List Desc := d.sched.live.filter (fun y => y.released && dCluster y.bytes == n)

/-- A cluster reset (R430): its scan tiles' chunks count as applied (R243); its tiles and transfers go, its requests end with the triggering cause, resident blocks are poisoned,
its SRAM is lost, and entries of FIFOs to it are counted (R427). -/
def clusterReset (n cause fifos : Nat) (d : Dev) : Dev :=
  if live d && d.power.clusters.getLsbD n then
    let xs := releasedOn d n
    let os := (dedup (xs.flatMap (ordersOf d))).filter (openReq d)
    let sweeps := (List.range 8).filter (fun k => (getCat d k).sweep.any (fun w => w.cores.any (fun u => u / 6 == n)))
    let d0 := (xs.filter (fun y => dKind y.bytes == 3)).foldl (fun e y => abortSlice y.bytes e) d
    let d1 := (unitsOf n).foldl (fun e u => discardTile u (some cause) e) d0
    let d2 := keepXfers (fun _ => false) n d1
    let homed (w : Nat) : Bool := d.img.windows.any (fun r => r.window == w && r.home == n)
    let d3 := { d2 with mov := { d2.mov with wins := tabMap d2.mov.wins (fun w x => if homed w then { x with loading := none } else x) } }
    let d4 := xs.foldl (fun e y => discardDesc y.id (some cause) e) (endReqs os cause d3)
    let d5 := sweeps.foldl (fun e k => sweepAbort k e) d4
    let bs := d5.img.blocks.filter (fun r => blkCore d5 r.id / 6 == n && (getBlk d5 r.id).place == 0)
    let d6 := bs.foldl (fun e r => poisonBlk r.id (writeBlkHeader r.id e)) { d5 with mem := memLose d5.mem (clusterBase n) 0x1000000 }
    let d7 := clearCluster n d6
    let d8 := modCluster n (fun c => { c with epoch := satAdd 65535 c.epoch 1, window := 0, charge := {} }) d7
    let d9 := modPower (fun p => { p with clusterResets := p.clusterResets + 1, resync := addW p.resync fifos }) d8
    infoN 0x21 fifos d9
  else d

/-! ### Commands -/

/-- CRYSTAL_STOP. -/
def execCrystalStop (s : State) : Result := devStep crystalStop s
/-- CRYSTAL_RESTART. -/
def execCrystalRestart (s : State) : Result := devStep crystalRestart s
/-- PLL_LOCK_LOST. -/
def execPllLockLost (pll : Fin 5) (s : State) : Result := devStep (pllLost pll.val) s
/-- BOOT_POINT_STEP_UP. -/
def execBootPointStepUp (s : State) : Result := devStep bootRaise s
/-- GOVERNOR_PERIOD. -/
def execGovernorPeriod (milliwatts : Nat) (base compute : Int) (s : State) : Result :=
  unlessWf (.governorPeriod milliwatts base compute) s (devStep (governorPeriod (gradeMax s.otp) milliwatts base compute) s)
/-- GOVERNOR_STEP_DOWN. -/
def execGovernorStepDown (s : State) : Result := devStep governorDown s
/-- GOVERNOR_STEP_UP. -/
def execGovernorStepUp (s : State) : Result := devStep governorUp s
/-- OPERATING_POINT_CHANGE_DONE. -/
def execOperatingPointChangeDone (s : State) : Result := devStep changeDone s
/-- HOLD_LEVEL_EXPIRY. -/
def execHoldLevelExpiry (cluster : Fin 4) (s : State) : Result := devStep (holdEnds cluster.val) s
/-- THERMAL_CAP_STEP. -/
def execThermalCapStep (s : State) : Result := devStep (thermalStep (gradeMax s.otp)) s
/-- THERMAL_CAP_RECOVER. -/
def execThermalCapRecover (s : State) : Result := devStep (thermalRecover (gradeMax s.otp)) s
/-- THERMAL_SHUTDOWN. -/
def execThermalShutdown (s : State) : Result := devStep (thermalShutdown (gradeMax s.otp)) s
/-- COOLDOWN_BOOT_START. -/
def execCooldownBootStart (s : State) : Result := devStep (cooldownBoot (gradeMax s.otp)) s
/-- WATCHDOG_EXPIRY. -/
def execWatchdogExpiry (s : State) : Result := devStep watchdog s
/-- HARD_STOP. -/
def execHardStop (cluster : Fin 4) (s : State) : Result := devStep (hardStop cluster.val) s
/-- HARD_STOP_RELEASE. -/
def execHardStopRelease (cluster : Fin 4) (s : State) : Result := devStep (hardRelease cluster.val) s
/-- CLUSTER_RESET. -/
def execClusterReset (cluster : Fin 4) (cause : Nat) (fifos : Nat) (s : State) : Result :=
  unlessWf (.clusterReset cluster cause fifos) s (devStep (clusterReset cluster.val cause fifos) s)

end Sys2Proof.Machine
end

