-- ==== Sys2Proof/Machine/Reliability.lean ====
section
/-! DEFINITION. Self-test and retirement, the bank test, ageing and the margin plan (R448 to R457), and a core's leave of the
schedule (R319). -/

namespace Sys2Proof.Machine

/-! ### Self-test (R319, R448 to R451) -/

/-- Lists of a core that a sweep in progress has not merged (R193). -/
def unmergedLists (d : Dev) (u : Nat) : Bool :=
  (getUnit d u).lists.cells.any (fun c => (getCat d (c.1 / 64)).sweep.isSome)

/-- The core on its way out may leave at this tile boundary (R319). -/
def mayLeave (d : Dev) (u : Nat) : Bool :=
  (tileOf d u).isNone && (getUnit d u).frames.isEmpty && !unmergedLists d u &&
    d.img.blocks.all (fun r => blkCore d r.id != u || (getBlk d r.id).place != 0)

/-- The core leaves the schedule for its test (R22, R319, R448). -/
def leaveSchedule (u : Nat) (d : Dev) : Dev :=
  if live d && !d.age.busy && d.age.testing.any (fun t => t.1 == u) && mayLeave d u then
    modUnit u (fun x => { x with cache := [] }) (modAge (fun a => { a with busy := true, avail := a.avail &&& ~~~ BitVec.ofNat 24 (2 ^ u) }) d)
  else d

/-- The periodic test timer (R449). -/
def testPeriod (d : Dev) : Dev :=
  if live d && d.img.rel.selftestLog2 != 0 then
    match ((List.range 24).map (fun k => (d.age.nextCore + k) % 24)).find? (fun u => !d.age.retired.getLsbD u) with
    | none => d
    | some u =>
      let full := (List.range 6).all (fun k => d.age.avail.getLsbD (6 * (u / 6) + k))
      let d1 := modAge (fun a => { a with nextCore := (u + 1) % 24 }) d
      if full then nextTest (modAge (fun a => { a with tests := a.tests ++ [(u, 2)] }) d1) else d1
  else d

/-- Margin-plan payload (Table 19.5). -/
def planBytes (a : Age) : Bytes :=
  le 2 1 ++ le 1 a.cap ++ zeros 1 ++ le 4 a.retired.toNat ++ a.guard.flatMap (le 1) ++ zeros 1 ++ a.baseline.flatMap (le 2) ++
    a.last.flatMap (le 2) ++ le 4 a.since

/-- Payload that a retirement writes while the plan in force comes from an injected reading (R446): the plan last written, with the
retirement (DEDUCED, log 38). -/
def retiredPlan (d : Dev) : Bytes :=
  let f := d.flash
  let old := match newestCopy 1 (eraseBytes d) f.planA f.planB with
    | some true => f.planA.payload
    | some false => f.planB.payload
    | none => planBytes { guard := defaultGuard d.img.rel }
  slice old 0 4 ++ le 4 d.age.retired.toNat ++ old.drop 8

/-- Write the plan in force; one that comes from an injected reading is never written (R446). -/
def writePlan (d : Dev) : Dev := if d.age.injected then d else planWrite (planBytes d.age) d

/-- A core is retired (R450, R319). -/
def retireCore (u : Nat) (d : Dev) : Dev :=
  let d1 := modAge (fun a => { a with retired := a.retired ||| BitVec.ofNat 24 (2 ^ u), avail := a.avail &&& ~~~ BitVec.ofNat 24 (2 ^ u) }) d
  let d2 := rehome u (record 0x15 none (1, u) d1)
  if d2.age.injected then planWrite (retiredPlan d2) d2 else writePlan d2

/-- Some partition's muzzle stands on a master. -/
def muzzledMaster (d : Dev) (m : Nat) : Bool := d.sched.parts.cells.any (fun c => c.2.muzzled.contains m)

/-- A self-test ends (R450). -/
def testDone (pass : Bool) (d : Dev) : Dev :=
  match d.age.busy, d.age.testing with
  | true, some (u, kind) =>
    let d1 := modAge (fun a => { a with busy := false, testing := none, lastTest := (pass, kind, u) }) d
    let d2 := if pass then
        modUnit u (fun x => { x with faults := 0 }) (modAge (fun a => { a with
          avail := if muzzledMaster d1 u then a.avail else a.avail ||| BitVec.ofNat 24 (2 ^ u) }) d1)
      else retireCore u d1
    nextTest d2
  | _, _ => d

/-- A core's fault window ends (R451). -/
def abortWindow (u : Nat) (d : Dev) : Dev := if live d then modUnit u (fun x => { x with faults := 0 }) d else d

/-! ### Bank test (R452) -/

/-- The bank-test timer: the next powered bank. -/
def bankPeriod (d : Dev) : Dev :=
  if live d && d.img.rel.bankLog2 != 0 && d.age.bank.isNone then
    match ((List.range 48).map (fun k => (d.age.lastBank + 1 + k) % 48)).find? (fun b => d.power.banks.getLsbD b) with
    | some b => modAge (fun a => { a with bank := some (b, 0) }) d
    | none => d
  else d

/-- A 4 KiB slice is tested: granules of it that are uncorrectable, and how many were corrected. An injection on the bank acts where
nothing natural fails (R446). -/
def bankSlice (bad : List Nat) (corrected : Nat) (d : Dev) : Dev :=
  match d.age.bank with
  | none => d
  | some (b, k) =>
    if d.power.banks.getLsbD b then
      let own := dedup (bad.filter (fun g => decide (g < 64)))
      let inj := armedOn d 2 b
      let hit := inj.isSome && corrected == 0 && own.isEmpty
      let c := draw d
      let d0 := if hit then fired c.2 else c.2
      let n := if hit && inj == some 0 then 1 else corrected
      let gs := if hit && inj != some 0 then [Config.freeNat c.1 % 64] else own
      let base := bankBase b + 4096 * k
      let d1 := (List.range n).foldl (fun e _ => recordAt 0x10 none (5, b) none hit e) d0
      let d2 := gs.foldl (fun e g => poisonRange (base + 64 * g) 64
        (recordAt 0x11 ((regionAt e.img (base + 64 * g)).map (fun r => r.part)) (5, b) (some (base + 64 * g)) hit e)) d1
      modAge (fun a => if k + 1 < 512 then { a with bank := some (b, k + 1) } else { a with bank := none, lastBank := b }) d2
    else modAge (fun a => { a with bank := none, lastBank := b }) d

/-! ### Ageing (R453 to R457) -/

/-- Largest positive drift of monitors lo to lo + n − 1. -/
def drift (a : Age) (lo n : Nat) : Nat :=
  (List.range n).foldl (fun m i => max m (a.last.getD (lo + i) 0 - a.baseline.getD (lo + i) 0)) 0

/-- Required guardband of a point (R455). -/
def required (r : RelRec) (dr p : Nat) : Nat :=
  let g := if p = 0 then r.g0 else if p = 1 then r.g1 else r.g2
  let al := if p = 0 then r.d0 else if p = 1 then r.d1 else r.d2
  let u := if p = 0 then r.u0 else if p = 1 then r.u1 else r.u2
  min 255 (g / 5 + ceilDiv (dr - al) u)

/-- Guardbands after a re-plan (R455): never lowered. -/
def replanGuard (r : RelRec) (a : Age) : List Nat :=
  let dr := drift a 0 32
  (List.range 3).map (fun p => max (a.guard.getD p 0) (required r dr p))

/-- A point is exhausted (R456). -/
def exhausted (g : List Nat) (p : Nat) : Bool := decide (20 < g.getD p 0)

/-- Margin cap of guardbands (R456). -/
def capOf (g : List Nat) : Nat := if exhausted g 2 then 3 else if exhausted g 1 then 2 else if exhausted g 0 then 1 else 0

/-- Re-plan (R455, R456); first says that the plan must be written in any case, inj that the reading was injected. -/
def replan (first inj : Bool) (d : Dev) : Dev :=
  let old := d.age.guard
  let g := replanGuard d.img.rel d.age
  let changed := g != old
  let low := decide (d.img.rel.baseAllow < drift d.age 32 8)
  let d1 := modAge (fun a => { a with guard := g, cap := max a.cap (capOf g), baseLow := low, injected := a.injected || inj,
                                      replans := if changed then a.replans + 1 else a.replans }) d
  let d2 := if changed then recordAt 0x90 none (0, 0) none inj d1 else d1
  let newly (p : Nat) : Bool := exhausted g p && !exhausted old p
  let d3 := [0, 1].foldl (fun e p => if newly p then recordAt 0x91 none (0, 0) none inj e else e) d2
  let d4 := if low then recordAt 0x98 none (0, 0) none inj d3 else d3
  let d5 := if changed || first then writePlan d4 else d4
  if exhausted g 2 then haltDevice (deviceSnapshot (recordAt 0x97 none (0, 0) none inj d5))
  else settleRail (enforceCap d5)

/-- Readings taken: those of the powered clusters and of the base die; the others are due at their cluster's power-up (R454). -/
def takeReadings (l : List Nat) (d : Dev) : Dev :=
  let on (m : Nat) : Bool := decide (32 ≤ m) || d.power.clusters.getLsbD (m / 8)
  let last := (List.range 40).map (fun m => if on m then l.getD m 0 else d.age.last.getD m 0)
  let base := (List.range 40).map (fun m => let b := d.age.baseline.getD m 0; if on m && b == 0 then l.getD m 0 else b)
  let d1 := modAge (fun a => { a with last := last, baseline := base, measures := a.measures + 1 }) d
  (List.range 4).foldl (fun e n => modCluster n (fun c => { c with measureDue := !d.power.clusters.getLsbD n }) e) d1

/-- Reading of a monitor with an injection of class 0xE: 64 in mode 0, 256 in mode 1 (R444). -/
def addReading (m mode : Nat) (l : List Nat) : List Nat := l.set m (min 65535 (l.getD m 0 + if mode = 0 then 64 else 256))

/-- Monitor and mode of an armed injection of class 0xE. -/
def armedMonitor (d : Dev) : Option (Nat × Nat) :=
  match d.err.armed with
  | some (i, m) => if i / 4096 = 0xE ∧ i % 4096 < 40 then some (i % 4096, m) else none
  | none => none

/-- A re-plan on these last readings would exhaust point 2 (R445). -/
def wouldExhaust (last : List Nat) (d : Dev) : Bool := exhausted (replanGuard d.img.rel { d.age with last := last }) 2

/-- The monitors are measured (R454) and the supervisor re-plans. deployed is the lifecycle state of R445. -/
def measure (deployed : Bool) (l : List Nat) (d : Dev) : Dev :=
  if live d && d.boot.point then
    let first := !d.age.loaded && d.age.baseline.all (fun b => b == 0)
    let d1 := takeReadings l d
    let d2 := modAge (fun a => { a with since := if first then 0 else a.since + 1 }) d1
    match armedMonitor d with
    | some (m, mode) =>
      if decide (32 ≤ m) || d.power.clusters.getLsbD (m / 8) then
        let last := addReading m mode d2.age.last
        if deployed && wouldExhaust last d2 then replan first false (modErr (fun e => { e with armed := none, denied := true }) d2)
        else replan first true (fired (modAge (fun a => { a with last := last }) d2))
      else replan first false d2
    | none => replan first false d2
  else d

/-! ### Commands -/

/-- CORE_LEAVE_SCHEDULE (R319). -/
def execCoreLeaveSchedule (core : Fin 24) (s : State) : Result := devStep (leaveSchedule core.val) s
/-- SELF_TEST_PERIOD (R449). -/
def execSelfTestPeriod (s : State) : Result := devStep testPeriod s
/-- SELF_TEST_DONE (R450). -/
def execSelfTestDone (pass : Bool) (s : State) : Result := devStep (testDone pass) s
/-- ABORT_WINDOW_EXPIRY (R451). -/
def execAbortWindowExpiry (core : Fin 24) (s : State) : Result := devStep (abortWindow core.val) s
/-- BANK_TEST_PERIOD (R452). -/
def execBankTestPeriod (s : State) : Result := devStep bankPeriod s
/-- BANK_SLICE_DONE (R452). -/
def execBankSliceDone (uncorrectable : List Nat) (corrected : Nat) (s : State) : Result := devStep (bankSlice uncorrectable corrected) s
/-- AGEING_MEASURE (R454 to R457). -/
def execAgeingMeasure (readings : List Nat) (s : State) : Result :=
  unlessWf (.ageingMeasure readings) s (devStep (measure (lifecycle s.otp == 3) readings) s)

end Sys2Proof.Machine
end

