-- ==== Sys2Proof/Machine/Window.lean ====
section
/-! DEFINITION. The status and maintenance space (Table 1.6): every register's word, what a read latches, which registers a write
reaches (Table 15.9) and what it does there (R13). -/

namespace Sys2Proof.Machine

/-- Entry and word of an offset in an array of register groups: first offset, stride, entries, words of a group. -/
def grp (base stride count words o : Nat) : Option (Nat × Nat) :=
  if base ≤ o ∧ o < base + stride * count ∧ (o - base) % stride / 4 < words ∧ (o - base) % 4 = 0 then
    some ((o - base) / stride, (o - base) % stride / 4)
  else none

/-- The first answer of two. -/
def orWord (a b : Option Word) : Option Word := match a with | some w => some w | none => b

/-- Word r of entry i, where an offset lies in an array of register groups. -/
def arr (base stride count words o : Nat) (f : Nat → List Word) : Option Word :=
  (grp base stride count words o).bind (fun g => (f g.1)[g.2]?)

/-- Flag bits of a word, from bit 0 up. -/
def flags (l : List Bool) : Nat := l.zipIdx.foldl (fun a b => a + b2n b.1 * 2 ^ b.2) 0

/-- A signed 16-bit field. -/
def field16 (v : Int) : Nat := (v % 65536).toNat

/-- Words of a byte string. -/
def wordsOf (b : Bytes) : List Word := (entries 4 b).map (fun x => w32 (u32 x 0))

/-- Word of a register that captures a first event: valid in bit 31; once that bit is cleared the fields stay as they are (R13). -/
def firstWord {α : Type} (first : Option α) (old : α) (fields : α → List (Nat × Nat × Nat)) : Word :=
  match first with
  | some f => pack ((31, 1, 1) :: fields f)
  | none => pack (fields old)

/-! ### DEV, PWR (Tables 1.7, 2.16, 18.9) -/

/-- DEV block from offset 0. -/
def devWords (s : State) : List Word :=
  let b := s.dev.boot
  [pack [(16, 16, 0x3648), (8, 8, 0xB0), (4, 4, s.otp.grade)],
   pack [(24, 5, 24), (21, 3, 4), (13, 8, 128), (7, 6, 48), (0, 7, 12)],
   s.dev.age.avail.setWidth 32, s.dev.age.retired.setWidth 32,
   pack [(16, 8, b.attempts), (11, 1, b2n b.fetch), (10, 1, b2n b.point), (9, 1, b2n b.sniff), (8, 1, b2n b.trained), (0, 4, b.phase)],
   pack [(24, 8, b.failCause), (15, 1, b.failKind), (0, 15, b.failEntry)], w32 b.failSeg,
   w32 s.dev.img.imageId, w32 (s.dev.img.imageId / 4294967296), w32 b.corrected]

/-- PWR block from offset 0. -/
def pwrWords (p : Power) (d : Dev) : List Word :=
  [pack [(8, 2, powerMode p), (4, 4, p.clusters.toNat), (0, 4, flags [p.perk, p.sup, p.isp, p.dram])],
   p.banks.setWidth 32, (p.banks >>> 32).setWidth 32,
   pack [(0, 9, flags [p.xtal, p.fll, refRunning p, pllLocked p 0, pllLocked p 1, pllLocked p 2, pllLocked p 3, pllLocked p 4, p.perk])],
   pwrPointWord d, pack [(0, 16, p.mean)], p.peak, pwrTempWord d, pack [(0, 5, p.cause)],
   p.hardStops, p.stepDown, p.stepUp, p.throttled, p.caps, p.resync, p.clusterResets]

/-! ### SNF, PRK, CSI, ISP (Tables 4.7, 5.10) -/

/-- SNF_STATUS. tdm_enabled is that of the settings in force, which outlast a device-initiated reset until the next acceptance (R100;
DESIGN CHOICE, log 112). -/
def snfStatus (d : Dev) : Word :=
  pack [(16, 8, d.audio.stuck.toNat), (8, 8, mapBits 8 (fun a => (getSlot d a).active)),
        (0, 3, flags [d.power.fll, d.audio.input.tdmEnable != 0, d.audio.tdmLocked])]

/-- Registers of an audio slot. -/
def slotWords (a : AudioSlot) : List Word :=
  [w32 a.index, w32 (a.index / 4294967296 % 65536), pack [(16, 16, field16 (a.floor / 65536)), (0, 16, field16 a.level)],
   a.decide, a.filled, a.saturated]

/-- PRK block from offset 0. -/
def prkWords (d : Dev) : List Word :=
  let a := d.audio
  [pack [(8, 8, a.insts.length), (0, 1, b2n d.power.perk)], a.wakes, a.expired, a.errors, a.overrun, a.busy]

/-- Registers of a receive port. -/
def portWords (d : Dev) (p : Nat) : List Word :=
  let c := tabGet d.cam.ports p {}
  let r := (d.img.rxPorts.find? (fun r => r.port == p)).getD {}
  let lean := bit r.flags 1
  let on := d.boot.accepted && r.lanes != 0 && (if lean then d.power.perk else d.power.isp)
  [pack [(0, 5, (if d.boot.accepted then r.lanes % 8 + 8 * b2n lean else 0) + 16 * b2n on)], c.eccCorr, c.eccDrop, c.crcErr, c.unmatched]

/-- Registers of a stream; an audio stream's read 0 (R137). -/
def streamWords (d : Dev) (n : Nat) : List Word :=
  let c := getStream d n
  if d.img.audio.any (fun r => r.stream == n) then List.replicate 7 0
  else
    let pipe := ((camRec? d.img n).map (fun r => r.pipe)).getD 0
    [pack [(16, 8, c.joins), (8, 8, c.leaves), (2, 2, pipe), (0, 2, c.state)], w32 c.frame, w32 (c.frame / 4294967296 % 65536),
     c.gaps, c.trunc, c.dropped, c.setMiss]

/-- CSI_SENSOR_n. -/
def sensorWord (d : Dev) (n : Nat) : Word :=
  let x := getSensor d n
  pack [(15, 1, b2n x.joined), (8, 7, ((d.img.sensors.find? (fun r => r.sensor == n)).map (fun r => r.dynAddr)).getD 0), (0, 1, b2n x.nack)]

/-- ISP block from offset 0. -/
def ispWords (d : Dev) : List Word :=
  let s0 := (d.img.cams.find? (fun r => r.pipe == 0)).map (fun r => r.stream)
  [pack [(8, 1, b2n (s0.any (fun n => (getStream d n).state == 1))), (0, 8, s0.getD 255)],
   pack [(8, 8, d.cam.queue.length), (0, 1, b2n d.cam.pipe1.isSome)], d.cam.busy, d.cam.dropped]

/-! ### TEN (Tables 6.8, 7.11, 8.5, 9.7, 10.6, 11.11) -/

/-- TEN_CL_STATUS: the epoch is held in the always-on domain (R158, R426). -/
def clStatus (d : Dev) (n : Nat) : Word :=
  let on := d.power.clusters.getLsbD n
  pack [(16, 16, (getCluster d n).epoch), (7, 1, b2n on), (6, 1, b2n (on && (tileOf d (24 + n)).isSome)),
        (0, 6, if on then mapBits 6 (fun c => (tileOf d (6 * n + c)).isSome) else 0)]

/-- TEN_Cc_CFG. -/
def cfgWord (r : CoreRec) : Word := pack [(30, 2, r.ramp), (24, 5, r.state), (16, 5, r.acc), (8, 5, r.wt), (0, 5, r.act)]

/-- TEN_Cc_STATE. -/
def stateWord (d : Dev) (u : Nat) : Word :=
  match tileOf d u with
  | none => 0
  | some t =>
    let b := descBytes d t.d
    let arrayTile := decide (dKind b < 2)
    pack [(16, 16, if arrayTile then dOp b else 0), (8, 8, if arrayTile then (templateOf d.img (dOp b)).shape else 0),
          (0, 4, flags [true, t.stopped, t.committing, t.replay])]

/-- Registers of a core from its TEN_Cc_CFG on. -/
def coreWords (d : Dev) (u : Nat) : List Word :=
  let x := getUnit d u
  [if d.boot.accepted then cfgWord (coreRec d.img u) else 0, stateWord d u, x.tiles, x.adv, x.bubble, x.throttle, x.replays, x.abort,
   x.discard, x.gated, x.commit, x.preemptWait]

/-- Quantisation registers of a core. -/
def quantWords (x : Unit_) : List Word :=
  [x.clipped, x.converted, x.accSat, x.nonfinite, x.tagErr,
   firstWord x.tagFirst x.tagOld (fun f => [(16, 3, f.1), (8, 8, f.2.1), (0, 8, f.2.2)]),
   pack [(17, 1, b2n x.bankLoading), (16, 1, x.bank), (0, 16, if x.bank = 0 then x.banks.1 else x.banks.2)]]

/-- Registers of a watched slot. -/
def watchWords (x : Unit_) (w : Nat) : List Word := let y := tabGet x.watch w {}; [y.sumsq, y.count]

/-- Registers of a catalogue slot. -/
def catWords (d : Dev) (j : Nat) : List Word :=
  let c := getCat d j
  [pack [(8, 8, c.batch.length), (1, 1, b2n c.sweep.isSome), (0, 1, b2n (d.img.cats.any (fun r => r.slot == j)))], w32 c.count,
   c.sweeps, c.queries, c.sweepMax, c.blocked]

/-- Registers of a scan sequence. -/
def seqWords (d : Dev) (q : Nat) : List Word :=
  let x := getSeq d q
  let bs := d.img.blocks.filter (fun r => r.seq == q)
  let resident := !bs.isEmpty && bs.all (fun r => present d r.id)
  let e := seqRec? d.img q
  [pack [(8, 8, x.fill), (0, 3, flags [e.isSome, resident, e.any (fun r => bit r.flags 0)])], w32 x.chunks,
   w32 (x.chunks / 4294967296 % 65536), x.late]

/-- Attention and walker registers of a cluster. -/
def attWords (d : Dev) (n : Nat) : List Word :=
  let c := getCluster d n
  let walks (w : Nat) : Nat := (d.kv.walks.filter (fun v => v.unit == (n, w))).length
  [c.attTiles, c.attScatter, c.attMasked, c.attPoisoned, c.walks, c.hits, c.misses, c.failed, pack [(8, 8, walks 1), (0, 8, walks 0)]]

/-- TEN block of cluster n. -/
def tenReg (d : Dev) (n o : Nat) : Option Word :=
  let core (c : Nat) : Unit_ := getUnit d (6 * n + c)
  let stem := getUnit d (24 + n)
  if o = 0 then some (clStatus d n)
  else if o = 4 then some (getCluster d n).hardStops
  else if o = 0x10 then some stem.tiles
  else if o = 0x14 then some stem.adv
  else if o = 0x3600 then some stem.skipped
  else
    orWord (arr 0x100 0x40 6 12 o (fun c => coreWords d (6 * n + c))) <|
    orWord (arr 0x1000 0x100 6 7 o (fun c => quantWords (core c))) <|
    orWord ((grp 0x1040 0x100 6 32 o).bind (fun g => (watchWords (core g.1) (g.2 / 2))[g.2 % 2]?)) <|
    orWord (arr 0x2000 0x10 6 3 o (fun c => let x := core c; [x.offered, x.kPoisoned, x.kLists])) <|
    orWord (arr 0x3000 0x20 8 6 o (fun j => if n = 0 then catWords d j else List.replicate 6 0)) <|
    orWord (arr 0x3400 0x20 6 7 o (fun c => let x := core c; [x.passes, x.skipped, x.lbMiss, x.poolTiles, x.zcGranules, x.zcBlocks, x.zcBad])) <|
    orWord (arr 0x3800 0x20 6 6 o (fun c => let x := core c; [x.scTiles, x.scFlags, x.swapIn, x.swapOut, x.scWait, x.scPoisoned])) <|
    orWord (arr 0x3A00 0x10 64 4 o (fun q => if n = 0 then seqWords d q else List.replicate 4 0)) <|
    arr 0x3E00 0x40 1 9 o (fun _ => attWords d n)

/-! ### MOV, DDR (Table 12.11) -/

/-- Registers of a mover, with the tags of its cluster's stacked-store port. -/
def movWords (d : Dev) (n : Nat) : List Word :=
  let m := getMover d n
  [pack [(16, 8, m.tagsHigh), (0, 8, tagsHeld d (2 + n))], m.xfers, w32 (m.granules / 16), m.poisoned, m.corrected, m.rtMax]

/-- Registers of a weight window. -/
def winWords (d : Dev) (w : Nat) : List Word :=
  let x := getWin d w
  [pack [(16, 16, x.layer), (4, 4, mapBits 4 (fun s => (tabGet? x.slots s).isSome)), (0, 2, flags [d.img.windows.any (fun r => r.window == w), x.loading.isSome])],
   x.loads, x.stall, x.late, x.failed]

/-- Code of a data rate (Table 12.12). -/
def rateCode (r : Nat) : Nat := ([3200, 4266, 5500, 6400, 7500, 8533].findIdx? (fun x => x == r)).getD 0

/-- DDR block from offset 0. -/
def ddrWords (d : Dev) (k : Nat) : List Word :=
  let c := d.mov.ddr
  let m := d.img.mem.getD {}
  let sum := c.trips.foldl (fun a x => a + x) 0
  let n := c.trips.length
  let avg := if n = 0 then 0 else if sum % n = 0 then sum / n else sum / n + Config.freeNat k % 2
  let trained := d.boot.trained
  [pack [(16, 16, if trained then mappedBytes d.img d.boot.mib / 1048576 else 0), (8, 4, rateCode m.rate),
         (0, 4, flags [trained, m.ranks == 2, trained && !d.power.dram, bit m.flags 0])],
   pack [(16, 8, m.shareRemote), (8, 8, m.shareWrite), (0, 8, m.shareRead)],
   w32 (c.read / 16), w32 (c.write / 16), w32 (c.remote / 16), pack [(16, 9, c.readHigh), (0, 9, tagsHeld d 0)],
   pack [(16, 9, c.writeHigh), (0, 9, tagsHeld d 1)], c.rtMax, w32 avg, c.corr, c.uncorr, w32 (c.scrub / 16), c.held]

/-! ### SCH, PRT (Tables 3.4, 11.11, 13.11, 14.8) -/

/-- Cascade registers of a tier. -/
def tierWords (d : Dev) (t : Nat) : List Word :=
  let x := getTier d t
  let r := tierRec d.img t
  let heldAll := x.held.cells.foldl (fun a c => a + c.2) 0 + x.sharedHeld
  let q (p : Nat) : Nat := (tabGet x.queues p []).length
  [pack [(16, 8, sharedFree d t), (8, 8, r.total - heldAll), (0, 8, r.total)], x.arrive, x.admits, x.coalesce, x.shed,
   pack [(24, 8, q 3), (16, 8, q 2), (8, 8, q 1), (0, 8, q 0)], pack [(0, 6, x.pending.length)], x.latMax, x.late, x.clamp, x.unrouted]

/-- SCH block from offset 0. -/
def schWords (c : Sched) : List Word :=
  [w32 c.live.length, w32 c.liveHigh, c.preemptMax, c.released, c.cancelled, c.affHit, c.affMiss, c.batchSteps, c.batchPad]

/-- Cycles elapsed in the budget window of cluster n: no less than when it was last read, and open within the window while the cluster is
powered (log 7). -/
def windowCycles (d : Dev) (k n : Nat) : Nat :=
  let w := (getCluster d n).window
  if d.power.clusters.getLsbD n then w + Config.freeNat k % max 1 (d.img.window - w) else w

/-- SCH_CL_n_WINDOW and SCH_CL_n_READY. -/
def clWords (d : Dev) (k n : Nat) : List Word :=
  [w32 (windowCycles d k n),
   w32 (min 65535 ((d.sched.live.filter (fun y => y.ready && !y.released && dCluster y.bytes == n)).length))]

/-- Registers of a key-value sequence. -/
def kvWords (d : Dev) (s : Nat) : List Word :=
  let k := getKv d s
  match kvRec? d.img s with
  | none => [0, 0, 0, 0]
  | some r => [pack [(24, 8, r.part), (16, 8, k.locks), (0, 4, flags [true, k.opened, isRing r, !k.edits.isEmpty && k.locks != 0])], k.gen, w32 k.length,
      pack [(0, 16, k.pages)]]

/-- SCH_KV_EDITS on. -/
def kvCountWords (k : Kv) : List Word :=
  [k.edits, k.editWait, k.direct, firstWord k.directFirst k.directOld (fun f => [(8, 8, f.1), (0, 7, f.2)])]

/-- SCH_CONS_STATUS on. -/
def consWords (c : Sched) : List Word :=
  [pack [(8, 7, mapBits 7 (fun k => c.lost.any (fun l => l.1 == k))), (0, 7, mapBits 7 (fun k => c.frozen.any (fun l => l.1 == k)))],
   firstWord c.consFirst c.consOld (fun f => [(28, 3, f.1), (25, 3, f.2.1), (16, 7, f.2.2.1), (0, 16, f.2.2.2)]),
   c.violations, c.backstop,
   firstWord c.backFirst c.backOld (fun f => [(27, 4, f.1), (16, 7, f.2.1), (0, 16, f.2.2)]),
   c.placeholders, c.stale, c.orphaned]

/-- PRT block from offset 0. -/
def prtWords (c : Sched) : List Word :=
  [firstWord c.muzzleFirst c.muzzleOld (fun f => [(16, 8, f.1), (8, 7, f.2.1), (0, 8, f.2.2)]), c.muzzles, c.resets,
   pack [(31, 1, b2n c.go), (30, 1, b2n c.refused), (0, 7, c.reqPart)]]

/-- Registers of a partition. -/
def partWords (d : Dev) (p : Nat) : List Word :=
  let x := getPart d p
  [pack [(24, 8, x.cause), (0, 4, flags [declared d.img p, x.stopped, !x.muzzled.isEmpty, x.resetting])],
   w32 ((d.sched.live.filter (fun y => dPart y.bytes == p)).length), x.charged, x.overq]

/-! ### SEC, KEN, ERR, INJ, AGE, I3T (Tables 16.16, 17.10, 19.9, 15.17) -/

/-- SEC block. -/
def secReg (s : State) (o : Nat) : Option Word :=
  let d := s.dev
  let session (n : Nat) : List Word :=
    let x := getSession d n
    [pack [(7, 1, b2n x.opened), (0, 7, if x.opened then x.part else 0)], w32 x.counter, x.fails]
  orWord (arr 0 0x10 1 4 o (fun _ =>
    [pack [(12, 4, d.boot.lastTarget), (7, 1, b2n d.boot.unlocked), (6, 1, b2n (debugOpen s.otp d)), (5, 1, b2n (decryptState s.otp)), (0, 4, lifecycle s.otp)],
     pack [(7, 1, b2n d.img.keys.isSome), (0, 7, d.boot.unwrapped)], pack [(0, 8, mapBits 8 (fun n => (getSession d n).opened))],
     d.host.authFail])) <|
  orWord (arr 0x20 0x20 1 8 o (fun _ => wordsOf (fit 32 (deviceId s.otp)))) <|
  orWord (arr 0x40 0x10 1 4 o (fun _ => wordsOf (fit 16 d.boot.salt))) <|
  arr 0x100 0x10 8 3 o session

/-- faults of the Kennel's status block (Table 17.6). -/
def kennelFaults (k : Kennel) : Nat := k.faults % 16 + 16 * b2n k.calib.isNone + 32 * b2n k.exhausted + 64 * (k.faults / 64 % 2)

/-- mode of the status block: 0 weighing, 1 calibration, 2 fault; a fault is shown while any fault bit stands (DEDUCED, log 58). -/
def kennelMode (k : Kennel) : Nat := if !k.running then 0 else if k.mode = 1 then 1 else if kennelFaults k ≠ 0 then 2 else 0

/-- calib_slot of the status block. -/
def calibSlot (k : Kennel) : Nat := (k.calib.map (fun c => c.1)).getD 255

/-- KEN block: what the Kennel writes, and the forwarder's counters. -/
def kenReg (k : Kennel) (h : HostPort) (o : Nat) : Option Word :=
  orWord (arr 0 0x1C 1 7 o (fun _ =>
    [pack [(8, 8, calibSlot k), (4, 1, b2n (kennelFaults k != 0 && k.running)), (2, 2, kennelMode k), (1, 1, b2n k.sealOpen), (0, 1, b2n k.running)],
     w32 k.head, pack [(0, 12, k.events)], h.forwarded, h.lost, h.kenRequests, h.noAnswer])) <|
  arr 0x1000 0x100 16 38 o (fun n => wordsOf (fit 152 (tabGet k.mailbox n [])))

/-- ERR block. -/
def errReg (e : Err) (o : Nat) : Option Word :=
  orWord (arr 0 0x18 1 6 o (fun _ =>
    [errStatusWord e, errFirstCause e, errFirstDetail e, (errFirstAddr e).1, (errFirstAddr e).2, e.overflow])) <|
  arr 0x100 8 64 2 o (fun n => let x := tabGet e.entries n {}; [errEntryA x, errEntryB x])

/-- INJ block from offset 0. -/
def injWords (s : State) : List Word :=
  let e := s.dev.err
  [pack [(0, 3, flags [injectionPermitted s.otp s.dev, e.armed.isSome, e.denied])], pack [(0, 16, e.injId)], pack [(4, 2, e.injMode)], e.fired,
   match e.last with | some i => pack [(31, 1, 1), (0, 16, i)] | none => 0]

/-- AGE block. -/
def ageReg (a : Age) (o : Nat) : Option Word :=
  orWord (arr 0 0x14 1 5 o (fun _ =>
    [pack [(16, 2, a.cap), (8, 1, b2n a.baseLow), (0, 1, b2n a.loaded)],
     pack [(16, 8, a.guard.getD 2 0), (8, 8, a.guard.getD 1 0), (0, 8, a.guard.getD 0 0)], a.measures, a.replans,
     pack [(31, 1, b2n a.busy), (30, 1, b2n a.lastTest.1), (28, 2, a.lastTest.2.1), (0, 5, a.lastTest.2.2)]])) <|
  arr 0x100 4 40 1 o (fun m => [pack [(16, 16, a.baseline.getD m 0), (0, 16, a.last.getD m 0)]])

/-- I3T block. -/
def i3tReg (d : Dev) (o : Nat) : Option Word :=
  let h := d.host
  let lanes (p : Nat) : Nat := if d.boot.accepted then (d.img.hostIf.getD {}).txLanes / 16 ^ p % 8 else 0
  orWord (arr 0 0x18 1 6 o (fun _ =>
    [pack [(16, 8, h.ibis.length), (8, 3, flags [h.addr.isSome, h.int, h.hj]), (0, 7, h.addr.getD 0)], h.cmds, h.crcErr, h.respLost, h.ibiSent, h.ibiMerged])) <|
  arr 0x100 0x10 2 4 o (fun p => let x := getTx d p; [pack [(8, 8, min 255 x.queue.length), (0, 3, lanes p)], x.records, x.dropped, x.held])

/-! ### The whole window -/

/-- Block of an offset (Table 1.6); none for an offset in no block. -/
def blockOf (off : Nat) : Option Nat := if off / 65536 < 18 ∧ off / 65536 ≠ 7 then some (off / 65536) else none

/-- Word of the register at an offset, as its fields stand; none where no register lies. k feeds what the manual leaves open. -/
def liveReg (s : State) (k off : Nat) : Option Word :=
  let d := s.dev
  let o := off % 65536
  match blockOf off with
  | some 0 => orWord (arr 0 0x28 1 10 o (fun _ => devWords s)) (arr 0x40 0x20 1 8 o (fun _ => wordsOf (fit 32 d.boot.digest)))
  | some 1 => arr 0 0x40 1 16 o (fun _ => pwrWords d.power d)
  | some 2 => if o = 0 then some (snfStatus d) else arr 0x100 0x20 8 6 o (fun a => slotWords (getSlot d a))
  | some 3 => arr 0 0x18 1 6 o (fun _ => prkWords d)
  | some 4 => orWord (arr 0 0x20 4 5 o (portWords d)) (orWord (arr 0x1000 0x20 48 7 o (streamWords d)) (arr 0x2000 4 32 1 o (fun n => [sensorWord d n])))
  | some 5 => arr 0 0x10 1 4 o (fun _ => ispWords d)
  | some 6 => tenReg d (o / 0x4000) (o % 0x4000)
  | some 8 => orWord (arr 0 0x40 4 6 o (movWords d)) (arr 0x1000 0x20 4 5 o (winWords d))
  | some 9 => arr 0 0x34 1 13 o (fun _ => ddrWords d k)
  | some 10 =>
    orWord (arr 0 0x24 1 9 o (fun _ => schWords d.sched)) <| orWord (arr 0x100 0x10 4 2 o (clWords d k)) <|
    orWord (arr 0x8000 0x40 3 11 o (fun t => tierWords d (t + 1))) <| orWord (arr 0xC000 0x10 256 4 o (kvWords d)) <|
    orWord (arr 0xD000 0x10 1 4 o (fun _ => kvCountWords d.kv)) (arr 0xE000 0x20 1 8 o (fun _ => consWords d.sched))
  | some 11 => orWord (arr 0 0x10 1 4 o (fun _ => prtWords d.sched)) (arr 0x100 0x10 128 4 o (partWords d))
  | some 12 => secReg s o
  | some 13 => kenReg s.kennel d.host o
  | some 14 => errReg d.err o
  | some 15 => arr 0 0x14 1 5 o (fun _ => injWords s)
  | some 16 => ageReg d.age o
  | some 17 => i3tReg d o
  | _ => none

/-- Cluster in whose domain a register lies: TEN but for TEN_CL_STATUS, the cluster's mover, a window's home (R158, R303). -/
def domainOf (img : Image) (off : Nat) : Option Nat :=
  let o := off % 65536
  match blockOf off with
  | some 6 => if o % 0x4000 = 0 then none else some (o / 0x4000)
  | some 8 => if o < 0x100 then some (o / 0x40)
    else if 0x1000 ≤ o ∧ o < 0x1080 then (img.windows.find? (fun r => r.window == (o - 0x1000) / 0x20)).map (fun r => r.home) else none
  | _ => none

/-- The domain that holds a register is powered (R426). -/
def regPowered (d : Dev) (off : Nat) : Bool := (domainOf d.img off).all (fun n => d.power.clusters.getLsbD n)

/-! ### Latching (R83, R111, R137, R158, R206, R226, R248, R275, R303, R328, R369, R410, R433) -/

/-- Consecutive words from an offset. -/
def run (off n : Nat) : List Nat := (List.range n).map (fun i => off + 4 * i)

/-- Offsets whose words a read of this offset latches; none where the register latches nothing. -/
def latchGroup (off : Nat) : List Nat :=
  let o := off % 65536
  let b := off - o
  match blockOf off with
  | some 1 => if o = 0x24 then run (b + 0x28) 6 else []
  | some 2 => if (grp 0x100 0x20 8 1 o).isSome then [off + 4] else []
  | some 4 => if (grp 0x1004 0x20 48 1 o).isSome then [off + 4] else []
  | some 6 =>
    let t := b + o / 0x4000 * 0x4000
    let i := o % 0x4000
    match grp 0x108 0x40 6 1 i with
    | some (c, _) => run (off + 4) 8 ++ run (t + 0x1000 + c * 0x100) 5 ++ run (t + 0x1040 + c * 0x100) 32 ++ run (t + 0x2000 + c * 0x10) 3 ++
        run (t + 0x3400 + c * 0x20) 7 ++ run (t + 0x3800 + c * 0x20) 6
    | none =>
      if i = 0x10 then [t + 0x3600]
      else if i = 0x3E00 then run (off + 4) 7
      else if o / 0x4000 ≠ 0 then []
      else if (grp 0x3008 0x20 8 1 i).isSome then [off + 4, off + 12]
      else if (grp 0x3A04 0x10 64 1 i).isSome then [off + 4] else []
  | some 8 => if (grp 4 0x40 4 1 o).isSome then run (off + 4) 3 else if (grp 0x1004 0x20 4 1 o).isSome then run (off + 4) 3 else []
  | some 9 => if o = 8 then [b + 0xC, b + 0x10, b + 0x24, b + 0x28, b + 0x2C, b + 0x30] else []
  | some 10 =>
    if o = 0xC then run (b + 0x10) 5 ++ [b + 0xD000, b + 0xD008, b + 0xE008, b + 0xE00C, b + 0xE014, b + 0xE018, b + 0xE01C]
    else if (grp 0x8004 0x40 3 1 o).isSome then (off - 4) :: run (off + 4) 9 else []
  | some 13 => if o = 0xC then run (b + 0x10) 3 else []
  | some 17 => if o = 4 then run (b + 8) 4 ++ run (b + 0x104) 3 ++ run (b + 0x114) 3 else []
  | _ => []

/-- A read of a latch register latches its group, if its domain is powered. -/
def latch (off : Nat) (s : State) : State :=
  let g := latchGroup off
  if g.isEmpty || !regPowered s.dev off then s
  else { s with dev := { s.dev with latches := tabSet s.dev.latches off (g.map (fun o => (liveReg s s.dev.freeCtr o).getD 0)) } }

/-- Latched word of an offset. -/
def latchedWord (d : Dev) (off : Nat) : Option Word :=
  d.latches.cells.findSome? (fun c => ((latchGroup c.1).findIdx? (fun o => o == off)).bind (fun i => c.2[i]?))

/-- Word that a read of an offset returns: 0 where no register lies (R21) or its domain is off (R426), a latched value, or the
register as it stands. -/
def readWord (s : State) (off : Nat) : Word :=
  match liveReg s s.dev.freeCtr off with
  | none => 0
  | some w => if regPowered s.dev off then (latchedWord s.dev off).getD w else 0

/-- A word read from SCH_CL_n_WINDOW bounds what later reads give until the next window. -/
def noteWindow (off : Nat) (d : Dev) : Dev :=
  match (if blockOf off = some 10 then grp 0x100 0x10 4 1 (off % 65536) else none) with
  | some (n, _) => modCluster n (fun c => { c with window := windowCycles d d.freeCtr n }) d
  | none => d

/-- Read words in turn, each with the latching of its block; what the manual leaves open is fresh at each word. -/
def readWords : List Nat → State → List Word × State
  | [], s => ([], s)
  | o :: rest, s =>
    let s1 := latch o s
    let r := readWords rest { s1 with dev := (draw (noteWindow o s1.dev)).2 }
    (readWord s o :: r.1, r.2)

/-! ### Writing -/

/-- Clear the bits written 1 (W1C, Table 0.3). -/
def w1c (old v : Word) : Word := old &&& ~~~ v

/-- Bit n of a written word. -/
def wb (v : Word) (n : Nat) : Bool := v.getLsbD n

/-- Owner's clear of an entry of the error record (R440, R442). -/
def clearEntry (n : Nat) (e : Err) : Err :=
  let e1 := { e with entries := tabDrop e.entries n }
  if (errUsed e1).isEmpty then { e1 with overSet := false } else e1

/-- In DEPLOYED, an injection whose effect is a DEVICE-severity code or a reset (R445, Tables 19.2 and 19.6). -/
def injectionHarms (id mode : Nat) (d : Dev) : Bool :=
  let i := id % 4096
  match id / 4096 with
  | 1 => i == 0x30 && mode == 1
  | 7 => mode == 0 && [0, 1, 3, 4].contains (i / 256)
  | 11 => i == 0
  | 14 => wouldExhaust (addReading i mode d.age.last) d
  | 15 => i == 0 || ((i == 2 || i == 3) && mode == 1)
  | _ => false

/-- A write of INJ_CTRL (R444, R445): disarm goes before arm; an arm write that is refused has no effect but denied. -/
def writeInjCtrl (v : Word) (s : State) : State :=
  let d := s.dev
  let field := fieldOf v 5 4
  let mode := if field = 1 then 1 else 0
  let id := d.err.injId
  let put (f : Err → Err) : State := { s with dev := modErr f d }
  if wb v 1 then put (fun e => { e with injMode := field, armed := none })
  else if wb v 0 then
    if live d && injectionState s.otp d && (lifecycle s.otp != 3 || (bit d.img.injMask (id / 4096) && !injectionHarms id mode d)) then
      put (fun e => { e with injMode := field, armed := some (id, mode) })
    else put (fun e => { e with denied := true })
  else put (fun e => { e with injMode := field })

/-- A write of PRT_RESET_REQ (R326, Table 13.12): refused is W1C, partition RW while go is 0, go W1S. -/
def writeResetReq (v : Word) (d : Dev) : Dev :=
  let d1 := modSched (fun c => { c with refused := c.refused && !wb v 30, reqPart := if c.go then c.reqPart else fieldOf v 6 0 }) d
  if wb v 31 ∧ d1.sched.go = false then
    let p := d1.sched.reqPart
    let d2 := resetRequest p false d1
    if p = 0 ∨ declared d1.img p = false then d2 else modSched (fun c => { c with go := true }) d2
  else d1

/-- Offsets of registers with a field that can be written, and what a write does there. None: no such register. -/
def writeReg (off : Nat) (v : Word) (s : State) : Option State :=
  let o := off % 65536
  let dev (f : Dev → Dev) : Option State := some { s with dev := f s.dev }
  let cluster (f : Dev → Dev) : Option State := if regPowered s.dev off then dev f else some s
  match blockOf off with
  | some 1 => if o = 0x18 then dev (modPower (fun p => { p with peak := w1c p.peak v })) else none
  | some 6 =>
    let n := o / 0x4000
    let i := o % 0x4000
    match grp 0x12C 0x40 6 1 i, grp 0x1014 0x100 6 1 i, grp 0x1040 0x100 6 32 i, grp 0x3010 0x20 8 1 i with
    | some (c, _), _, _, _ => cluster (modUnit (6 * n + c) (fun x => { x with preemptWait := w1c x.preemptWait v }))
    | _, some (c, _), _, _ => cluster (modUnit (6 * n + c) (fun x => if wb v 31 then { x with tagFirst := none, tagOld := x.tagFirst.getD x.tagOld } else x))
    | _, _, some (c, r), _ =>
      if r % 2 = 0 then none
      else cluster (modUnit (6 * n + c) (fun x => { x with watch := tabMod x.watch (r / 2) {} (fun y =>
        { sumsq := if v = 0xFFFFFFFF then 0 else y.sumsq, count := w1c y.count v }) }))
    | _, _, _, some (j, _) => if n = 0 then cluster (modCat j (fun x => { x with sweepMax := w1c x.sweepMax v })) else some s
    | _, _, _, _ => none
  | some 8 => (grp 0x14 0x40 4 1 o).bind (fun g => cluster (modMover g.1 (fun m => { m with rtMax := w1c m.rtMax v })))
  | some 9 => if o = 0x1C then dev (modDdr (fun c => { c with rtMax := w1c c.rtMax v })) else none
  | some 10 =>
    if o = 8 then dev (modSched (fun c => { c with preemptMax := w1c c.preemptMax v }))
    else if o = 0xD004 then dev (fun d => { d with kv := { d.kv with editWait := w1c d.kv.editWait v } })
    else if o = 0xD00C then dev (fun d => if wb v 31 then { d with kv := { d.kv with directFirst := none, directOld := d.kv.directFirst.getD d.kv.directOld } } else d)
    else if o = 0xE004 then dev (modSched (fun c => if wb v 31 then { c with consFirst := none, consOld := c.consFirst.getD c.consOld } else c))
    else if o = 0xE010 then dev (modSched (fun c => if wb v 31 then { c with backFirst := none, backOld := c.backFirst.getD c.backOld } else c))
    else (grp 0x801C 0x40 3 1 o).bind (fun g => dev (modTier (g.1 + 1) (fun x => { x with latMax := w1c x.latMax v })))
  | some 11 =>
    if o = 0 then dev (modSched (fun c => if wb v 31 then { c with muzzleFirst := none, muzzleOld := c.muzzleFirst.getD c.muzzleOld } else c))
    else if o = 0xC then dev (writeResetReq v) else none
  | some 14 =>
    if o = 4 then dev (modErr (fun e => { e with first := if wb v 31 then none else e.first }))
    else match grp 0x100 8 64 2 o with
      | some (n, 0) => dev (modErr (fun e => if wb v 31 then clearEntry n e else e))
      | _ => none
  | some 15 =>
    if o = 0 then dev (modErr (fun e => { e with denied := e.denied && !wb v 2 }))
    else if o = 4 then dev (modErr (fun e => { e with injId := fieldOf v 15 0 }))
    else if o = 8 then some (writeInjCtrl v s) else none
  | _ => none

/-- Blocks that Table 15.9 lets a frame read: outside a session, in a session of another partition, of partition 0. -/
def mayReadBlock (sp : Option Nat) (off : Nat) : Bool :=
  match sp, blockOf off with
  | none, some b => [0, 1, 14, 17].contains b
  | none, none => false
  | some p, some b => p == 0 || !([12, 15, 16].contains b)
  | some _, none => true

/-! ### Latching reads -/

/-- A read of a latch register by any master. -/
def latchRead (off : Nat) (s : State) : Result := wholeStep (fun t => if awake t.dev then latch off t else t) s

/-- ARRIVE_COUNTER_READ (R83). -/
def execArriveCounterRead (tier : Fin 3) (s : State) : Result := latchRead (0xA8004 + tier.val * 0x40) s
/-- SNF_INDEX_READ (R111). -/
def execSnfIndexRead (slot : Fin 8) (s : State) : Result := latchRead (0x20100 + slot.val * 0x20) s
/-- CSI_FRAME_READ (R137). -/
def execCsiFrameRead (stream : Fin 48) (s : State) : Result := latchRead (0x41004 + stream.val * 0x20) s
/-- TILES_COUNTER_READ (R158, R184, R206, R226, R248). -/
def execTilesCounterRead (core : Fin 24) (s : State) : Result := latchRead (0x60108 + core.val / 6 * 0x4000 + core.val % 6 * 0x40) s
/-- SWEEPS_COUNTER_READ (R206). -/
def execSweepsCounterRead (slot : Fin 8) (s : State) : Result := latchRead (0x63008 + slot.val * 0x20) s
/-- CHUNK_COUNTER_READ (R248). -/
def execChunkCounterRead (seq : Fin 64) (s : State) : Result := latchRead (0x63A04 + seq.val * 0x10) s
/-- ATT_COUNTER_READ (R275). -/
def execAttCounterRead (cluster : Fin 4) (s : State) : Result := latchRead (0x63E00 + cluster.val * 0x4000) s
/-- MOV_COUNTER_READ (R303). -/
def execMovCounterRead (mover : Fin 4) (s : State) : Result := latchRead (0x80004 + mover.val * 0x40) s
/-- WINDOW_COUNTER_READ (R303). -/
def execWindowCounterRead (window : Fin 4) (s : State) : Result := latchRead (0x81004 + window.val * 0x20) s
/-- DDR_COUNTER_READ (R303). -/
def execDdrCounterRead (s : State) : Result := latchRead 0x90008 s
/-- SCHED_COUNTER_READ (R328). -/
def execSchedCounterRead (s : State) : Result := latchRead 0xA000C s
/-- I3T_COUNTER_READ (R369). -/
def execI3tCounterRead (s : State) : Result := latchRead 0x110004 s
/-- KEN_COUNTER_READ (R410). -/
def execKenCounterRead (s : State) : Result := latchRead 0xD000C s
/-- PWR_COUNTER_READ (R433). -/
def execPwrCounterRead (s : State) : Result := latchRead 0x10024 s
/-- STEM_COUNTER_READ (R226). -/
def execStemCounterRead (cluster : Fin 4) (s : State) : Result := latchRead (0x60010 + cluster.val * 0x4000) s

end Sys2Proof.Machine
end

