-- ==== Sys2Proof/Machine/Operands.lean ====
section
/-! DEFINITION. Command frames and responses of the I3C target port (R352, R353), their protected form in a session (R387), and the
close of a session (R357, R388, R389). -/

namespace Sys2Proof.Machine

/-! ### Frames and responses -/

/-- Bytes 0x00 to 0x07 of a frame (Table 15.4), the additional data of its protected form. -/
def frameHead (op : Nat) (f : Frame) : Bytes := le 2 op ++ le 2 f.len ++ le 1 f.session ++ le 1 f.flags ++ le 2 f.seq

/-- The bytes of a frame that its CRC covers. -/
def frameBytes (op : Nat) (f : Frame) : Bytes := frameHead op f ++ f.payload

/-- IV of a protected command (first byte 1) or response (first byte 2) (R387). -/
def frameIv (first session counter : Nat) : Bytes := le 1 first ++ le 1 session ++ zeros 2 ++ be 8 counter

/-- k_cmd of a session (Table 16.2). -/
def cmdKey (x : Session) : Bytes := slice x.keys 0 32

/-- k_rsp of a session. -/
def rspKey (x : Session) : Bytes := slice x.keys 32 32

/-- What protects a response: the session, the counter of its command, and k_rsp. -/
structure Guard where
  session : Nat := 0
  counter : Nat := 0
  key : Bytes := []

/-- A response (Table 15.5): protected as its command was (R387), with its CRC. -/
def responseBytes (status seq op : Nat) (payload : Bytes) (g : Option Guard) : Bytes :=
  let n := payload.length + (if g.isSome then 24 else 0)
  let head := le 2 status ++ le 2 n ++ le 2 seq ++ le 2 op
  let body := match g with
    | some g => be 8 g.counter ++ Config.gcmSeal g.key (frameIv 2 g.session g.counter) head payload
    | none => payload
  head ++ body ++ le 4 (crc32 (head ++ body)).toNat

/-- Put a complete response into the buffer, with interrupt 0x01; an unprotected one names session 0xFF (DEDUCED, log 46). -/
def respond (status seq op : Nat) (payload : Bytes) (g : Option Guard) (d : Dev) : Dev :=
  ibi 1 ((g.map (fun g => g.session)).getD 255) seq (seq / 256)
    (modHost (fun h => { h with resp := some (responseBytes status seq op payload g, 0), cur := none }) d)

/-- What a command answers: at once, or once what it waits for is there. -/
inductive Reply where
  | now (status : Nat) (payload : Bytes)
  | later (aw : Awaits) (payload : Bytes)

/-- Carry a reply out. -/
def settleReply (op : Nat) (f : Frame) (g : Option Guard) (r : Reply) (d : Dev) : Dev :=
  match r with
  | .now status payload => respond status f.seq op payload g d
  | .later aw payload =>
    let c : InProgress := ⟨f, op, aw, g.map (fun g => (g.session, g.counter)), payload⟩
    modHost (fun h => { h with cur := some c }) d

/-- The command in progress completes: its response is protected under its session's k_rsp as it stands now; a session that has
closed has none (log 46). -/
def finishCur (status : Nat) (payload : Bytes) (d : Dev) : Dev :=
  match d.host.cur with
  | none => d
  | some c => respond status c.frame.seq c.opcode payload
      (c.prot.map (fun p => { session := p.1, counter := p.2, key := rspKey (getSession d p.1) })) d

/-- Plaintext of a protected payload whose counter and tag are right (R387, R388). -/
def unprotect (op : Nat) (f : Frame) (x : Session) : Option Bytes :=
  if f.payload.length < 24 ∨ be64 (f.payload.take 8) ≠ x.counter then none
  else Config.gcmOpen (cmdKey x) (frameIv 1 f.session x.counter) (frameHead op f) (f.payload.drop 8)

/-! ### Sessions -/

/-- The request belongs to a session's turn. -/
def ofSession (n : Nat) (q : WReq) : Bool := q.turn.map (fun t => t.1) == some n

/-- Close a session (R357): its open requests end with 0x23, turns that wait are shed (DEDUCED, log 45), its sequences are
released, its keys destroyed. -/
def endSession (n : Nat) (d : Dev) : Dev :=
  let os := (d.reqs.filter (fun r => r.ended.isNone && ofSession n r.q)).map (fun r => r.order)
  let d1 := endReqs os 0x23 (os.foldl (fun e o => match req? e o with
    | some r => record 0x23 (some r.q.part) (9, n) e
    | none => e) d)
  let d2 := [1, 2, 3].foldl (fun e t =>
    ((waitingOf (getTier e t)).filter (ofSession n)).foldl (fun g q => shed t q g) (modTier t (keepWaiting (fun q => !ofSession n q)) e)) d1
  let d3 := ((d2.kv.seqs.cells.filter (fun c => c.2.session == some n)).map (fun c => c.1)).foldl (fun e q => queueEdit q .release e) d2
  closeSession n d3

/-- A frame or a SESSION_OPEN failed authentication (R386, R388). -/
def authFailed (part : Option Nat) (detail : Nat × Nat) (d : Dev) : Dev :=
  record 0x46 part detail (modHost (fun h => { h with authFail := h.authFail + 1 }) d)

/-- A protected frame of an open session is not accepted (R388): the sixteenth in a row closes the session. -/
def frameRefused (n : Nat) (d : Dev) : Dev :=
  let x := getSession d n
  let d1 := modSession n (fun x => { x with fails := x.fails + 1, row := x.row + 1 }) (authFailed (some x.part) (9, n) d)
  if 16 ≤ x.row + 1 then endSession n d1 else d1

/-- Opcodes that are answered in the present phase (R354). -/
def answered (d : Dev) (op : Nat) : Bool :=
  if d.boot.step = .halted then op == 1 || op == 0x10 else d.boot.accepted || op == 1

/-- A STATUS_READ that the always-on domain serves by itself: only words of the DEV, ERR and I3T blocks (R414). -/
def alwaysOnRead (op : Nat) (p : Bytes) : Bool :=
  op == 1 && (List.range (u16 p 4)).all (fun i => match blockOf (u32 p 0 + 4 * i) with
    | some b => [0, 14, 17].contains b
    | none => false)

/-- Any other frame powers the supervisor, and with it Perk, before it is served (R414). -/
def wakeSupervisor (op : Nat) (p : Bytes) (d : Dev) : Dev :=
  if d.boot.step = .halted || alwaysOnRead op p then d else modPower (fun w => { w with sup := true, perk := true }) d

end Sys2Proof.Machine
end

