-- ==== Sys2Proof/Machine/Kennel.lean ====
section
/-! DEFINITION. The Kennel island (R393 to R408): its reset, readings, operations, records, seal and calibration, its request port
(R400, R401), and the device's forwarder (R405). -/

namespace Sys2Proof.Machine

/-- A fresh draw of the Kennel (log 7). -/
def kDraw (k : Kennel) : Nat × Kennel := ((Config.kennelWord k.draws).toNat, { k with draws := k.draws + 1 })

/-- fw_digest (R394). -/
def kennelDigest (k : Kennel) : Bytes := fit 32 (Config.sha256 (Config.kennelRom ++ k.patch))

/-- Parameters without a valid slot: what a record shows of them is open, and zero tracking is off (DESIGN CHOICE, log 57). -/
def openCalib : Calib :=
  { max := Config.noCalib 0 % 4294967296, e := Config.noCalib 1 % 65536, unit := Config.noCalib 2 % 256,
    exp := signed 8 (Config.noCalib 3 % 256), tracking := false, rate := Config.noCalib 4, window := Config.noCalib 5 }

/-- Parameters in force. -/
def calibOf (k : Kennel) : Calib := (k.calib.map (fun c => c.2)).getD openCalib

/-- A signed value as a field of n bytes. -/
def leInt (n : Nat) (v : Int) : Bytes := le n (v % (256 ^ n : Nat)).toNat

/-! ### Records (R404, R405) -/

/-- Flags of a weight record (Table 17.7, R398). -/
def weightFlags (k : Kennel) (g : Int) (stable : Bool) : Nat :=
  let c := calibOf k
  flags [stable, decide (4 * g.natAbs ≤ c.e), decide ((c.max : Int) + 9 * c.e < g), decide (g < -(20 * (c.e : Int))), k.tare.isSome, k.sealOpen,
    kennelFaults k != 0]

/-- Bytes 0x00 to 0x57 of a weight record. -/
def weightHead (reason rid : Nat) (g : Int) (stable : Bool) (k : Kennel) : Bytes :=
  let c := calibOf k
  let t := k.tare.getD 0
  le 4 0x524E454B ++ le 2 1 ++ le 1 reason ++ le 1 (weightFlags k g stable) ++ le 4 k.next ++ le 4 k.events ++ fit 8 k.bootId ++
    le 8 (k.clock % 2 ^ 48) ++ leInt 4 g ++ leInt 4 t ++ leInt 4 (g - t) ++ le 2 c.e ++ le 1 c.unit ++ leInt 1 c.exp ++ le 4 c.max ++
    le 1 (calibSlot k) ++ leInt 1 k.temp ++ le 2 rid ++ kennelDigest k

/-- Place a weight record: mailbox slot n mod 16, then the head (R405). -/
def placeRecord (reason rid : Nat) (g : Int) (stable : Bool) (k : Kennel) : Kennel :=
  let body := weightHead reason rid g stable k
  { k with mailbox := tabSet k.mailbox (k.next % 16) (body ++ fit 64 (Config.ecdsaSign k.signing body)), head := k.next,
           next := (k.next + 1) % 4294967296 }

/-- The latest reading before zero, and whether it is stable; before the first one its value is open (log 51). -/
def latestReading (k : Kennel) : (Int × Bool) × Kennel :=
  match k.reading with
  | some r => (r, k)
  | none => let w := kDraw k; ((signed 32 (w.1 % 4294967296), false), w.2)

/-- Place a record of the latest reading. -/
def placeLatest (reason rid : Nat) (k : Kennel) : Kennel :=
  let r := latestReading k
  placeRecord reason rid (r.1.1 - r.2.zero) r.1.2 r.2

/-! ### Operations (Table 17.3) -/

/-- The answer of Table 17.5. -/
def kAnswer (result detail rid num : Nat) : Bytes := le 1 result ++ le 1 detail ++ le 2 rid ++ le 4 num

/-- record_number of an answer that placed none. -/
def noRecord : Nat := 0xFFFFFFFF

/-- Rounded to a multiple of e; which of the two neighbours is open (log 51). -/
def roundE (g : Int) (e : Nat) (k : Kennel) : Int × Kennel :=
  let r := g % (e : Int)
  if r = 0 then (g, k)
  else let w := kDraw k; (if w.1 % 2 = 0 then g - r else g - r + e, w.2)

/-- Carry out an operation at a stable reading: raw is the reading before zero. -/
def performOp (o : KOp) (raw : Int) (k : Kennel) : Bytes × Kennel :=
  let c := calibOf k
  let gross := raw - k.zero
  match o.request with
  | 1 =>
    let far := decide ((c.max : Int) < 50 * raw.natAbs)
    if far || k.tare.isSome then (kAnswer 1 (2 * b2n far + 8 * b2n k.tare.isSome) o.id noRecord, k)
    else (kAnswer 0 0 o.id k.next, placeRecord 2 o.id 0 true { k with zero := raw })
  | 2 =>
    if 0 < gross ∧ gross ≤ c.max then
      let t := roundE gross c.e k
      (kAnswer 0 0 o.id k.next, placeRecord 3 o.id gross true { t.2 with tare := some t.1 })
    else (kAnswer 1 4 o.id noRecord, k)
  | _ => (kAnswer 0 0 o.id k.next, placeRecord 1 o.id gross true k)

/-- Status block (Table 17.6). -/
def statusBlock (k : Kennel) : Bytes :=
  le 4 Config.kennelFwVersion.toNat ++ kennelDigest k ++ le 4 k.events ++ le 1 (b2n k.sealOpen) ++ le 1 (kennelMode k) ++
    le 1 (calibSlot k) ++ le 1 (64 - k.slots) ++ fit 8 k.bootId ++ le 4 k.head ++ le 4 (kennelFaults k) ++
    fit 64 (Config.publicKey k.signing)

/-- A request of Table 17.4. -/
def requestValid (rq : Bytes) : Bool :=
  rq.length == 4 && ([(1, 0), (2, 0), (2, 1), (3, 0), (3, 1), (4, 0), (4, 1)] : List (Nat × Nat)).contains (u8 rq 0, u8 rq 1)

/-- The Kennel takes a request (R400, R401, R408): its answer, or none while it waits for a stable reading or does not run. A bad
request is answered before anything else, then status, the open seal, the missing calibration, the busy slot (DEDUCED, log 50). -/
def kennelRequest (rq : Bytes) (k : Kennel) : Option Bytes × Kennel :=
  let rid := u16 rq 2
  let o : KOp := ⟨u8 rq 0, u8 rq 1, rid⟩
  if !k.running then (none, k)
  else if !requestValid rq then (some (kAnswer 3 0 rid noRecord), k)
  else if o.request = 4 then
    (some (kAnswer 0 0 rid noRecord ++ (if o.argument = 0 then statusBlock k else le 2 k.cert.length ++ k.cert)), k)
  else if k.sealOpen then (some (kAnswer 5 0 rid noRecord), k)
  else if k.calib.isNone then (some (kAnswer 4 0 rid noRecord), k)
  else if k.op.isSome then (some (kAnswer 2 0 rid noRecord), k)
  else if o.request = 2 ∧ o.argument = 1 then
    let k1 := { k with tare := none }
    (some (kAnswer 0 0 rid k.next), placeLatest 3 rid k1)
  else if o.request = 3 ∧ o.argument = 0 then (some (kAnswer 0 0 rid k.next), placeLatest 1 rid k)
  else match k.reading with
    | some (raw, true) => let r := performOp o raw k; (some r.1, r.2)
    | _ => (none, { k with op := some o })

/-! ### Events of the island -/

/-- An opening of the seal (R406). -/
def kennelOpening (programmed : Bool) (k : Kennel) : Kennel :=
  if k.events < 4095 ∧ programmed = true then
    { k with events := k.events + 1, exhausted := decide (k.events + 1 = 4095), mode := 1, service := true }
  else k

/-- A Kennel reset (R395): a fresh boot_id, clock and record numbers afresh, and a record of reason 5 due. An open seal found
counts as an opening; its increment is taken to be programmed unless the counter is exhausted (DEDUCED, log 56). -/
def kennelRestart (open_ : Bool) (k : Kennel) : Kennel :=
  let w := kDraw k
  let k1 : Kennel := { running := true, sealOpen := open_, events := k.events, slots := k.slots, calib := k.calib, signing := k.signing,
                       patch := k.patch, cert := k.cert, exhausted := decide (k.events = 4095), draws := w.2.draws, bootId := le 8 w.1,
                       powerupDue := true }
  if open_ then kennelOpening true k1 else k1

/-- Zero tracking at the centre of zero (R399): the zero moves by an open amount within half of e a second (log 51). -/
def trackZero (k : Kennel) : Kennel :=
  let c := calibOf k
  match k.reading with
  | some (raw, _) =>
    let g := raw - k.zero
    if c.tracking && decide (4 * g.natAbs ≤ c.e) then
      let w := kDraw k
      let m := w.1 % (min g.natAbs (ceilDiv c.e (2 * c.rate)) + 1)
      { w.2 with zero := if 0 ≤ g then k.zero + m else k.zero - m }
    else k
  | none => k

/-- The readings of the window that ends with this one (R398). -/
def windowOf (raw : Int) (clock : Nat) (k : Kennel) : List (Nat × Int) :=
  (clock, raw) :: k.recent.filter (fun r => decide (clock ≤ r.1 + (calibOf k).window))

/-- Stable: all readings of the window lie within half of e of one another (R398); a window that reaches back before the reset is
not full (DEDUCED, log 159). -/
def stableAt (c : Calib) (clock : Nat) (w : List (Nat × Int)) : Bool :=
  decide (c.window ≤ clock) && w.all (fun x => w.all (fun y => decide (2 * (x.2 - y.2) ≤ c.e)))

/-- A reading of the front end (R398): the value before zero, temperature, clock and fault bits; it is judged for stability. Whether
newly set fault bits place a record of reason 6 is open (log 51). -/
def takeReading (raw : Int) (temp : Int) (clock faults : Nat) (k : Kennel) : Kennel :=
  if k.running then
    let fresh := (List.range 7).any (fun i => bit faults i && !bit k.faults i)
    let w := windowOf raw clock k
    let k1 := trackZero { k with reading := some (raw, stableAt (calibOf k) clock w), recent := w, temp := temp, clock := clock, faults := faults }
    if fresh then let w := kDraw k1; if w.1 % 2 = 1 then placeLatest 6 0 w.2 else w.2 else k1
  else k

/-- The seal closes (R407). -/
def kennelClose (k : Kennel) : Kennel :=
  if k.running && k.sealOpen then { k with sealOpen := false, draft := none, service := false, mode := 0 } else k

/-- The seal opens, debounced (R406). -/
def kennelOpen (programmed : Bool) (k : Kennel) : Kennel :=
  if k.running && !k.sealOpen then kennelOpening programmed { k with sealOpen := true } else k

/-- Parameters may be written (R407). -/
def calibrating (k : Kennel) : Bool := k.running && k.service && k.mode == 1

/-- Set a calibration parameter by its number: 0 Max, 1 e, 2 unit, 3 value_exp, 4 zero tracking, 5 output rate, 6 stable_window in
ms, others by their own; the service protocol is not in the manual (DESIGN CHOICE, log 52). -/
def setParam (name : Nat) (v : Bytes) (c : Calib) : Calib :=
  match name with
  | 0 => { c with max := u32 v 0 }
  | 1 => { c with e := u16 v 0 }
  | 2 => { c with unit := u8 v 0 }
  | 3 => { c with exp := signed 8 (u8 v 0) }
  | 4 => { c with tracking := u8 v 0 != 0 }
  | 5 => { c with rate := u8 v 0 }
  | 6 => { c with window := u16 v 0 }
  | n => { c with others := tabSet c.others n v }

/-- Write a parameter; it stands uncommitted (R407). -/
def writeParam (name : Nat) (v : Bytes) (k : Kennel) : Kennel :=
  if calibrating k then { k with draft := some (setParam name v (k.draft.getD (calibOf k))) } else k

/-- Commit into the next unused slot (R407). -/
def commitCalib (k : Kennel) : Kennel :=
  if calibrating k && decide (k.slots < 64) then
    placeLatest 4 0 { k with calib := some (k.slots, k.draft.getD (calibOf k)), slots := k.slots + 1, draft := none }
  else k

/-- The Kennel key is generated and certified and the patch programmed, at BLANK → TEST (Table 16.5, R393). -/
def makeKennelKey (patch : Bytes) (k : Kennel) : Kennel :=
  let c := (List.range 5).flatMap (fun i => le 8 (Config.kennelWord (k.draws + i)).toNat)
  let key := scalarOf c
  { k with signing := key, patch := patch, cert := (Config.kennelCert (Config.publicKey key)).take 1024, draws := k.draws + 5 }

/-! ### Answers to the device -/

/-- Hand an answer to the device: it completes the command that waits for it, or stands as a late one (R402). -/
def deliver (a : Bytes) (s : State) : State :=
  match s.dev.host.cur with
  | some c => if c.awaits = .kennel then { s with dev := finishCur 0 a s.dev } else { s with kennel := { s.kennel with answer := some a } }
  | none => { s with kennel := { s.kennel with answer := some a } }

/-- A waiting operation finds its stable reading. -/
def stableReached (s : State) : State :=
  match s.kennel.op, s.kennel.reading with
  | some o, some (raw, true) =>
    let r := performOp o raw { s.kennel with op := none }
    deliver r.1 { s with kennel := r.2 }
  | _, _ => s

/-- No stable reading within 3 s (R399). -/
def stableTimeout (s : State) : State :=
  match s.kennel.op with
  | some o => deliver (kAnswer 1 1 o.id noRecord) { s with kennel := { s.kennel with op := none } }
  | none => s

/-- The Kennel has not answered within 4 s (R402). -/
def answerTimeout (d : Dev) : Dev :=
  match d.host.cur with
  | some c =>
    if c.awaits = .kennel then
      let d1 := info 0x81 (modHost (fun h => { h with noAnswer := h.noAnswer + 1, kenLate := true }) d)
      finishCur 0 (kAnswer 0xFF 0 (u16 c.payload 2) noRecord) d1
    else d
  | none => d

/-- The device discards a late answer (R402). -/
def discardAnswer (s : State) : State :=
  { s with kennel := { s.kennel with answer := none }, dev := modHost (fun h => { h with kenLate := false }) s.dev }

/-! ### The forwarder (R405) -/

/-- boot_id of the record in a mailbox slot. -/
def slotBoot (k : Kennel) (n : Nat) : Bytes := slice (tabGet k.mailbox (n % 16) []) 0x10 8

/-- Record n is still in the mailbox. -/
def inMailbox (k : Kennel) (n : Nat) : Bool :=
  decide (k.head < n + 16) && u32 (tabGet k.mailbox (n % 16) []) 8 == n

/-- Copy one record and send it as kind 6, or count it lost. -/
def forwardOne (k : Kennel) (d : Dev) (n : Nat) : Dev :=
  if inMailbox k n then
    emitLoose 0 { dtype := 0x31, kind := 6, body := tabGet k.mailbox (n % 16) [] } (modHost (fun h => { h with forwarded := h.forwarded + 1 }) d)
  else info 0x80 (modHost (fun h => { h with lost := h.lost + 1 }) d)

/-- An advance of KEN_MB_HEAD: interrupt 0x05, a new boot_id, then every record up to the head. Before acceptance, and when halted,
there is no channel, so records wait in the mailbox (DEDUCED, log 49). -/
def forward (k : Kennel) (d : Dev) : Dev :=
  if !awake d then d
  else
    let b := slotBoot k k.head
    let d1 := ibi 5 k.head (k.head / 256) (k.head / 65536) d
    let d2 := match d1.host.kenSeen.2 with
      | some o => if o = b then d1 else info 0x82 (modHost (fun h => { h with kenSeen := (0, some b) }) d1)
      | none => modHost (fun h => { h with kenSeen := (h.kenSeen.1, some b) }) d1
    if live d2 then
      let last := d2.host.kenSeen.1
      let ns := (List.range (k.head - last)).map (fun i => last + 1 + i)
      modHost (fun h => { h with kenSeen := (k.head, h.kenSeen.2) }) (ns.foldl (forwardOne k) d2)
    else d2

/-- The head has advanced past what the forwarder has seen: another number, or another boot_id. -/
def headAdvanced (k : Kennel) (d : Dev) : Bool :=
  k.head != 0 && (k.head != d.host.kenSeen.1 || d.host.kenSeen.2 != some (slotBoot k k.head))

/-! ### Commands -/

/-- A meaning that acts on the Kennel alone. -/
def kenStep (f : Kennel → Kennel) (s : State) : Result := .next { s with kennel := f s.kennel }

/-- KENNEL_RESET (R395): power-on, brown-out of KEN_VDD or the Kennel's own watchdog. -/
def execKennelReset (_cause : Fin 3) (sealOpen : Bool) (s : State) : Result := kenStep (kennelRestart sealOpen) s
/-- KENNEL_POWERUP_RECORD (R395). -/
def execKennelPowerupRecord (s : State) : Result :=
  kenStep (fun k => if k.running && k.powerupDue then placeLatest 5 0 { k with powerupDue := false } else k) s
/-- KENNEL_READING (R398). -/
def execKennelReading (gross : Int) (otpError : Bool) (temperature : Int) (clock : Nat) (faults : Nat) (s : State) : Result :=
  unlessWf (.kennelReading gross otpError temperature clock faults) s
    (kenStep (takeReading gross temperature clock (faults + 64 * b2n otpError)) s)
/-- KENNEL_STABLE_REACHED (R399). -/
def execKennelStableReached (s : State) : Result := wholeStep stableReached s
/-- KENNEL_STABLE_TIMEOUT (R399). -/
def execKennelStableTimeout (s : State) : Result := wholeStep stableTimeout s
/-- KENNEL_ANSWER_TIMEOUT (R402). -/
def execKennelAnswerTimeout (s : State) : Result := devStep answerTimeout s
/-- KENNEL_LATE_ANSWER (R402). -/
def execKennelLateAnswer (s : State) : Result := wholeStep discardAnswer s
/-- MAILBOX_HEAD_ADVANCE (R405). -/
def execMailboxHeadAdvance (s : State) : Result :=
  devStep (fun d => if headAdvanced s.kennel d then forward s.kennel d else d) s
/-- SEAL_OPEN (R406). -/
def execSealOpen (programmed : Bool) (s : State) : Result := kenStep (kennelOpen programmed) s
/-- SEAL_CLOSE (R407). -/
def execSealClose (s : State) : Result := kenStep kennelClose s
/-- CALIBRATION_COMMIT (R407). -/
def execCalibrationCommit (s : State) : Result := kenStep commitCalib s
/-- CALIBRATION_PARAMETER_WRITE (R407). -/
def execCalibrationParameterWrite (name : Nat) (value : Bytes) (s : State) : Result := kenStep (writeParam name value) s

/-- The maker's transition BLANK → TEST (Table 16.5): keys generated or programmed on die, the certificate and patch programmed,
the state word set (log 53). -/
def blankToTest (linkKey certificate patch : Bytes) (s : State) : State :=
  if lifecycle s.otp = 0 then
    let a := drawBytes 40 s.dev
    let b := drawBytes 32 a.2
    { s with dev := b.2, kennel := makeKennelKey patch s.kennel,
             otp := completeTransition 1 { s.otp with identity := scalarOf a.1, root := b.1, link := fit 32 linkKey, cert := certificate.take 1024 } }
  else s

/-- BLANK_TO_TEST_TRANSITION (R379). -/
def execBlankToTestTransition (linkKey certificate patch : Bytes) (s : State) : Result :=
  .next (blankToTest linkKey certificate patch s)

end Sys2Proof.Machine
end

