-- ==== Sys2Proof/Machine/Report.lean ====
section
/-! DEFINITION. The Amigon report (R383 to R385). -/

namespace Sys2Proof.Machine

/-- Blob-entry digest of a blob (Table 2.7). -/
def entryDigest? (img : Image) (id : Nat) : Option Bytes := (img.blobs.find? (fun b => b.id == id)).map (fun b => b.digest)

/-- Descriptors of a partition's graphs, 64 bytes each, as the manifest fixes them (R385): what a blob holds follows from its digest,
whether or not it has been read (DEDUCED, log 47). -/
def partDescriptors (d : Dev) (p : Nat) : List Bytes :=
  (d.img.graphs.filter (fun g => g.part == p)).flatMap (fun g =>
    (entryDigest? d.img g.blob).elim [] (fun x => entries 64 (Config.blobOf x)))

/-- Blobs of class graphs of a partition (R385). -/
def graphBlobs (d : Dev) (p : Nat) : List Nat := (d.img.graphs.filter (fun g => g.part == p)).map (fun g => g.blob)

/-- Scan operators of a partition: those that its sequences name. -/
def partScans (img : Image) (p : Nat) : List ScanOp :=
  let qs := img.seqs.filter (fun r => r.part == p)
  img.scans.filter (fun x => qs.any (fun q => q.forward == x.id || q.backward == x.id))

/-- Blobs of class programs (R385); an attention operator has no ew_blob field. -/
def programBlobs (d : Dev) (p : Nat) : List Nat :=
  let ds := partDescriptors d p
  let img := d.img
  (img.templates.filter (fun t => ds.any (fun b => dKind b < 2 && dOp b == t.id))).map (fun t => t.ewBlob) ++
  (img.scans.filter (fun x => ds.any (fun b => dKind b == 3 && dOp b == x.id))).map (fun x => x.ewBlob) ++
  (img.perk.filter (fun g => img.routes.any (fun r => r.target == 1 && r.part == p && r.graph == g.graph))).map (fun g => g.blob) ++
  (img.cams.filter (fun c => streamOwner img c.stream == some p)).map (fun c => c.tuning)

/-- Blobs of class weights (R385). -/
def weightBlobs (d : Dev) (p : Nat) : List Nat :=
  let ds := partDescriptors d p
  let img := d.img
  (img.regions.filter (fun r => r.part == p)).map (fun r => r.blob) ++
  (img.codebooks.filter (fun c => img.fmtOpts.any (fun o => o.codebook == c.id && ds.any (fun b => dKind b < 2 && dOp b == o.template)))).map (fun c => c.blob) ++
  (img.cats.filter (fun c => c.part == p)).map (fun c => c.blob) ++ (partScans img p).map (fun x => x.initBlob)

/-- Class digest (R385): SHA-256 of the blob-entry digests, each blob once, ascending. -/
def classDigest (img : Image) (ids : List Nat) : Bytes :=
  let sorted := ids.foldl (fun l x => insertNat x l) []
  fit 32 (Config.sha256 ((sorted.filterMap (entryDigest? img)).flatten))

/-- Partition entry (Table 16.9). -/
def partEntry (d : Dev) (p : Nat) : Bytes :=
  let x := getPart d p
  le 1 p ++ le 1 (flags [x.stopped, !x.muzzled.isEmpty]) ++ zeros 2 ++ classDigest d.img (programBlobs d p) ++
    classDigest d.img (graphBlobs d p) ++ classDigest d.img (weightBlobs d p)

/-- Declared partitions, ascending; none before acceptance. -/
def reportParts (d : Dev) : List Nat := if d.boot.accepted then (List.range 128).filter (declared d.img) else []

/-- What the Kennel's status gives a report: digest, event counter, seal. Without an answer the counter is open (R384, log 51). -/
def kennelPart (s : State) : Bytes × Dev :=
  let k := s.kennel
  if k.running then (kennelDigest k ++ le 4 k.events ++ le 1 (b2n k.sealOpen), s.dev)
  else let r := drawBytes 4 s.dev; (zeros 32 ++ r.1 ++ [0xFF], r.2)

/-- The chain: device certificate, then the Lomdor intermediate certificate. -/
def certChain (o : Otp) : Bytes := o.cert ++ Config.intermediateCert

/-- A report without its signature (Table 16.8). -/
def reportBody (session : Bool) (nonce key : Bytes) (s : State) : Bytes × Dev :=
  let d := s.dev
  let parts := reportParts d
  let chain := certChain s.otp
  let e := d.err
  let k := kennelPart s
  (le 4 0x4E474D41 ++ le 2 1 ++ le 1 (lifecycle s.otp) ++
      le 1 (flags [d.boot.unlocked, debugOpen s.otp d, injectionPermitted s.otp d, session, d.boot.step == .running, d.boot.step == .halted]) ++
      le 4 (0x158 + chain.length + 100 * parts.length + 64) ++ le 2 chain.length ++ le 1 parts.length ++
      le 1 (if d.boot.verified then d.img.header.securityVersion else 0) ++ le 1 s.otp.floor ++ le 1 d.boot.attempts ++ zeros 2 ++
      le 4 d.img.fwVersion ++ le 8 d.img.imageId ++ fit 32 nonce ++ fit 32 Config.romDigest ++ fit 32 d.img.fwDigest ++
      fit 32 d.boot.digest ++ fit 64 ((wrapKey s.otp).elim [] Config.publicKey) ++ fit 64 key ++ k.1 ++
      le 1 (if (errUsed e).isEmpty then 0 else errHighest e + 1) ++ le 1 ((e.first.map (fun f => f.cause)).getD 0) ++
      le 1 (errUsed e).length ++ fit 16 d.boot.salt ++ chain ++ parts.flatMap (partEntry d), k.2)

/-- A report, signed with the identity key (R383). -/
def report (session : Bool) (nonce key : Bytes) (s : State) : Bytes × Dev :=
  let r := reportBody session nonce key s
  (r.1 ++ fit 64 (Config.ecdsaSign s.otp.identity r.1), r.2)

end Sys2Proof.Machine
end

