-- ==== Sys2Proof/Machine/HostCmd.lean ====
section
/-! DEFINITION. What each opcode of Table 15.7 does, and the frame that carries it (R352 to R360, R379, R383, R386, R402, R403). A
handler is given the session of a protected frame, or none, and the plaintext payload. Rows of the command table that share an opcode
share its handler, which the payload directs (DEDUCED, log 43). -/

namespace Sys2Proof.Machine

/-- What a handler is given: its session. -/
abbrev Sess := Option Nat

/-- Partition of a frame's session. -/
def sessPart (n : Sess) (d : Dev) : Option Nat := n.map (fun n => (getSession d n).part)

/-- The channel of a frame's session is muzzled: it issues no transaction (R324), and a command that needs one is DENIED (DESIGN CHOICE,
log 155). -/
def channelMuzzled (n : Sess) (d : Dev) : Bool := n.any (fun k => isMuzzled d (0x70 + k))

/-- Answers without a payload. -/
def answerOk : Reply := .now 0 []
/-- See answerOk. -/
def answerBadOpcode : Reply := .now 4 []
/-- See answerOk. -/
def answerBadLength : Reply := .now 5 []
/-- See answerOk. -/
def answerDenied : Reply := .now 6 []
/-- See answerOk. -/
def answerNoSession : Reply := .now 7 []
/-- See answerOk. -/
def answerAuthFail : Reply := .now 8 []
/-- See answerOk. -/
def answerFull : Reply := .now 9 []
/-- See answerOk. -/
def answerNotFound : Reply := .now 10 []

/-- A handler that changes nothing. -/
def say (r : Reply) (s : State) : State × Reply := (s, r)

/-- A handler that changes the device. -/
def sayDev (r : Reply) (d : Dev) (s : State) : State × Reply := ({ s with dev := d }, r)

/-! ### The status window (R354, R355) -/

/-- STATUS_READ. -/
def handleRead (n : Sess) (p : Bytes) (s : State) : State × Reply :=
  let off := u32 p 0
  let cnt := u16 p 4
  if p.length ≠ 6 ∨ off % 4 ≠ 0 ∨ cnt = 0 ∨ 256 < cnt then say answerBadLength s
  else
    let offs := run off cnt
    let may := if s.dev.boot.accepted && s.dev.boot.step != .halted then offs.all (mayReadBlock (sessPart n s.dev))
      else offs.all (fun o => match blockOf o with | some b => [0, 14, 17].contains b | none => false)
    if may then
      let r := readWords offs s
      (r.2, .now 0 (r.1.flatMap (fun w => le 4 w.toNat)))
    else say answerDenied s

/-- WINDOW_WRITE: in a session of partition 0 alone; a register without a writable field is outside the permitted ones, an offset
without a register takes no effect (log 40). -/
def handleWrite (n : Sess) (p : Bytes) (s : State) : State × Reply :=
  let off := u32 p 0
  if p.length ≠ 8 ∨ off % 4 ≠ 0 then say answerBadLength s
  else if sessPart n s.dev ≠ some 0 then say answerDenied s
  else match writeReg off (w32 (u32 p 4)) s with
    | some t => (t, answerOk)
    | none => say (if (liveReg s 0 off).isSome then answerDenied else answerOk) s

/-! ### Reports and sessions (R383, R386) -/

/-- The identity key stands (Table 16.4). -/
def canAttest (o : Otp) : Bool := lifecycle o != 0 && lifecycle o != 5

/-- ATTEST: the report is built at the command (DEDUCED, log 47) and answered when it is ready. -/
def handleAttest (p : Bytes) (s : State) : State × Reply :=
  if p.length ≠ 32 then say answerBadLength s
  else if canAttest s.otp then let r := report false p [] s; sayDev (.later .report r.1) r.2 s
  else say answerDenied s

/-- The signature that Table 16.11 requires for a partition, check 3. -/
def hostAuthentic (p : Bytes) (part : Nat) (s : State) : Bool :=
  let key := slice p 0x64 64
  let signed_ (h : Bytes) : Bool := Config.sha256 key == h && Config.ecdsaVerify key (p.take 0x64) (slice p 0xA4 64)
  if part = 0 then (signerHash s.otp).any signed_
  else match s.dev.img.auths.find? (fun a => a.part == part) with
    | some a => signed_ a.hash
    | none => zeroField p 0x64 128

/-- The session opens (R386): ephemeral key, report, session keys. -/
def openSession (n : Nat) (p : Bytes) (s : State) : State × Reply :=
  let c := drawBytes 40 s.dev
  let priv := scalarOf c.1
  let nonce := slice p 4 32
  let r := report true nonce (Config.publicKey priv) { s with dev := c.2 }
  let keys := Config.hkdf (Config.ecdhX priv (slice p 0x24 64)) nonce (ascii "KYNER SESSION" ++ le 1 n ++ Config.sha256 r.1) 96
  sayDev (.later .report (le 1 n ++ zeros 3 ++ r.1))
    (modSession n (fun _ => { opened := true, part := u8 p 0, keys := keys }) r.2) s

/-- SESSION_OPEN, in the order of Table 16.11; check 1 is made on the frame. -/
def handleOpen (p : Bytes) (s : State) : State × Reply :=
  let d := s.dev
  let part := u8 p 0
  if p.length ≠ 228 then say answerBadLength s
  else if !(declared d.img part && bit (policyOf d.img part).flags 1) then say answerDenied s
  else if !(hostAuthentic p part s && pointValid (slice p 0x24 64)) then sayDev answerAuthFail (authFailed none (0, 0) d) s
  else match (List.range 8).find? (fun n => !(getSession d n).opened) with
    | none => say answerDenied s
    | some n => openSession n p s

/-- SESSION_CLOSE. -/
def handleClose (n : Sess) (p : Bytes) (s : State) : State × Reply :=
  match n with
  | none => say answerNoSession s
  | some n => if p = [] then sayDev answerOk (endSession n s.dev) s else say answerBadLength s

/-! ### Events, prompts, pre-roll (R356 to R360) -/

/-- EVENT_INJECT of kind 0. -/
def injectWake (p : Bytes) (s : State) : State × Reply :=
  let w : Wake := { source := 3, target := u8 p 1, stream := u8 p 2, cls := u8 p 3, onset := u64 p 4 % 2 ^ 48 }
  if w.target ≠ 2 ∧ w.target ≠ 3 then say answerNotFound s
  else match routeOf s.dev.img w.target w.stream w.cls with
    | none => sayDev answerNotFound (arrive w none s.dev).2 s
    | some r =>
      if bit (policyOf s.dev.img r.part).flags 0 then
        let a := arrive w none s.dev
        sayDev (.now 0 (le 4 (a.1.getD 0))) a.2 s
      else say answerDenied s

/-- EVENT_INJECT of kind 1. -/
def injectMark (p : Bytes) (s : State) : State × Reply :=
  match seqRec? s.dev.img (u8 p 2) with
  | some r => if bit r.flags 1 then sayDev (.now 0 (zeros 4)) (takeMark (u8 p 2) (u64 p 4 % 2 ^ 48) s.dev) s else say answerDenied s
  | none => say answerDenied s

/-- EVENT_INJECT; another kind is not found (DEDUCED, log 44). -/
def handleEvent (p : Bytes) (s : State) : State × Reply :=
  if p.length ≠ 12 then say answerBadLength s
  else if u8 p 0 = 0 then injectWake p s else if u8 p 0 = 1 then injectMark p s else say answerNotFound s

/-- Token IDs of a submission. -/
def tokensOf (p : Bytes) : List Nat := (entries 4 (p.drop 4)).map (fun b => u32 b 0)

/-- A submission appends its tokens; at end_of_turn the turn's wake arrives (R358, R359). A turn without a route is discarded
as any unrouted request (R72), and its submission appends nothing (DEDUCED, log 44). -/
def submit (n : Nat) (p : Bytes) (s : State) : State × Reply :=
  let d := s.dev
  let x := getSession d n
  let prompt := x.prompt ++ tokensOf p
  let answer : Reply := .now 0 (le 2 x.turn ++ le 2 prompt.length)
  if bit (u8 p 1) 0 then
    match routeOf d.img 3 255 (u8 p 0) with
    | none => sayDev answerNotFound (arrive { source := 3, target := 3, stream := 255, cls := u8 p 0, onset := x.turn } none d).2 s
    | some r =>
      if r.part ≠ x.part then say answerDenied s
      else
        let d1 := modSession n (fun y => { y with prompt := prompt, turn := (y.turn + 1) % 4294967296, busy := true }) d
        sayDev answer (arrive { source := 3, target := 3, stream := 255, cls := u8 p 0, onset := x.turn } (some (n, x.turn)) d1).2 s
  else sayDev answer (modSession n (fun y => { y with prompt := prompt }) d) s

/-- PROMPT_SUBMIT; an outstanding turn is answered first (DEDUCED, log 44). -/
def handlePrompt (n : Sess) (p : Bytes) (s : State) : State × Reply :=
  match n with
  | none => say answerDenied s
  | some n =>
    let x := getSession s.dev n
    if x.busy then say answerFull s
    else if p.length < 4 ∨ 1017 < u16 p 2 ∨ p.length ≠ 4 + 4 * u16 p 2 ∨ 8192 < x.prompt.length + u16 p 2 then say answerBadLength s
    else submit n p s

/-- An open request of a tier by its arrival number. -/
def openRequest (tier arrival : Nat) (d : Dev) : Option Req :=
  d.reqs.find? (fun r => r.tier == tier && r.q.arrival == arrival && r.ended.isNone && (tier == 2 || tier == 3))

/-- The request that PREROLL_READ names, ended or not, until its last record has gone. -/
def namedRequest (tier arrival : Nat) (d : Dev) : Option Req :=
  d.reqs.find? (fun r => r.tier == tier && r.q.arrival == arrival && (tier == 2 || tier == 3))

/-- Samples of a grant from an index of the window; none while some are not copied yet. -/
def grantSamples (g : Grant) (first : Int) (cnt : Nat) : Option Bytes :=
  let k := (first - g.start).toNat
  if k + cnt ≤ g.tile.length then some (((g.tile.drop k).take cnt).flatMap (fun v => le 2 (v % 65536).toNat)) else none

/-- The range lies in the window of a grant. -/
def inWindow (g : Grant) (first : Int) (cnt : Nat) : Bool := decide (g.start ≤ first) && decide (first + cnt ≤ g.start + g.size)

/-- PREROLL_READ (R360). The grant of a request that has ended is gone, so that its read is denied (R86); one that has left the table of
requests is no request (DEDUCED, log 137). -/
def handlePreroll (n : Sess) (p : Bytes) (s : State) : State × Reply :=
  let d := s.dev
  let cnt := u16 p 16
  let first := signed 64 (u64 p 8)
  if p.length ≠ 18 ∨ cnt = 0 ∨ 2048 < cnt then say answerBadLength s
  else if channelMuzzled n d then say answerDenied s
  else match namedRequest (u8 p 0) (u32 p 4) d with
    | none => say answerNotFound s
    | some r =>
      let refuse := sayDev answerDenied (record 0x45 (some r.q.part) (6, r.tier) d) s
      match (if r.ended.isNone then r.grant else none) with
      | none => refuse
      | some g =>
        if sessPart n d = some r.q.part ∧ (prePolicy d.img r.q.part).any (fun x => bit x.flags 2) = true ∧ inWindow g first cnt = true then
          match grantSamples g first cnt with
          | some b => say (.now 0 b) s
          | none => say (.later (.preroll r.tier r.q.arrival first cnt) []) s
        else refuse

/-- The samples awaited have been copied, or the request has gone, and with it the grant (R86). -/
def prerollReady (d : Dev) : Dev :=
  match d.host.cur with
  | some c =>
    match c.awaits with
    | .preroll tier arrival first cnt =>
      match openRequest tier arrival d with
      | some r =>
        match r.grant.bind (fun g => grantSamples g first cnt) with
        | some b => finishCur 0 b d
        | none => d
      | none => finishCur 6 [] (record 0x45 none (6, tier) d)
    | _ => d
  | none => d

/-! ### MAINTENANCE (R356, R370, R379, R449) -/

/-- Signer class of a row of Table 16.5: true for maker-signed, false for owner-signed. -/
def transitionSigner (src tgt : Nat) : Option Bool :=
  match src, tgt with
  | 1, 2 => some true
  | 2, 3 => some false
  | 2, 4 => some false
  | 3, 4 => some false
  | 1, 5 => some true
  | 4, 5 => some true
  | 2, 5 => some false
  | 3, 5 => some false
  | _, _ => none

/-- A request of Table 16.6 is accepted (R379). -/
def requestAccepted (q : Bytes) (o : Otp) : Bool :=
  let key := slice q 0x44 64
  let newHash := slice q 0x24 32
  u8 q 0 == lifecycle o && slice q 4 32 == deviceId o && (newHash.any (fun b => b != 0)) == (u8 q 0 == 1 && u8 q 1 == 2) &&
    (match transitionSigner (u8 q 0) (u8 q 1) with
      | some true => Config.sha256 key == Config.makerKeyHash
      | some false => Config.sha256 key == o.ownerHash
      | none => false) && Config.ecdsaVerify key (q.take 0x84) (slice q 0x84 64)

/-- Subcommand 0x0003: phase 1 of R380, or 0x47. -/
def requestTransition (q : Bytes) (s : State) : State × Reply :=
  if q.length ≠ 196 then say answerBadLength s
  else if requestAccepted q s.otp then
    ({ s with otp := programIntent (u8 q 1) { s.otp with request := slice q 0x24 32 } }, answerOk)
  else sayDev answerDenied (info 0x47 s.dev) s

/-- One kind-7 record of a dump: an address and bytes; tainted where a granule is poisoned (log 48). -/
def dumpRecord (d : Dev) (a n : Nat) : OutRec :=
  { dtype := 0x32, kind := 7, body := memRead d.mem a n, tainted := (granulesOf a n).any (fun g => d.mem.poison.contains g) }

/-- Send a dump in records of up to 16 KiB. -/
def dumpRange : Nat → Nat → Nat → Dev → Dev
  | 0, _, _, d => d
  | k + 1, a, n, d => if n = 0 then d else dumpRange k (a + 16384) (n - 16384) (emitLoose 0 (dumpRecord d a (min n 16384)) d)

/-- Subcommand 0x0004 (R370). R20 asks for a policy of the region's owner that permits it; no record has such a field and R370 lists none,
so that the session of partition 0 is all the policy there is (DESIGN CHOICE, log 138). -/
def dumpTensor (q : Bytes) (s : State) : State × Reply :=
  let off := u32 q 4
  let n := u32 q 8
  if q.length ≠ 12 then say answerBadLength s
  else match region? s.dev.img (u32 q 0) with
    | none => say answerDenied s
    | some r =>
      if r.kind = 0 ∧ dumpState s.otp s.dev = true ∧ off % 64 = 0 ∧ n % 64 = 0 ∧ off + n ≤ r.pages * 4096 then
        sayDev answerOk (dumpRange (n / 16384 + 1) (r.base + off) n (countRemote (r.base + off) (n / 64) s.dev)) s
      else say answerDenied s

/-- MAINTENANCE, in a session of partition 0 alone; a self-test outside Table 19.4 is denied (DEDUCED, log 44). -/
def handleMaintenance (n : Sess) (p : Bytes) (s : State) : State × Reply :=
  if sessPart n s.dev ≠ some 0 then say answerDenied s
  else if p.length < 2 then say answerBadLength s
  else match u16 p 0 with
    | 1 => if p.length = 2 then sayDev answerOk (ownerSnapshot s.dev) s else say answerBadLength s
    | 2 =>
      if p.length ≠ 6 then say answerBadLength s
      else if 24 ≤ u8 p 2 ∨ 3 < u8 p 3 then say answerDenied s
      else let r := queueTest (u8 p 2) (u8 p 3) s.dev; sayDev (if r.1 then answerOk else answerDenied) r.2 s
    | 3 => requestTransition (p.drop 2) s
    | 4 => if channelMuzzled n s.dev then say answerDenied s else dumpTensor (p.drop 2) s
    | _ => say answerBadOpcode s

/-- The programming of an accepted transition ends: actions, state group, and the reset (R380). -/
def programDone (s : State) : State :=
  match interrupted s.otp with
  | some t => if live s.dev then { s with otp := completeTransition t s.otp, dev := deviceReset 16 false s.dev } else s
  | none => s

/-! ### KENNEL_REQUEST (R402, R403) -/

/-- The policy of record 0x0F01 permits a request: only what it names read or status passes outside a session (log 50). -/
def kennelPermitted (n : Sess) (p : Bytes) (d : Dev) : Bool :=
  match d.img.ken with
  | none => false
  | some r => sessPart n d == some r.part || (n.isNone && bit r.flags 0 && (u8 p 0 == 3 || u8 p 0 == 4))

/-- KENNEL_REQUEST: the Kennel's answer, at once or when it comes. -/
def handleKennel (n : Sess) (p : Bytes) (s : State) : State × Reply :=
  if kennelPermitted n p s.dev then
    let r := kennelRequest p s.kennel
    ({ s with kennel := r.2, dev := modHost (fun h => { h with kenRequests := h.kenRequests + 1 }) s.dev },
      match r.1 with | some a => .now 0 a | none => .later .kennel p)
  else say answerDenied s

/-! ### Frames -/

/-- Carry out a command. -/
def handle (op : Nat) (n : Sess) (p : Bytes) (s : State) : State × Reply :=
  match op with
  | 0x01 => handleRead n p s
  | 0x02 => handleWrite n p s
  | 0x10 => handleAttest p s
  | 0x11 => handleOpen p s
  | 0x12 => handleClose n p s
  | 0x20 => handleEvent p s
  | 0x30 => handlePrompt n p s
  | 0x40 => handlePreroll n p s
  | 0x50 => handleKennel n p s
  | 0x60 => handleMaintenance n p s
  | _ => say answerBadOpcode s

/-- Carry out a command whose payload has been checked, and answer it. -/
def serve (op : Nat) (f : Frame) (g : Option Guard) (p : Bytes) (s : State) : State :=
  let r := handle op (g.map (fun g => g.session)) p { s with dev := wakeSupervisor op p s.dev }
  { r.1 with dev := settleReply op f g r.2 r.1.dev }

/-- A frame that names a session (R357, R387, R388). -/
def serveProtected (op : Nat) (f : Frame) (s : State) : State :=
  let x := getSession s.dev f.session
  if 8 ≤ f.session ∨ x.opened = false then { s with dev := respond 7 f.seq op [] none s.dev }
  else match unprotect op f x with
    | none => { s with dev := respond 8 f.seq op [] none (frameRefused f.session s.dev) }
    | some p =>
      serve op f (some ⟨f.session, x.counter, rspKey x⟩) p
        { s with dev := modSession f.session (fun y => { y with counter := y.counter + 1, row := 0 }) s.dev }

/-- The port takes a frame: a response still unread is discarded (R353). -/
def receiveFrame (d : Dev) : Dev :=
  modHost (fun h => { h with nack := false, cmds := h.cmds + 1, resp := none, respLost := if h.resp.isSome then h.respLost + 1 else h.respLost }) d

/-- The CRC of a frame fails, or an injection makes it fail (R353, R444). -/
def crcFails (op : Nat) (f : Frame) (d : Dev) : Bool := f.crc != crc32 (frameBytes op f) || (armedOn d 0xA 0).isSome

/-- A private write with a command frame, checked in the order of R353, R354, R357. -/
def hostFrame (op : Nat) (f : Frame) (s : State) : State :=
  if !awake s.dev || s.dev.host.addr.isNone || s.dev.host.cur.isSome then { s with dev := modHost (fun h => { h with nack := true }) s.dev }
  else
    let d := receiveFrame s.dev
    let answer (status : Nat) : State := { s with dev := respond status f.seq op [] none d }
    if f.payload.length ≠ f.len ∨ 4096 < f.len then answer 5
    else if crcFails op f d then
      { s with dev := respond 3 0xFFFF 0xFFFF [] none (recordOn 0xA 0 0x20 none (0, 0) (modHost (fun h => { h with crcErr := h.crcErr + 1 }) d)) }
    else if !opcodes.contains op then answer 4
    else if !answered d op then answer 2
    else if f.session = 255 then serve op f none f.payload { s with dev := d }
    else if op = 0x11 then answer 6
    else serveProtected op f { s with dev := d }

/-- The read port (R353): the response from where the last read stopped, or BUSY. -/
def readResponse (cnt : Nat) (d : Dev) : Dev :=
  if !awake d || d.host.addr.isNone then modHost (fun h => { h with nack := true }) d
  else match d.host.resp with
    | some (b, k) =>
      modHost (fun h => { h with nack := false, rx := slice b k cnt, resp := if b.length ≤ k + cnt then none else some (b, k + cnt) }) d
    | none =>
      let id := match d.host.cur with | some c => (c.frame.seq, c.opcode) | none => (0xFFFF, 0xFFFF)
      modHost (fun h => { h with nack := false, rx := (responseBytes 1 id.1 id.2 [] none).take cnt }) d

/-- A report is ready: the response completes (R383). -/
def reportReady (d : Dev) : Dev :=
  match d.host.cur with
  | some c => if c.awaits = .report then finishCur 0 c.payload d else d
  | none => d

/-! ### Commands -/

/-- STATUS_READ (R355). -/
def execStatusRead (f : Frame) (s : State) : Result := unlessWf (.statusRead f) s (wholeStep (hostFrame 0x01 f) s)
/-- WINDOW_WRITE (R355). -/
def execWindowWrite (f : Frame) (s : State) : Result := unlessWf (.windowWrite f) s (wholeStep (hostFrame 0x02 f) s)
/-- WATCHED_COUNT_CLEAR (R184). -/
def execWatchedCountClear (f : Frame) (s : State) : Result := unlessWf (.watchedCountClear f) s (wholeStep (hostFrame 0x02 f) s)
/-- PRT_RESET_REQ (R326). -/
def execPrtResetReq (f : Frame) (s : State) : Result := unlessWf (.prtResetReq f) s (wholeStep (hostFrame 0x02 f) s)
/-- INJ_ARM (R444, R445). -/
def execInjArm (f : Frame) (s : State) : Result := unlessWf (.injArm f) s (wholeStep (hostFrame 0x02 f) s)
/-- INJ_DISARM (R444). -/
def execInjDisarm (f : Frame) (s : State) : Result := unlessWf (.injDisarm f) s (wholeStep (hostFrame 0x02 f) s)
/-- ERR_ENTRY_CLEAR (R442). -/
def execErrEntryClear (f : Frame) (s : State) : Result := unlessWf (.errEntryClear f) s (wholeStep (hostFrame 0x02 f) s)
/-- ERR_FIRST_CLEAR (R442). -/
def execErrFirstClear (f : Frame) (s : State) : Result := unlessWf (.errFirstClear f) s (wholeStep (hostFrame 0x02 f) s)
/-- BAD_OPCODE (R354). -/
def execBadOpcode (opcode : Nat) (f : Frame) (s : State) : Result := unlessWf (.badOpcode opcode f) s (wholeStep (hostFrame opcode f) s)
/-- ATTEST (R383). -/
def execAttest (f : Frame) (s : State) : Result := unlessWf (.attest f) s (wholeStep (hostFrame 0x10 f) s)
/-- SESSION_OPEN (R386). -/
def execSessionOpen (f : Frame) (s : State) : Result := unlessWf (.sessionOpen f) s (wholeStep (hostFrame 0x11 f) s)
/-- SESSION_CLOSE (R357). -/
def execSessionClose (f : Frame) (s : State) : Result := unlessWf (.sessionClose f) s (wholeStep (hostFrame 0x12 f) s)
/-- EVENT_INJECT of kind 0 (R356). -/
def execEventInjectWake (f : Frame) (s : State) : Result := unlessWf (.eventInjectWake f) s (wholeStep (hostFrame 0x20 f) s)
/-- EVENT_INJECT of kind 1 (R356). -/
def execEventInjectMark (f : Frame) (s : State) : Result := unlessWf (.eventInjectMark f) s (wholeStep (hostFrame 0x20 f) s)
/-- PROMPT_SUBMIT (R358). -/
def execPromptSubmit (f : Frame) (s : State) : Result := unlessWf (.promptSubmit f) s (wholeStep (hostFrame 0x30 f) s)
/-- PREROLL_READ (R360). -/
def execPrerollRead (f : Frame) (s : State) : Result := unlessWf (.prerollRead f) s (wholeStep (hostFrame 0x40 f) s)
/-- MAINTENANCE 0x0001 (R67). -/
def execErrlogSnapshot (f : Frame) (s : State) : Result := unlessWf (.errlogSnapshot f) s (wholeStep (hostFrame 0x60 f) s)
/-- MAINTENANCE 0x0002 (R449). -/
def execSelfTestRequest (f : Frame) (s : State) : Result := unlessWf (.selfTestRequest f) s (wholeStep (hostFrame 0x60 f) s)
/-- MAINTENANCE 0x0003 (R379). -/
def execLifecycleTransition (f : Frame) (s : State) : Result := unlessWf (.lifecycleTransition f) s (wholeStep (hostFrame 0x60 f) s)
/-- MAINTENANCE 0x0004 (R370). -/
def execTensorDump (f : Frame) (s : State) : Result := unlessWf (.tensorDump f) s (wholeStep (hostFrame 0x60 f) s)
/-- KENNEL_REQUEST zero (R399). -/
def execKennelZero (f : Frame) (s : State) : Result := unlessWf (.kennelZero f) s (wholeStep (hostFrame 0x50 f) s)
/-- KENNEL_REQUEST tare, argument 0 (R399). -/
def execKennelTareTake (f : Frame) (s : State) : Result := unlessWf (.kennelTareTake f) s (wholeStep (hostFrame 0x50 f) s)
/-- KENNEL_REQUEST tare, argument 1 (R399). -/
def execKennelTareClear (f : Frame) (s : State) : Result := unlessWf (.kennelTareClear f) s (wholeStep (hostFrame 0x50 f) s)
/-- KENNEL_REQUEST read, argument 0 (R399). -/
def execKennelReadLatest (f : Frame) (s : State) : Result := unlessWf (.kennelReadLatest f) s (wholeStep (hostFrame 0x50 f) s)
/-- KENNEL_REQUEST read, argument 1 (R399). -/
def execKennelReadStable (f : Frame) (s : State) : Result := unlessWf (.kennelReadStable f) s (wholeStep (hostFrame 0x50 f) s)
/-- KENNEL_REQUEST status, argument 0 (R401). -/
def execKennelStatusBlock (f : Frame) (s : State) : Result := unlessWf (.kennelStatusBlock f) s (wholeStep (hostFrame 0x50 f) s)
/-- KENNEL_REQUEST status, argument 1 (R401). -/
def execKennelCertificate (f : Frame) (s : State) : Result := unlessWf (.kennelCertificate f) s (wholeStep (hostFrame 0x50 f) s)
/-- A malformed KENNEL_REQUEST (R400). -/
def execKennelBadRequest (f : Frame) (s : State) : Result := unlessWf (.kennelBadRequest f) s (wholeStep (hostFrame 0x50 f) s)
/-- RESPONSE_READ (R353). -/
def execResponseRead (count : Nat) (s : State) : Result := devStep (readResponse count) s
/-- PREROLL_RESPONSE_READY (R360). -/
def execPrerollResponseReady (s : State) : Result := devStep prerollReady s
/-- COMMAND_RESPONSE_READY (R383). -/
def execCommandResponseReady (s : State) : Result := devStep reportReady s
/-- LIFECYCLE_PROGRAM_DONE (R380). -/
def execLifecycleProgramDone (s : State) : Result := wholeStep programDone s

end Sys2Proof.Machine
end

