-- ==== Sys2Proof/Machine/Output.lean ====
section
/-! DEFINITION. Common command codes and Hot-Join (R348 to R350), the sending of in-band interrupts (R351), record frames (R363,
R365) and telemetry (R366). -/

namespace Sys2Proof.Machine

/-! ### Output pins, which follow from the state -/

/-- What drives the output functions of Table 15.13; none at high impedance. A record waits in the queue of either TX port. -/
def gpioDrive (d : Dev) : Nat → Option Bool
  | 2 => some (d.host.ibis != [] || [0, 1].any (fun p => (getTx d p).queue.any (fun r => r.dtype == 0x30)))
  | 3 => some d.power.isp
  | 4 => some d.power.perk
  | 5 => some true
  | 6 => some false
  | _ => none

/-- Level of GPIO n (R367): at high impedance until acceptance and when halted; the polarity applies to functions 2 to 4. -/
def gpioPin (d : Dev) (n : Nat) : Option Bool :=
  if live d then
    let h := d.img.hostIf.getD {}
    let f := u8 h.gpioFunction n
    (gpioDrive d f).map (fun a => if 2 ≤ f ∧ f ≤ 4 ∧ bit h.gpioPolarity n = false then !a else a)
  else none

/-- Level of DDR_RESET_N (R474): low while PORST_N is low; it rises as training begins (PRESUMED from JESD209-5B, log 161). -/
def ddrResetN (d : Dev) : Bool := d.boot.step == .training || d.boot.trained

/-! ### Common command codes (Table 15.2) -/

/-- A CCC that every awake target takes. -/
def ccc (f : HostPort → HostPort) (d : Dev) : Dev := if awake d then modHost f d else d

/-- A direct CCC to the dynamic address: NACKed without one. -/
def directCcc (f : HostPort → HostPort) (d : Dev) : Dev :=
  ccc (fun h => if h.addr.isNone then { h with nack := true } else f { h with nack := false }) d

/-- A direct CCC that returns bytes. -/
def directRead (b : Bytes) : Dev → Dev := directCcc (fun h => { h with rx := b })

/-- Enable or disable events: bit 0 INT, bit 3 HJ (PRESUMED from the I3C standard, log 41). -/
def setEvents (v : Bool) (e : Nat) (h : HostPort) : HostPort :=
  { h with int := if bit e 0 then v else h.int, hj := if bit e 3 then v else h.hj }

/-- Provisional ID (Table 15.1), most significant byte first (PRESUMED, log 41). -/
def provisionalId (d : Dev) : Bytes := be 6 (0x1D6 * 2 ^ 33 + 0x3648 * 2 ^ 16 + d.boot.straps % 4 * 2 ^ 12 + 0x0B0)

/-- RSTDAA clears the address, and with it the ENEC state and the protocol-error flag (R349). -/
def rstdaa (h : HostPort) : HostPort := { h with addr := none, int := true, hj := true, protErr := false }

/-- ENTDAA: the target without an address answers with its identity and takes one. -/
def entdaa (a : Nat) (d : Dev) : Dev :=
  ccc (fun h => if h.addr.isSome then h else { h with nack := false, rx := provisionalId d ++ [0x27, 0x00], addr := some a }) d

/-- SETDASA to the static address of Table 15.1. -/
def setdasa (st a : Nat) (d : Dev) : Dev :=
  ccc (fun h => if h.addr.isNone ∧ st = 0x48 + d.boot.straps % 4 then { h with nack := false, addr := some a } else { h with nack := true }) d

/-- GETSTATUS: the word of Table 15.2, and the protocol-error flag is cleared. -/
def getstatus (h : HostPort) : HostPort := { h with rx := be 2 (32 * b2n h.protErr + min 15 h.ibis.length), protErr := false }

/-- RSTACT (R350). -/
def rstact (action : Nat) (h : HostPort) : HostPort := if action = 1 then { h with resp := none } else h

/-- Hot-Join (R349). -/
def hotJoin (d : Dev) : Dev := ccc (fun h => if h.addr.isNone && h.hj then { h with hotJoins := h.hotJoins + 1 } else h) d

/-! ### In-band interrupts (R351) -/

/-- The interrupt sent next: highest priority, then arrival order; results wait for their spacing. -/
def nextIbi (h : HostPort) : Option Nat :=
  ((h.ibis.zipIdx.filter (fun i => !(i.1.byte == 4 && h.spacing))).foldl
    (fun b i => match b with
      | some x => if ibiPriority (x : Ibi × Nat).1.byte < ibiPriority i.1.byte then some i else some x
      | none => some i) none).map (fun i => i.2)

/-- Send an interrupt at bus idle; one that the host NACKs stays. -/
def sendIbi (acked : Bool) (d : Dev) : Dev :=
  ccc (fun h =>
    if h.int && h.addr.isSome && acked then
      match nextIbi h with
      | none => h
      | some i => { h with ibis := h.ibis.eraseIdx i, ibiSent := h.ibiSent + 1, lastIbi := h.ibis[i]?,
                           spacing := h.spacing || ((h.ibis[i]?).any (fun x => x.byte == 4) && (d.img.hostIf.getD {}).ibiSpacing != 0) }
    else h) d

/-! ### CSI-2 output (R363 to R366) -/

/-- Data lanes of a transmit port. -/
def txLanes (img : Image) (p : Nat) : Nat := (img.hostIf.getD {}).txLanes / 16 ^ p % 8

/-- A pass-through frame of Table 15.10. -/
def isPass (r : TxRec) : Bool := r.dtype == 0x18 || r.dtype == 0x2B

/-- Position of the record that leaves next: of the open frame's channel, else the head. -/
def nextRecord (t : TxPort) : Option Nat :=
  match t.frame with
  | some (c, _) => t.queue.findIdx? (fun r => r.chan == c && !isPass r)
  | none => if t.queue.isEmpty then none else some 0

/-- Record i leaves the port: in a record frame, opened where none is, closed after 64 records or when no other of its channel is
queued; or a pass-through frame of its own. -/
def leave (p i : Nat) (r : TxRec) (d : Dev) : Dev :=
  let rest := (getTx d p).queue.eraseIdx i
  if isPass r then modTx p (fun t => { t with queue := rest, sent := some (u64 r.bytes 8 % 65535 + 1, r) }) d
  else
    let opened := (getTx d p).frame
    let no := (tabGet d.host.chans r.chan {}).frame
    let num := if opened.isSome then no else no % 65535 + 1
    let sent := (opened.map (fun f => f.2)).getD 0 + 1
    let more := sent < 64 && rest.any (fun x => x.chan == r.chan && !isPass x)
    modHost (fun h => { h with chans := tabMod h.chans r.chan {} (fun c => { c with frame := num }) })
      (modTx p (fun t => { t with queue := rest, records := t.records + 1, sent := some (num, r),
                                  frame := if more then some (r.chan, sent) else none }) d)

/-- A 0x30 record of a request waits on the port's full queue. -/
def heldBack (p : Nat) (d : Dev) : Bool :=
  decide (256 ≤ (getTx d p).queue.length) && d.reqs.any (fun r => r.tier != 1 && atHead d r &&
    r.recs.any (fun o => (channelOf d.img r.q.part o.dtype).any (fun c => c.2.port == p)))

/-- The output engine sends the next record; held counts fabric cycles that a 0x30 record waited (R482). -/
def sendRecord (p held : Nat) (d : Dev) : Dev :=
  if live d && d.power.isp && txLanes d.img p != 0 then
    match nextRecord (getTx d p) with
    | none => d
    | some i =>
      match (getTx d p).queue[i]? with
      | none => d
      | some r =>
        let d1 := if heldBack p d then modTx p (fun t => { t with held := addW t.held held }) d else d
        pump (leave p i r d1)
  else d

/-- A telemetry record (R366): its number and the words listed, read with the latching of their blocks. -/
def telemetry (s : State) : State :=
  let h := s.dev.img.hostIf.getD {}
  if live s.dev && h.telemetryPeriod != 0 then
    let r := readWords h.offsets s
    let body := le 8 s.dev.host.telemetry ++ r.1.flatMap (fun w => le 4 w.toNat)
    { r.2 with dev := emitLoose 0 { dtype := 0x31, kind := 5, body := body } (modHost (fun h => { h with telemetry := h.telemetry + 1 }) r.2.dev) }
  else s

/-! ### Commands -/

/-- ENEC (R348). -/
def execEnec (events : Nat) (s : State) : Result := devStep (ccc (setEvents true events)) s
/-- DISEC (R348). -/
def execDisec (events : Nat) (s : State) : Result := devStep (ccc (setEvents false events)) s
/-- RSTDAA (R349). -/
def execRstdaa (s : State) : Result := devStep (ccc rstdaa) s
/-- ENTDAA (R348). -/
def execEntdaa (address : Fin 128) (s : State) : Result := devStep (entdaa address.val) s
/-- SETDASA (R348). -/
def execSetdasa (staticAddr address : Fin 128) (s : State) : Result := devStep (setdasa staticAddr.val address.val) s
/-- GETPID (R348). -/
def execGetpid (s : State) : Result := devStep (fun d => directRead (provisionalId d) d) s
/-- GETBCR (R348). -/
def execGetbcr (s : State) : Result := devStep (directRead [0x27]) s
/-- GETDCR (R348). -/
def execGetdcr (s : State) : Result := devStep (directRead [0x00]) s
/-- GETMXDS (R348): maxWr, maxRd. -/
def execGetmxds (s : State) : Result := devStep (directRead [0x00, 0x00]) s
/-- GETSTATUS (R348). -/
def execGetstatus (s : State) : Result := devStep (directCcc getstatus) s
/-- RSTACT (R350). -/
def execRstact (action : Nat) (s : State) : Result := devStep (ccc (rstact action)) s
/-- Another CCC (R348): broadcast ignored, direct NACKed. -/
def execUnsupportedCcc (direct : Bool) (s : State) : Result := devStep (ccc (fun h => if direct then { h with nack := true } else h)) s
/-- HOT_JOIN_TIMER (R349). -/
def execHotJoinTimer (s : State) : Result := devStep hotJoin s
/-- IBI_SEND (R351). -/
def execIbiSend (acked : Bool) (s : State) : Result := devStep (sendIbi acked) s
/-- IBI_SPACING_EXPIRY (R351). -/
def execIbiSpacingExpiry (s : State) : Result := devStep (ccc (fun h => { h with spacing := false })) s
/-- RECORD_SEND (R363). -/
def execRecordSend (port : Fin 2) (held : Nat) (s : State) : Result := devStep (sendRecord port.val held) s
/-- TELEMETRY_PERIOD (R366). -/
def execTelemetryPeriod (s : State) : Result := wholeStep telemetry s

end Sys2Proof.Machine
end

