-- ==== Sys2Proof/Machine/PartitionFamily.lean ====
section
/-! DEFINITION. Commands of partitions and their checks (R258, R324, R326, R335). -/

namespace Sys2Proof.Machine

/-- ACCESS_VIOLATION (R324). -/
def execAccessViolation (master : Nat) (part : Fin 128) (address : Nat) (s : State) : Result :=
  unlessWf (.accessViolation master part address) s (devStep (accessViolation master part.val address) s)

/-- PARTITION_RESET_COMMAND (R326). -/
def execPartitionResetCommand (issuer target : Fin 128) (s : State) : Result := devStep (threadReset issuer.val target.val) s

/-- PARTITION_RESET_COMPLETE (R326): step 5 of Table 13.6 ends. -/
def execPartitionResetComplete (part : Fin 128) (s : State) : Result := devStep (resetComplete part.val) s

/-- PAGE_TABLE_DIRECT_WRITE (R258). -/
def execPageTableDirectWrite (master : Nat) (part : Fin 128) (seq : Fin 256) (s : State) : Result :=
  unlessWf (.pageTableDirectWrite master part seq) s (devStep (directWrite master part.val seq.val) s)

/-- CHECKER_PARITY_FAIL (R335). -/
def execCheckerParityFail (pool : Fin 7) (instance_ : Nat) (s : State) : Result := devStep (checkerParity pool.val instance_) s

end Sys2Proof.Machine
end

