-- ==== Sys2Proof/Machine/Dispatch.lean ====
section
/-! DEFINITION. One arm per command: a direct call of its meaning. -/

namespace Sys2Proof.Machine

def exec (i : Instr) (s : State) : Host.Outcome State Fault Refusal :=
  match i with
  | .powerOn => Sys2Proof.Machine.execPowerOn s
  | .brownOut rail micros => Sys2Proof.Machine.execBrownOut rail micros s
  | .porstAssert nanos => Sys2Proof.Machine.execPorstAssert nanos s
  | .porstRelease straps rewritten => Sys2Proof.Machine.execPorstRelease straps rewritten s
  | .sfdpReadDone density eraseKib => Sys2Proof.Machine.execSfdpReadDone density eraseKib s
  | .headerReadDone first second => Sys2Proof.Machine.execHeaderReadDone first second s
  | .manifestReadDone bytes => Sys2Proof.Machine.execManifestReadDone bytes s
  | .recordReadDone bytes => Sys2Proof.Machine.execRecordReadDone bytes s
  | .dramTrainingDone passed mib goodBlocks => Sys2Proof.Machine.execDramTrainingDone passed mib goodBlocks s
  | .imageAcceptance keyBlock present found => Sys2Proof.Machine.execImageAcceptance keyBlock present found s
  | .blobSegmentReadDone entry segment bytes corrected uncorrectable => Sys2Proof.Machine.execBlobSegmentReadDone entry segment bytes corrected uncorrectable s
  | .errlogSpacingExpiry => Sys2Proof.Machine.execErrlogSpacingExpiry s
  | .flashWriteDone same => Sys2Proof.Machine.execFlashWriteDone same s
  | .wakeArrival w => Sys2Proof.Machine.execWakeArrival w s
  | .arbiterCycle => Sys2Proof.Machine.execArbiterCycle s
  | .idleHoldExpiry tier => Sys2Proof.Machine.execIdleHoldExpiry tier s
  | .arriveCounterRead tier => Sys2Proof.Machine.execArriveCounterRead tier s
  | .audioSample slot value high => Sys2Proof.Machine.execAudioSample slot value high s
  | .pdmLineStuck line => Sys2Proof.Machine.execPdmLineStuck line s
  | .pdmLineRecover line => Sys2Proof.Machine.execPdmLineRecover line s
  | .tdmFrameSync slots => Sys2Proof.Machine.execTdmFrameSync slots s
  | .tdmLost => Sys2Proof.Machine.execTdmLost s
  | .tdmLock => Sys2Proof.Machine.execTdmLock s
  | .wakeInputEdge input level => Sys2Proof.Machine.execWakeInputEdge input level s
  | .sensorIbi sensor payload => Sys2Proof.Machine.execSensorIbi sensor payload s
  | .perkStep arrival outputs busy latency => Sys2Proof.Machine.execPerkStep arrival outputs busy latency s
  | .perkSramUncorrectable arrival => Sys2Proof.Machine.execPerkSramUncorrectable arrival s
  | .snfIndexRead slot => Sys2Proof.Machine.execSnfIndexRead slot s
  | .csi2FrameStart port vc fn ecc => Sys2Proof.Machine.execCsi2FrameStart port vc fn ecc s
  | .csi2LongPacket port vc dtype bytes crcOk ecc => Sys2Proof.Machine.execCsi2LongPacket port vc dtype bytes crcOk ecc s
  | .csi2FrameEnd port vc ecc => Sys2Proof.Machine.execCsi2FrameEnd port vc ecc s
  | .streamIdle stream => Sys2Proof.Machine.execStreamIdle stream s
  | .pipe0LineDone out => Sys2Proof.Machine.execPipe0LineDone out s
  | .pipe1FrameStart => Sys2Proof.Machine.execPipe1FrameStart s
  | .pipe1FrameDone out => Sys2Proof.Machine.execPipe1FrameDone out s
  | .thumbnailReceived stream fn luma truncated crcErrors corrected => Sys2Proof.Machine.execThumbnailReceived stream fn luma truncated crcErrors corrected s
  | .settingsBlockPost sensor part settingsId entries => Sys2Proof.Machine.execSettingsBlockPost sensor part settingsId entries s
  | .settingsTransferDone sensor ack => Sys2Proof.Machine.execSettingsTransferDone sensor ack s
  | .sensorHotJoin port pid => Sys2Proof.Machine.execSensorHotJoin port pid s
  | .csiFrameRead stream => Sys2Proof.Machine.execCsiFrameRead stream s
  | .requestBind graph => Sys2Proof.Machine.execRequestBind graph s
  | .descriptorInstantiate graph inst => Sys2Proof.Machine.execDescriptorInstantiate graph inst s
  | .descriptorReady d => Sys2Proof.Machine.execDescriptorReady d s
  | .tileDispatch unit latency => Sys2Proof.Machine.execTileDispatch unit latency s
  | .affinityWaitExpiry d => Sys2Proof.Machine.execAffinityWaitExpiry d s
  | .tileAdvanceEnd unit run => Sys2Proof.Machine.execTileAdvanceEnd unit run s
  | .tileCommitEnd unit out => Sys2Proof.Machine.execTileCommitEnd unit out s
  | .tileFault unit detector => Sys2Proof.Machine.execTileFault unit detector s
  | .scaleTagMismatch unit dataBlock kind tag seenKind poisoned => Sys2Proof.Machine.execScaleTagMismatch unit dataBlock kind tag seenKind poisoned s
  | .hardStop cluster => Sys2Proof.Machine.execHardStop cluster s
  | .hardStopRelease cluster => Sys2Proof.Machine.execHardStopRelease cluster s
  | .tilesCounterRead core => Sys2Proof.Machine.execTilesCounterRead core s
  | .watchedCountClear f => Sys2Proof.Machine.execWatchedCountClear f s
  | .queryJoin slot q => Sys2Proof.Machine.execQueryJoin slot q s
  | .batchWaitExpiry slot => Sys2Proof.Machine.execBatchWaitExpiry slot s
  | .sweepStart slot => Sys2Proof.Machine.execSweepStart slot s
  | .clusterMergeDone slot cluster => Sys2Proof.Machine.execClusterMergeDone slot cluster s
  | .deviceMergeDone slot cycles => Sys2Proof.Machine.execDeviceMergeDone slot cycles s
  | .sweepsCounterRead slot => Sys2Proof.Machine.execSweepsCounterRead slot s
  | .resetMark part seq step => Sys2Proof.Machine.execResetMark part seq step s
  | .stateSwapInDone block headerBlock headerChunks uncorrectable waited => Sys2Proof.Machine.execStateSwapInDone block headerBlock headerChunks uncorrectable waited s
  | .stateSwapOutDone block => Sys2Proof.Machine.execStateSwapOutDone block s
  | .stateIdleExpiry block => Sys2Proof.Machine.execStateIdleExpiry block s
  | .chunkCounterRead seq => Sys2Proof.Machine.execChunkCounterRead seq s
  | .pageWalkStart d walker => Sys2Proof.Machine.execPageWalkStart d walker s
  | .pageWalkEnd d poisoned => Sys2Proof.Machine.execPageWalkEnd d poisoned s
  | .allocate d page => Sys2Proof.Machine.execAllocate d page s
  | .fill d => Sys2Proof.Machine.execFill d s
  | .truncate part seq length => Sys2Proof.Machine.execTruncate part seq length s
  | .release part seq => Sys2Proof.Machine.execRelease part seq s
  | .editApply seq waited => Sys2Proof.Machine.execEditApply seq waited s
  | .pageTableDirectWrite master part seq => Sys2Proof.Machine.execPageTableDirectWrite master part seq s
  | .attCounterRead cluster => Sys2Proof.Machine.execAttCounterRead cluster s
  | .transferGranuleDone mover fault roundTrip held => Sys2Proof.Machine.execTransferGranuleDone mover fault roundTrip held s
  | .windowLoadStart window => Sys2Proof.Machine.execWindowLoadStart window s
  | .windowLayerPresent window stall => Sys2Proof.Machine.execWindowLayerPresent window stall s
  | .windowLayerLate window => Sys2Proof.Machine.execWindowLayerLate window s
  | .windowLayerFailed window => Sys2Proof.Machine.execWindowLayerFailed window s
  | .remoteBarrierSignal cell => Sys2Proof.Machine.execRemoteBarrierSignal cell s
  | .scrubPeriod corrected uncorrectable => Sys2Proof.Machine.execScrubPeriod corrected uncorrectable s
  | .movCounterRead mover => Sys2Proof.Machine.execMovCounterRead mover s
  | .windowCounterRead window => Sys2Proof.Machine.execWindowCounterRead window s
  | .ddrCounterRead => Sys2Proof.Machine.execDdrCounterRead s
  | .budgetWindowStart cluster => Sys2Proof.Machine.execBudgetWindowStart cluster s
  | .quotaReached cluster part charge => Sys2Proof.Machine.execQuotaReached cluster part charge s
  | .coreLeaveSchedule core => Sys2Proof.Machine.execCoreLeaveSchedule core s
  | .stepStart graph => Sys2Proof.Machine.execStepStart graph s
  | .accessViolation master part address => Sys2Proof.Machine.execAccessViolation master part address s
  | .prtResetReq f => Sys2Proof.Machine.execPrtResetReq f s
  | .partitionResetCommand issuer target => Sys2Proof.Machine.execPartitionResetCommand issuer target s
  | .partitionResetComplete part => Sys2Proof.Machine.execPartitionResetComplete part s
  | .schedCounterRead => Sys2Proof.Machine.execSchedCounterRead s
  | .checkerParityFail pool instance_ => Sys2Proof.Machine.execCheckerParityFail pool instance_ s
  | .backstopExpiry watch instance_ => Sys2Proof.Machine.execBackstopExpiry watch instance_ s
  | .enec events => Sys2Proof.Machine.execEnec events s
  | .disec events => Sys2Proof.Machine.execDisec events s
  | .rstdaa => Sys2Proof.Machine.execRstdaa s
  | .entdaa address => Sys2Proof.Machine.execEntdaa address s
  | .setdasa staticAddr address => Sys2Proof.Machine.execSetdasa staticAddr address s
  | .getpid => Sys2Proof.Machine.execGetpid s
  | .getbcr => Sys2Proof.Machine.execGetbcr s
  | .getdcr => Sys2Proof.Machine.execGetdcr s
  | .getmxds => Sys2Proof.Machine.execGetmxds s
  | .getstatus => Sys2Proof.Machine.execGetstatus s
  | .rstact action => Sys2Proof.Machine.execRstact action s
  | .unsupportedCcc direct => Sys2Proof.Machine.execUnsupportedCcc direct s
  | .hotJoinTimer => Sys2Proof.Machine.execHotJoinTimer s
  | .ibiSend acked => Sys2Proof.Machine.execIbiSend acked s
  | .ibiSpacingExpiry => Sys2Proof.Machine.execIbiSpacingExpiry s
  | .statusRead f => Sys2Proof.Machine.execStatusRead f s
  | .windowWrite f => Sys2Proof.Machine.execWindowWrite f s
  | .badOpcode opcode f => Sys2Proof.Machine.execBadOpcode opcode f s
  | .responseRead count => Sys2Proof.Machine.execResponseRead count s
  | .attest f => Sys2Proof.Machine.execAttest f s
  | .sessionOpen f => Sys2Proof.Machine.execSessionOpen f s
  | .sessionClose f => Sys2Proof.Machine.execSessionClose f s
  | .eventInjectWake f => Sys2Proof.Machine.execEventInjectWake f s
  | .eventInjectMark f => Sys2Proof.Machine.execEventInjectMark f s
  | .promptSubmit f => Sys2Proof.Machine.execPromptSubmit f s
  | .prerollRead f => Sys2Proof.Machine.execPrerollRead f s
  | .prerollResponseReady => Sys2Proof.Machine.execPrerollResponseReady s
  | .errlogSnapshot f => Sys2Proof.Machine.execErrlogSnapshot f s
  | .selfTestRequest f => Sys2Proof.Machine.execSelfTestRequest f s
  | .lifecycleTransition f => Sys2Proof.Machine.execLifecycleTransition f s
  | .lifecycleProgramDone => Sys2Proof.Machine.execLifecycleProgramDone s
  | .tensorDump f => Sys2Proof.Machine.execTensorDump f s
  | .recordSend port held => Sys2Proof.Machine.execRecordSend port held s
  | .telemetryPeriod => Sys2Proof.Machine.execTelemetryPeriod s
  | .i3tCounterRead => Sys2Proof.Machine.execI3tCounterRead s
  | .kennelReset cause sealOpen => Sys2Proof.Machine.execKennelReset cause sealOpen s
  | .kennelPowerupRecord => Sys2Proof.Machine.execKennelPowerupRecord s
  | .kennelReading gross otpError temperature clock faults => Sys2Proof.Machine.execKennelReading gross otpError temperature clock faults s
  | .kennelZero f => Sys2Proof.Machine.execKennelZero f s
  | .kennelTareTake f => Sys2Proof.Machine.execKennelTareTake f s
  | .kennelTareClear f => Sys2Proof.Machine.execKennelTareClear f s
  | .kennelReadLatest f => Sys2Proof.Machine.execKennelReadLatest f s
  | .kennelReadStable f => Sys2Proof.Machine.execKennelReadStable f s
  | .kennelStatusBlock f => Sys2Proof.Machine.execKennelStatusBlock f s
  | .kennelCertificate f => Sys2Proof.Machine.execKennelCertificate f s
  | .kennelBadRequest f => Sys2Proof.Machine.execKennelBadRequest f s
  | .kennelStableReached => Sys2Proof.Machine.execKennelStableReached s
  | .kennelStableTimeout => Sys2Proof.Machine.execKennelStableTimeout s
  | .kennelAnswerTimeout => Sys2Proof.Machine.execKennelAnswerTimeout s
  | .kennelLateAnswer => Sys2Proof.Machine.execKennelLateAnswer s
  | .mailboxHeadAdvance => Sys2Proof.Machine.execMailboxHeadAdvance s
  | .sealOpen programmed => Sys2Proof.Machine.execSealOpen programmed s
  | .sealClose => Sys2Proof.Machine.execSealClose s
  | .calibrationCommit => Sys2Proof.Machine.execCalibrationCommit s
  | .kenCounterRead => Sys2Proof.Machine.execKenCounterRead s
  | .crystalStop => Sys2Proof.Machine.execCrystalStop s
  | .crystalRestart => Sys2Proof.Machine.execCrystalRestart s
  | .pllLockLost pll => Sys2Proof.Machine.execPllLockLost pll s
  | .bootPointStepUp => Sys2Proof.Machine.execBootPointStepUp s
  | .governorPeriod milliwatts base compute => Sys2Proof.Machine.execGovernorPeriod milliwatts base compute s
  | .governorStepDown => Sys2Proof.Machine.execGovernorStepDown s
  | .governorStepUp => Sys2Proof.Machine.execGovernorStepUp s
  | .operatingPointChangeDone => Sys2Proof.Machine.execOperatingPointChangeDone s
  | .holdLevelExpiry cluster => Sys2Proof.Machine.execHoldLevelExpiry cluster s
  | .thermalCapStep => Sys2Proof.Machine.execThermalCapStep s
  | .thermalCapRecover => Sys2Proof.Machine.execThermalCapRecover s
  | .thermalShutdown => Sys2Proof.Machine.execThermalShutdown s
  | .cooldownBootStart => Sys2Proof.Machine.execCooldownBootStart s
  | .watchdogExpiry => Sys2Proof.Machine.execWatchdogExpiry s
  | .clusterReset cluster cause fifos => Sys2Proof.Machine.execClusterReset cluster cause fifos s
  | .pwrCounterRead => Sys2Proof.Machine.execPwrCounterRead s
  | .injArm f => Sys2Proof.Machine.execInjArm f s
  | .injDisarm f => Sys2Proof.Machine.execInjDisarm f s
  | .errEntryClear f => Sys2Proof.Machine.execErrEntryClear f s
  | .errFirstClear f => Sys2Proof.Machine.execErrFirstClear f s
  | .selfTestPeriod => Sys2Proof.Machine.execSelfTestPeriod s
  | .selfTestDone pass => Sys2Proof.Machine.execSelfTestDone pass s
  | .abortWindowExpiry core => Sys2Proof.Machine.execAbortWindowExpiry core s
  | .bankTestPeriod => Sys2Proof.Machine.execBankTestPeriod s
  | .bankSliceDone uncorrectable corrected => Sys2Proof.Machine.execBankSliceDone uncorrectable corrected s
  | .ageingMeasure readings => Sys2Proof.Machine.execAgeingMeasure readings s
  | .blankToTestTransition linkKey certificate patch => Sys2Proof.Machine.execBlankToTestTransition linkKey certificate patch s
  | .calibrationParameterWrite name value => Sys2Proof.Machine.execCalibrationParameterWrite name value s
  | .commandResponseReady => Sys2Proof.Machine.execCommandResponseReady s
  | .stemCounterRead cluster => Sys2Proof.Machine.execStemCounterRead cluster s

end Sys2Proof.Machine
end

