-- ==== Sys2Proof/Safety.lean ====
section
/-! DEFINITION. The terms that claims use: a command that answers a next state of which something holds, and a settled device. -/

namespace Sys2Proof.Machine

/-- The command answers a next state, and P holds of it. -/
def Gives (i : Instr) (s : State) (P : State → Prop) : Prop := ∃ t, exec i s = .next t ∧ P t

/-- The power domains are as Table 18.1 asks for what the device is doing. -/
def PowerSettled (d : Dev) : Prop := settlePower d = d

/-- Nothing that follows from a command at once is left to do: no violation waits, no boot waits for its ROM step, and the power
domains are as Table 18.1 asks. Every command leaves the device so. -/
def Settled (s : State) : Prop := s.dev.sched.tripped = none ∧ s.dev.boot.romDue = false ∧ PowerSettled s.dev

/-- Every byte of memory reads in t as in s. -/
def SameBytes (s t : State) : Prop := ∀ a, memByte t.dev.mem a = memByte s.dev.mem a

/-- Every byte of memory outside n bytes at an address reads in t as in s. -/
def SameBytesOutside (a n : Nat) (s t : State) : Prop :=
  ∀ b, b < a ∨ a + n ≤ b → memByte t.dev.mem b = memByte s.dev.mem b

/-- Every byte of memory outside the headers of state blocks reads in t as in s: a request that ends leaves the scan tiles of its
instance unrun, and their chunks are counted as applied in the headers (R242, R307). -/
def SameOutsideHeaders (s t : State) : Prop :=
  ∀ a, (∀ k, a < blkAddr s.dev k ∨ blkAddr s.dev k + 64 ≤ a) → memByte t.dev.mem a = memByte s.dev.mem a

/-- The live descriptors as l, but for the note of a pre-emption request (R317). -/
def LiveAs (l : List Desc) (t : State) : Prop :=
  t.dev.sched.live.map (fun z => { z with asked := false }) = l.map (fun z => { z with asked := false })

/-- s with the words of a latched group put under the offset of its latch register. -/
def withLatch (s : State) (off : Nat) (ws : List Word) : State :=
  { s with dev := { s.dev with latches := tabSet s.dev.latches off ws } }

/-- Every tile in progress has noted the throttle level that its cluster applies now, and is otherwise as in s (R421). -/
def LevelsNoted (s t : State) : Prop :=
  ∀ u, tileOf t.dev u = (tileOf s.dev u).map (fun z => { z with
    levels := (min z.levels.1 (clusterLevel t.dev (clusterOf u)), max z.levels.2 (clusterLevel t.dev (clusterOf u))) })

/-- OTP, the Kennel and the waiting commands are in t as in s. -/
def SameOutside (s t : State) : Prop := t.otp = s.otp ∧ t.kennel = s.kennel ∧ t.pending = s.pending

/-- The device right after a reset of every domain but the Kennel (R428): what the attached flash holds and the
spacing of its error-log writes stay, cause is the word of
PWR_RESET_CAUSE, and everything else is as in State.reset. -/
def resetDev (cause : Nat) (d : Dev) : Dev :=
  { State.reset.dev with
    flash := { planA := d.flash.planA, planB := d.flash.planB, logA := d.flash.logA, logB := d.flash.logB, spacing := d.flash.spacing }
    freeCtr := d.freeCtr, power := { State.reset.dev.power with cause := cause } }

/-- A lifecycle state in which the boot ROM goes on to read a header (Table 2.4), with no transition to complete (R381). -/
def Boots (o : Otp) : Prop := lifecycle o ≠ 0 ∧ lifecycle o ≠ 5 ∧ interrupted o = none

/-- A boot attempt has failed with DEV_BOOT_FAIL as given, and the device has halted or begins another attempt (R53, R54). -/
def BootFailed (cause kind entry seg : Nat) (t : State) : Prop :=
  t.dev.boot.failCause = cause ∧ t.dev.boot.failKind = kind ∧ t.dev.boot.failEntry = entry ∧ t.dev.boot.failSeg = seg ∧
    t.dev.boot.accepted = false ∧
    ((t.dev.boot.step = .halted ∧ t.dev.boot.phase = 15) ∨ (t.dev.boot.step = .sfdp ∧ t.dev.boot.phase = 0))

/-- No two admitted requests have one order of admission (R343). -/
def OrdersUnique (d : Dev) : Prop := d.reqs.Pairwise (fun a b => a.order ≠ b.order)

/-- The I3C target port takes a command frame whole: it is awake and addressed, no command is in progress, and length and CRC are
right (R352, R353). -/
def FrameTaken (op : Nat) (f : Frame) (s : State) : Prop :=
  awake s.dev = true ∧ s.dev.host.addr.isSome = true ∧ s.dev.host.cur = none ∧ f.wf = true ∧ f.payload.length = f.len ∧
    f.len ≤ 4096 ∧ f.crc = crc32 (frameBytes op f) ∧ armedOn s.dev 0xA 0 = none

/-- A frame brings a payload p to the handler of its opcode, outside a session or in open session n (R354, R357, R387). -/
def Carries (op : Nat) (f : Frame) (n : Option Nat) (p : Bytes) (s : State) : Prop :=
  FrameTaken op f s ∧ answered s.dev op = true ∧
    match n with
    | none => f.session = 255 ∧ f.payload = p
    | some k => f.session = k ∧ k < 8 ∧ op ≠ 0x11 ∧ (getSession s.dev k).opened = true ∧
        unprotect op f (getSession s.dev k) = some p

/-- What protects the response to a frame of session n. -/
def guardOf (n : Option Nat) (s : State) : Option Guard :=
  n.map (fun k => ⟨k, (getSession s.dev k).counter, rspKey (getSession s.dev k)⟩)

/-- The response to a frame stands in the port's buffer, and the command is over. -/
def Answers (op : Nat) (f : Frame) (n : Option Nat) (status : Nat) (payload : Bytes) (s t : State) : Prop :=
  t.dev.host.resp = some (responseBytes status f.seq op payload (guardOf n s), 0) ∧ t.dev.host.cur = none

/-- The state in which the handler of a frame runs: the frame is counted, the session's counter has advanced, and the supervisor is
powered where the frame needs it (R414). -/
def servedState (op : Nat) (n : Option Nat) (p : Bytes) (s : State) : State :=
  let d := receiveFrame s.dev
  { s with dev := wakeSupervisor op p (match n with
    | none => d
    | some k => modSession k (fun y => { y with counter := y.counter + 1, row := 0 }) d) }

/-- A frame of the partition that hosts the device: open session n belongs to partition 0 (Table 15.7). -/
def HostSession (n : Option Nat) (s : State) : Prop := ∃ k, n = some k ∧ (getSession s.dev k).part = 0

/-- Everything but the Kennel and the device is in t as in s. -/
def SameOtp (s t : State) : Prop := t.otp = s.otp ∧ t.pending = s.pending

/-- The Kennel has placed its next weight record (R404, R405, Table 17.7): reason, request and gross value in their fields, the tare
in force, a signature under the Kennel key, in the mailbox slot of its number. -/
def RecordPlaced (reason rid : Nat) (gross : Int) (k k' : Kennel) : Prop :=
  k'.head = k.next ∧ k'.next = (k.next + 1) % 4294967296 ∧ ∃ body,
    tabGet k'.mailbox (k.next % 16) [] = body ++ Config.ecdsaSign k.signing body ∧ body.length = 88 ∧
    Config.ecdsaVerify (Config.publicKey k.signing) body (Config.ecdsaSign k.signing body) = true ∧
    slice body 6 1 = le 1 reason ∧ slice body 8 4 = le 4 k.next ∧ slice body 32 4 = leInt 4 gross ∧
    slice body 36 4 = leInt 4 (k'.tare.getD 0) ∧ slice body 54 2 = le 2 rid

/-- The Kennel can carry out an operation (R400, R408): it runs, its seal is closed, it is calibrated and its operation slot is
free. -/
def KennelReady (k : Kennel) : Prop := k.running = true ∧ k.sealOpen = false ∧ k.calib.isSome = true ∧ k.op = none

/-- The commands that reach the Kennel (R396): its resets, its front end, the service interface behind the seal, the request port of
opcode 0x50, and the answers that leave it. -/
def reachesKennel (i : Instr) : Bool :=
  match i with
  | .kennelReset _ _ | .kennelPowerupRecord | .kennelReading _ _ _ _ _ | .kennelStableReached | .kennelStableTimeout
  | .kennelLateAnswer | .sealOpen _ | .sealClose | .calibrationCommit | .calibrationParameterWrite _ _
  | .blankToTestTransition _ _ _ => true
  | .kennelZero _ | .kennelTareTake _ | .kennelTareClear _ | .kennelReadLatest _ | .kennelReadStable _ | .kennelStatusBlock _
  | .kennelCertificate _ | .kennelBadRequest _ => true
  | _ => false

end Sys2Proof.Machine
end

