-- ==== Sys2Proof/Certificates/Slice0/Obligations.lean ====
section
/-! DEFINITION. The statements for the provers: what the commands of each family do, and what every step keeps. -/

open Sys2Proof Sys2Proof.Machine

/-- A step takes the command at the front of the queue and is that command's effect on the state with the queue's rest; on an empty
queue the block idles (the model's choice, log 1). -/
def Obligations.StepRunsTheFrontCommand : Prop :=
  (∀ (c : Instr) (rest : List Instr) (s : State), step { s with pending := c :: rest } = exec c { s with pending := rest }) ∧
  (∀ s : State, s.pending = [] → step s = .next s)

/-- R428, R83, R406, R407: the state right after reset. Nothing waits and nothing runs; PORST_N is low; every counter, error entry
and memory is empty; the power domains are off but the always-on one; the rollback floor and the Kennel's counters stand at 0, and
record numbers start at 1. That OTP is BLANK there is the model's choice (log 5). -/
def Obligations.ResetLeavesNothingRunning : Prop :=
  let s := State.reset
  Settled s ∧ s.pending = [] ∧ lifecycle s.otp = 0 ∧ s.otp.floor = 0 ∧
    s.dev.boot.step = .held ∧ s.dev.boot.phase = 0 ∧ s.dev.boot.accepted = false ∧ s.dev.boot.attempts = 0 ∧ s.dev.boot.failCause = 0 ∧
    s.dev.mem.wf = true ∧ (∀ a, memByte s.dev.mem a = 0) ∧ (∀ g, s.dev.mem.poison.contains g = false) ∧
    s.dev.reqs = [] ∧ s.dev.sched.live = [] ∧ (∀ u, getUnit s.dev u = {}) ∧ (∀ c, getCluster s.dev c = {}) ∧
    (∀ n, waitingOf (getTier s.dev n) = [] ∧ (getTier s.dev n).arrive = 0 ∧ (getTier s.dev n).admits = 0 ∧
      (getTier s.dev n).coalesce = 0 ∧ (getTier s.dev n).shed = 0) ∧
    (∀ p, (getPart s.dev p).stopped = false ∧ (getPart s.dev p).muzzled = []) ∧
    (∀ a, (getSlot s.dev a).index = 0 ∧ (getSlot s.dev a).active = false) ∧ (∀ n, (getStream s.dev n).state = 0) ∧
    (∀ n, (getSession s.dev n).opened = false) ∧ s.dev.host.addr = none ∧ s.dev.host.cur = none ∧ s.dev.host.resp = none ∧
    (∀ p, (getTx s.dev p).queue = []) ∧ errUsed s.dev.err = [] ∧ s.dev.err.first = none ∧ s.dev.err.armed = none ∧
    s.dev.power.clusters = 0 ∧ s.dev.power.dram = false ∧ s.dev.power.isp = false ∧ s.dev.power.sup = false ∧ s.dev.power.perk = false ∧
    s.dev.power.banks = 0 ∧ s.dev.age.avail = 0 ∧ s.dev.age.retired = 0 ∧
    s.kennel.events = 0 ∧ s.kennel.slots = 0 ∧ s.kennel.next = 1 ∧ s.kennel.head = 0 ∧ s.kennel.running = false

/-- Every command answers a next state, whatever the state: none stops. A command with an operand that no bus, pin or engine can
carry does not occur and changes nothing (the model's choice, log 108; log 59 says which operands those are). -/
def Obligations.WellFormedCommandsComplete : Prop :=
  ∀ (i : Instr) (s : State),
    (∃ t, exec i s = .next t) ∧ (i.wf = false → exec i s = .next s)

/-- Table 18.1, R324, R57: after every step nothing is left that follows from a command at once: no violation waits for its effect,
no boot for its ROM step, and every power domain is as the device's work asks. -/
def Obligations.EveryStepLeavesTheDeviceSettled : Prop :=
  ∀ s t : State, Settled s → step s = .next t → Settled t

/-- The memory, and the SRAM of Perk, keep their canonical form: addresses strictly rising, no listed byte equal to what an unlisted
address reads as. -/
def Obligations.MemoryKeepsItsCanonicalForm : Prop :=
  ∀ s t : State, step s = .next t → (s.dev.mem.wf = true → t.dev.mem.wf = true) ∧ (s.dev.audio.sram.wf = true → t.dev.audio.sram.wf = true)

/-- R81: at each tier the arrivals are the admitted, the coalesced, the shed, the queued and the pending requests, modulo 2³². It
holds after reset, and every step keeps it. -/
def Obligations.ArrivalsAreAccountedFor : Prop :=
  let accounted : State → Prop := fun s => ∀ n, 1 ≤ n → n ≤ 3 →
    let x := getTier s.dev n
    let queued := ((List.range 4).map (fun p => (tabGet x.queues p []).length)).sum
    let pending := x.pending.length
    x.arrive = x.admits + x.coalesce + x.shed + BitVec.ofNat 32 queued + BitVec.ofNat 32 pending
  accounted State.reset ∧ ∀ s t : State, accounted s → step s = .next t → accounted t

/-- R43: the rollback floor. It starts at 0; an image whose security_version is below it is rejected with 0xA4; a boot that reaches
the running phase with advance_floor = 1 raises it to a higher security_version; no step lowers it, and nothing but such a boot
raises it. The lifecycle state never goes back either (R377, R380). -/
def Obligations.TheRollbackFloorNeverFalls : Prop :=
  State.reset.otp.floor = 0 ∧
  (∀ (s : State) (b : Bytes), Boots s.otp → s.dev.sched.tripped = none → s.dev.boot.romDue = false → s.dev.boot.step = .manifest →
    signerHash s.otp = some (Config.sha256 s.dev.img.header.signer) →
    Config.ecdsaVerify s.dev.img.header.signer (s.dev.img.header.raw ++ b) s.dev.img.header.signature = true →
    b.length = s.dev.img.header.manifestLength → s.dev.img.header.securityVersion < s.otp.floor →
    Gives (.manifestReadDone b) s (BootFailed 0xA4 0 noEntry noSeg)) ∧
  (∀ s t : State, Settled s → step s = .next t → s.otp.floor ≤ t.otp.floor ∧
    (s.dev.boot.step ≠ .running → t.dev.boot.step = .running → t.dev.boot.phase = 9 ∧
      (t.dev.boot.policy.advanceFloor = 1 → s.otp.floor < t.dev.img.header.securityVersion →
        t.otp.floor = t.dev.img.header.securityVersion)) ∧
    ((s.dev.boot.step = .running ∨ t.dev.boot.step ≠ .running) → s.dev.err.armed = none → t.otp.floor = s.otp.floor)) ∧
  (∀ s t : State, step s = .next t → lifecycle s.otp ≤ lifecycle t.otp)

/-- R378, R393, R395, R396: what reaches the Kennel. Its own resets, pins, readings and service interface, the request port of
opcode 0x50 and the two ways an answer leaves it change the Kennel, and nothing else does; no command but the maker's transition
changes its key, patch or certificate, none but a commit its calibration, none but an opening of the seal its event counter, which
never falls and stays within 4,095. -/
def Obligations.OnlyItsPathsReachTheKennel : Prop :=
  ∀ (i : Instr) (s t : State), exec i s = .next t →
    (reachesKennel i = false → t.kennel = s.kennel) ∧
    ((∀ a b c, i ≠ .blankToTestTransition a b c) → t.kennel.signing = s.kennel.signing ∧ t.kennel.patch = s.kennel.patch ∧
      t.kennel.cert = s.kennel.cert) ∧
    (i ≠ .calibrationCommit → t.kennel.calib = s.kennel.calib ∧ t.kennel.slots = s.kennel.slots) ∧
    ((∀ b, i ≠ .sealOpen b) → (∀ c b, i ≠ .kennelReset c b) → t.kennel.events = s.kennel.events) ∧
    s.kennel.events ≤ t.kennel.events ∧ (s.kennel.events ≤ 4095 → t.kennel.events ≤ 4095) ∧
    s.kennel.slots ≤ t.kennel.slots ∧ (s.kennel.slots ≤ 64 → t.kennel.slots ≤ 64)

/-- R439 to R441: the error record. A code that has an entry counts up in it, saturating; one that has none takes the lowest free
entry with count 1; one that finds none free is counted in ERR_OVERFLOW; the first code of REQUEST severity or above is captured and
kept. R335: a checker whose own state fails parity is lost, recorded with 0x14, and stops nothing. -/
def Obligations.ErrorsAreRecordedAndParityLosesItsChecker : Prop :=
  (∀ (e : Err) (c : Nat) (part : Option Nat) (detail : Nat × Nat) (addr : Option Nat) (inj : Bool),
    let r := errRecord c part detail addr inj e
    let at_ : Nat → ErrEntry := fun i => tabGet e.entries i {}
    (∀ i, i < 64 → (at_ i).used = true → (at_ i).cause = c → (∀ j, j < i → ¬ ((at_ j).used = true ∧ (at_ j).cause = c)) →
      tabGet r.entries i {} = { at_ i with count := min 65535 ((at_ i).count + 1), injected := (at_ i).injected || inj, part := part } ∧
      (∀ j, j ≠ i → tabGet r.entries j {} = at_ j) ∧ r.overflow = e.overflow ∧ r.overSet = e.overSet) ∧
    ((∀ j, j < 64 → ¬ ((at_ j).used = true ∧ (at_ j).cause = c)) →
      (∀ i, i < 64 → (at_ i).used = false → (∀ j, j < i → (at_ j).used = true) →
        tabGet r.entries i {} = { used := true, injected := inj, cause := c, count := 1, part := part } ∧
        (∀ j, j ≠ i → tabGet r.entries j {} = at_ j) ∧ r.overflow = e.overflow ∧ r.overSet = e.overSet) ∧
      ((∀ j, j < 64 → (at_ j).used = true) → r.entries = e.entries ∧ r.overflow = e.overflow + 1 ∧ r.overSet = true)) ∧
    (∀ f, e.first = some f → r.first = some f) ∧ (severity c = 0 → r.first = e.first) ∧
    (e.first = none → 1 ≤ severity c → r.first = some ⟨inj, c, part, detail, addr⟩)) ∧
  (∀ (s : State) (pool : Fin 7) (n : Nat), Settled s → live s.dev = true →
    exec (.checkerParityFail pool n) s = .next { s with dev := { s.dev with
      sched := { s.dev.sched with lost := if (pool.val, n) ∈ s.dev.sched.lost then s.dev.sched.lost else s.dev.sched.lost ++ [(pool.val, n)] }
      err := errRecord 0x14 none (7, pool.val) none false s.dev.err } })

/-- R83, R111, R137, R206, R248, R275, R303, R328, R369, R410, R433, R158, R226: a read of a latch register latches the other words
of its group and does nothing else. Registers of a cluster's domain need that domain powered (R426). R158, R206, R226, R248, R275,
R303: the latch registers of a powered cluster domain. -/
def Obligations.LatchReadsLatchTheirGroups : Prop :=
  (∀ s : State, Settled s → awake s.dev = true →
     (∀ t : Fin 3, exec (.arriveCounterRead t) s = .next (withLatch s (0xA8004 + t.val * 0x40)
       ((tierWords s.dev (t.val + 1)).take 1 ++ (tierWords s.dev (t.val + 1)).drop 2))) ∧
     (∀ a : Fin 8, exec (.snfIndexRead a) s = .next (withLatch s (0x20100 + a.val * 0x20)
       [w32 ((getSlot s.dev a.val).index / 4294967296 % 65536)])) ∧
     (∀ n : Fin 48, exec (.csiFrameRead n) s = .next (withLatch s (0x41004 + n.val * 0x20) (((streamWords s.dev n.val).drop 2).take 1))) ∧
     exec .schedCounterRead s = .next (withLatch s 0xA000C ([s.dev.sched.cancelled, s.dev.sched.affHit, s.dev.sched.affMiss,
       s.dev.sched.batchSteps, s.dev.sched.batchPad, s.dev.kv.edits, s.dev.kv.direct, s.dev.sched.violations, s.dev.sched.backstop,
       s.dev.sched.placeholders, s.dev.sched.stale, s.dev.sched.orphaned])) ∧
     exec .i3tCounterRead s = .next (withLatch s 0x110004 ([s.dev.host.crcErr, s.dev.host.respLost, s.dev.host.ibiSent,
       s.dev.host.ibiMerged] ++ (List.range 2).flatMap (fun p => [(getTx s.dev p).records, (getTx s.dev p).dropped, (getTx s.dev p).held]))) ∧
     exec .kenCounterRead s = .next (withLatch s 0xD000C [s.dev.host.lost, s.dev.host.kenRequests, s.dev.host.noAnswer]) ∧
     exec .pwrCounterRead s = .next (withLatch s 0x10024 [s.dev.power.stepDown, s.dev.power.stepUp, s.dev.power.throttled,
       s.dev.power.caps, s.dev.power.resync, s.dev.power.clusterResets]) ∧
     exec .ddrCounterRead s = .next (withLatch s 0x90008 [w32 (s.dev.mov.ddr.write / 16), w32 (s.dev.mov.ddr.remote / 16),
       s.dev.mov.ddr.corr, s.dev.mov.ddr.uncorr, w32 (s.dev.mov.ddr.scrub / 16), s.dev.mov.ddr.held])) ∧
  (∀ s : State, Settled s → awake s.dev = true →
     (∀ c : Fin 24, s.dev.power.clusters.getLsbD (c.val / 6) = true → ∀ x : Unit_, x = getUnit s.dev c.val →
       exec (.tilesCounterRead c) s = .next (withLatch s (0x60108 + c.val / 6 * 0x4000 + c.val % 6 * 0x40)
         ([x.adv, x.bubble, x.throttle, x.replays, x.abort, x.discard, x.gated, x.commit,
           x.clipped, x.converted, x.accSat, x.nonfinite, x.tagErr] ++
           (List.range 16).flatMap (fun w => [(tabGet x.watch w {}).sumsq, (tabGet x.watch w {}).count]) ++
           [x.offered, x.kPoisoned, x.kLists, x.passes, x.skipped, x.lbMiss, x.poolTiles, x.zcGranules, x.zcBlocks, x.zcBad,
            x.scTiles, x.scFlags, x.swapIn, x.swapOut, x.scWait, x.scPoisoned]))) ∧
     (∀ n : Fin 4, s.dev.power.clusters.getLsbD n.val = true →
       exec (.stemCounterRead n) s = .next (withLatch s (0x60010 + n.val * 0x4000) [(getUnit s.dev (24 + n.val)).skipped]) ∧
       exec (.attCounterRead n) s = .next (withLatch s (0x63E00 + n.val * 0x4000)
         [(getCluster s.dev n.val).attScatter, (getCluster s.dev n.val).attMasked, (getCluster s.dev n.val).attPoisoned,
          (getCluster s.dev n.val).walks, (getCluster s.dev n.val).hits, (getCluster s.dev n.val).misses,
          (getCluster s.dev n.val).failed]) ∧
       exec (.movCounterRead n) s = .next (withLatch s (0x80004 + n.val * 0x40)
         [w32 ((getMover s.dev n.val).granules / 16), (getMover s.dev n.val).poisoned, (getMover s.dev n.val).corrected])) ∧
     (s.dev.power.clusters.getLsbD 0 = true →
       (∀ j : Fin 8, exec (.sweepsCounterRead j) s = .next (withLatch s (0x63008 + j.val * 0x20)
         [(getCat s.dev j.val).queries, (getCat s.dev j.val).blocked])) ∧
       (∀ q : Fin 64, exec (.chunkCounterRead q) s = .next (withLatch s (0x63A04 + q.val * 0x10)
         [w32 ((getSeq s.dev q.val).chunks / 4294967296 % 65536)]))) ∧
     (∀ w : Fin 4, (∀ r ∈ s.dev.img.windows, r.window = w.val → s.dev.power.clusters.getLsbD r.home = true) →
       exec (.windowCounterRead w) s = .next (withLatch s (0x81004 + w.val * 0x20)
         [(getWin s.dev w.val).stall, (getWin s.dev w.val).late, (getWin s.dev w.val).failed])))

/-- R428, R463, R471: power-on, a brown-out of 2 µs or more and a PORST_N pulse of 10 µs or more reset every domain except the
Kennel, with XSPI_RESET_N low; a shorter brown-out, and a pulse shorter than 1 µs, change nothing. R57, R463, R471, Table 2.17:
PORST_N rising samples the straps, lets XSPI_RESET_N rise and begins a boot at the SFDP table in phase 0; a brown-out while PORST_N
is high begins one too, of a device whose domains have all been reset. R42: in BLANK and SCRAPPED, with no interrupted transition,
boot ends at step 2 with cause code 0xA6 and the device halts. -/
def Obligations.ResetsAndBootStart : Prop :=
  (∀ s : State,
     exec .powerOn s = .next { s with dev := resetDev 1 s.dev } ∧
     (∀ n, 10000 ≤ n → exec (.porstAssert n) s = .next { s with dev := resetDev 2 s.dev }) ∧
     (∀ r n, 2 ≤ n → s.dev.boot.step = .held → exec (.brownOut r n) s = .next { s with dev := resetDev 1 s.dev }) ∧
     (Settled s → (∀ r n, n < 2 → exec (.brownOut r n) s = .next s) ∧ ∀ n, n < 1000 → exec (.porstAssert n) s = .next s)) ∧
  (∀ s : State, Boots s.otp → Settled s →
     (∀ (straps : Fin 4) rw_, s.dev.boot.step = .held → Gives (.porstRelease straps rw_) s fun t =>
       SameOutside s t ∧ t.dev.boot.straps = straps.val ∧ t.dev.boot.step = .sfdp ∧ t.dev.boot.phase = 0 ∧
       t.dev.boot.attempts = min 255 (s.dev.boot.attempts + 1) ∧ t.dev.boot.accepted = false ∧ t.dev.power.sup = true ∧
       t.dev.power.fll = true ∧ t.dev.boot.romDue = false ∧
       t.dev.flash.resetN = true ∧ (rw_ = none → t.dev.flash = { s.dev.flash with resetN := true }) ∧ t.dev.img = s.dev.img ∧ t.dev.mem = s.dev.mem) ∧
     (∀ (straps : Fin 4) rw_, s.dev.boot.step ≠ .held → exec (.porstRelease straps rw_) s = .next s) ∧
     (∀ r n, 2 ≤ n → s.dev.boot.step ≠ .held → Gives (.brownOut r n) s fun t =>
       SameOutside s t ∧ t.dev.boot.step = .sfdp ∧ t.dev.boot.phase = 0 ∧ t.dev.boot.attempts = 1 ∧
       t.dev.boot.straps = s.dev.boot.straps ∧ t.dev.power.cause = 1 ∧ t.dev.img = {} ∧ t.dev.mem = {} ∧ t.dev.reqs = [] ∧
       t.dev.units = {} ∧ t.dev.host.sessions = {})) ∧
  (∀ (s : State) (straps : Fin 4) rw_, (lifecycle s.otp = 0 ∨ lifecycle s.otp = 5) → interrupted s.otp = none →
     s.dev.boot.step = .held → s.dev.sched.tripped = none →
     Gives (.porstRelease straps rw_) s fun t =>
       SameOutside s t ∧ t.dev.boot.step = .halted ∧ t.dev.boot.phase = 15 ∧ t.dev.boot.failCause = 0xA6 ∧
       t.dev.boot.accepted = false)

/-- R35, R37, R61, R478, R42, R43: the first reads of a boot. What passes its checks takes boot one step on; what fails ends the
attempt with its cause code. The header is read again, and the manifest read, by the image's read command in its mode. R45, R49,
R26, R473: records are checked one at a time, in manifest order; the digest chain takes each; DRAM training ends with the check of
dram_min_mib; the DRAM attached holds 4 to 32 GiB. -/
def Obligations.BootReadsAreChecked : Prop :=
  (∀ s : State, Boots s.otp → Settled s →
     (s.dev.boot.step = .sfdp → ∀ e : List (Nat × Nat),
       (∀ n, 0 < n → Gives (.sfdpReadDone (some n) e) s fun t => SameOutside s t ∧ t.dev.boot.density = some n ∧
         t.dev.boot.erase = e ∧ t.dev.boot.step = .header ∧ t.dev.boot.phase = 1 ∧ t.dev.img = s.dev.img ∧ t.dev.mem = s.dev.mem) ∧
       Gives (.sfdpReadDone none e) s (BootFailed 0xA0 0 noEntry noSeg)) ∧
     (s.dev.boot.step = .header → ∀ a b : Bytes, a.length = 256 → b.length = 256 →
       (headerOk a = true → a = b → Gives (.headerReadDone a b) s fun t => SameOutside s t ∧ t.dev.boot.step = .manifest ∧
         t.dev.img.header = parseImgHeader a ∧ t.dev.boot.sent = xspiBytes (parseImgHeader a) (parseImgHeader a).readOp ∧
         t.dev.mem = s.dev.mem) ∧
       (a ≠ b ∨ headerOk a = false → Gives (.headerReadDone a b) s (BootFailed 0xA0 0 noEntry noSeg))) ∧
     (s.dev.boot.step = .manifest → ∀ b : Bytes, b.length = s.dev.img.header.manifestLength →
       let h := s.dev.img.header
       let trusted := signerHash s.otp = some (Config.sha256 h.signer) ∧ Config.ecdsaVerify h.signer (h.raw ++ b) h.signature = true
       (¬ trusted → Gives (.manifestReadDone b) s (BootFailed 0xA0 0 noEntry noSeg)) ∧
       (trusted → h.securityVersion < s.otp.floor → Gives (.manifestReadDone b) s (BootFailed 0xA4 0 noEntry noSeg)) ∧
       (trusted → s.otp.floor ≤ h.securityVersion → manifestOk b = false → Gives (.manifestReadDone b) s (BootFailed 0xA1 0 noEntry noSeg)) ∧
       (trusted → s.otp.floor ≤ h.securityVersion → manifestOk b = true → Gives (.manifestReadDone b) s fun t => SameOutside s t ∧
         t.dev.boot.step = .records ∧ t.dev.boot.phase = 3 ∧ t.dev.boot.digest = Config.sha256 (h.raw ++ b) ∧
         t.dev.img.imageId = u64 b 8 ∧ t.dev.img.chainFinal = slice b 16 32 ∧ t.dev.img.recs.length = u16 b 2 ∧
         t.dev.img.blobs.length = u16 b 4 ∧ t.dev.mem = s.dev.mem))) ∧
  (∀ s : State, Boots s.otp → Settled s →
     (s.dev.boot.step = .records → ∀ b : Bytes,
       let i := s.dev.boot.nextRec
       let e := s.dev.img.recs.getD i {}
       let c : RecCtx := { nand := s.dev.img.header.nandDevices, density := s.dev.boot.density.getD 0, erase := s.dev.boot.erase.map (fun e => e.1), life := lifecycle s.otp }
       (∀ cause, recordCause c s.dev.img i b = some cause → Gives (.recordReadDone b) s (BootFailed cause 0 i noSeg)) ∧
       (recordCause c s.dev.img i b = none → i + 1 < s.dev.img.recs.length → Gives (.recordReadDone b) s fun t => SameOutside s t ∧
         t.dev.boot.step = .records ∧ t.dev.boot.nextRec = i + 1 ∧ t.dev.boot.chain = Config.sha256 (s.dev.boot.chain ++ e.digest) ∧
         t.dev.boot.accepted = s.dev.boot.accepted ∧ t.dev.mem = s.dev.mem)) ∧
     (s.dev.boot.step = .training → ∀ (mib : Nat) (good : List (List Bool)),
       Gives (.dramTrainingDone false mib good) s (BootFailed 0xA5 0 noEntry noSeg) ∧
       (4096 ≤ mib → mib ≤ 32768 → mib < s.dev.img.dramMin → Gives (.dramTrainingDone true mib good) s (BootFailed 0xA2 0 (firstIdx s.dev.img 0x0102) noSeg)) ∧
       (4096 ≤ mib → mib ≤ 32768 → s.dev.img.dramMin ≤ mib → Gives (.dramTrainingDone true mib good) s fun t => SameOutside s t ∧ t.dev.boot.step = .acceptance ∧
         t.dev.boot.trained = true ∧ t.dev.boot.mib = mib ∧ t.dev.boot.goodBlocks = good.map goodOf ∧ t.dev.power.dram = true ∧
         t.dev.img = s.dev.img ∧ t.dev.mem = s.dev.mem)))

/-- R50, R52, R479: the cross-record checks decide. An image that passes them, in a state where no unlock is asked and no key block
is needed, is accepted and its blobs are loaded from then on; an image that fails them ends the attempt with 0xA1 and the entry
named. -/
def Obligations.AcceptanceDecidesTheImage : Prop :=
  ∀ (s : State) (kb : Bytes) (present : List Nat) (found : List (Fin 2 × Nat)),
    Boots s.otp → s.dev.sched.tripped = none → s.dev.boot.romDue = false → s.dev.boot.step = .acceptance →
    (∀ x ∈ found, x.2 < 2 ^ 48) →
    (∀ i, crossCheck (s.dev.boot.density.getD 0) s.dev.img = some i → Gives (.imageAcceptance kb present found) s
      (BootFailed 0xA1 (if i < 0x8000 then 0 else 1) (if i < 0x8000 then i else i - 0x8000) noSeg)) ∧
    (crossCheck (s.dev.boot.density.getD 0) s.dev.img = none → lifecycle s.otp ≠ 4 → encrypted s.dev.img = false →
      s.dev.boot.point = false → s.dev.boot.blobs = {} → (∃ b ∈ s.dev.img.blobs, atPoint s.dev.img b = true) →
      Gives (.imageAcceptance kb present found) s fun t => SameOutside s t ∧ t.dev.boot.accepted = true ∧ t.dev.boot.sniff = true ∧
        t.dev.boot.step = .loading ∧ t.dev.boot.phase = 6 ∧ t.dev.boot.point = false ∧ t.dev.img = s.dev.img ∧
        t.dev.boot.unlocked = false)

/-- R36, R38, R44, R51: a segment table is used only once its digest has matched the blob entry, and a segment only once its digest
has matched the table; a segment that fails withdraws the image with 0xA1. A read of SPI-NAND touches the pages at which the good
blocks place the blob, and counts the bits that the code corrects in the reads made of each page; a read of xSPI sends the image's
read command. R37, R64, R65, R67: a write of a device-written copy ends with its read-back, a read in the image's mode; a write that
fell due in the spacing goes out when the spacing has passed. No memory of the device changes. -/
def Obligations.BlobsAreCheckedAndCopiesWritten : Prop :=
  (∀ (s : State) (k : Nat) (b : Bytes) (first : List (List Nat)) (again : List (List (List Nat))),
     Boots s.otp → Settled s →
     (s.dev.boot.step = .acceptance ∨ s.dev.boot.step = .loading) → k < s.dev.img.blobs.length →
     let e := s.dev.img.blobs.getD k {}
     let x := tabGet s.dev.boot.blobs k {}
     x.done = false → (e.medium = 1 → e.offset + blobExtent e ≤ nandCapacity s.dev) →
     let read (t : State) (p n : Nat) : Prop :=
       if e.medium = 1 then t.dev.boot.nandPages = nandPagesOf s.dev p n ∧
         t.dev.boot.corrected = satAdd 4294967295 s.dev.boot.corrected
           (((List.range (nandPagesOf s.dev p n).length).map (fun i => pageCorrected (chunksOf (s.dev.img.nand.getD {})) (first.getD i []) (again.getD i []))).sum)
       else t.dev.boot.sent = xspiBytes s.dev.img.header s.dev.img.header.readOp
     (x.table = none → b.length = 32 * segmentsOf e → Config.sha256 b = e.digest →
       Gives (.blobSegmentReadDone k none b first again) s fun t => SameOutside s t ∧ read t e.offset b.length ∧
         tabGet t.dev.boot.blobs k {} = { x with table := some b } ∧ t.dev.boot.step = s.dev.boot.step ∧
         t.dev.mem = s.dev.mem ∧ t.dev.img = s.dev.img) ∧
     (x.table = none → (b.length ≠ 32 * segmentsOf e ∨ Config.sha256 b ≠ e.digest) →
       Gives (.blobSegmentReadDone k none b first again) s (BootFailed 0xA1 1 k noSeg)) ∧
     (∀ tb, x.table = some tb → b.length = min 1048576 (e.length - x.next * 1048576) → Config.sha256 b = slice tb (32 * x.next) 32 →
       x.next + 1 < segmentsOf e →
       Gives (.blobSegmentReadDone k (some x.next) b first again) s fun t => SameOutside s t ∧
         read t (e.offset + ceilDiv (32 * segmentsOf e) 4096 * 4096 + x.next * 1048576) b.length ∧
         tabGet t.dev.boot.blobs k {} = { x with next := x.next + 1, stored := x.stored ++ b, done := false } ∧
         t.dev.boot.step = s.dev.boot.step ∧ t.dev.mem = s.dev.mem ∧ t.dev.img = s.dev.img) ∧
     (∀ tb, x.table = some tb → Config.sha256 b ≠ slice tb (32 * x.next) 32 →
       Gives (.blobSegmentReadDone k (some x.next) b first again) s (BootFailed 0xA1 1 k x.next))) ∧
  (∀ s : State, Settled s →
     let readBack : Boot := { s.dev.boot with sent := xspiBytes s.dev.img.header s.dev.img.header.readOp }
     (∀ log isA c, s.dev.flash.writing = some (log, isA, c) → s.dev.flash.planDue = none → s.dev.flash.logDue = none →
       exec (.flashWriteDone true) s =
         .next { s with dev := { s.dev with boot := readBack, flash := { putCopy log isA c s.dev.flash with writing := none } } } ∧
       exec (.flashWriteDone false) s = .next { s with dev := { s.dev with
         boot := readBack
         flash := { s.dev.flash with writing := none }
         err := errRecord 0xA7 none (0, 0) none false s.dev.err } }) ∧
     (s.dev.flash.spacing = true → s.dev.flash.logDue = none →
       exec .errlogSpacingExpiry s = .next { s with dev := { s.dev with flash := { s.dev.flash with spacing := false } } }) ∧
     (∀ r, s.dev.flash.spacing = true → s.dev.flash.logDue = some r → s.dev.flash.writing = none →
       Gives .errlogSpacingExpiry s fun t => SameOutside s t ∧ t.dev.flash.spacing = true ∧ t.dev.flash.logDue = none ∧
         (∃ isA c, t.dev.flash.writing = some (true, isA, c) ∧ c.kind = 2 ∧ c.payload = snapshotBytes r { s.dev with flash := { s.dev.flash with spacing := false } } ∧
           c.len = c.payload.length ∧ c.crc = (crc32 c.payload).toNat) ∧
         t.dev.flash.planA = s.dev.flash.planA ∧ t.dev.flash.planB = s.dev.flash.planB ∧
         t.dev.mem = s.dev.mem ∧ t.dev.err = s.dev.err))

/-- R72: the route of a key is the exact entry, failing that the entry of any class, failing both none. R68, R72: a request from a
source that may not wake its target does not occur; one whose key has neither an exact route nor one of any class is discarded,
counted in SCH_WAKE_Tn_UNROUTED and recorded with 0x56; nothing else of the machine changes. R68, R69, R73, R74, R76, R86, R342: an
arrival at a tier whose arbiter has nothing else to do. An onset below the highest of its device lane is shed and counted as stale;
a request with a free floor credit of its partition is admitted at once; a video request that cannot be admitted fills its empty
pending slot. A source without a confidence of its own carries score 65,535 (R69), and an admitted request has its wake descriptor
(R86). -/
def Obligations.WakesAreRoutedAndAdmitted : Prop :=
  (∀ (img : Image) (target stream cls : Nat),
     (∀ r, routeOf img target stream cls = some r → r ∈ img.routes ∧ r.target = target ∧ r.stream = stream ∧
       (r.cls = cls ∨ (r.cls = 255 ∧ ∀ x ∈ img.routes, ¬ (x.target = target ∧ x.stream = stream ∧ x.cls = cls)))) ∧
     (routeOf img target stream cls = none → ∀ x ∈ img.routes, ¬ (x.target = target ∧ x.stream = stream ∧ (x.cls = cls ∨ x.cls = 255)))) ∧
  (∀ (s : State) (w : Wake), Settled s → live s.dev = true → w.wf = true →
     (mayWake w.source w.target = false → exec (.wakeArrival w) s = .next s) ∧
     (mayWake w.source w.target = true →
       (∀ r ∈ s.dev.img.routes, ¬ (r.target = w.target ∧ r.stream = w.stream ∧ (r.cls = w.cls ∨ r.cls = 255))) →
       exec (.wakeArrival w) s = .next { s with dev := { s.dev with
         tiers := tabMod s.dev.tiers w.target {} (fun x => { x with unrouted := x.unrouted + 1 })
         err := errRecord 0x56 none (0, 0) none false s.dev.err } })) ∧
  (∀ (s : State) (w : Wake) (r : Route), Settled s → live s.dev = true → s.dev.err.armed = none → w.wf = true →
     mayWake w.source w.target = true → routeOf s.dev.img w.target w.stream w.cls = some r → (getPart s.dev r.part).resetting = false →
     (∀ t, 1 ≤ t → t ≤ 3 → (getTier s.dev t).returned = [] ∧ waitingOf (getTier s.dev t) = []) →
     let x := getTier s.dev w.target
     let lane := w.target ≠ 1 ∧ w.source ≠ 3 ∧ w.stream ≠ 255
     let stale := lane ∧ w.onset < tabGet x.highest w.stream 0
     (stale → Gives (.wakeArrival w) s fun t => SameOutside s t ∧
       (getTier t.dev w.target).arrive = x.arrive + 1 ∧ (getTier t.dev w.target).shed = x.shed + 1 ∧
       (getTier t.dev w.target).admits = x.admits ∧ t.dev.sched.stale = s.dev.sched.stale + 1 ∧ t.dev.reqs = s.dev.reqs ∧
       t.dev.mem = s.dev.mem) ∧
     (¬ stale → tierRuns s.dev w.target = true → (getPart s.dev r.part).stopped = false → frozen s.dev 0 w.target = false →
       tabGet x.held r.part 0 < floorOf s.dev.img r.part w.target →
       Gives (.wakeArrival w) s fun t => SameOutside s t ∧
         (getTier t.dev w.target).arrive = x.arrive + 1 ∧ (getTier t.dev w.target).admits = x.admits + 1 ∧
         (getTier t.dev w.target).shed = x.shed ∧ tabGet (getTier t.dev w.target).held r.part 0 = tabGet x.held r.part 0 + 1 ∧
         (getTier t.dev w.target).sharedHeld = x.sharedHeld ∧ t.dev.nextOrder = s.dev.nextOrder + 1 ∧
         ∃ q, t.dev.reqs = s.dev.reqs ++ [q] ∧ q.tier = w.target ∧ q.order = s.dev.nextOrder ∧ q.q.w = scored w ∧ q.q.part = r.part ∧
           q.q.graph = r.graph ∧ q.q.arrival = x.next ∧ q.ended = none ∧
           slice q.descriptor 0 16 = wakeBytes s.dev.img q.q) ∧
     (¬ stale → (getPart s.dev r.part).stopped = true → videoFlag s.dev.img w = true →
       Gives (.wakeArrival w) s fun t => SameOutside s t ∧
         (getTier t.dev w.target).arrive = x.arrive + 1 ∧ (getTier t.dev w.target).admits = x.admits ∧
         (getTier t.dev w.target).shed = x.shed ∧ t.dev.reqs = s.dev.reqs ∧ t.dev.mem = s.dev.mem ∧
         ∃ q, (getTier t.dev w.target).pending = [q] ∧ q.w = scored w ∧ q.part = r.part ∧ q.arrival = x.next))

/-- R76, R73: an arbiter cycle takes in every returned credit, each into the floor or shared remainder that it came from, and leaves
no waiting request of a partition whose reset is in progress. R88: idle_hold cycles of an idle tier are noted; the cluster domains
and with them the DRAM power down only once T2 and T3 have both been idle for their hold. -/
def Obligations.ArbiterCyclesAndIdleTiers : Prop :=
  (∀ s : State, Settled s → live s.dev = true → s.dev.err.armed = none →
     (Gives .arbiterCycle s fun t => SameOutside s t ∧ ∀ n, 1 ≤ n → n ≤ 3 →
       (getTier t.dev n).returned = [] ∧ (getTier t.dev n).arrive = (getTier s.dev n).arrive ∧
       ∀ q ∈ waitingOf (getTier t.dev n), (getPart t.dev q.part).resetting = false) ∧
     ((∀ n, 1 ≤ n → n ≤ 3 → waitingOf (getTier s.dev n) = []) → Gives .arbiterCycle s fun t => t.dev.reqs = s.dev.reqs ∧
       t.dev.mem = s.dev.mem ∧ ∀ n, 1 ≤ n → n ≤ 3 → (getTier t.dev n).admits = (getTier s.dev n).admits ∧
         (getTier t.dev n).shed = (getTier s.dev n).shed ∧
         (getTier t.dev n).sharedHeld = (getTier s.dev n).sharedHeld - ((getTier s.dev n).returned.filter (fun c => c.2)).length ∧
         ∀ p, tabGet (getTier t.dev n).held p 0 =
           tabGet (getTier s.dev n).held p 0 - ((getTier s.dev n).returned.filter (fun c => !c.2 && c.1 == p)).length)) ∧
  (∀ (s : State) (n : Fin 3), Settled s → live s.dev = true → s.dev.err.armed = none → tierIdle s.dev (n.val + 1) = true →
     (n.val = 0 → Gives (.idleHoldExpiry n) s fun t => SameOutside s t ∧ (getTier t.dev 1).idle = true ∧
       t.dev.reqs = s.dev.reqs ∧ ((getTier s.dev 2).idle = false → t.dev.power.clusters = s.dev.power.clusters ∧ t.dev.mem = s.dev.mem)) ∧
     (1 ≤ n.val → s.dev.boot.step = .running → tierIdle s.dev 2 = true → tierIdle s.dev 3 = true →
       (getTier s.dev (if n.val = 1 then 3 else 2)).idle = true → s.dev.power.clusters ≠ 0 →
       Gives (.idleHoldExpiry n) s fun t => SameOutside s t ∧ t.dev.power.clusters = 0 ∧ t.dev.power.dram = false ∧
         t.dev.power.banks = 0 ∧ t.dev.reqs = s.dev.reqs ∧ ∀ u, (getUnit t.dev u).tile = none) ∧
     (1 ≤ n.val → (getTier s.dev (if n.val = 1 then 3 else 2)).idle = false →
       Gives (.idleHoldExpiry n) s fun t => SameOutside s t ∧ (getTier t.dev (n.val + 1)).idle = true ∧
         t.dev.power.clusters = s.dev.power.clusters ∧ t.dev.mem = s.dev.mem))

/-- R97, R98, R101, R105, R111, Table 4.2: a sample of an active slot takes the next index and its place in the pre-roll region,
under the stream's gain rounded to nearest even and saturated, and so do the three 48 kHz outputs where they run; in place of a
failed source every output is 0 and counted in FILLED. A locked TDM stream makes one sample of every three frames, so that none is
due before the third. R94, R101: the sources of audio samples. A line that sticks is recorded once; sixteen good frames in a row
lock the TDM input, which keeps each slot's 24 most significant bits, and a TDM stream has one frame more towards its next sample; a
loss is recorded where the input had been locked. Nothing but the audio state and, with a failure, the error record changes. R70,
R134, Table 3.11: a GPIO level is taken; an input that the image names counts an event when it becomes active, and an in-band
interrupt of a joined sensor that may raise one counts an event of its input. The event's request reaches the T1 arbiter. -/
def Obligations.AudioAndWakeInputs : Prop :=
  (∀ (s : State) (a : Fin 8) (v : Int) (h : List Int), Settled s → s.dev.err.armed = none → (getSlot s.dev a.val).active = true →
     let x := getSlot s.dev a.val
     let u := low16 s.dev x v
     let y := outSample 16 x.cfg.gain u
     (x.cfg.kind = 0 → u = v) ∧
     (x.cfg.gain = 0 → y = (clampInt (-32768) 32767 (roundHalfEven u 65536),
       decide (roundHalfEven u 65536 < -32768 ∨ 32767 < roundHalfEven u 65536))) ∧
     (sampleDue s.dev x = false → x.cfg.kind ≠ 0 ∧ x.frames ≠ 3 ∧ exec (.audioSample a v h) s = .next s) ∧
     (sampleDue s.dev x = true → replaced s.dev x = false → Gives (.audioSample a v h) s fun t => SameOutside s t ∧
       (getSlot t.dev a.val).index = x.index + 1 ∧ tabGet (getSlot t.dev a.val).preroll (x.index % 32768) 0 = y.1 ∧
       (getSlot t.dev a.val).filled = x.filled ∧
       (getSlot t.dev a.val).saturated = x.saturated + (if y.2 = true then 1 else 0) ∧
       (bit x.cfg.flags 0 = true → (getSlot t.dev a.val).index48 = x.index48 + 3 ∧
         (getSlot t.dev a.val).last48 = (List.range 3).map (fun i => (outSample 24 x.cfg.gain ((high48 s.dev x h).getD i 0)).1)) ∧
       (∀ j, j < 32768 → j ≠ x.index % 32768 → tabGet (getSlot t.dev a.val).preroll j 0 = tabGet x.preroll j 0) ∧
       t.dev.img = s.dev.img ∧ t.dev.kv = s.dev.kv ∧ ∀ b, b ≠ a.val → getSlot t.dev b = getSlot s.dev b) ∧
     (replaced s.dev x = true → Gives (.audioSample a v h) s fun t => SameOutside s t ∧
       (getSlot t.dev a.val).index = x.index + 1 ∧ tabGet (getSlot t.dev a.val).preroll (x.index % 32768) 0 = 0 ∧
       (getSlot t.dev a.val).filled = x.filled + (if bit x.cfg.flags 0 = true then 4 else 1) ∧
       (getSlot t.dev a.val).saturated = x.saturated)) ∧
  (∀ s : State, Settled s →
     (∀ l : Fin 8, bit s.dev.audio.input.pdmLines l.val = true → s.dev.audio.stuck.getLsbD l.val = false →
       exec (.pdmLineStuck l) s = .next { s with dev := { s.dev with
         audio := { s.dev.audio with stuck := s.dev.audio.stuck ||| BitVec.ofNat 8 (2 ^ l.val) }
         err := errRecord 0x58 none (0, 0) none false s.dev.err } }) ∧
     (∀ l : Fin 8, exec (.pdmLineRecover l) s = .next { s with dev := { s.dev with
         audio := { s.dev.audio with stuck := s.dev.audio.stuck &&& ~~~ BitVec.ofNat 8 (2 ^ l.val) } } }) ∧
     exec .tdmLost s = .next { s with dev := { s.dev with
       audio := { s.dev.audio with tdmLocked := false, tdmGood := 0 }
       err := if s.dev.audio.tdmLocked = true then errRecord 0x59 none (0, 0) none false s.dev.err else s.dev.err } } ∧
     (s.dev.audio.input.tdmEnable = 1 → exec .tdmLock s = .next { s with dev := { s.dev with
       audio := { s.dev.audio with tdmLocked := true, tdmGood := 16 } } }) ∧
     (∀ l : List Int, s.dev.audio.input.tdmEnable = 1 → (∀ v ∈ l, -2147483648 ≤ v ∧ v < 2147483648) →
       exec (.tdmFrameSync l) s = .next { s with dev := { s.dev with audio := { s.dev.audio with
         slots := tabMap s.dev.audio.slots (fun _ x => if x.cfg.kind = 0 then x else { x with frames := min 3 (x.frames + 1) })
         tdm := ((l.take s.dev.audio.input.tdmSlots).map (fun v => v * 16777216 / 2 ^ s.dev.audio.input.slotBits) :: s.dev.audio.tdm).take 50
         tdmGood := min 16 (s.dev.audio.tdmGood + 1)
         tdmLocked := s.dev.audio.tdmLocked || decide (15 ≤ s.dev.audio.tdmGood) } } })) ∧
  (∀ s : State, Settled s → s.dev.err.armed = none →
     (∀ (i : Fin 16) (b : Bool), (∀ r ∈ s.dev.img.wakeInputs, r.input ≠ i.val) →
       exec (.wakeInputEdge i b) s = .next { s with dev := { s.dev with audio := { s.dev.audio with
         gpio := if b then s.dev.audio.gpio ||| BitVec.ofNat 16 (2 ^ i.val) else s.dev.audio.gpio &&& ~~~ BitVec.ofNat 16 (2 ^ i.val) } } }) ∧
     (∀ (i : Fin 16) (b : Bool) r, s.dev.img.wakeInputs.find? (fun x => x.input == i.val) = some r → live s.dev = true →
       s.dev.audio.gpio.getLsbD i.val ≠ b → b = bit r.mode 1 → Gives (.wakeInputEdge i b) s fun t => SameOutside s t ∧
         tabGet t.dev.audio.events i.val 0 = (tabGet s.dev.audio.events i.val 0 + 1) % 2 ^ 48 ∧ t.dev.audio.gpio.getLsbD i.val = b ∧
         ((getTier t.dev 1).arrive = (getTier s.dev 1).arrive + 1 ∨ (getTier t.dev 1).unrouted = (getTier s.dev 1).unrouted + 1)) ∧
     (∀ (n : Fin 32) (p : Bytes) r, p.length ≤ 4 → live s.dev = true → (getSensor s.dev n.val).joined = true →
       (∃ x ∈ s.dev.img.sensors, x.sensor = n.val ∧ bit x.flags 1 = true) →
       s.dev.img.wakeInputs.find? (fun x => x.input == 0x10 + n.val) = some r → Gives (.sensorIbi n p) s fun t => SameOutside s t ∧
         tabGet t.dev.audio.events (0x10 + n.val) 0 = (tabGet s.dev.audio.events (0x10 + n.val) 0 + 1) % 2 ^ 48 ∧
         ((getTier t.dev 1).arrive = (getTier s.dev 1).arrive + 1 ∨ (getTier t.dev 1).unrouted = (getTier s.dev 1).unrouted + 1)))

/-- R106 to R108: a step of the Perk instance whose turn it is, in order of arrival number; no other instance steps. Every such step
completes: without a score that wakes the instance has its next turn after the others, or ends and is counted as expired when its
steps are spent; a score that reaches wake_score ends it, counts a wake and sends it to the T2 arbiter; and an injected
uncorrectable error of Perk SRAM ends it with its request, counted in PRK_ERRORS. R108: an uncorrectable error of Perk SRAM ends the
instance and its request, counted in PRK_ERRORS. Where no instance has the arrival number nothing happens. -/
def Obligations.PerkInstancesStepAndEnd : Prop :=
  (∀ (s : State) (p : PerkInst) (r : Req) (outs : List Int) (busy lat : Nat), Settled s → live s.dev = true →
     s.dev.power.perk = true → perkTurn s.dev = some p → perkReq s.dev p = some r → (∀ v ∈ outs, -128 ≤ v ∧ v < 128) →
     outs.length = (perkOf s.dev.img p.graph).outputs → blobBytes s.dev (perkOf s.dev.img p.graph).blob ≠ [] →
     let g := perkOf s.dev.img p.graph
     let i := Instr.perkStep p.arrival outs busy lat
     let others := s.dev.audio.insts.filter (fun x => x.arrival != p.arrival)
     (∀ a, a ≠ p.arrival → exec (.perkStep a outs busy lat) s = .next s) ∧
     (s.dev.err.armed = none → (bestClass outs).1 < g.wakeScore → p.steps + 1 < g.maxSteps → Gives i s fun t => SameOutside s t ∧
       t.dev.audio.busy = addW s.dev.audio.busy busy ∧ t.dev.audio.wakes = s.dev.audio.wakes ∧ t.dev.audio.expired = s.dev.audio.expired ∧
       t.dev.audio.turn = some p.arrival ∧
       ∃ q, t.dev.audio.insts = others ++ [q] ∧ q.arrival = p.arrival ∧ q.steps = p.steps + 1 ∧ q.graph = p.graph) ∧
     (s.dev.err.armed = none → (bestClass outs).1 < g.wakeScore → g.maxSteps ≤ p.steps + 1 → Gives i s fun t => SameOutside s t ∧
       t.dev.audio.busy = addW s.dev.audio.busy busy ∧ t.dev.audio.expired = s.dev.audio.expired + 1 ∧
       t.dev.audio.wakes = s.dev.audio.wakes ∧ t.dev.audio.insts = others ∧ openReq t.dev r.order = false) ∧
     (s.dev.err.armed = none → g.wakeScore ≤ (bestClass outs).1 → Gives i s fun t => SameOutside s t ∧
       t.dev.audio.busy = addW s.dev.audio.busy busy ∧ t.dev.audio.wakes = s.dev.audio.wakes + 1 ∧
       t.dev.audio.expired = s.dev.audio.expired ∧ (∀ x ∈ others, x ∈ t.dev.audio.insts) ∧
       ((getTier t.dev 2).arrive = (getTier s.dev 2).arrive + 1 ∨ (getTier t.dev 2).unrouted = (getTier s.dev 2).unrouted + 1)) ∧
     (∀ m, armedOn s.dev 1 0x20 = some m → m ≠ 0 → OrdersUnique s.dev → Gives i s fun t => SameOutside s t ∧
       t.dev.audio.errors = s.dev.audio.errors + 1 ∧ t.dev.audio.insts = others ∧ openReq t.dev r.order = false ∧
       t.dev.audio.wakes = s.dev.audio.wakes ∧ t.dev.audio.busy = s.dev.audio.busy)) ∧
  (∀ (s : State) (a : Nat), Settled s → live s.dev = true → s.dev.power.perk = true →
     (∀ (p : PerkInst) (r : Req), s.dev.audio.insts.find? (fun x => x.arrival == a) = some p → perkReq s.dev p = some r →
       s.dev.err.armed = none → OrdersUnique s.dev → Gives (.perkSramUncorrectable a) s fun t => SameOutside s t ∧
         t.dev.audio.errors = s.dev.audio.errors + 1 ∧ t.dev.audio.insts = s.dev.audio.insts.filter (fun x => x.arrival != a) ∧
         openReq t.dev r.order = false ∧ t.dev.mem = s.dev.mem ∧ t.dev.kv = s.dev.kv) ∧
     (s.dev.audio.insts.find? (fun x => x.arrival == a) = none → exec (.perkSramUncorrectable a) s = .next s))

/-- R113, R115, R124: a packet header whose ECC fails drops the packet, counted and recorded with 0x50, whatever the packet was; a
corrected one is counted, and the packet is used. A frame start that is used begins a frame, which holds what each pipe-1 stream of
it found of its raw buffers. R123, R124: the two pipes take their lines and frames in order; pipe 1 waits at a frame whose buffer an
incoming frame may reuse, and takes none of a muzzled stream. R113, R119, R120: a thumbnail is numbered and written, less 128 at
each pixel, into the buffer of Perk SRAM whose turn it is; lines whose CRC failed and packets dropped for their headers are counted,
missing lines truncate it. -/
def Obligations.CameraHeadersPipesAndThumbnails : Prop :=
  (∀ (s : State) (p : Fin 4) (v : Fin 16), Settled s → s.dev.err.armed = none → rxOn s.dev p.val v.val = true →
     let dropped : Host.Outcome State Fault Refusal := .next { s with dev := { s.dev with
       cam := { s.dev.cam with ports := tabMod s.dev.cam.ports p.val {} (fun c => { c with eccDrop := c.eccDrop + 1 }) }
       err := errRecord 0x50 none (0, 0) none false s.dev.err } }
     let opened (fn : Nat) : CsiFrame := { fn := fn, claims := (streamsOn s.dev.img p.val v.val).filterMap (claimOf s.dev) }
     (∀ fn, fn < 65536 → csiFrame s.dev p.val v.val = none → exec (.csi2FrameStart p v fn .bad) s = dropped) ∧
     (∀ fn c, fn < 65536 → csiFrame s.dev p.val v.val = some c → exec (.csi2FrameStart p v fn .bad) s = .next { s with dev := { s.dev with
       cam := { s.dev.cam with ports := tabMod s.dev.cam.ports p.val {} (fun c => { c with eccDrop := c.eccDrop + 1 })
                               rx := tabSet s.dev.cam.rx (p.val * 16 + v.val) { c with lost := true } }
       err := errRecord 0x50 none (0, 0) none false s.dev.err } }) ∧
     (∀ dt b c, csiFrame s.dev p.val v.val = some c → c.lost = true → supportedLong dt = true →
       exec (.csi2LongPacket p v dt b true .ok) s = .next s) ∧
     (∀ dt b ok, exec (.csi2LongPacket p v dt b ok .bad) s = dropped) ∧
     exec (.csi2FrameEnd p v .bad) s = dropped ∧
     (∀ fn, fn < 65536 → csiFrame s.dev p.val v.val = none →
       exec (.csi2FrameStart p v fn .corrected) s = .next { s with dev := { s.dev with cam := { s.dev.cam with
         ports := tabMod s.dev.cam.ports p.val {} (fun c => { c with eccCorr := c.eccCorr + 1 })
         rx := tabSet s.dev.cam.rx (p.val * 16 + v.val) (opened fn) } } } ∧
       exec (.csi2FrameStart p v fn .ok) s = .next { s with dev := { s.dev with cam := { s.dev.cam with
         rx := tabSet s.dev.cam.rx (p.val * 16 + v.val) (opened fn) } } })) ∧
  (∀ (s : State) (o : IspFrame), Settled s → live s.dev = true → s.dev.power.isp = true →
     (s.dev.cam.pipe0 = [] → exec (.pipe0LineDone o) s =
       .next { s with dev := { s.dev with cam := { s.dev.cam with places := s.dev.cam.places - 1 } } }) ∧
     (∀ g rest, s.dev.cam.pipe0 = g :: rest → 2 ≤ g.left → exec (.pipe0LineDone o) s =
       .next { s with dev := { s.dev with cam := { s.dev.cam with
         places := s.dev.cam.places - 1, pipe0 := { g with left := g.left - 1 } :: rest } } }) ∧
     (∀ f, s.dev.cam.pipe1 = none → s.dev.cam.queue.find? (fun g => !isMuzzled s.dev (0x40 + g.stream)) = some f →
       (claimed s.dev f = false → exec .pipe1FrameStart s =
         .next { s with dev := { s.dev with cam := { s.dev.cam with pipe1 := some f, queue := s.dev.cam.queue.erase f } } }) ∧
       (claimed s.dev f = true → exec .pipe1FrameStart s = .next s)) ∧
     ((s.dev.cam.pipe1.isSome = true ∨ ∀ g ∈ s.dev.cam.queue, isMuzzled s.dev (0x40 + g.stream) = true) →
       exec .pipe1FrameStart s = .next s)) ∧
  (∀ (s : State) (n : Fin 48) (r : CamRec) (fn : Nat) (lines : List Bytes) (crcOk : List Bool) (dropped corrected : Nat),
     Settled s → s.dev.err.armed = none → live s.dev = true →
     s.dev.power.perk = true → camRec? s.dev.img n.val = some r → r.stream = n.val → r.pipe = 2 → streamFrozen s.dev n.val = false →
     fn < 65536 → s.dev.audio.sram.wf = true → (getSensor s.dev r.sensor).held = none →
     let th := tabGet s.dev.audio.thumbs n.val {}
     let x := getStream s.dev n.val
     let bad := (crcOk.filter (fun k => !k)).length
     let short := lines.length < r.height
     Gives (.thumbnailReceived n fn lines crcOk dropped corrected) s fun t => SameOutside s t ∧
       (getStream t.dev n.val).frame = (numberFrame r fn x).1.frame ∧ (getStream t.dev n.val).state = 1 ∧
       (r.fnMode = 0 → (getStream t.dev n.val).frame = (if x.seen then (x.frame + 1) % 2 ^ 48 else 0)) ∧
       (getStream t.dev n.val).trunc = x.trunc + (if short then 1 else 0) ∧
       (getStream t.dev n.val).dropped = x.dropped + (if th.read.getLsbD (th.received % 2) then 0 else 1) ∧
       (tabGet t.dev.audio.thumbs n.val {}).received = th.received + 1 ∧
       (tabGet t.dev.audio.thumbs n.val {}).read.getLsbD (th.received % 2) = false ∧
       memRead t.dev.audio.sram (r.region + th.received % 2 * thumbSize r) (32 + r.width * r.height) =
         le 8 (getStream t.dev n.val).frame ++ le 1 n.val ++ le 1 ((if short then 1 else 0) + (if bad = 0 then 0 else 2)) ++ zeros 22 ++
           (fit (r.width * r.height) (lines.flatMap (lumaOf r))).map (fun v => v - 128) ∧
       (tabGet t.dev.cam.ports r.port {}).crcErr = addW (tabGet s.dev.cam.ports r.port {}).crcErr bad ∧
       (tabGet t.dev.cam.ports r.port {}).eccDrop = addW (tabGet s.dev.cam.ports r.port {}).eccDrop dropped ∧
       (tabGet t.dev.cam.ports r.port {}).eccCorr = addW (tabGet s.dev.cam.ports r.port {}).eccCorr corrected ∧
       t.dev.mem = s.dev.mem ∧ t.dev.reqs = s.dev.reqs)

/-- R113, R115 to R118, R124: a long packet. An unsupported data type is counted in UNMATCHED; the first packet of a stream's data
type opens and numbers its frame, in a free raw buffer; a line is kept, in the buffer's place for it where the region holds that,
with every granule of it poisoned where its CRC failed and none where it is whole. -/
def Obligations.LongPacketsOpenAndFillFrames : Prop :=
  ∀ (s : State) (p : Fin 4) (v : Fin 16), Settled s → s.dev.err.armed = none → rxOn s.dev p.val v.val = true → s.dev.mem.wf = true →
    (∀ dt b ok, supportedLong dt = false → exec (.csi2LongPacket p v dt b ok .ok) s = .next { s with dev := { s.dev with
      cam := { s.dev.cam with ports := tabMod s.dev.cam.ports p.val {} (fun c => { c with unmatched := c.unmatched + 1 }) }
      err := errRecord 0x5B none (0, 0) none false s.dev.err } }) ∧
    (∀ (dt : Nat) (b : Bytes) (ok : Bool) (c : CsiFrame) (r : CamRec), supportedLong dt = true → dt ≠ 0x12 →
      csiFrame s.dev p.val v.val = some c → c.lost = false → (streamsOn s.dev.img p.val v.val).find? (fun x => x.dt == dt) = some r → r.pipe = 1 →
      let kept (g : RawFrame) (n : Nat) (t : State) : Prop :=
        g.lines.length = n + 1 ∧ (rawLine t.dev r g n).1 = (keptLine r b ok).1 ∧ (keptLine r b ok).1.length = lineBytes r ∧
        (ok = false → (rawLine t.dev r g n).2 = lineGranules (lineBytes r)) ∧
        (ok = true → lineBytes r ≤ b.length → (∀ a, linePlace s.dev r g.buf n = some a → a % 64 = 0) → (rawLine t.dev r g n).2 = []) ∧
        (linePlace s.dev r g.buf n = none → t.dev.mem = s.dev.mem) ∧
        (∀ a, linePlace s.dev r g.buf n = some a → SameBytesOutside a (lineStride r) s t)
      (∀ f, (getStream s.dev r.stream).openFrame = some f → f.dropped = false → f.lines.length < r.height →
        Gives (.csi2LongPacket p v dt b ok .ok) s fun t => SameOutside s t ∧
          (∃ g, (getStream t.dev r.stream).openFrame = some g ∧ kept g f.lines.length t ∧ g.number = f.number ∧ g.buf = f.buf ∧
            g.crcError = (f.crcError || !ok) ∧ g.flawed = (f.flawed || !ok || decide (b.length < lineBytes r)) ∧ g.missing = f.missing) ∧
          (tabGet t.dev.cam.ports p.val {}).crcErr = (tabGet s.dev.cam.ports p.val {}).crcErr + (if ok then 0 else 1) ∧
          t.dev.reqs = s.dev.reqs) ∧
      ((getStream s.dev r.stream).openFrame = none → streamFrozen s.dev r.stream = false →
        c.claims.find? (fun k => k.1 == r.stream) = none → r.stream ∉ c.opened → 0 < r.height → (getSensor s.dev r.sensor).held = none →
        let x := getStream s.dev r.stream
        Gives (.csi2LongPacket p v dt b ok .ok) s fun t => SameOutside s t ∧
          (getStream t.dev r.stream).state = 1 ∧ (getStream t.dev r.stream).frame = (numberFrame r c.fn x).1.frame ∧
          (r.fnMode = 0 → (getStream t.dev r.stream).frame = (if x.seen then (x.frame + 1) % 2 ^ 48 else 0)) ∧
          (getStream t.dev r.stream).joins = (if x.state = 1 then x.joins else min 255 (x.joins + 1)) ∧
          (∃ g, (getStream t.dev r.stream).openFrame = some g ∧ kept g 0 t ∧ g.number = (getStream t.dev r.stream).frame ∧
            g.sensorFn = c.fn ∧ g.joined = (x.state != 1) ∧ g.dropped = false ∧ g.embedded = c.embedded ∧
            g.buf = freeBuffer s.dev.cam r.stream)))

/-- R114, R116: a frame end closes the open frame of a stream of pipe 1. A complete frame waits for pipe 1; missing lines truncate
it, are poisoned whole, counted in TRUNC and recorded with 0x52. A stream without a frame for idle_frames periods becomes idle. -/
def Obligations.FrameEndsCloseAndStreamsGoIdle : Prop :=
  ∀ s : State, Settled s → s.dev.err.armed = none → s.dev.mem.wf = true →
    (∀ (p : Fin 4) (v : Fin 16) (r : CamRec) (f : RawFrame) (c : CsiFrame), rxOn s.dev p.val v.val = true →
      streamsOn s.dev.img p.val v.val = [r] → csiFrame s.dev p.val v.val = some c → c.matched = true → r.pipe = 1 →
      (getStream s.dev r.stream).openFrame = some f → f.dropped = false → f.missing = 0 →
      (getSensor s.dev r.sensor).held = none → (getSensor s.dev r.sensor).waiting = none →
      Gives (.csi2FrameEnd p v .ok) s fun t => SameOutside s t ∧ (getStream t.dev r.stream).openFrame = none ∧
        csiFrame t.dev p.val v.val = none ∧
        (∃ g, t.dev.cam.queue = s.dev.cam.queue ++ [g] ∧ g.stream = f.stream ∧ g.number = f.number ∧ g.buf = f.buf ∧
          g.lines.length = max f.lines.length r.height ∧
          (∀ l, f.lines.length ≤ l → l < r.height → (rawLine t.dev r g l).2 = lineGranules (lineBytes r)) ∧
          g.missing = r.height - f.lines.length ∧ (g.truncated = true ↔ f.lines.length < r.height)) ∧
        (getStream t.dev r.stream).trunc = (getStream s.dev r.stream).trunc + (if f.lines.length < r.height then 1 else 0) ∧
        (r.height ≤ f.lines.length → t.dev.err = s.dev.err ∧ t.dev.mem = s.dev.mem) ∧
        (f.lines.length < r.height → t.dev.err = errRecord 0x52 (streamOwner s.dev.img r.stream) (3, r.stream) none false s.dev.err) ∧
        (∀ b, (∀ l a, f.lines.length ≤ l → l < r.height → linePlace s.dev r f.buf l = some a → b < a ∨ a + lineStride r ≤ b) →
          memByte t.dev.mem b = memByte s.dev.mem b)) ∧
    (∀ (n : Fin 48) r, camRec? s.dev.img n.val = some r → r.stream = n.val → (getStream s.dev n.val).state = 1 →
      (getStream s.dev n.val).openFrame = none → exec (.streamIdle n) s = .next { s with dev := { s.dev with
        cam := { s.dev.cam with streams := tabMod s.dev.cam.streams n.val {} (fun x => { x with state := 2, leaves := min 255 (x.leaves + 1) }) }
        err := errRecord 0x5C (streamOwner s.dev.img n.val) (3, n.val) none false s.dev.err } })

/-- R122, R124 to R127: a frame leaves pipe 1. Its tiles and its 32-byte descriptor are written into the slot of its frame number; a
RAW frame becomes its stream's reference; no byte outside the slot and the reference's place changes, and the pipe's cycles are
counted. A frame that its stream's muzzle dropped in the pipe is not written. The forms with statistics, clip statistics, a wake, a
pass-through frame or poisoned lines write more and are left to the others. -/
def Obligations.Pipe1WritesTheFrameSlot : Prop :=
  ∀ (s : State) (f : IspFrame) (g : RawFrame) (r : CamRec) (o : TensorOut), Settled s → live s.dev = true → s.dev.power.isp = true →
    s.dev.err.armed = none → s.dev.cam.pipe1 = some g → camRec? s.dev.img g.stream = some r → outOf s.dev.img g.stream = some o →
    o.flags = 0 → s.dev.img.clipStats.find? (fun k => k.stream == r.stream) = none → s.dev.mem.wf = true →
    (∀ l ∈ rawFrame s.dev r g, l.2 = []) → f.uncorrectable = [] →
    (g.dropped = true → Gives (.pipe1FrameDone f) s fun t => SameOutside s t ∧ t.dev.cam.pipe1 = none ∧ t.dev.mem = s.dev.mem) ∧
    (g.dropped = false →
    let base := regionBase s.dev.img o.region + g.number % max 1 (slotCount s.dev.img o) * slotBytes o
    Gives (.pipe1FrameDone f) s fun t => SameOutside s t ∧ t.dev.cam.pipe1 = none ∧
      t.dev.cam.busy = addW s.dev.cam.busy (r.width * r.height + 16 * r.height + 2048) ∧
      (∀ i, i < tileBytes o → memByte t.dev.mem (base + i) = (tilesOf o (outPixels r o (outValues s.dev r o g f))).getD i 0) ∧
      memRead t.dev.mem (base + slotBytes o - 64) 32 =
        frameDesc g (blends s.dev r g) (settingsOf s.dev r g.number) 0 0xFFFFFFFF ∧
      (getStream t.dev r.stream).ref = (if isRaw r.dt = true then some g.number else none) ∧
      (∀ b, b < base ∨ base + slotBytes o ≤ b →
        (isRaw r.dt = true → ∀ l a, l < r.height → refPlace s.dev r l = some a → b < a ∨ a + lineStride r ≤ b) →
        memByte t.dev.mem b = memByte s.dev.mem b) ∧ t.dev.reqs = s.dev.reqs)

/-- R130 to R133: sensor control. The owner's settings block waits, in place of one that has not started; each transfer that is
acknowledged is followed by the next, and the last applies the block from M + L, a miss where M is not N, or waits for the frame
that is being received to open; a NACK is followed by hold_off; a target whose provisional ID matches gets its address and, once its
first settings are there, joins; one that matches none gets an address from 0x60 and DISEC. -/
def Obligations.SettingsBlocksAndHotJoins : Prop :=
  ∀ s : State, Settled s →
    (∀ (n : Fin 32) (p : Fin 128) (id : Nat) (es : List (Nat × Nat)) (r : CamRec), live s.dev = true →
      1 ≤ id → id < 2 ^ 32 → 1 ≤ es.length → es.length ≤ 64 →
      (∀ e ∈ es, e.1 < 65536 ∧ e.2 < 256) → sensorStream s.dev.img n.val = some r → streamOwner s.dev.img r.stream = some p.val →
      (∃ x ∈ s.dev.img.sensors, x.sensor = n.val) → Gives (.settingsBlockPost n p id es) s fun t => SameOutside s t ∧
        (getSensor t.dev n.val).waiting = some ⟨id, es⟩ ∧ (getSensor t.dev n.val).cur = (getSensor s.dev n.val).cur ∧
        (getStream t.dev r.stream).setMiss = (getStream s.dev r.stream).setMiss + (if (getSensor s.dev n.val).waiting.isSome then 1 else 0) ∧
        t.dev.mem = s.dev.mem ∧ t.dev.err = s.dev.err) ∧
    (∀ (n : Fin 32) (b : SetBlock) (k m : Nat), (getSensor s.dev n.val).cur = some (b, k, m, false) → k ≤ b.entries.length →
      let x := (getSensor s.dev n.val).cfg
      (Gives (.settingsTransferDone n true) s fun t => SameOutside s t ∧ (getSensor t.dev n.val).cur = some (b, k + 1, m, false) ∧
        t.dev.cam.issued = [if k + 1 ≤ b.entries.length then .write x.port x.dynAddr (b.entries.getD k (0, 0)).1 (b.entries.getD k (0, 0)).2
          else .write x.port x.dynAddr x.holdReg x.holdOff] ∧ t.dev.mem = s.dev.mem) ∧
      (Gives (.settingsTransferDone n false) s fun t => SameOutside s t ∧ (getSensor t.dev n.val).cur = some (b, k, m, true) ∧
        t.dev.cam.issued = [.write x.port x.dynAddr x.holdReg x.holdOff] ∧ t.dev.mem = s.dev.mem)) ∧
    (∀ (n : Fin 32) (b : SetBlock) (m : Nat) (r : CamRec), (getSensor s.dev n.val).cur = some (b, b.entries.length + 1, m, false) →
      sensorStream s.dev.img n.val = some r → r.pipe ≠ 2 →
      let last := (getStream s.dev r.stream).frame
      ((∀ c, csiFrame s.dev r.port r.vc = some c → r.stream ∈ c.opened) →
        Gives (.settingsTransferDone n true) s fun t => SameOutside s t ∧ (getSensor t.dev n.val).cur = none ∧
          (getSensor t.dev n.val).nack = false ∧ (getSensor t.dev n.val).applied = (last + r.latency, b.id) :: (getSensor s.dev n.val).applied ∧
          (getStream t.dev r.stream).setMiss = (getStream s.dev r.stream).setMiss + (if last = m then 0 else 1) ∧
          (last = m → t.dev.mem = s.dev.mem)) ∧
      (∀ c, csiFrame s.dev r.port r.vc = some c → r.stream ∉ c.opened →
        Gives (.settingsTransferDone n true) s fun t => SameOutside s t ∧ (getSensor t.dev n.val).cur = none ∧
          (getSensor t.dev n.val).held = some (b.id, m) ∧ (getSensor t.dev n.val).applied = (getSensor s.dev n.val).applied ∧
          t.dev.mem = s.dev.mem)) ∧
    (∀ (n : Fin 32) (b : SetBlock) (k m : Nat) (ack : Bool), (getSensor s.dev n.val).cur = some (b, k, m, true) →
      Gives (.settingsTransferDone n ack) s fun t => SameOutside s t ∧ (getSensor t.dev n.val).cur = none ∧
        (getSensor t.dev n.val).nack = true ∧ (getSensor t.dev n.val).applied = (getSensor s.dev n.val).applied) ∧
    (∀ (p : Fin 2) (pid : Nat) r, live s.dev = true → pid < 2 ^ 48 → (∃ c ∈ s.dev.img.ctrlPorts, c.port = p.val ∧ bit c.flags 0 = true) →
      s.dev.img.sensors.find? (fun x => x.port == p.val && !bit x.flags 0 && pidMatches x pid) = some r →
      let there := r.initBlob = 0 ∨ blobPlaced s.dev r.initBlob = true
      Gives (.sensorHotJoin p pid) s fun t => SameOutside s t ∧ (getSensor t.dev r.sensor).addressed = true ∧
        (there → (getSensor t.dev r.sensor).joined = true ∧ (getSensor t.dev r.sensor).applied = [] ∧
          t.dev.cam.issued = .entdaa p.val pid r.dynAddr ::
            (entries 4 (blobBytes s.dev r.initBlob)).map (fun e => .write r.port r.dynAddr (u16 e 0) (u8 e 2))) ∧
        (¬ there → (getSensor t.dev r.sensor).joined = (getSensor s.dev r.sensor).joined ∧
          t.dev.cam.issued = [.entdaa p.val pid r.dynAddr]) ∧ t.dev.mem = s.dev.mem ∧ t.dev.err = s.dev.err) ∧
    (∀ (p : Fin 2) (pid : Nat), live s.dev = true → pid < 2 ^ 48 → (∃ c ∈ s.dev.img.ctrlPorts, c.port = p.val ∧ bit c.flags 0 = true) →
      s.dev.img.sensors.find? (fun x => x.port == p.val && !bit x.flags 0 && pidMatches x pid) = none →
      let given := tabGet s.dev.cam.unmatched p.val []
      let a := 0x60 + given.length
      exec (.sensorHotJoin p pid) s = .next { s with dev := { s.dev with
        cam := { s.dev.cam with
          unmatched := if given.length < 16 then tabSet s.dev.cam.unmatched p.val (given ++ [(a, pid)]) else s.dev.cam.unmatched
          issued := if given.length < 16 then [.entdaa p.val pid a, .disec p.val a] else [] }
        err := errRecord 0x5F none (0, 0) none false s.dev.err } })

/-- R304, R305: the earliest waiting request of an ordinary graph binds to its lowest free instance, which notes the counts of its
barrier cells; of a step graph, to the lowest free batch slot. R306, R310, R328: the next descriptor of a bound instance of an
ordinary graph is instantiated into a slot of its pool, from its floor or from the shared part, in graph order. -/
def Obligations.RequestsBindAndInstantiate : Prop :=
  (∀ (s : State) (g : Nat) (r : Req), Settled s → s.dev.err.armed = none → graphRuns s.dev g = true → firstReq (unbound s.dev g) = some r →
     (∀ i, isStep (graphOf s.dev.img g) = false → i < (graphOf s.dev.img g).instances → tabGet? s.dev.sched.insts (64 * g + i) = none →
       (∀ j, j < i → tabGet? s.dev.sched.insts (64 * g + j) ≠ none) → Gives (.requestBind g) s fun t => SameOutside s t ∧
         (getInst t.dev g i).bound = some r.order ∧ (getInst t.dev g i).next = 0 ∧
         (getInst t.dev g i).rank = (r.q.arrival, r.order) ∧ (getInst t.dev g i).prio = r.q.prio ∧
         (getInst t.dev g i).c0 = (List.range (graphOf s.dev.img g).barrierCells).map (fun k => cellCount s.dev (cellNo s.dev.img g i k)) ∧
         t.dev.reqs = s.dev.reqs.map (fun x => if x.order = r.order then { x with inst := some i } else x) ∧
         t.dev.sched.live = s.dev.sched.live ∧ t.dev.sched.cells = s.dev.sched.cells ∧ t.dev.mem = s.dev.mem) ∧
     (∀ k, isStep (graphOf s.dev.img g) = true → k < (graphOf s.dev.img g).batchShape → tabGet? (getStep s.dev g).slots k = none →
       (∀ j, j < k → slotFree s.dev g j = false) → Gives (.requestBind g) s fun t => SameOutside s t ∧
         tabGet? (getStep t.dev g).slots k = some r.order ∧
         t.dev.reqs = s.dev.reqs.map (fun x => if x.order = r.order then { x with slot := some k } else x) ∧
         t.dev.sched.live = s.dev.sched.live ∧ t.dev.sched.insts = s.dev.sched.insts ∧ t.dev.mem = s.dev.mem)) ∧
  (∀ (s : State) (g i : Nat) (sh : Bool), Settled s → s.dev.err.armed = none → graphRuns s.dev g = true →
     isStep (graphOf s.dev.img g) = false → (getInst s.dev g i).bound.isSome = true → (getInst s.dev g i).cancelled = false →
     (getInst s.dev g i).next < (graphOf s.dev.img g).descriptors → s.dev.sched.live.length < 1048576 → slotSource s.dev g i = some sh →
     let x := getInst s.dev g i
     exec (.descriptorInstantiate g i) s = .next { s with dev := { s.dev with sched := { s.dev.sched with
       live := s.dev.sched.live ++ [{ id := ⟨g, i, x.next⟩, bytes := slice (graphBlob s.dev g) (64 * x.next) 64, order := x.bound, shared := sh }]
       liveHigh := max s.dev.sched.liveHigh (s.dev.sched.live.length + 1)
       insts := tabMod s.dev.sched.insts (64 * g + i) {} (fun y => { y with next := y.next + 1 }) } } })

/-- R246, R311, R328: a live descriptor whose conditions hold becomes ready, a scan tile once its inputs are noted as complete and
its block is present; a barrier descriptor is released, signals its cell and retires; a transfer joins its mover's queue. -/
def Obligations.ReadyDescriptorsGoToTheirEngines : Prop :=
  ∀ (s : State) (x : DescId) (y : Desc), Settled s → s.dev.err.armed = none → desc? s.dev x = some y →
    (dKind y.bytes = 3 → waitsMet s.dev x y.bytes = true → let d := noteInputs y.bytes s.dev
      readyBut d y = true → present d (dBlock y.bytes) = true → slotWanted d (dBlock y.bytes) = false →
      Gives (.descriptorReady x) s fun t => SameOutside s t ∧
        LiveAs (s.dev.sched.live.map (fun z => if z.id = x then { z with ready := true } else z)) t ∧
        t.dev.sched.released = s.dev.sched.released ∧ t.dev.seqs = d.seqs ∧ t.dev.mem = s.dev.mem ∧ t.dev.reqs = s.dev.reqs) ∧
    (readyBut s.dev y = true →
    (dKind y.bytes ≠ 3 → dKind y.bytes ≠ 6 → dKind y.bytes ≠ 7 → Gives (.descriptorReady x) s fun t => SameOutside s t ∧
      LiveAs (s.dev.sched.live.map (fun z => if z.id = x then { z with ready := true } else z)) t ∧
      t.dev.sched.released = s.dev.sched.released ∧ t.dev.sched.cells = s.dev.sched.cells ∧ t.dev.mem = s.dev.mem ∧
      t.dev.reqs = s.dev.reqs) ∧
    (dKind y.bytes = 7 → dSignal y.bytes ≠ 0xFFFF → cellNo s.dev.img x.graph x.inst (dSignal y.bytes) / 2048 = dCluster y.bytes →
      Gives (.descriptorReady x) s fun t => SameOutside s t ∧ desc? t.dev x = none ∧
        t.dev.sched.released = s.dev.sched.released + 1 ∧
        cellCount t.dev (cellNo s.dev.img x.graph x.inst (dSignal y.bytes)) =
          cellCount s.dev (cellNo s.dev.img x.graph x.inst (dSignal y.bytes)) + 1 ∧ t.dev.mem = s.dev.mem) ∧
    (∀ v, dKind y.bytes = 6 → xferOf s.dev x y.bytes = some v → Gives (.descriptorReady x) s fun t => SameOutside s t ∧
      (getMover t.dev (dCluster y.bytes)).queue = (getMover s.dev (dCluster y.bytes)).queue ++ [v] ∧
      t.dev.sched.released = s.dev.sched.released + 1 ∧ t.dev.mem = s.dev.mem ∧ t.dev.reqs = s.dev.reqs))

/-- R139, R169, R239, R312, R313, R317, R328: an idle core or stem engine takes the tile that the dispatcher picks for it, among
those whose codebook set stands in a bank of the core; the tile is released, a scan tile pins its block, the weights of an array
tile are staged in the core's weights region; the placement on a core counts as a hit or a miss of its first preference. With no
tile to take, and on a busy unit, nothing starts. affinity_wait of a ready tile passes. -/
def Obligations.IdleUnitsTakeTheirPick : Prop :=
  ∀ s : State, Settled s →
    (∀ (u : Fin 28) (l : Nat), tileOf s.dev u.val ≠ none → exec (.tileDispatch u l) s = .next s) ∧
    (∀ (u : Fin 28) (l : Nat), live s.dev = true → tileOf s.dev u.val = none →
      let d := prepareBank u.val s.dev
      (pickFor d u.val = none → exec (.tileDispatch u l) s = .next { s with dev := d }) ∧
      (∀ y : Desc, pickFor d u.val = some y → s.dev.err.armed = none → s.dev.mem.wf = true →
        Gives (.tileDispatch u l) s fun t => SameOutside s t ∧
          (∃ z, tileOf t.dev u.val = some z ∧ z.d = y.id ∧ z.committing = false ∧ z.replay = false) ∧
          (∃ z, desc? t.dev y.id = some z ∧ z.released = true ∧ z.ready = false) ∧
          t.dev.sched.released = s.dev.sched.released + 1 ∧
          (if 24 ≤ u.val then t.dev.sched.affHit = s.dev.sched.affHit ∧ t.dev.sched.affMiss = s.dev.sched.affMiss
            else if (fixedCore d y).isNone = true ∧ u.val ∈ prefCores d y then
              t.dev.sched.affHit = s.dev.sched.affHit + 1 ∧ t.dev.sched.affMiss = s.dev.sched.affMiss
            else t.dev.sched.affHit = s.dev.sched.affHit ∧ t.dev.sched.affMiss = s.dev.sched.affMiss + 1) ∧
          (dKind y.bytes = 3 → (getBlk t.dev (dBlock y.bytes)).pins = (getBlk s.dev (dBlock y.bytes)).pins + 1) ∧
          (∀ v, v ≠ u.val → tileOf t.dev v = tileOf s.dev v) ∧
          (dKind y.bytes ≠ 0 → t.dev.mem = s.dev.mem) ∧
          (t.dev.mem = s.dev.mem ∨ ∃ e ∈ (getUnit t.dev u.val).cache,
            SameBytesOutside (coreRegion s.dev.img u.val 1 + e.2.2.2) (ceilDiv e.2.2.1 64 * 64) s t))) ∧
    (∀ x : DescId, exec (.affinityWaitExpiry x) s = .next { s with dev := { s.dev with sched := { s.dev.sched with
      live := s.dev.sched.live.map (fun z => if z.id = x then (if z.ready && !z.released then { z with waited := true } else z) else z) } } })

/-- R315, R316: a budget window restarts the charges of its cluster, after its tiles in progress are charged in the window that
ends; a charge that reaches its quota is that of the partition's tiles in progress there, noted, counted in PRT_p_OVERQ and recorded
with 0x42. R320, R321: a step starts with the requests bound and still open; it counts one step and the padding of its empty slots.
-/
def Obligations.BudgetWindowsAndSteps : Prop :=
  (∀ (s : State) (c : Fin 4), Settled s → s.dev.power.clusters.getLsbD c.val = true →
     (live s.dev = true → Gives (.budgetWindowStart c) s fun t => SameOutside s t ∧ (getCluster t.dev c.val).charge = {} ∧
       (getCluster t.dev c.val).window = 0 ∧ (∀ n, n ≠ c.val → getCluster t.dev n = getCluster s.dev n) ∧
       (∀ u, (tileOf t.dev u).map (fun z => { z with charged := 0 }) = (tileOf s.dev u).map (fun z => { z with charged := 0 })) ∧
       ((∀ u ∈ unitsOf c.val, tileOf s.dev u = none) → t.dev.err = s.dev.err ∧ ∀ p, getPart t.dev p = getPart s.dev p) ∧
       LiveAs s.dev.sched.live t ∧ t.dev.mem = s.dev.mem ∧ t.dev.reqs = s.dev.reqs) ∧
     (∀ (p : Fin 128) (q : Nat), unitsRunning s.dev c.val p.val = [] → exec (.quotaReached c p q) s = .next s) ∧
     (∀ (p : Fin 128) (q : Nat), running s.dev p.val = true → unitsRunning s.dev c.val p.val ≠ [] →
       tabGet (getCluster s.dev c.val).charge p.val 0 < quotaOf s.dev.img p.val → quotaOf s.dev.img p.val ≤ q →
       Gives (.quotaReached c p q) s fun t => SameOutside s t ∧ tabGet (getCluster t.dev c.val).charge p.val 0 = q ∧
         (getPart t.dev p.val).overq = (getPart s.dev p.val).overq + 1 ∧
         (getPart t.dev p.val).charged = addW (getPart s.dev p.val).charged (q - tabGet (getCluster s.dev c.val).charge p.val 0) ∧
         t.dev.err = errRecord 0x42 (some p.val) (2, c.val) none false s.dev.err ∧ t.dev.mem = s.dev.mem ∧ t.dev.reqs = s.dev.reqs)) ∧
  (∀ (s : State) (g : Nat), Settled s → graphRuns s.dev g = true → isStep (graphOf s.dev.img g) = true → stepDone s.dev g = true →
     tabGet? s.dev.sched.insts (64 * g + (getStep s.dev g).steps % 2) = none → unbound s.dev g = [] →
     let bound := (getStep s.dev g).slots.cells.filter (fun c => openReq s.dev c.2)
     (bound = [] → exec (.stepStart g) s = .next s) ∧
     (bound ≠ [] → Gives (.stepStart g) s fun t => SameOutside s t ∧ (getStep t.dev g).steps = (getStep s.dev g).steps + 1 ∧
       (getStep t.dev g).slots.cells = bound ∧
       (getInst t.dev g ((getStep s.dev g).steps % 2)).slots = bound ∧
       (getInst t.dev g ((getStep s.dev g).steps % 2)).bound = some (getStep s.dev g).steps ∧
       t.dev.sched.batchSteps = s.dev.sched.batchSteps + 1 ∧
       t.dev.sched.batchPad = addW s.dev.sched.batchPad ((graphOf s.dev.img g).batchShape - bound.length) ∧
       t.dev.sched.live = s.dev.sched.live ∧ t.dev.mem = s.dev.mem))

/-- R339: a watch that makes no progress ends one request of those that wait on it with 0x37, counts it and captures the first: of
those that hold units of its pool, or of all where none does, the one admitted last. A watch on which none waits, or whose pool is
frozen, does nothing. -/
def Obligations.BackstopEndsOneRequest : Prop :=
  ∀ (s : State) (w : Fin 6) (n : Nat), Settled s → live s.dev = true →
    let ws := watchWaiters s.dev w.val n
    let last := if (ws.filter (fun x => x.2)).isEmpty then ws else ws.filter (fun x => x.2)
    (ws = [] ∨ watchFrozen s.dev w.val n = true → exec (.backstopExpiry w n) s = .next s) ∧
    (∀ o, s.dev.err.armed = none → watchFrozen s.dev w.val n = false → o ∈ last.map (fun x => x.1) → (∀ x ∈ last, x.1 ≤ o) →
      s.dev.mem.wf = true → Gives (.backstopExpiry w n) s fun t => SameOutside s t ∧ openReq t.dev o = false ∧
        t.dev.sched.backstop = s.dev.sched.backstop + 1 ∧
        (s.dev.sched.backFirst = none → ∃ p, t.dev.sched.backFirst = some (w.val, p, n)) ∧
        (∀ f, s.dev.sched.backFirst = some f → t.dev.sched.backFirst = some f) ∧ SameOutsideHeaders s t)

/-- R139, R143, R147, R148, R150, R158, R289, R297, R421: the ramp-down of a tile of any kind that may read its inputs and whose
scales match ends and its commit begins: its reads are counted and poison what came back uncorrectable; its working area holds what
its arrays computed, its cells the blocks that its passes left; the advancing cycles of R148, the bubbles of its leashes and of the
governor and the gated operations are counted; no byte outside the accumulators region changes, no other unit does. -/
def Obligations.TilesAdvanceToTheirCommit : Prop :=
  ∀ (s : State) (u : Fin 28) (run : TileRun) (t : Tile) (y : Desc), Settled s → live s.dev = true → s.dev.err.armed = none →
    tileOf s.dev u.val = some t → desc? s.dev t.d = some y → t.committing = false → t.stopped = false → s.dev.mem.wf = true →
    ((dKind y.bytes = 4 ∨ dKind y.bytes = 5) → isMuzzled s.dev (0x28 + clusterOf u.val) = false) →
    readBreach s.dev t.d y.bytes = none →
    let d := tileRead u.val t.d y.bytes t.pages run s.dev
    let cells := cellsOf d u.val t.d y.bytes
    let n := advCounts d u.val t y.bytes run cells
    let a := advanceCycles d u.val t.d y.bytes
    let x := getUnit s.dev u.val
    let w := runTile d u.val y.bytes run cells false t
    (tileBubbles d u.val t y.bytes run.stalls).bad = false → tileMismatch d u.val t.d y.bytes cells t.pages = none →
    Gives (.tileAdvanceEnd u run) s fun e => SameOutside s e ∧
      (∃ z, tileOf e.dev u.val = some z ∧ z.d = t.d ∧ z.committing = true ∧ z.stopped = false ∧ z.acc = w.acc ∧ z.lists = w.lists) ∧
      (getUnit e.dev u.val).adv = addW x.adv a.1 ∧
      (getUnit e.dev u.val).bubble = addW x.bubble (tileBubbles d u.val t y.bytes run.stalls).bubbles ∧
      (getUnit e.dev u.val).throttle = addW x.throttle (throttleBubbles (a.1 + n.bubbles) t.levels run.throttle) ∧
      (getUnit e.dev u.val).gated = addW x.gated ((x.gatedPart + n.gated) / 256) ∧
      (getUnit e.dev u.val).skipped = addW x.skipped a.2.2 ∧
      (getUnit e.dev u.val).blocks = blocksAfter d u.val t.d y.bytes ∧
      (24 ≤ u.val → SameBytes s e) ∧
      (u.val < 24 → SameBytesOutside (coreRegion s.dev.img u.val 2) (4 * w.acc.length) s e ∧
        memRead e.dev.mem (coreRegion s.dev.img u.val 2) (4 * w.acc.length) = w.acc.flatMap (fun k => le 4 k.value.toNat)) ∧
      (∀ v, v ≠ u.val → getUnit e.dev v = getUnit s.dev v) ∧
      e.dev.sched = s.dev.sched ∧ e.dev.reqs = s.dev.reqs

/-- R151, R281, R295: the commit of an array or stem tile with an unscaled, dense destination that its partition may write. Its
elements are written, every byte outside them stays, its barrier is signalled, its descriptor retires and the unit is free. The
forms with a scale stream, zero compression, statistics, records, wakes, an enrolment or a pre-roll read do more and are left to the
others. -/
def Obligations.CommitsWriteTheirDestination : Prop :=
  ∀ (s : State) (u : Fin 28) (cycles waited base : Nat) (t : Tile) (y : Desc), Settled s → live s.dev = true → s.dev.err.armed = none →
    tileOf s.dev u.val = some t → desc? s.dev t.d = some y → t.committing = true → t.stopped = false →
    (dKind y.bytes = 0 ∨ dKind y.bytes = 1) → isSearch s.dev.img y.bytes = false → destAddr s.dev t.d y.bytes = some base →
    zcOf s.dev.img y.bytes = none → scaleKind s.dev.img y.bytes = none →
    (∀ r, rqOf s.dev.img y.bytes = some r → bit r.flags 3 = false) → writeBreach s.dev u.val t.d t.pages y.bytes = none → s.dev.mem.wf = true →
    let vals := (convertAll s.dev t.d y.bytes (outEls s.dev t.d y.bytes t)).1
    let written := padVals s.dev.img (graphBlob s.dev t.d.graph) y.bytes ++ vals
    Gives (.tileCommitEnd u { cycles := cycles, waited := waited }) s fun e => SameOutside s e ∧
      e.dev.mem = writeVals base written s.dev.mem ∧
      (∀ a, (∀ v ∈ written, a < base + v.off / 8 ∨ base + v.off / 8 + (v.off % 8 + v.width + 7) / 8 ≤ a) →
        memByte e.dev.mem a = memByte s.dev.mem a) ∧
      tileOf e.dev u.val = none ∧ desc? e.dev t.d = none ∧
      (getUnit e.dev u.val).tiles = (getUnit s.dev u.val).tiles + 1 ∧
      (getUnit e.dev u.val).commit = addW (getUnit s.dev u.val).commit (commitCycles s.dev t.d y.bytes t.pages) ∧
      (getUnit e.dev u.val).converted = addW (getUnit s.dev u.val).converted (vals.filter (fun v => v.converted)).length ∧
      (getUnit e.dev u.val).clipped = addW (getUnit s.dev u.val).clipped ((vals.filter (fun v => v.converted)).filter (fun v => v.clipped)).length ∧
      (∀ v, v ≠ u.val → tileOf e.dev v = tileOf s.dev v) ∧
      (dSignal y.bytes ≠ 0xFFFF →
        let k := cellNo s.dev.img t.d.graph t.d.inst (dSignal y.bytes)
        (k / 2048 = dCluster y.bytes → cellCount e.dev k = cellCount s.dev k + 1 ∧ e.dev.sched.remote = s.dev.sched.remote) ∧
        (k / 2048 ≠ dCluster y.bytes → cellCount e.dev k = cellCount s.dev k ∧ e.dev.sched.remote = s.dev.sched.remote ++ [k]))

/-- R152, R153, R177, R178: an uncorrectable fault, or a scale block that does not match, aborts the tile: the unit is free, its
descriptor has retired unsignalled, every request it worked for has ended, no byte changes but in the headers of state blocks whose
chunks count as applied. A poisoned scale block is not compared: its granule is poisoned. Nothing happens for a block that the tile
does not consume. -/
def Obligations.FaultsAbortTheTile : Prop :=
  ∀ (s : State) (u : Fin 28) (t : Tile) (y : Desc), Settled s → live s.dev = true → s.dev.err.armed = none →
    tileOf s.dev u.val = some t → desc? s.dev t.d = some y → t.committing = false → t.stopped = false →
    dKind y.bytes ≠ 3 → isSearch s.dev.img y.bytes = false → s.dev.mem.wf = true →
    let ended : State → Prop := fun e => SameOutside s e ∧ tileOf e.dev u.val = none ∧ desc? e.dev t.d = none ∧
      (∀ o ∈ ordersOf s.dev y, openReq e.dev o = false) ∧ e.dev.sched.cells = s.dev.sched.cells ∧ SameOutsideHeaders s e ∧
      (getUnit e.dev u.val).abort = (getUnit s.dev u.val).abort + 1 ∧ (∀ v, v ≠ u.val → tileOf e.dev v = tileOf s.dev v)
    (∀ det, (det = 0x69 ∨ det = 0x6A ∨ det = 0x13) → Gives (.tileFault u det) s fun e => ended e ∧
      (getUnit e.dev u.val).faults = (getUnit s.dev u.val).faults + (if u.val < 24 then 1 else 0)) ∧
    let pair (blk kind : Nat) : Option Nat := pairAt s.dev u.val t.d y.bytes (cellsOf s.dev u.val t.d y.bytes) t.pages kind blk
    (∀ blk kind tag seen, pair blk kind ≠ none → (tag % 256 ≠ blk % 256 ∨ seen % 256 ≠ kind) → Gives (.scaleTagMismatch u blk kind tag seen false) s fun e => ended e ∧
        (getUnit e.dev u.val).tagErr = (getUnit s.dev u.val).tagErr + 1 ∧
        ((getUnit s.dev u.val).tagFirst = none → (getUnit e.dev u.val).tagFirst = some (kind, blk % 256, tag % 256)) ∧
        (∀ f, (getUnit s.dev u.val).tagFirst = some f → (getUnit e.dev u.val).tagFirst = some f)) ∧
    (∀ blk kind tag seen a, pair blk kind = some a → exec (.scaleTagMismatch u blk kind tag seen true) s =
      .next { s with dev := { s.dev with mem := poisonGranules [a / 64] s.dev.mem } }) ∧
    (∀ blk kind tag seen bad, pair blk kind = none → exec (.scaleTagMismatch u blk kind tag seen bad) s = .next s)

/-- R154, R421, R423: a hard stop freezes the tiles of its cluster where they stand; its release lets a commit go on, replays an
advancing tile, and holds the cluster at level 8. No memory and no request changes. What a tile has run so far is counted once, and
left open within its span (log 7). R418 to R420: steps of the operating point. Up, the rail follows the new point at once and the
divider when the change ends; down, the divider first. R420, R421: a period of the governor: the sample joins the mean, the throttle
level moves by R420, PWR_THROTTLED counts, and every tile notes the level that its cluster applies from then on. -/
def Obligations.HardStopsAndOperatingPoints : Prop :=
  (∀ (s : State) (n : Fin 4), Settled s → s.dev.err.armed = none →
     (s.dev.power.clusters.getLsbD n.val = true → (getCluster s.dev n.val).stopped = false →
       (∀ u ∈ unitsOf n.val, ∀ t, tileOf s.dev u = some t → t.replay = false ∨ t.committing = true) →
       Gives (.hardStop n) s fun e => SameOutside s e ∧ (getCluster e.dev n.val).stopped = true ∧
         (getCluster e.dev n.val).hardStops = (getCluster s.dev n.val).hardStops + 1 ∧
         e.dev.power.hardStops = s.dev.power.hardStops + 1 ∧
         (∀ u, (tileOf e.dev u).map (fun t => { t with spent := 0 }) = if u ∈ unitsOf n.val then (tileOf s.dev u).map (fun t =>
           if t.stopped then { t with spent := 0 } else { t with stopped := true, counted := true, halted := true, spent := 0 })
           else (tileOf s.dev u).map (fun t => { t with spent := 0 })) ∧
         e.dev.reqs = s.dev.reqs ∧ e.dev.mem = s.dev.mem) ∧
     ((getCluster s.dev n.val).stopped = true → Gives (.hardStopRelease n) s fun e => SameOutside s e ∧
       (getCluster e.dev n.val).stopped = false ∧ (getCluster e.dev n.val).hold = true ∧
       (∀ u, tileOf e.dev u = if u ∈ unitsOf n.val then (tileOf s.dev u).map (fun t =>
         if t.stopped = false then t
         else if t.committing then { t with stopped := false, counted := false }
         else { t with stopped := false, replay := true, counted := false, levels := (max s.dev.power.level 8, max s.dev.power.level 8) })
         else tileOf s.dev u) ∧
       e.dev.reqs = s.dev.reqs ∧ e.dev.mem = s.dev.mem ∧ e.dev.sched = s.dev.sched) ∧
     (Gives (.holdLevelExpiry n) s fun e => SameOutside s e ∧
       e.dev.clusters = tabMod s.dev.clusters n.val {} (fun c => { c with hold := false }) ∧
       LevelsNoted s e ∧
       e.dev.reqs = s.dev.reqs ∧ e.dev.mem = s.dev.mem ∧ e.dev.sched = s.dev.sched ∧ e.dev.err = s.dev.err)) ∧
  (∀ s : State, Settled s →
     (live s.dev = true → s.dev.power.raising = true → s.dev.power.changing = none → capPoint s.dev < s.dev.power.point →
       exec .bootPointStepUp s = .next { s with dev := { s.dev with power := { s.dev.power with
         changing := some (s.dev.power.point - 1), rail := railOf s.dev.age (s.dev.power.point - 1), stepUp := s.dev.power.stepUp + 1 } } }) ∧
     (awake s.dev = true → 100 ≤ s.dev.power.high → s.dev.power.point < 2 → s.dev.power.changing = none →
       Gives .governorStepDown s fun t => SameOutside s t ∧ LevelsNoted s t ∧ t.dev.power = { s.dev.power with
         level := 0, high := 0, raising := false, point := s.dev.power.point + 1, changing := some (s.dev.power.point + 1)
         stepDown := s.dev.power.stepDown + 1 } ∧ t.dev.mem = s.dev.mem ∧ t.dev.reqs = s.dev.reqs ∧ t.dev.err = s.dev.err) ∧
     (awake s.dev = true → 1000 ≤ s.dev.power.low → capPoint s.dev < s.dev.power.point → s.dev.power.changing = none →
       exec .governorStepUp s = .next { s with dev := { s.dev with power := { s.dev.power with
         low := 0, changing := some (s.dev.power.point - 1), rail := railOf s.dev.age (s.dev.power.point - 1)
         stepUp := s.dev.power.stepUp + 1 } } }) ∧
     (∀ n, s.dev.power.changing = some n → anyStopped s.dev = false →
       exec .operatingPointChangeDone s = .next { s with dev := { s.dev with power := { s.dev.power with
         point := n, rail := railOf s.dev.age n, changing := none
         raising := s.dev.power.raising && decide (capPoint s.dev < n) } } }) ∧
     (∀ n, s.dev.power.changing = some n → anyStopped s.dev = true → exec .operatingPointChangeDone s = .next s)) ∧
  (∀ (s : State) (mw : Nat) (base compute : Int), Settled s → awake s.dev = true → s.dev.err.armed = none →
     Instr.wf (.governorPeriod mw base compute) = true → refRunning s.dev.power = true →
     let l := (mw :: s.dev.power.means).take 100
     let sum := l.foldl (fun a x => a + x) 0
     let p := if s.dev.power.changing = none then decide420 s.dev.img.power.limit (mw + 100) s.dev.power else s.dev.power
     Gives (.governorPeriod mw base compute) s fun t => SameOutside s t ∧ t.dev.power.base = base ∧
       (s.dev.power.clusters ≠ 0 → t.dev.power.compute = compute) ∧ t.dev.power.means = l ∧
       (∃ m, sum / l.length ≤ m ∧ m ≤ sum / l.length + 1 ∧ (sum % l.length = 0 → m = sum / l.length) ∧ t.dev.power.mean = m % 65536) ∧
       t.dev.power.level = p.level ∧ t.dev.power.calm = p.calm ∧ t.dev.power.high = p.high ∧ t.dev.power.low = p.low ∧
       t.dev.power.throttled = (if 0 < p.level then s.dev.power.throttled + 1 else s.dev.power.throttled) ∧
       LevelsNoted s t ∧ t.dev.power.point = s.dev.power.point ∧ t.dev.mem = s.dev.mem ∧ t.dev.reqs = s.dev.reqs ∧ t.dev.err = s.dev.err)

/-- R319, R448 to R451: a core with a test due leaves the schedule at a tile boundary; one that passes comes back; one that fails is
retired for good. A core's fault window ends with its count at 0. R449, R452, R454 to R456: the periodic self-test and bank test
take the next core and the next powered bank; a slice of the bank test poisons what it could not correct; a measurement keeps every
reading of a powered domain and never lowers a guardband. -/
def Obligations.TestsTakeCoresOutAndBack : Prop :=
  (∀ s : State, Settled s →
     (∀ (u : Fin 24) (k : Nat), live s.dev = true → s.dev.age.busy = false → s.dev.age.testing = some (u.val, k) → mayLeave s.dev u.val = true →
       exec (.coreLeaveSchedule u) s = .next { s with dev := { s.dev with
         age := { s.dev.age with busy := true, avail := s.dev.age.avail &&& ~~~ BitVec.ofNat 24 (2 ^ u.val) }
         units := tabMod s.dev.units u.val {} (fun x => { x with cache := [] }) } }) ∧
     (∀ (u : Fin 24) (k : Nat), s.dev.age.busy = true → s.dev.age.testing = some (u.val, k) →
       (muzzledMaster s.dev u.val = false → Gives (.selfTestDone true) s fun e => SameOutside s e ∧ e.dev.age.busy = false ∧
         e.dev.age.avail.getLsbD u.val = true ∧ (∀ v, v ≠ u.val → e.dev.age.avail.getLsbD v = s.dev.age.avail.getLsbD v) ∧
         (getUnit e.dev u.val).faults = 0 ∧ e.dev.age.retired = s.dev.age.retired ∧
         (s.dev.age.tests = [] → e.dev.age.testing = none ∧ e.dev.age.lastTest = (true, k, u.val)) ∧ e.dev.mem = s.dev.mem) ∧
       Gives (.selfTestDone false) s fun e => SameOutside s e ∧ e.dev.age.busy = false ∧ e.dev.age.avail.getLsbD u.val = false ∧
         e.dev.age.retired.getLsbD u.val = true ∧ (∀ v, v ≠ u.val → e.dev.age.retired.getLsbD v = s.dev.age.retired.getLsbD v) ∧
         e.dev.err = errRecord 0x15 none (1, u.val) none false s.dev.err ∧ e.dev.mem = s.dev.mem ∧ e.dev.reqs = s.dev.reqs) ∧
     (∀ u : Fin 24, live s.dev = true → exec (.abortWindowExpiry u) s = .next { s with dev := { s.dev with
       units := tabMod s.dev.units u.val {} (fun x => { x with faults := 0 }) } })) ∧
  (∀ s : State, Settled s →
     (∀ u : Fin 24, live s.dev = true → s.dev.img.rel.selftestLog2 ≠ 0 → s.dev.age.nextCore = u.val → s.dev.age.retired.getLsbD u.val = false →
       ((∀ k, k < 6 → s.dev.age.avail.getLsbD (6 * (u.val / 6) + k) = true) → Gives .selfTestPeriod s fun t => SameOutside s t ∧
         t.dev.age.nextCore = (u.val + 1) % 24 ∧ (t.dev.age.testing = some (u.val, 2) ∨ (u.val, 2) ∈ t.dev.age.tests) ∧
         t.dev.age.avail = s.dev.age.avail ∧ t.dev.mem = s.dev.mem) ∧
       ((∃ k, k < 6 ∧ s.dev.age.avail.getLsbD (6 * (u.val / 6) + k) = false) → exec .selfTestPeriod s = .next { s with dev := { s.dev with
         age := { s.dev.age with nextCore := (u.val + 1) % 24 } } })) ∧
     (∀ b : Fin 48, live s.dev = true → s.dev.img.rel.bankLog2 ≠ 0 → s.dev.age.bank = none → (s.dev.age.lastBank + 1) % 48 = b.val →
       s.dev.power.banks.getLsbD b.val = true →
       exec .bankTestPeriod s = .next { s with dev := { s.dev with age := { s.dev.age with bank := some (b.val, 0) } } }) ∧
     (∀ (b k n : Nat) (bad : List Nat), s.dev.err.armed = none → s.dev.age.bank = some (b, k) → s.dev.power.banks.getLsbD b = true →
       Gives (.bankSliceDone bad n) s fun t => SameOutside s t ∧ t.dev.mem.cells = s.dev.mem.cells ∧
         (∀ g, g ∈ bad → g < 64 → poisonedAt t.dev.mem (bankBase b + 4096 * k + 64 * g) = true) ∧
         (∀ g, poisonedAt s.dev.mem g = true → poisonedAt t.dev.mem g = true) ∧
         (k + 1 < 512 → t.dev.age.bank = some (b, k + 1) ∧ t.dev.age.lastBank = s.dev.age.lastBank) ∧
         (512 ≤ k + 1 → t.dev.age.bank = none ∧ t.dev.age.lastBank = b)) ∧
     (∀ l : List Nat, Instr.wf (.ageingMeasure l) = true → s.dev.err.armed = none → live s.dev = true → s.dev.boot.point = true →
       exhausted (replanGuard s.dev.img.rel (takeReadings l s.dev).age) 2 = false → Gives (.ageingMeasure l) s fun t => SameOutside s t ∧
         t.dev.age.measures = s.dev.age.measures + 1 ∧
         (∀ m, m < 40 → (32 ≤ m ∨ s.dev.power.clusters.getLsbD (m / 8) = true) → t.dev.age.last.getD m 0 = l.getD m 0) ∧
         (∀ p, p < 3 → s.dev.age.guard.getD p 0 ≤ t.dev.age.guard.getD p 0) ∧ s.dev.age.cap ≤ t.dev.age.cap ∧
         t.dev.age.guard = replanGuard s.dev.img.rel (takeReadings l s.dev).age ∧ t.dev.mem = s.dev.mem ∧ t.dev.reqs = s.dev.reqs))

/-- R54, R428, Table 18.9: the supervisor watchdog resets every domain but the Kennel and boots; it keeps what only power-on and
PORST_N clear. It does not end the halted state. A device that cooled down begins its boot. R416, R417: the crystal stops and runs
again; a PLL in use that loses lock is a DEVICE error, which ends in the halted state or in a boot. R424: above the grade maximum
the thermal cap moves one point lower, to point 2 at most, and the point in force follows; 5 °C below it the cap recovers; 15 °C
above it the device shuts down. -/
def Obligations.ClocksTemperatureAndWatchdog : Prop :=
  (∀ s : State, Boots s.otp → Settled s →
     (s.dev.boot.step = .halted → exec .watchdogExpiry s = .next s) ∧
     (awake s.dev = true → s.dev.power.sup = true → s.dev.boot.step ≠ .halted → Gives .watchdogExpiry s fun t => SameOutside s t ∧ t.dev.boot.step = .sfdp ∧
       t.dev.boot.phase = 0 ∧ t.dev.power.cause = 4 ∧ t.dev.boot.straps = s.dev.boot.straps ∧
       t.dev.boot.attempts = min 255 (s.dev.boot.attempts + 1) ∧ t.dev.boot.failCause = s.dev.boot.failCause ∧
       t.dev.boot.failedResets = s.dev.boot.failedResets ∧ t.dev.boot.reached = false ∧ t.dev.boot.accepted = false ∧
       t.dev.img = {} ∧ t.dev.mem = {} ∧ t.dev.reqs = [] ∧ t.dev.units = {} ∧ t.dev.err.entries = {}) ∧
     (s.dev.boot.step = .cooling → s.dev.boot.accepted = false → hottest s.dev < gradeMax s.otp - 15 → Gives .cooldownBootStart s fun t => SameOutside s t ∧
       t.dev.boot.step = .sfdp ∧ t.dev.boot.phase = 0 ∧ t.dev.boot.attempts = min 255 (s.dev.boot.attempts + 1) ∧
       t.dev.boot.accepted = false ∧ t.dev.power.cause = s.dev.power.cause ∧ t.dev.mem = s.dev.mem)) ∧
  (∀ s : State, Settled s → s.dev.err.armed = none →
     (awake s.dev = true → s.dev.power.fll = true → exec .crystalStop s = .next { s with dev := { s.dev with
       power := { s.dev.power with xtal := false, fll := false }, err := errRecord 0x96 none (0, 0) none false s.dev.err } }) ∧
     (awake s.dev = true → exec .crystalRestart s = .next { s with dev := { s.dev with
       power := { s.dev.power with xtal := true, fll := true } } }) ∧
     (∀ k : Fin 5, pllLocked s.dev.power k.val = true → s.dev.boot.step ≠ .halted → Boots s.otp →
       Gives (.pllLockLost k) s fun t => SameOutside s t ∧ t.dev.boot.accepted = false ∧ t.dev.mem = {} ∧ t.dev.reqs = [] ∧
         ((t.dev.boot.step = .halted ∧ t.dev.boot.phase = 15) ∨ (t.dev.boot.step = .sfdp ∧ t.dev.boot.phase = 0)) ∧
         (s.dev.boot.reached = true → s.dev.boot.policy.errorAction ≠ 1 → t.dev.boot.step = .halted))) ∧
  (∀ s : State, Settled s → awake s.dev = true →
     (gradeMax s.otp < hottest s.dev → s.dev.power.thermal < 2 →
       let c := min 2 (max (max s.dev.img.power.topPoint (s.dev.power.thermal + 1)) s.dev.age.cap)
       Gives .thermalCapStep s fun t => SameOutside s t ∧ t.dev.power.thermal = s.dev.power.thermal + 1 ∧
         t.dev.power.caps = s.dev.power.caps + 1 ∧ t.dev.power.point = max s.dev.power.point c ∧
         (s.dev.power.point < c → t.dev.power.changing = some c ∧ t.dev.power.stepDown = s.dev.power.stepDown + 1) ∧
         t.dev.err = errRecord 0x93 none (0, 0) none false s.dev.err ∧ t.dev.mem = s.dev.mem ∧ t.dev.reqs = s.dev.reqs) ∧
     (2 ≤ s.dev.power.thermal → exec .thermalCapStep s = .next s) ∧
     (hottest s.dev < gradeMax s.otp - 5 → exec .thermalCapRecover s =
       .next { s with dev := { s.dev with power := { s.dev.power with thermal := s.dev.power.thermal - 1 } } }) ∧
     (gradeMax s.otp + 15 ≤ hottest s.dev → s.dev.boot.step ≠ .halted → Boots s.otp →
       Gives .thermalShutdown s fun t => SameOutside s t ∧ t.dev.power.clusters = 0 ∧ t.dev.power.isp = false ∧
         t.dev.boot.accepted = false ∧ t.dev.mem = {} ∧ t.dev.reqs = [] ∧
         (s.dev.boot.reached = true → t.dev.boot.step = .halted ∨ t.dev.boot.step = .cooling)))

/-- R427, R430: a cluster reset. Its tiles, transfers and counters go, its SRAM is lost and no other byte of memory, but the headers
of its resident state blocks, whose elements are poisoned, stand again, and the headers of other blocks count the chunks that its
scan tiles leave; the requests that had work on it end, and its epoch advances. -/
def Obligations.ClusterResetsLoseTheClusterAlone : Prop :=
  ∀ (s : State) (n : Fin 4) (cause fifos : Nat), Settled s → s.dev.err.armed = none → live s.dev = true →
    s.dev.power.clusters.getLsbD n.val = true → cause < 256 → s.dev.mem.wf = true →
    let resident (b : Nat) : Prop := (getBlk s.dev b).place = 0 ∧ blkCore s.dev b / 6 = n.val
    let apart (a : Nat) : Prop := ∀ r ∈ s.dev.img.blocks, resident r.id → a < blkAddr s.dev r.id ∨ blkAddr s.dev r.id + 64 ≤ a
    Gives (.clusterReset n cause fifos) s fun t => SameOutside s t ∧
      (∀ u, clusterOf u = n.val → getUnit t.dev u = {}) ∧ (getMover t.dev n.val).queue = [] ∧
      (getCluster t.dev n.val).epoch = min 65535 ((getCluster s.dev n.val).epoch + 1) ∧ (getCluster t.dev n.val).charge = {} ∧
      (∀ y ∈ releasedOn s.dev n.val, ∀ o ∈ ordersOf s.dev y, openReq t.dev o = false) ∧
      (∀ a, clusterBase n.val ≤ a → a < clusterBase n.val + 0x1000000 → apart a → memByte t.dev.mem a = 0) ∧
      (∀ a, a < clusterBase n.val ∨ clusterBase n.val + 0x1000000 ≤ a →
        (∀ k, a < blkAddr s.dev k ∨ blkAddr s.dev k + 64 ≤ a) → memByte t.dev.mem a = memByte s.dev.mem a) ∧
      (∀ r ∈ s.dev.img.blocks, resident r.id → ∀ i, i < (blkRec s.dev.img r.id).count → i ∈ (getBlk t.dev r.id).poison) ∧
      t.dev.power.clusterResets = s.dev.power.clusterResets + 1 ∧ t.dev.power.resync = addW s.dev.power.resync fifos ∧
      t.dev.power.clusters = s.dev.power.clusters ∧ t.dev.boot = s.dev.boot

/-- R189 to R191: a merge keeps the ranking of R189 over the union of its lists: at most k entries, in rank order, no item twice; an
entry of its lists that it leaves out ranks before none of k entries that it keeps, or its item is kept where it ranks no lower.
R189: offered to an empty list of up to k entries, values give the first k of them in rank order, whatever the order they arrive in.
-/
def Obligations.MergesKeepTheBestInRankOrder : Prop :=
  (∀ (direction k : Nat) (ls : List KList),
     let m := (mergeLists direction k ls).entries
     m.length ≤ k ∧ m.Pairwise (fun a b => ranksBefore direction b a = false) ∧
     (m.map (fun e => e.item)).Nodup ∧ (∀ e ∈ m, ∃ l ∈ ls, e ∈ l.entries) ∧
     (∀ l ∈ ls, ∀ e ∈ l.entries, (∃ x ∈ m, x.item = e.item ∧ ranksBefore direction e x = false) ∨
       (m.length = k ∧ ∀ x ∈ m, ranksBefore direction e x = false)) ∧
     ((mergeLists direction k ls).tainted = ls.any (fun l => l.tainted))) ∧
  (∀ (direction k : Nat) (a b : List KEntry), a.Perm b →
     let la := (a.foldl (fun l e => offer direction k e l) {}).entries
     let lb := (b.foldl (fun l e => offer direction k e l) {}).entries
     la = lb ∧ la.length = min k a.length ∧ la.Pairwise (fun x y => ranksBefore direction y x = false) ∧
       ∃ rest : List KEntry, (la ++ rest).Perm a ∧ ∀ x ∈ la, ∀ y ∈ rest, ranksBefore direction y x = false)

/-- R195, R196, R198: a query joins the batch of its catalogue, or waits on a full one; a sweep starts with the batch, the count of
items and the cores in the schedule, among which it divides the groups of 16 in contiguous ranges of equal length. R191, R193, R199,
R200: once every search tile of a sweep has ended, the merge of a cluster combines its cores' lists for each query and empties them;
the device-wide merge combines the clusters', keeps its lists and ends the sweep. No memory changes. A search tile that is still
running belongs to no later sweep. -/
def Obligations.QueriesJoinAndSweepsEnd : Prop :=
  ((∀ (s : State) (n : Fin 8) (r : CatRec), Settled s → catRec? s.dev.img n.val = some r →
     (∀ (q : Query) (o : Nat), Instr.wf (.queryJoin n q) = true → queryOrder s.dev q = some o →
       running s.dev (graphOf s.dev.img q.graph).part = true →
       exec (.queryJoin n q) s = .next { s with dev := { s.dev with cats := tabMod s.dev.cats n.val {} (fun c =>
         if c.batch.length < 64 then { c with batch := c.batch ++ [{ q := q, order := o }] }
         else { c with waiting := c.waiting ++ [{ q := q, order := o }], blocked := c.blocked + 1 }) } }) ∧
     ((getCat s.dev n.val).batch ≠ [] → exec (.batchWaitExpiry n) s = .next { s with dev := { s.dev with
       cats := tabMod s.dev.cats n.val {} (fun c => { c with expired := true }) } }) ∧
     (live s.dev = true → (getCat s.dev n.val).sweep = none → (getCat s.dev n.val).batch ≠ [] → coresOn s.dev ≠ [] →
       s.dev.power.clusters ≠ 0 →
       ((getCat s.dev n.val).batch.length = 64 ∨ (getCat s.dev n.val).expired = true ∨ r.batchWait = 0) →
       Gives (.sweepStart n) s fun t => SameOutside s t ∧
         (getCat t.dev n.val).sweep = some { queries := (getCat s.dev n.val).batch, snapshot := (getCat s.dev n.val).count, cores := coresOn s.dev,
                                             ranges := sweepRanges (coresOn s.dev) (getCat s.dev n.val).count } ∧
         (getCat t.dev n.val).batch = (getCat s.dev n.val).waiting.take 64 ∧
         (getCat t.dev n.val).waiting = (getCat s.dev n.val).waiting.drop 64 ∧
         (∀ u row, row < 64 → listAt (getUnit t.dev u).lists n.val row = {}) ∧
         (∀ k, k ≠ n.val → getCat t.dev k = getCat s.dev k) ∧ t.dev.reqs = s.dev.reqs ∧ t.dev.mem = s.dev.mem)) ∧
   (∀ (cores : List Nat) (count : Nat), cores ≠ [] → (sweepRanges cores count).map (fun r => r.1) = cores ∧
     (sweepRanges cores count).flatMap (fun r => (List.range r.2.2).map (fun i => r.2.1 + i)) = List.range ((count + 15) / 16) ∧
     ∀ r ∈ sweepRanges cores count, r.2.2 = (count + 15) / 16 / cores.length ∨ r.2.2 = (count + 15) / 16 / cores.length + 1)) ∧
  (∀ (s : State) (n : Fin 8) (r : CatRec) (w : Sweep), Settled s → s.dev.err.armed = none → catRec? s.dev.img n.val = some r →
     (getCat s.dev n.val).sweep = some w → live s.dev = true →
     (∀ c : Fin 4, mergeCores s.dev n.val c.val w ≠ [] → tabGet? w.merged c.val = none → searching s.dev n.val c.val = false →
       sweepDone s.dev n.val w = true → Gives (.clusterMergeDone n c) s fun t => SameOutside s t ∧ t.dev.reqs = s.dev.reqs ∧ t.dev.mem = s.dev.mem ∧
         (∀ u ∈ mergeCores s.dev n.val c.val w, (∀ q, q < 64 → listAt (getUnit t.dev u).lists n.val q = {}) ∧
           (getUnit t.dev u).kLists = addW (getUnit s.dev u).kLists w.queries.length) ∧
         ∃ w', (getCat t.dev n.val).sweep = some w' ∧ w'.queries = w.queries ∧ w'.cores = w.cores ∧
           (∀ q, q < w.queries.length → tabGet (tabGet w'.merged c.val {}) q {} = mergeLists r.direction r.k
             ((mergeCores s.dev n.val c.val w).map (fun u => listAt (getUnit s.dev u).lists n.val q)))) ∧
     (∀ c : Fin 4, sweepDone s.dev n.val w = false → exec (.clusterMergeDone n c) s = .next s) ∧
     (∀ cycles, (∀ c ∈ sweepClusters s.dev n.val w, (tabGet? w.merged c).isSome = true) → Gives (.deviceMergeDone n cycles) s fun t => SameOutside s t ∧
       (getCat t.dev n.val).sweep = none ∧ (getCat t.dev n.val).sweeps = (getCat s.dev n.val).sweeps + 1 ∧
       (getCat t.dev n.val).queries = addW (getCat s.dev n.val).queries w.queries.length ∧
       (∀ q, q < w.queries.length → tabGet (getCat t.dev n.val).device q {} = mergeLists r.direction r.k
         ((sweepClusters s.dev n.val w).map (fun c => tabGet (tabGet w.merged c {}) q {}))) ∧
       (getCat t.dev n.val).count = (getCat s.dev n.val).count ∧ t.dev.mem = s.dev.mem ∧
       ∀ u y, tileOf t.dev u = some y → isSearch s.dev.img (descBytes s.dev y.d) = true →
         (catOfTile s.dev y.d (descBytes s.dev y.d)).any (fun z => z.slot == n.val) = true → y.stale = true))

/-- R235, R236: a mark for a chunk that has not started sets its flag; one for a chunk that has is late and takes effect at the next
chunk; one more than four chunks ahead is discarded and counted; one for another partition's sequence stops its sender. R238 to
R242: blocks of sequence state come in and go out, with their contents. A swap-in whose header, in its transfer and in memory, names
the block and its chunks makes the block present; any other poisons it and ends the waiting chunk's requests. A block that begins to
leave has no ready tile any more. -/
def Obligations.SequenceMarksAndBlocks : Prop :=
  (∀ (s : State) (p : Fin 128) (q : Fin 64) (m : Nat) (r : SeqRec), Settled s → s.dev.err.armed = none → m < 2 ^ 48 →
     running s.dev p.val = true → seqRec? s.dev.img q.val = some r →
     let T := chunkSteps s.dev.img q.val
     let x := getSeq s.dev q.val
     (r.part = p.val → x.base ≤ m / T → m / T < x.base + 4 → Gives (.resetMark p q m) s fun t => SameOutside s t ∧
       (getSeq t.dev q.val).marks = insertNat m x.marks ∧ (getSeq t.dev q.val).late = x.late ∧
       (getSeq t.dev q.val).base = x.base ∧ t.dev.err = s.dev.err ∧ t.dev.mem = s.dev.mem) ∧
     (r.part = p.val → m / T < x.base → Gives (.resetMark p q m) s fun t => SameOutside s t ∧
       (getSeq t.dev q.val).marks = insertNat (x.base * T) x.marks ∧ (getSeq t.dev q.val).late = x.late + 1 ∧
       t.dev.err = errRecord 0x70 (some r.part) (8, q.val) none false s.dev.err ∧ t.dev.mem = s.dev.mem) ∧
     (r.part = p.val → x.base + 4 ≤ m / T → Gives (.resetMark p q m) s fun t => SameOutside s t ∧
       (getSeq t.dev q.val).marks = x.marks ∧ (getSeq t.dev q.val).late = x.late + 1 ∧
       t.dev.err = errRecord 0x70 (some r.part) (8, q.val) none false s.dev.err ∧ t.dev.mem = s.dev.mem) ∧
     (r.part ≠ p.val → Gives (.resetMark p q m) s fun t => SameOutside s t ∧
       (getPart t.dev p.val).stopped = true ∧ (getPart t.dev p.val).cause = 0x40 ∧ (getSeq t.dev q.val).late = x.late)) ∧
  (∀ (s : State) (b : Nat), Settled s → s.dev.err.armed = none → live s.dev = true → s.dev.img.blocks.any (fun r => r.id == b) = true →
     s.dev.mem.wf = true →
     let k := getBlk s.dev b
     let u := blkCore s.dev b
     let n := blkBytes (blkRec s.dev.img b)
     let to_ := (blkRec s.dev.img b).spillTier
     (∀ (hb hc waited : Nat), k.place ≠ 0 → slotTurn s.dev b = true → s.dev.power.clusters.getLsbD (u / 6) = true →
       (headerMatches s.dev b hb hc = true → Gives (.stateSwapInDone b hb hc [] waited) s fun t => SameOutside s t ∧ present t.dev b = true ∧
         (getBlk t.dev b).waiting = none ∧ (getBlk t.dev b).chunks = k.chunks ∧ (getBlk t.dev b).poison = k.poison ∧
         (getUnit t.dev u).swapIn = (getUnit s.dev u).swapIn + 1 ∧ (getUnit t.dev u).scWait = addW (getUnit s.dev u).scWait waited ∧
         (getMover t.dev (u / 6)).xfers = (getMover s.dev (u / 6)).xfers + 1 ∧
         memRead t.dev.mem (blkAt s.dev b 0) n = memRead s.dev.mem (blkAt s.dev b k.place) n ∧ SameBytesOutside (blkAt s.dev b 0) n s t ∧
         t.dev.reqs = s.dev.reqs ∧ t.dev.err = s.dev.err) ∧
       (headerMatches s.dev b hb hc = false → Gives (.stateSwapInDone b hb hc [] waited) s fun t => SameOutside s t ∧ present t.dev b = true ∧
         (∀ i, i < (blkRec s.dev.img b).count → i ∈ (getBlk t.dev b).poison) ∧
         (∀ o ∈ waitingChunk s.dev b, openReq t.dev o = false) ∧
         ∀ a, (a < blkAt s.dev b 0 ∨ blkAt s.dev b 0 + n ≤ a) → (∀ j, a < blkAddr s.dev j ∨ blkAddr s.dev j + 64 ≤ a) →
           memByte t.dev.mem a = memByte s.dev.mem a)) ∧
     (k.place = 0 → k.pins = 0 → (slotWanted s.dev b = true ∨ k.moving = true) → Gives (.stateSwapOutDone b) s fun t => SameOutside s t ∧
       (getBlk t.dev b).place = to_ ∧ (getBlk t.dev b).moving = false ∧ (getBlk t.dev b).chunks = k.chunks ∧
       (getUnit t.dev u).swapOut = (getUnit s.dev u).swapOut + 1 ∧ (getMover t.dev (u / 6)).xfers = (getMover s.dev (u / 6)).xfers + 1 ∧
       (∀ j, j ≠ b → getBlk t.dev j = getBlk s.dev j) ∧
       memRead t.dev.mem (blkAt s.dev b to_) n = memRead s.dev.mem (blkAt s.dev b 0) n ∧ SameBytesOutside (blkAt s.dev b to_) n s t ∧
       t.dev.reqs = s.dev.reqs) ∧
     (k.place = 0 → k.pins = 0 → ((seqRec? s.dev.img (blkRec s.dev.img b).seq).getD {}).idleCycles ≠ 0 →
       exec (.stateIdleExpiry b) s = .next { s with dev := { s.dev with
         blks := tabMod s.dev.blks b {} (fun x => { x with moving := true })
         sched := { s.dev.sched with live := s.dev.sched.live.map (fun y =>
           if dKind y.bytes = 3 ∧ dBlock y.bytes = b ∧ y.released = false then { y with ready := false } else y) } } }))

/-- R255, R256, R261: a walk starts behind the waiting edits and takes a lock, unless its append exceeds the sequence's capacity; it
ends with its translations when every page checks, and ends its request when one does not, or an entry read from memory is poisoned.
-/
def Obligations.PageWalksLockAndCheck : Prop :=
  ∀ (s : State) (x : DescId) (y : Desc) (q layer : Nat) (ps : List Nat), Settled s → s.dev.err.armed = none →
    desc? s.dev x = some y → walkOf s.dev y.bytes = some (q, layer, ps) →
    (∀ w : Fin 2, running s.dev (dPart y.bytes) = true → y.released = false → waitsMet s.dev x y.bytes = true →
      (getKv s.dev q).edits = [] → (getKv s.dev q).locks < 255 → s.dev.kv.walks.any (fun v => v.d == x) = false →
      isMuzzled s.dev (0x20 + 2 * dCluster y.bytes + w.val) = false →
      (overCapacity s.dev y.bytes = true → Gives (.pageWalkStart x w) s fun t => SameOutside s t ∧
        (∀ o ∈ ordersOf s.dev y, openReq t.dev o = false) ∧ t.dev.kv.walks.any (fun v => v.d == x) = false ∧ SameOutsideHeaders s t) ∧
      (overCapacity s.dev y.bytes = false → Gives (.pageWalkStart x w) s fun t => SameOutside s t ∧
        (getKv t.dev q).locks = (getKv s.dev q).locks + 1 ∧
        t.dev.kv.walks = s.dev.kv.walks ++ [{ d := x, unit := (dCluster y.bytes, w.val), seq := q }] ∧
        (getCluster t.dev (dCluster y.bytes)).walks = (getCluster s.dev (dCluster y.bytes)).walks + 1 ∧
        t.dev.reqs = s.dev.reqs ∧ t.dev.mem = s.dev.mem)) ∧
    (∀ v, s.dev.kv.walks.find? (fun v => v.d == x && v.pages.isNone) = some v →
      let r := walkPages s.dev q layer ps (tabGet (getCluster s.dev v.unit.1).aside v.unit.2 []) (0, 0) []
      ∀ poisoned : Bool,
      (r.1 = true → (poisoned = false ∨ r.2.2.1.2 = 0) → Gives (.pageWalkEnd x poisoned) s fun t => SameOutside s t ∧
        t.dev.kv.walks = s.dev.kv.walks.map (fun z => if z.d = x then { z with pages := some r.2.1 } else z) ∧
        r.2.1 = ps.map (fun p => (p, (ptEntry s.dev q layer p).frame * 4096)) ∧
        (getCluster t.dev v.unit.1).hits = addW (getCluster s.dev v.unit.1).hits r.2.2.1.1 ∧
        (getCluster t.dev v.unit.1).misses = addW (getCluster s.dev v.unit.1).misses r.2.2.1.2 ∧
        t.dev.reqs = s.dev.reqs ∧ t.dev.err = s.dev.err ∧ t.dev.mem = s.dev.mem) ∧
      ((r.1 = false ∨ (poisoned = true ∧ r.2.2.1.2 ≠ 0)) → Gives (.pageWalkEnd x poisoned) s fun t => SameOutside s t ∧
        (getCluster t.dev v.unit.1).failed = (getCluster s.dev v.unit.1).failed + 1 ∧ t.dev.kv.walks.any (fun z => z.d == x) = false ∧
        (∀ o ∈ ordersOf s.dev y, openReq t.dev o = false) ∧ SameOutsideHeaders s t))

/-- R257, R258, R260, R261: edits of a page table queue in order; an append past the capacity ends its request; a direct write
muzzles its master and leaves the entries, and, where no reset follows, the walks and locks. -/
def Obligations.TableEditsQueue : Prop :=
  ∀ s : State, Settled s → s.dev.err.armed = none →
    (∀ (x : DescId) (y : Desc) (q layer p : Nat) (ps : List Nat), desc? s.dev x = some y → walkOf s.dev y.bytes = some (q, layer, ps) →
      running s.dev (dPart y.bytes) = true → dKind y.bytes = 5 → y.released = false → p ∈ ps → pageHeld s.dev q layer p = false →
      (∀ o, Edit.allocate layer p o ∉ (getKv s.dev q).edits) →
      (overCapacity s.dev y.bytes = false → Gives (.allocate x p) s fun t => SameOutside s t ∧
        (getKv t.dev q).edits = (getKv s.dev q).edits ++ [.allocate layer p (y.order.getD 0)] ∧
        (getKv t.dev q).entries = (getKv s.dev q).entries ∧ t.dev.reqs = s.dev.reqs ∧ t.dev.mem = s.dev.mem) ∧
      (overCapacity s.dev y.bytes = true → Gives (.allocate x p) s fun t => SameOutside s t ∧
        (∀ o ∈ ordersOf s.dev y, openReq t.dev o = false) ∧ (getKv t.dev q).entries = (getKv s.dev q).entries ∧ SameOutsideHeaders s t)) ∧
    (∀ (x : DescId) v, s.dev.kv.scattered.find? (fun v => v.1 == x) = some v → Gives (.fill x) s fun t => SameOutside s t ∧
      (getKv t.dev v.2.1).edits = (getKv s.dev v.2.1).edits ++ [.fill v.2.2.1 v.2.2.2.1 v.2.2.2.2] ∧
      t.dev.kv.scattered = s.dev.kv.scattered.filter (fun v => v.1 != x) ∧ t.dev.mem = s.dev.mem) ∧
    (∀ (p : Fin 128) (q : Fin 256) (n : Nat), running s.dev p.val = true → (kvRec? s.dev.img q.val).isSome = true →
      ((kvRecOf s.dev.img q.val).part = p.val →
        exec (.truncate p q n) s = .next { s with dev := { s.dev with kv := { s.dev.kv with
          seqs := tabMod s.dev.kv.seqs q.val {} (fun k => { k with edits := k.edits ++ [.truncate n] }) } } } ∧
        exec (.release p q) s = .next { s with dev := { s.dev with kv := { s.dev.kv with
          seqs := tabMod s.dev.kv.seqs q.val {} (fun k => { k with edits := k.edits ++ [.release] }) } } }) ∧
      ((kvRecOf s.dev.img q.val).part ≠ p.val →
        Gives (.truncate p q n) s (fun t => SameOutside s t ∧ (getPart t.dev p.val).stopped = true ∧ (getPart t.dev p.val).cause = 0x40) ∧
        Gives (.release p q) s (fun t => SameOutside s t ∧ (getPart t.dev p.val).stopped = true ∧ (getPart t.dev p.val).cause = 0x40))) ∧
    (∀ (m : Nat) (p : Fin 128) (q : Fin 256), m < 256 → running s.dev p.val = true → worksFor s.dev m p.val = true →
      (kvRec? s.dev.img q.val).isSome = true → Gives (.pageTableDirectWrite m p q) s fun t => SameOutside s t ∧
        (getPart t.dev p.val).muzzled.contains m = true ∧ (getPart t.dev p.val).stopped = true ∧
        (getPart t.dev p.val).cause = (if (getKv s.dev q.val).locks = 0 then 0x40 else 0x44) ∧
        t.dev.kv.direct = s.dev.kv.direct + (if (getKv s.dev q.val).locks = 0 then 0 else 1) ∧
        (∀ l, ptEntry t.dev q.val l = ptEntry s.dev q.val l) ∧ SameBytes s t ∧
        (bit ((partRec? s.dev.img p.val).getD {}).flags 0 = false → 0x1C ≤ m → ¬(0x20 ≤ m ∧ m < 0x28) →
          t.dev.kv.walks = s.dev.kv.walks ∧ (getKv t.dev q.val).locks = (getKv s.dev q.val).locks))

/-- R253, R254, R257, R262, R336, Tables 11.3 to 11.5: the oldest edit of a table applies as one step while no walk holds a lock;
while one does, it waits. The header and every entry that changes are written into the table in memory; a page that is allocated is
cleared. -/
def Obligations.EditsApplyAsOneStep : Prop :=
  ∀ (s : State) (q : Fin 256) (e : Edit) (rest : List Edit) (waited : Nat), Settled s → s.dev.err.armed = none →
    (getKv s.dev q.val).edits = e :: rest → s.dev.mem.wf = true →
    let k := getKv s.dev q.val
    let r := kvRecOf s.dev.img q.val
    let img := s.dev.img
    let changed (t : State) (j : Nat) : Prop := tabGet k.entries j {} ≠ tabGet (getKv t.dev q.val).entries j {}
    let outside (t : State) (b : Nat) : Prop := (b < tableAt img r ∨ tableAt img r + 64 ≤ b) ∧
      ∀ j, changed t j → b < entryAddr img r j ∨ entryAddr img r j + 16 ≤ b
    let after (t : State) : Prop := SameOutside s t ∧ (getKv t.dev q.val).edits = rest ∧ (getKv t.dev q.val).gen = k.gen + 1 ∧
      t.dev.kv.edits = s.dev.kv.edits + 1 ∧ (∀ j, j ≠ q.val → getKv t.dev j = getKv s.dev j) ∧ t.dev.reqs = s.dev.reqs ∧
      memRead t.dev.mem (tableAt img r) 64 = tableHeader r (getKv t.dev q.val) ∧
      (∀ j, changed t j → memRead t.dev.mem (entryAddr img r j) 16 = entryBytes (tabGet (getKv t.dev q.val).entries j {}))
    let only (t : State) : Prop := ∀ b, outside t b → memByte t.dev.mem b = memByte s.dev.mem b
    (k.locks ≠ 0 → exec (.editApply q waited) s = .next s) ∧
    (k.locks = 0 →
      (∀ layer first n, e = .fill layer first n → Gives (.editApply q waited) s fun t => after t ∧ only t ∧
        (getKv t.dev q.val).length = max k.length (first + n)) ∧
      (∀ n, e = .truncate n → Gives (.editApply q waited) s fun t => after t ∧ only t ∧
        (getKv t.dev q.val).length = min n k.length) ∧
      (e = .release → Gives (.editApply q waited) s fun t => after t ∧ only t ∧ (getKv t.dev q.val).length = 0 ∧
        (getKv t.dev q.val).opened = false ∧ (getKv t.dev q.val).entries = {}) ∧
      (∀ layer p o sh, e = .allocate layer p o → (isRing r = false ∨ p < r.tablePages) → pageSource s.dev r.pool r.part = some sh →
        frozen s.dev 3 r.pool = false → freePages s.dev r.pool ≠ [] →
        let pool := poolRec img r.pool
        let n := pageBytes pool.format pool.kvHeads pool.headDim
        Gives (.editApply q waited) s fun t => after t ∧ ∃ page, page ∈ freePages s.dev r.pool ∧
          tabGet? (tabGet t.dev.kv.pools r.pool {}).held page = some (r.part, sh) ∧
          (let a := poolPageAddr img r.pool page
           ptEntry t.dev q.val layer p = { frame := a / 4096, valid := true, fill := 0, part := r.part, check := p % 256, first := 64 * p } ∧
           (∀ i, i < n → outside t (a + i) → memByte t.dev.mem (a + i) = 0) ∧
           ∀ b, (b < a ∨ a + n ≤ b) → outside t b → memByte t.dev.mem b = memByte s.dev.mem b)))

/-- R285, R287, R297, R298, R323, R86, R169: a granule of a transfer is written with its poison, and no other byte changes; the last
granule ends the transfer; a mover that finds no tag waits; a tag parity error ends the request and writes nothing; an access to a
pre-roll buffer is denied and muzzles nothing; a granule outside what the partition owns muzzles the mover. A granule of a codebook
load writes no memory. -/
def Obligations.TransfersMoveOneGranule : Prop :=
  ∀ (s : State) (n : Fin 4) (x : Xfer) (rest : List Xfer) (rt held : Nat), Settled s → s.dev.err.armed = none → live s.dev = true →
    isMuzzled s.dev (0x1C + n.val) = false → (getMover s.dev n.val).queue = x :: rest →
    let src := xferSrc x x.done
    let dst := xferDst x x.done
    let ok := (x.mode = 2 ∨ mayRead s.dev x.part src = true) ∧ mayWrite s.dev x.part dst = true
    let flies := (getMover s.dev n.val).issued ≠ 0 ∨ (issueGranule n.val x s.dev).isSome = true
    (¬ flies → ∀ fault, exec (.transferGranuleDone n fault rt held) s = .next s) ∧
    (flies → ok → x.load = none → s.dev.mem.wf = true → dst % 64 = 0 →
      let dirty := x.mode != 2 && poisonedAt s.dev.mem src
      let moved : State → Prop := fun t => SameOutside s t ∧
        memRead t.dev.mem dst 64 = (if x.mode = 2 then zeros 64 else memRead s.dev.mem src 64) ∧ SameBytesOutside dst 64 s t ∧
        poisonedAt t.dev.mem dst = dirty ∧
        (getMover t.dev n.val).poisoned = (getMover s.dev n.val).poisoned + (if dirty then 1 else 0) ∧
        (getMover t.dev n.val).granules = (getMover s.dev n.val).granules + 1
      (nextGranule s.dev.mem x < x.rowGranules * x.rows → Gives (.transferGranuleDone n 0 rt held) s fun t => moved t ∧
        (getMover t.dev n.val).queue = { x with done := nextGranule s.dev.mem x } :: rest ∧
        (getMover t.dev n.val).xfers = (getMover s.dev n.val).xfers ∧ t.dev.reqs = s.dev.reqs) ∧
      (x.rowGranules * x.rows ≤ nextGranule s.dev.mem x → Gives (.transferGranuleDone n 0 rt held) s fun t => moved t ∧
        (getMover t.dev n.val).queue = rest ∧ (getMover t.dev n.val).xfers = (getMover s.dev n.val).xfers + 1 ∧
        (∀ g ∈ t.dev.mov.tags, g.master ≠ 0x1C + n.val) ∧ (∀ i, x.d = some i → desc? t.dev i = none))) ∧
    (flies → ok → x.load = none → ∀ fault ∈ [4, 5], fault = 5 ∨ x.mode ≠ 2 →
      Gives (.transferGranuleDone n fault rt held) s fun t => SameOutside s t ∧
        (getMover t.dev n.val).queue = rest ∧ SameOutsideHeaders s t ∧
        (getPart t.dev x.part).muzzled = (getPart s.dev x.part).muzzled ∧
        (∀ i y, x.d = some i → desc? s.dev i = some y → ∀ o ∈ ordersOf s.dev y, openReq t.dev o = false)) ∧
    (∀ k, x.load = some k → x.d = none → flies → x.mode = 2 ∨ mayRead s.dev x.part src = true ∨ readsBlob s.dev.img x = true →
      Gives (.transferGranuleDone n 0 rt held) s fun t => SameOutside s t ∧ t.dev.mem = s.dev.mem ∧ t.dev.reqs = s.dev.reqs) ∧
    (¬ ok → flies → x.load = none → running s.dev x.part = true → Gives (.transferGranuleDone n 0 rt held) s fun t => SameOutside s t ∧
      (getPart t.dev x.part).muzzled.contains (0x1C + n.val) = true ∧ (getPart t.dev x.part).stopped = true ∧
      (getPart t.dev x.part).cause = (if x.mode ≠ 2 ∧ mayRead s.dev x.part src = false then 0x40 else writeCause s.dev dst) ∧
      SameOutsideHeaders s t)

/-- R291, R292: a weight window's loader begins the next layer, or layer 0 of the next step, in a slot whose occupant no step needs;
a layer whose source holds no poison is present with the bytes of its source, and ends the stall of the step that waits for it.
R293, R294: a layer that is late, or whose second read fails, is counted and ends the requests of the steps that need it: the step
that stalls, or every one. A layer whose source holds poison fails too. R295, R301: a signal from another cluster that is on its way
reaches its cell; a period of the patrol scrub counts what it read and corrected, and poisons the granules that it could not
correct. -/
def Obligations.WindowsSignalsAndScrub : Prop :=
  (∀ (s : State) (w : Fin 4) (r : WindowRec), Settled s → winRec? s.dev.img w.val = some r →
     let x := getWin s.dev w.val
     (running s.dev r.part = true → s.dev.power.clusters.getLsbD r.home = true → x.loading = none →
       let ahead := windowAhead s.dev w.val r
       let i := if ahead then 0 else x.next
       let put (y : Win) : State := { s with dev := { s.dev with mov := { s.dev.mov with wins := tabSet s.dev.mov.wins w.val y } } }
       (tabGet? x.slots (i % r.depth) = some i →
         exec (.windowLoadStart w) s = .next (if ahead then s else put { x with next := (i + 1) % r.layers })) ∧
       (tabGet? x.slots (i % r.depth) ≠ some i →
         exec (.windowLoadStart w) s = .next (if (tabGet? x.slots (i % r.depth)).any (fun o => !(instsNeeding s.dev w.val o).isEmpty) then s
           else put { x with loading := some i, slots := tabDrop x.slots (i % r.depth), bad := x.bad.filter (fun k => k != i % r.depth) }))) ∧
     (∀ i stall, x.loading = some i →
       let e := r.entries.getD i {}
       let src := regionBase s.dev.img r.sourceRegion + e.offset
       let dst := regionBase s.dev.img r.windowRegion + i % r.depth * r.slotBytes
       let waits := x.stalled.filter (fun k => k.1 == i)
       poisonedIn s.dev.mem src (e.bytes / 64) = 0 → e.bytes % 64 = 0 → Gives (.windowLayerPresent w stall) s fun t => SameOutside s t ∧
         (∀ k, k < e.bytes → memByte t.dev.mem (dst + k) = memByte s.dev.mem (src + k)) ∧ SameBytesOutside dst e.bytes s t ∧
         tabGet? (getWin t.dev w.val).slots (i % r.depth) = some i ∧ (getWin t.dev w.val).loading = none ∧
         (getWin t.dev w.val).next = (i + 1) % r.layers ∧ (getWin t.dev w.val).loads = x.loads + 1 ∧
         (getWin t.dev w.val).stalled = x.stalled.filter (fun k => k.1 != i) ∧
         (waits = [] → (getWin t.dev w.val).stall = x.stall ∧ t.dev.reqs = s.dev.reqs) ∧
         (∀ k o, waits = [k] → ordersOfInst s.dev k.2.1 k.2.2 = [o] → (getWin t.dev w.val).stall = addW x.stall stall ∧
           t.dev.reqs = s.dev.reqs.map (fun q => if q.order = o then { q with stall := (q.stall + stall) % 4294967296 } else q)))) ∧
  (∀ (s : State) (w : Fin 4) (r : WindowRec) (i : Nat), Settled s → s.dev.err.armed = none → winRec? s.dev.img w.val = some r →
     let x := getWin s.dev w.val
     (∀ k, (x.stalled ++ layerWaiters s.dev w.val).head? = some k → Gives (.windowLayerLate w) s fun t => SameOutside s t ∧
       (getWin t.dev w.val).late = x.late + 1 ∧ (getWin t.dev w.val).stalled = x.stalled.erase k ∧
       (getWin t.dev w.val).stall = (if x.stalled.contains k then addW x.stall r.timeout else x.stall) ∧
       (getWin t.dev w.val).loading = x.loading ∧
       (∀ o ∈ ordersOfInst s.dev k.2.1 k.2.2, openReq t.dev o = false) ∧ SameOutsideHeaders s t) ∧
     (x.stalled ++ layerWaiters s.dev w.val = [] → exec (.windowLayerLate w) s = .next s) ∧
     (x.loading = some i →
       let src := layerSource s.dev r i
       Gives (.windowLayerFailed w) s (fun t => SameOutside s t ∧
         (getWin t.dev w.val).failed = x.failed + 1 ∧ (getWin t.dev w.val).loading = none ∧
         (getWin t.dev w.val).next = (i + 1) % r.layers ∧ (getWin t.dev w.val).bad = insertNat (i % r.depth) x.bad ∧
         (∀ k ∈ instsNeeding s.dev w.val i, ∀ o ∈ ordersOfInst s.dev k.1 k.2, openReq t.dev o = false) ∧ SameOutsideHeaders s t) ∧
       (poisonedIn s.dev.mem src.1 (src.2 / 64) ≠ 0 → ∀ stall, exec (.windowLayerPresent w stall) s = exec (.windowLayerFailed w) s))) ∧
  (∀ s : State, Settled s →
     (∀ k : Fin 8192, (s.dev.sched.remote.contains k.val = true → exec (.remoteBarrierSignal k) s = .next { s with dev := { s.dev with
         sched := { s.dev.sched with remote := s.dev.sched.remote.erase k.val, cells := tabMod s.dev.sched.cells k.val 0 (fun w => w + 1) } } }) ∧
       (s.dev.sched.remote.contains k.val = false → exec (.remoteBarrierSignal k) s = .next s)) ∧
     (∀ (n : Nat) (bad : List Nat), s.dev.err.armed = none → live s.dev = true → bit (s.dev.img.mem.getD {}).flags 0 = true →
       s.dev.power.dram = true →
       let total := mappedBytes s.dev.img s.dev.boot.mib / 64
       let own := dedup (bad.filter (fun g => decide (g < total)))
       Gives (.scrubPeriod n bad) s fun t => SameOutside s t ∧ t.dev.mem.cells = s.dev.mem.cells ∧
         (∀ g, t.dev.mem.poison.contains g = (s.dev.mem.poison.contains g || own.contains g)) ∧
         t.dev.mov.ddr.scrub = s.dev.mov.ddr.scrub + total ∧ s.dev.mov.ddr.remote + total ≤ t.dev.mov.ddr.remote ∧
         t.dev.mov.ddr.corr = addW s.dev.mov.ddr.corr n ∧
         t.dev.mov.ddr.uncorr = addW s.dev.mov.ddr.uncorr own.length ∧ t.dev.reqs = s.dev.reqs))

/-- R324, R325: an access that fails its check muzzles its master, charges the partition and stops it; no byte of memory changes. A
core that is muzzled leaves the schedule. -/
def Obligations.ViolationsMuzzleAndStop : Prop :=
  ∀ (s : State) (m : Nat) (p : Fin 128) (a : Nat), Settled s → s.dev.err.armed = none → m < 256 → a < 2 ^ 40 →
    running s.dev p.val = true → worksFor s.dev m p.val = true → fullyOwns s.dev p.val a = false →
    Gives (.accessViolation m p a) s fun t => SameOutside s t ∧ (getPart t.dev p.val).muzzled.contains m = true ∧
      (getPart t.dev p.val).stopped = true ∧ (getPart t.dev p.val).cause = 0x40 ∧
      (m < 24 → t.dev.age.avail.getLsbD m = false) ∧
      (∀ o ∈ ordersOfPart s.dev p.val, openReq t.dev o = false) ∧ SameBytes s t ∧
      (∀ x, s.dev.sched.muzzleFirst = some x → t.dev.sched.muzzleFirst = some x) ∧
      (s.dev.sched.muzzleFirst = none → t.dev.sched.muzzleFirst = some (0x40, p.val, m)) ∧
      (∀ q, q ≠ p.val → (getPart t.dev q).stopped = (getPart s.dev q).stopped ∧ (getPart t.dev q).muzzled = (getPart s.dev q).muzzled)

/-- R326, R244, R259, R295, Table 13.6: a partition reset takes the partition's work away, and its completion its state; a reset
that is refused changes refused alone. The completion writes the headers and entries of the partition's page tables and its state
blocks, and no other byte. -/
def Obligations.PartitionResetsTakeTheirPartition : Prop :=
  ∀ (s : State) (p : Fin 128), Settled s → s.dev.err.armed = none →
    (live s.dev = true → (getPart s.dev 0).stopped = false → p.val ≠ 0 → declared s.dev.img p.val = true →
      bit ((partRec? s.dev.img p.val).getD {}).flags 1 = true → (getPart s.dev p.val).resetting = false →
      Gives (.partitionResetCommand 0 p) s fun t => SameOutside s t ∧ (getPart t.dev p.val).resetting = true ∧
        (∀ o ∈ ordersOfPart s.dev p.val, openReq t.dev o = false) ∧ (∀ y ∈ t.dev.sched.live, dPart y.bytes ≠ p.val) ∧
        (∀ n x, x ∈ (getMover t.dev n).queue → x.part ≠ p.val) ∧
        (∀ q, q < 8 → (getSession s.dev q).opened = true → (getSession s.dev q).part = p.val → (getSession t.dev q).opened = false) ∧
        SameBytes s t) ∧
    (live s.dev = true → (getPart s.dev 0).stopped = false →
      (p.val = 0 ∨ declared s.dev.img p.val = false ∨ bit ((partRec? s.dev.img p.val).getD {}).flags 1 = false) →
      exec (.partitionResetCommand 0 p) s = .next { s with dev := { s.dev with sched := { s.dev.sched with refused := true } } }) ∧
    (∀ q : Fin 128, q.val ≠ 0 → exec (.partitionResetCommand q p) s = .next s) ∧
    ((getPart s.dev p.val).resetting = true → Gives (.partitionResetComplete p) s fun t => SameOutside s t ∧
      (getPart t.dev p.val).resetting = false ∧ (getPart t.dev p.val).stopped = false ∧ (getPart t.dev p.val).cause = 0 ∧
      (getPart t.dev p.val).muzzled = [] ∧ t.dev.sched.resets = s.dev.sched.resets + 1 ∧
      (∀ q ∈ kvsOf s.dev.img p.val, (getKv t.dev q).length = 0 ∧ (getKv t.dev q).entries = {}) ∧
      (∀ r ∈ s.dev.img.cellRanges, r.part = p.val → ∀ k, r.cluster * 2048 + r.first ≤ k → k < r.cluster * 2048 + r.first + r.count →
        cellCount t.dev k = 0) ∧
      (∀ g i, i < 64 → (graphOf s.dev.img g).part = p.val → tabGet? t.dev.sched.insts (64 * g + i) = none) ∧
      (∀ b, (∀ q ∈ kvsOf s.dev.img p.val, let r := kvRecOf s.dev.img q
          (b < tableAt s.dev.img r ∨ tableAt s.dev.img r + 64 ≤ b) ∧ ∀ j, tabGet (getKv s.dev q).entries j {} ≠ {} →
            b < entryAddr s.dev.img r j ∨ entryAddr s.dev.img r j + 16 ≤ b) →
        (∀ k ∈ blksOf s.dev.img p.val, b < blkAddr s.dev k ∨ blkAddr s.dev k + 64 + 4 * (blkRec s.dev.img k).count ≤ b) →
        memByte t.dev.mem b = memByte s.dev.mem b)) ∧
    ((getPart s.dev p.val).resetting = false → exec (.partitionResetComplete p) s = .next s)

/-- R348 to R350, Tables 15.1 and 15.2: the common command codes of the I3C target port. R349, R351: Hot-Join requests of a target
without an address; the interrupt sent next has the highest priority, the oldest of those, and results wait for their spacing. A
queued interrupt that the host acknowledges leaves the queue. R367: the levels of the GPIOs. -/
def Obligations.CommonCommandCodesAndInterrupts : Prop :=
  (∀ s : State, Settled s → awake s.dev = true →
     let h := s.dev.host
     let with_ : HostPort → State := fun g => { s with dev := { s.dev with host := g } }
     (∀ e, exec (.enec e) s = .next (with_ { h with int := h.int || bit e 0, hj := h.hj || bit e 3 }) ∧
       exec (.disec e) s = .next (with_ { h with int := h.int && !bit e 0, hj := h.hj && !bit e 3 })) ∧
     exec .rstdaa s = .next (with_ { h with addr := none, int := true, hj := true, protErr := false }) ∧
     (∀ a : Fin 128, (h.addr = none → exec (.entdaa a) s =
         .next (with_ { h with nack := false, rx := provisionalId s.dev ++ [0x27, 0x00], addr := some a.val })) ∧
       (h.addr ≠ none → exec (.entdaa a) s = .next s)) ∧
     (∀ st a : Fin 128, (h.addr = none → st.val = 0x48 + s.dev.boot.straps % 4 →
         exec (.setdasa st a) s = .next (with_ { h with nack := false, addr := some a.val })) ∧
       (h.addr ≠ none ∨ st.val ≠ 0x48 + s.dev.boot.straps % 4 → exec (.setdasa st a) s = .next (with_ { h with nack := true }))) ∧
     (h.addr ≠ none →
       exec .getpid s = .next (with_ { h with nack := false, rx := provisionalId s.dev }) ∧
       exec .getbcr s = .next (with_ { h with nack := false, rx := [0x27] }) ∧
       exec .getdcr s = .next (with_ { h with nack := false, rx := [0x00] }) ∧
       exec .getmxds s = .next (with_ { h with nack := false, rx := [0x00, 0x00] }) ∧
       exec .getstatus s = .next (with_ { h with nack := false, protErr := false, rx := be 2 (32 * b2n h.protErr + min 15 h.ibis.length) })) ∧
     (h.addr = none → ∀ c ∈ [Instr.getpid, .getbcr, .getdcr, .getmxds, .getstatus], exec c s = .next (with_ { h with nack := true })) ∧
     (∀ n, exec (.rstact n) s = .next (with_ { h with resp := if n = 1 then none else h.resp })) ∧
     exec (.unsupportedCcc true) s = .next (with_ { h with nack := true }) ∧ exec (.unsupportedCcc false) s = .next s) ∧
  ((∀ h : HostPort, match nextIbi h with
     | none => ∀ x ∈ h.ibis, x.byte = 4 ∧ h.spacing = true
     | some i => ∃ x, h.ibis[i]? = some x ∧ ¬ (x.byte = 4 ∧ h.spacing = true) ∧
         ∀ j y, h.ibis[j]? = some y → ¬ (y.byte = 4 ∧ h.spacing = true) →
           ibiPriority y.byte ≤ ibiPriority x.byte ∧ (j < i → ibiPriority y.byte < ibiPriority x.byte)) ∧
   (∀ s : State, Settled s → awake s.dev = true →
     let h := s.dev.host
     let with_ : HostPort → State := fun g => { s with dev := { s.dev with host := g } }
     (h.addr = none → h.hj = true → exec .hotJoinTimer s = .next (with_ { h with hotJoins := h.hotJoins + 1 })) ∧
     (h.addr ≠ none ∨ h.hj = false → exec .hotJoinTimer s = .next s) ∧
     exec .ibiSpacingExpiry s = .next (with_ { h with spacing := false }) ∧
     exec (.ibiSend false) s = .next s ∧ (h.int = false ∨ h.addr = none → ∀ b, exec (.ibiSend b) s = .next s) ∧
     (∀ i x, h.int = true → h.addr ≠ none → nextIbi h = some i → h.ibis[i]? = some x → exec (.ibiSend true) s =
       .next (with_ { h with ibis := h.ibis.eraseIdx i, ibiSent := h.ibiSent + 1, lastIbi := some x,
                             spacing := h.spacing || (x.byte == 4 && (s.dev.img.hostIf.getD {}).ibiSpacing != 0) }))) ∧
   (∀ (d : Dev) (n : Nat),
     let h := d.img.hostIf.getD {}
     let f := u8 h.gpioFunction n
     let active : Prop := f = 2 ∧ (d.host.ibis ≠ [] ∨ ∃ r, (r ∈ (getTx d 0).queue ∨ r ∈ (getTx d 1).queue) ∧ r.dtype = 0x30) ∨
       f = 3 ∧ d.power.isp = true ∨ f = 4 ∧ d.power.perk = true
     (d.boot.accepted = false ∨ d.boot.step = .halted ∨ f < 2 ∨ 6 < f → gpioPin d n = none) ∧
     (live d = true → f = 5 → gpioPin d n = some true) ∧ (live d = true → f = 6 → gpioPin d n = some false) ∧
     (live d = true → 2 ≤ f → f ≤ 4 → ∃ b, gpioPin d n = some b ∧ (b = bit h.gpioPolarity n ↔ active))))

/-- R352, R353, R354, R357, R388: the checks of a command frame. Each failed check answers its status and serves nothing. -/
def Obligations.FramesAreCheckedInOrder : Prop :=
  ∀ (s : State) (f : Frame), Settled s → f.wf = true →
    let h := s.dev.host
    let answer : Nat → Nat → Nat → State → Prop := fun st seq op t => t.dev.host.resp = some (responseBytes st seq op [] none, 0) ∧
      t.dev.host.cmds = h.cmds + 1 ∧ SameOutside s t ∧ t.dev.mem = s.dev.mem ∧ t.dev.reqs = s.dev.reqs
    (awake s.dev = false ∨ h.addr = none ∨ h.cur ≠ none →
      exec (.statusRead f) s = .next { s with dev := { s.dev with host := { h with nack := true } } }) ∧
    (awake s.dev = true → h.addr ≠ none → h.cur = none →
      (f.payload.length ≠ f.len ∨ 4096 < f.len → Gives (.statusRead f) s fun t => answer 5 f.seq 1 t ∧ t.dev.err = s.dev.err) ∧
      (f.payload.length = f.len → f.len ≤ 4096 → f.crc ≠ crc32 (frameBytes 1 f) → s.dev.err.armed = none →
        Gives (.statusRead f) s fun t => answer 3 0xFFFF 0xFFFF t ∧ t.dev.host.crcErr = h.crcErr + 1 ∧
          t.dev.err = errRecord 0x20 none (0, 0) none false s.dev.err) ∧
      (∀ op, op < 65536 → opcodes.contains op = false → f.payload.length = f.len → f.len ≤ 4096 → f.crc = crc32 (frameBytes op f) →
        armedOn s.dev 0xA 0 = none → Gives (.badOpcode op f) s fun t => answer 4 f.seq op t ∧ t.dev.err = s.dev.err)) ∧
    (FrameTaken 0x10 f s → answered s.dev 0x10 = false → Gives (.attest f) s fun t => answer 2 f.seq 0x10 t ∧ t.dev.err = s.dev.err) ∧
    (FrameTaken 1 f s → f.session ≠ 255 → (8 ≤ f.session ∨ (getSession s.dev f.session).opened = false) →
      Gives (.statusRead f) s fun t => answer 7 f.seq 1 t ∧ t.dev.err = s.dev.err) ∧
    (FrameTaken 1 f s → f.session < 8 → (getSession s.dev f.session).opened = true → unprotect 1 f (getSession s.dev f.session) = none →
      (getSession s.dev f.session).row < 15 → Gives (.statusRead f) s fun t => answer 8 f.seq 1 t ∧
        t.dev.host.authFail = h.authFail + 1 ∧ (getSession t.dev f.session).opened = true ∧
        (getSession t.dev f.session).counter = (getSession s.dev f.session).counter ∧
        (getSession t.dev f.session).row = (getSession s.dev f.session).row + 1 ∧
        t.dev.err = errRecord 0x46 (some (getSession s.dev f.session).part) (9, f.session) none false s.dev.err)

/-- R353, R355, R387: STATUS_READ answers the words that it may read, and DENIED for a run that holds one it may not; a read of the
port returns the response, and BUSY while none is there. -/
def Obligations.StatusReadsAnswerTheirWords : Prop :=
  ∀ (s : State), Settled s →
    (∀ (f : Frame) (n : Option Nat) (p : Bytes), Carries 1 f n p s → p.length = 6 → u32 p 0 % 4 = 0 → 1 ≤ u16 p 4 → u16 p 4 ≤ 256 →
      let os := run (u32 p 0) (u16 p 4)
      let part := n.map (fun k => (getSession s.dev k).part)
      (live s.dev = true → (∀ o ∈ os, mayReadBlock part o = true) → Gives (.statusRead f) s fun t => SameOutside s t ∧
        Answers 1 f n 0 ((readWords os (servedState 1 n p s)).1.flatMap (fun w => le 4 w.toNat)) s t ∧ t.dev.mem = s.dev.mem ∧
        t.dev.reqs = s.dev.reqs ∧ (∀ k, n = some k → (getSession t.dev k).counter = (getSession s.dev k).counter + 1)) ∧
      (live s.dev = true → (∃ o ∈ os, mayReadBlock part o = false) → Gives (.statusRead f) s fun t => SameOutside s t ∧
        Answers 1 f n 6 [] s t ∧ t.dev.latches = s.dev.latches ∧ t.dev.mem = s.dev.mem) ∧
      (u16 p 4 = 1 → u32 p 0 / 65536 = 14 → Gives (.statusRead f) s fun t => SameOutside s t ∧
        Answers 1 f n 0 (le 4 (readWord s (u32 p 0)).toNat) s t)) ∧
    (awake s.dev = true → s.dev.host.addr ≠ none → ∀ cnt,
      (∀ b k, s.dev.host.resp = some (b, k) → exec (.responseRead cnt) s = .next { s with dev := { s.dev with host := { s.dev.host with
        nack := false, rx := slice b k cnt, resp := if b.length ≤ k + cnt then none else some (b, k + cnt) } } }) ∧
      (s.dev.host.resp = none → s.dev.host.cur = none → exec (.responseRead cnt) s = .next { s with dev := { s.dev with
        host := { s.dev.host with nack := false, rx := (responseBytes 1 0xFFFF 0xFFFF [] none).take cnt } } }) ∧
      (∀ c, s.dev.host.resp = none → s.dev.host.cur = some c → exec (.responseRead cnt) s = .next { s with dev := { s.dev with
        host := { s.dev.host with nack := false, rx := (responseBytes 1 c.frame.seq c.opcode [] none).take cnt } } }))

/-- R355, R21, R13: a WINDOW_WRITE of partition 0 writes the register at its offset by its access code, is DENIED at a register that
nothing may write, and has no effect where no register lies; from any other sender it is DENIED and nothing is written. Table 18.10:
PWR_POWER_PEAK is cleared by a write of ones. A 1 to the valid bit of a first-event register clears that bit, and the other fields
keep their values. R78: a latency maximum is cleared by ones. R184, Table 7.10: all ones to a watched slot's count clear count and
sum; other ones clear bits of the count; a cluster that is not powered holds no such register. -/
def Obligations.WindowWritesClearAndDeny : Prop :=
  ∀ (s : State) (f : Frame) (n : Option Nat) (p : Bytes) (off : Nat) (v : Word), Settled s → s.dev.err.armed = none → Carries 2 f n p s →
    off < 2 ^ 32 → off % 4 = 0 → p = le 4 off ++ le 4 v.toNat →
    let h0 := servedState 2 n p s
    let as_ (u t : State) : Prop := SameOutside s t ∧ t.dev.units = u.dev.units ∧ t.dev.cats = u.dev.cats ∧ t.dev.tiers = u.dev.tiers ∧
      t.dev.mov = u.dev.mov ∧ t.dev.kv = u.dev.kv ∧ t.dev.sched = u.dev.sched ∧ t.dev.err = u.dev.err ∧
      t.dev.power.peak = u.dev.power.peak ∧ t.dev.mem = u.dev.mem ∧ t.dev.reqs = u.dev.reqs
    (¬ HostSession n s → ∀ c ∈ [Instr.windowWrite f, .watchedCountClear f], Gives c s fun t => Answers 2 f n 6 [] s t ∧ as_ s t) ∧
    (HostSession n s →
      (∀ u, writeReg off v h0 = some u → Gives (.windowWrite f) s fun t => Answers 2 f n 0 [] s t ∧ as_ u t) ∧
      (writeReg off v h0 = none → Gives (.windowWrite f) s fun t =>
        Answers 2 f n (if (liveReg h0 0 off).isSome = true then 6 else 0) [] s t ∧ as_ s t) ∧
      (off = 0x10018 → Gives (.windowWrite f) s fun t => t.dev.power.peak = s.dev.power.peak &&& ~~~ v) ∧
      (off ∈ [0xAE004, 0xAE010, 0xAD00C, 0xB0000] → Gives (.windowWrite f) s fun t => Answers 2 f n 0 [] s t ∧
        readWord t off = readWord s off &&& ~~~ (v &&& 0x80000000)) ∧
      (∀ k : Fin 3, off = 0xA801C + 0x40 * k.val → Gives (.windowWrite f) s fun t => Answers 2 f n 0 [] s t ∧
        (getTier t.dev (k.val + 1)).latMax = (getTier s.dev (k.val + 1)).latMax &&& ~~~ v ∧
        (∀ j, j ≠ k.val + 1 → getTier t.dev j = getTier s.dev j)) ∧
      (∀ (c : Fin 24) (w : Fin 16), off = 0x60000 + c.val / 6 * 0x4000 + 0x1040 + c.val % 6 * 0x100 + 8 * w.val + 4 →
        Gives (.watchedCountClear f) s fun t => Answers 2 f n 0 [] s t ∧
          (s.dev.power.clusters.getLsbD (c.val / 6) = false → as_ s t) ∧
          (s.dev.power.clusters.getLsbD (c.val / 6) = true →
            (let old := tabGet (getUnit s.dev c.val).watch w.val {}
             tabGet (getUnit t.dev c.val).watch w.val {} = (if v = 0xFFFFFFFF then {} else { old with count := old.count &&& ~~~ v })) ∧
            (∀ j, j ≠ w.val → tabGet (getUnit t.dev c.val).watch j {} = tabGet (getUnit s.dev c.val).watch j {}) ∧
            (∀ u, u ≠ c.val → getUnit t.dev u = getUnit s.dev u) ∧ t.dev.mem = s.dev.mem)))

/-- R444, R445: INJ_CTRL arms an injection in the states that permit it and refuses it in the others; a disarm always disarms. R440,
R442: the owner clears an entry of the error record, or the first error. R326: PRT_RESET_REQ resets a declared partition. -/
def Obligations.WindowWritesInjectClearAndReset : Prop :=
  ∀ (s : State) (f : Frame) (n : Option Nat) (p : Bytes) (v : Word), Settled s → Carries 2 f n p s → HostSession n s →
    (p = le 4 0xF0008 ++ le 4 v.toNat → v.getLsbD 1 = false → v.getLsbD 0 = true →
      (live s.dev = true → injectionState s.otp s.dev = true → lifecycle s.otp ≠ 3 → Gives (.injArm f) s fun t => SameOutside s t ∧
        Answers 2 f n 0 [] s t ∧ t.dev.err.armed = some (s.dev.err.injId, if fieldOf v 5 4 = 1 then 1 else 0) ∧
        t.dev.err.entries = s.dev.err.entries ∧ t.dev.mem = s.dev.mem) ∧
      (injectionState s.otp s.dev = false ∨ (lifecycle s.otp = 3 ∧ bit s.dev.img.injMask (s.dev.err.injId / 4096) = false) →
        Gives (.injArm f) s fun t => SameOutside s t ∧ Answers 2 f n 0 [] s t ∧ t.dev.err.armed = s.dev.err.armed ∧
          t.dev.err.denied = true ∧ t.dev.mem = s.dev.mem)) ∧
    (p = le 4 0xF0008 ++ le 4 v.toNat → v.getLsbD 1 = true → Gives (.injDisarm f) s fun t => SameOutside s t ∧
      Answers 2 f n 0 [] s t ∧ t.dev.err.armed = none ∧ t.dev.err.denied = s.dev.err.denied ∧ t.dev.mem = s.dev.mem) ∧
    (∀ e : Fin 64, p = le 4 (0xE0100 + 8 * e.val) ++ le 4 v.toNat → v.getLsbD 31 = true → Gives (.errEntryClear f) s fun t => SameOutside s t ∧
      Answers 2 f n 0 [] s t ∧ (tabGet t.dev.err.entries e.val {}).used = false ∧
      (∀ k, k ≠ e.val → tabGet t.dev.err.entries k {} = tabGet s.dev.err.entries k {}) ∧ t.dev.err.first = s.dev.err.first ∧
      (errUsed t.dev.err = [] → t.dev.err.overSet = false) ∧ t.dev.mem = s.dev.mem) ∧
    (p = le 4 0xE0004 ++ le 4 v.toNat → v.getLsbD 31 = true → Gives (.errFirstClear f) s fun t => SameOutside s t ∧
      Answers 2 f n 0 [] s t ∧ t.dev.err.first = none ∧ t.dev.err.entries = s.dev.err.entries ∧ t.dev.mem = s.dev.mem) ∧
    (p = le 4 0xB000C ++ le 4 v.toNat → v.getLsbD 31 = true → s.dev.sched.go = false → s.dev.err.armed = none →
      let q := fieldOf v 6 0
      (q ≠ 0 → declared s.dev.img q = true → (getPart s.dev q).resetting = false → Gives (.prtResetReq f) s fun t => SameOutside s t ∧
        Answers 2 f n 0 [] s t ∧ t.dev.sched.go = true ∧ t.dev.sched.reqPart = q ∧ (getPart t.dev q).resetting = true ∧
        (∀ o ∈ ordersOfPart s.dev q, openReq t.dev o = false) ∧ SameBytes s t) ∧
      (q = 0 ∨ declared s.dev.img q = false → Gives (.prtResetReq f) s fun t => SameOutside s t ∧ Answers 2 f n 0 [] s t ∧
        t.dev.sched.go = false ∧ t.dev.sched.refused = true ∧ t.dev.sched.parts = s.dev.sched.parts ∧ t.dev.reqs = s.dev.reqs ∧
        t.dev.mem = s.dev.mem))

/-- R383, R386, Tables 16.8 and 16.11: ATTEST builds a report over the host's nonce, signed with the identity key; SESSION_OPEN
opens the lowest free session; the response goes out when the report is ready; SESSION_CLOSE destroys the session's keys and ends
its requests. -/
def Obligations.ReportsAndSessions : Prop :=
  ∀ s : State, Settled s →
    (∀ (f : Frame) (n : Option Nat) (p : Bytes), Carries 0x10 f n p s → p.length = 32 →
      (canAttest s.otp = true → Gives (.attest f) s fun t => SameOutside s t ∧ t.dev.host.resp = none ∧ t.dev.mem = s.dev.mem ∧
        ∃ c body, t.dev.host.cur = some c ∧ c.frame = f ∧ c.opcode = 0x10 ∧ c.awaits = .report ∧
          c.prot = n.map (fun k => (k, (getSession s.dev k).counter)) ∧ c.payload = body ++ Config.ecdsaSign s.otp.identity body ∧
          slice body 0x20 32 = p ∧ Config.ecdsaVerify (Config.publicKey s.otp.identity) body (Config.ecdsaSign s.otp.identity body) = true) ∧
      (canAttest s.otp = false → Gives (.attest f) s fun t => SameOutside s t ∧ Answers 0x10 f n 6 [] s t ∧ t.dev.mem = s.dev.mem)) ∧
    (∀ c, s.dev.host.cur = some c → c.awaits = .report → Gives .commandResponseReady s fun t => SameOutside s t ∧
      t.dev.host.cur = none ∧ t.dev.mem = s.dev.mem ∧ t.dev.host.resp = some (responseBytes 0 c.frame.seq c.opcode c.payload
        (c.prot.map (fun p => ⟨p.1, p.2, rspKey (getSession s.dev p.1)⟩)), 0)) ∧
    (∀ (f : Frame) (p : Bytes), Carries 0x11 f none p s → p.length = 228 → declared s.dev.img (u8 p 0) = true →
      bit (policyOf s.dev.img (u8 p 0)).flags 1 = true → hostAuthentic p (u8 p 0) s = true → pointValid (slice p 0x24 64) = true →
      (∀ n, n < 8 → (getSession s.dev n).opened = false → (∀ j, j < n → (getSession s.dev j).opened = true) →
        Gives (.sessionOpen f) s fun t => SameOutside s t ∧ (getSession t.dev n).opened = true ∧ (getSession t.dev n).part = u8 p 0 ∧
          (getSession t.dev n).counter = 0 ∧ (∀ j, j ≠ n → getSession t.dev j = getSession s.dev j) ∧ t.dev.mem = s.dev.mem ∧
          ∃ c, t.dev.host.cur = some c ∧ c.awaits = .report ∧ c.frame = f ∧ c.payload.take 4 = le 1 n ++ zeros 3) ∧
      ((∀ j, j < 8 → (getSession s.dev j).opened = true) → Gives (.sessionOpen f) s fun t => SameOutside s t ∧
        Answers 0x11 f none 6 [] s t ∧ t.dev.host.sessions = s.dev.host.sessions ∧ t.dev.mem = s.dev.mem)) ∧
    (∀ (f : Frame) (k : Nat), Carries 0x12 f (some k) [] s → s.dev.err.armed = none → Gives (.sessionClose f) s fun t => SameOutside s t ∧
      Answers 0x12 f (some k) 0 [] s t ∧ (getSession t.dev k).opened = false ∧ (getSession t.dev k).keys = [] ∧
      (∀ r ∈ s.dev.reqs, r.ended = none → ofSession k r.q = true → openReq t.dev r.order = false) ∧ SameOutsideHeaders s t) ∧
    (∀ (f : Frame) (p : Bytes), Carries 0x12 f none p s → Gives (.sessionClose f) s fun t => SameOutside s t ∧
      Answers 0x12 f none 7 [] s t ∧ t.dev.host.sessions = s.dev.host.sessions ∧ t.dev.mem = s.dev.mem)

/-- R356, R358, R359: a host event is a wake or a reset mark; tokens join the session's prompt, and the last of a turn sends its
wake. -/
def Obligations.HostEventsAndPrompts : Prop :=
  ∀ (s : State) (f : Frame) (n : Option Nat) (p : Bytes), Settled s → s.dev.err.armed = none →
    (Carries 0x20 f n p s → p.length = 12 → u8 p 0 = 0 → (u8 p 1 = 2 ∨ u8 p 1 = 3) →
      (∀ r, routeOf s.dev.img (u8 p 1) (u8 p 2) (u8 p 3) = some r → bit (policyOf s.dev.img r.part).flags 0 = true →
        Gives (.eventInjectWake f) s fun t => SameOutside s t ∧ Answers 0x20 f n 0 (le 4 (getTier s.dev (u8 p 1)).next) s t ∧
          (getTier t.dev (u8 p 1)).arrive = (getTier s.dev (u8 p 1)).arrive + 1) ∧
      (∀ r, routeOf s.dev.img (u8 p 1) (u8 p 2) (u8 p 3) = some r → bit (policyOf s.dev.img r.part).flags 0 = false →
        Gives (.eventInjectWake f) s fun t => SameOutside s t ∧ Answers 0x20 f n 6 [] s t ∧ t.dev.tiers = s.dev.tiers ∧ t.dev.reqs = s.dev.reqs) ∧
      (routeOf s.dev.img (u8 p 1) (u8 p 2) (u8 p 3) = none → Gives (.eventInjectWake f) s fun t => SameOutside s t ∧
        Answers 0x20 f n 10 [] s t ∧ (getTier t.dev (u8 p 1)).unrouted = (getTier s.dev (u8 p 1)).unrouted + 1 ∧ t.dev.reqs = s.dev.reqs)) ∧
    (∀ r, Carries 0x20 f n p s → p.length = 12 → u8 p 0 = 1 → seqRec? s.dev.img (u8 p 2) = some r →
      let m := u64 p 4 % 2 ^ 48
      (bit r.flags 1 = true → (getSeq s.dev (u8 p 2)).base ≤ m / chunkSteps s.dev.img (u8 p 2) →
        m / chunkSteps s.dev.img (u8 p 2) < (getSeq s.dev (u8 p 2)).base + 4 → Gives (.eventInjectMark f) s fun t => SameOutside s t ∧
          Answers 0x20 f n 0 (zeros 4) s t ∧ (getSeq t.dev (u8 p 2)).marks = insertNat m (getSeq s.dev (u8 p 2)).marks ∧ t.dev.mem = s.dev.mem) ∧
      (bit r.flags 1 = false → Gives (.eventInjectMark f) s fun t => SameOutside s t ∧ Answers 0x20 f n 6 [] s t ∧ t.dev.seqs = s.dev.seqs)) ∧
    (∀ k, n = some k → Carries 0x30 f n p s → 4 ≤ p.length → u16 p 2 ≤ 1017 → p.length = 4 + 4 * u16 p 2 →
      (getSession s.dev k).prompt.length + u16 p 2 ≤ 8192 →
      let prompt := (getSession s.dev k).prompt ++ tokensOf p
      let answer := le 2 (getSession s.dev k).turn ++ le 2 prompt.length
      ((getSession s.dev k).busy = false → bit (u8 p 1) 0 = false → Gives (.promptSubmit f) s fun t => SameOutside s t ∧
        Answers 0x30 f n 0 answer s t ∧ (getSession t.dev k).prompt = prompt ∧ (getSession t.dev k).turn = (getSession s.dev k).turn ∧
        t.dev.tiers = s.dev.tiers ∧ t.dev.mem = s.dev.mem) ∧
      (∀ r, (getSession s.dev k).busy = false → bit (u8 p 1) 0 = true → routeOf s.dev.img 3 255 (u8 p 0) = some r →
        r.part = (getSession s.dev k).part → Gives (.promptSubmit f) s fun t => SameOutside s t ∧ Answers 0x30 f n 0 answer s t ∧
          (getSession t.dev k).turn = ((getSession s.dev k).turn + 1) % 4294967296 ∧
          (getTier t.dev 3).arrive = (getTier s.dev 3).arrive + 1) ∧
      ((getSession s.dev k).busy = true → Gives (.promptSubmit f) s fun t => SameOutside s t ∧ Answers 0x30 f n 9 [] s t ∧
        (getSession t.dev k).prompt = (getSession s.dev k).prompt ∧ t.dev.tiers = s.dev.tiers))

/-- R86, R360: PREROLL_READ answers samples of a grant that are copied, waits for those that are not, and is DENIED outside the
grant's window, after the request has ended, and in a session whose channel is muzzled (log 155); the waiting answer goes out when
the samples are there, and is DENIED once the request has gone. -/
def Obligations.PrerollReadsAnswerCopiedSamples : Prop :=
  ∀ s : State, Settled s →
    (∀ (f : Frame) (n : Option Nat) (p : Bytes) (r : Req) (g : Grant), Carries 0x40 f n p s → p.length = 18 → 1 ≤ u16 p 16 → u16 p 16 ≤ 2048 →
      namedRequest (u8 p 0) (u32 p 4) s.dev = some r → r.grant = some g →
      let cnt := u16 p 16
      let first := signed 64 (u64 p 8)
      let mine := n.map (fun k => (getSession s.dev k).part) = some r.q.part ∧
        (prePolicy s.dev.img r.q.part).any (fun x => bit x.flags 2) = true
      (mine → inWindow g first cnt = true → r.ended = none → (∀ k, n = some k → isMuzzled s.dev (0x70 + k) = false) →
        (∀ b, grantSamples g first cnt = some b → Gives (.prerollRead f) s fun t => SameOutside s t ∧ Answers 0x40 f n 0 b s t ∧
          t.dev.reqs = s.dev.reqs ∧ t.dev.err = s.dev.err ∧ t.dev.mem = s.dev.mem) ∧
        (grantSamples g first cnt = none → Gives (.prerollRead f) s fun t => SameOutside s t ∧ t.dev.host.resp = none ∧
          (∃ c, t.dev.host.cur = some c ∧ c.awaits = .preroll r.tier r.q.arrival first cnt ∧ c.frame = f) ∧ t.dev.mem = s.dev.mem)) ∧
      (¬ mine ∨ inWindow g first cnt = false ∨ r.ended ≠ none ∨ (∃ k, n = some k ∧ isMuzzled s.dev (0x70 + k) = true) →
        Gives (.prerollRead f) s fun t => SameOutside s t ∧ Answers 0x40 f n 6 [] s t ∧
          t.dev.mem = s.dev.mem ∧ t.dev.reqs = s.dev.reqs ∧ ((∀ k, n = some k → isMuzzled s.dev (0x70 + k) = false) →
            t.dev.err = errRecord 0x45 (some r.q.part) (6, r.tier) none false s.dev.err))) ∧
    (∀ c tier arrival first cnt, s.dev.host.cur = some c → c.awaits = .preroll tier arrival first cnt →
      let answer : Nat → Bytes → State → Prop := fun st b t => t.dev.host.cur = none ∧ t.dev.host.resp = some (responseBytes st c.frame.seq c.opcode b
        (c.prot.map (fun p => ⟨p.1, p.2, rspKey (getSession s.dev p.1)⟩)), 0)
      (∀ r g b, openRequest tier arrival s.dev = some r → r.grant = some g → grantSamples g first cnt = some b →
        Gives .prerollResponseReady s fun t => SameOutside s t ∧ answer 0 b t ∧ t.dev.reqs = s.dev.reqs ∧ t.dev.mem = s.dev.mem) ∧
      (openRequest tier arrival s.dev = none → Gives .prerollResponseReady s fun t => SameOutside s t ∧ answer 6 [] t ∧
        t.dev.mem = s.dev.mem))

/-- R67, R370, R449: MAINTENANCE in a session of partition 0: a snapshot of the error log, a self-test, a tensor dump. Outside such
a session it is DENIED. -/
def Obligations.MaintenanceSnapshotsTestsAndDumps : Prop :=
  ∀ (s : State) (f : Frame) (n : Option Nat) (p : Bytes), Settled s → Carries 0x60 f n p s →
    (¬ HostSession n s → ∀ c ∈ [Instr.errlogSnapshot f, .selfTestRequest f, .lifecycleTransition f, .tensorDump f],
      Gives c s fun t => SameOutside s t ∧ Answers 0x60 f n 6 [] s t ∧ t.dev.flash = s.dev.flash ∧ t.dev.age = s.dev.age ∧
        t.dev.host.tx = s.dev.host.tx ∧ t.dev.mem = s.dev.mem) ∧
    (HostSession n s → p = le 2 1 →
      (s.dev.flash.spacing = false → s.dev.flash.writing = none → Gives (.errlogSnapshot f) s fun t => SameOutside s t ∧ Answers 0x60 f n 0 [] s t ∧
        t.dev.flash.spacing = true ∧ (∃ isA c, t.dev.flash.writing = some (true, isA, c) ∧ c.kind = 2 ∧ c.len = c.payload.length ∧
          c.crc = (crc32 c.payload).toNat ∧ u8 c.payload 2 = 2) ∧
        t.dev.flash.planA = s.dev.flash.planA ∧ t.dev.flash.planB = s.dev.flash.planB ∧ t.dev.mem = s.dev.mem) ∧
      (s.dev.flash.spacing = true → Gives (.errlogSnapshot f) s fun t => SameOutside s t ∧ Answers 0x60 f n 0 [] s t ∧
        t.dev.flash.logDue = some 2 ∧ t.dev.flash.writing = s.dev.flash.writing ∧ t.dev.mem = s.dev.mem)) ∧
    (∀ u k, HostSession n s → p = le 2 2 ++ le 1 u ++ le 1 k ++ zeros 2 → u < 24 → k ≤ 3 →
      (s.dev.age.retired.getLsbD u = false → lastOfCluster s.dev u = false → Gives (.selfTestRequest f) s fun t => SameOutside s t ∧
        Answers 0x60 f n 0 [] s t ∧ t.dev.age.avail = s.dev.age.avail ∧ t.dev.mem = s.dev.mem ∧
        (t.dev.age.testing = some (u, k) ∨ (u, k) ∈ t.dev.age.tests)) ∧
      (s.dev.age.retired.getLsbD u = true ∨ lastOfCluster s.dev u = true → Gives (.selfTestRequest f) s fun t => SameOutside s t ∧
        Answers 0x60 f n 6 [] s t ∧ t.dev.age = s.dev.age ∧ t.dev.mem = s.dev.mem)) ∧
    (∀ (r : Region) (off len : Nat), HostSession n s → p = le 2 4 ++ (le 4 r.id ++ le 4 off ++ le 4 len) → r.id < 2 ^ 32 →
      off < 2 ^ 32 → len < 2 ^ 32 → region? s.dev.img r.id = some r →
      (r.kind = 0 → (∀ k, n = some k → isMuzzled s.dev (0x70 + k) = false) → dumpState s.otp s.dev = true → off % 64 = 0 → len % 64 = 0 → off + len ≤ r.pages * 4096 → 0 < len → len ≤ 16384 →
        ∀ (ci : Nat) (c : Channel), channelOf s.dev.img 0 0x32 = some (ci, c) → (getTx s.dev c.port).queue.length < 256 →
        Gives (.tensorDump f) s fun t => SameOutside s t ∧ Answers 0x60 f n 0 [] s t ∧ t.dev.mem = s.dev.mem ∧
          ∃ x : TxRec, (getTx t.dev c.port).queue = (getTx s.dev c.port).queue ++ [x] ∧ x.chan = ci ∧ x.dtype = 0x32 ∧
            slice x.bytes 32 len = memRead s.dev.mem (r.base + off) len) ∧
      (r.kind ≠ 0 ∨ dumpState s.otp s.dev = false ∨ r.pages * 4096 < off + len ∨ (∃ k, n = some k ∧ isMuzzled s.dev (0x70 + k) = true) → Gives (.tensorDump f) s fun t => SameOutside s t ∧
        Answers 0x60 f n 6 [] s t ∧ t.dev.host.tx = s.dev.host.tx ∧ t.dev.mem = s.dev.mem))

/-- R377 to R381, Tables 16.5 and 16.6: an accepted request programs the intent group of its target; a request that is not is DENIED
with 0x47 and programs nothing; the end of programming completes the transition and resets the device. -/
def Obligations.LifecycleTransitionsProgramInTwoPhases : Prop :=
  ∀ s : State, Settled s →
    (∀ (f : Frame) (n : Option Nat) (q : Bytes), Carries 0x60 f n (le 2 3 ++ q) s → HostSession n s → q.length = 196 →
      (requestAccepted q s.otp = true → Gives (.lifecycleTransition f) s fun t => Answers 0x60 f n 0 [] s t ∧ t.kennel = s.kennel ∧
        t.pending = s.pending ∧ t.otp = programIntent (u8 q 1) { s.otp with request := slice q 0x24 32 } ∧ t.dev.mem = s.dev.mem ∧
        lifecycle t.otp = lifecycle s.otp) ∧
      (requestAccepted q s.otp = false → Gives (.lifecycleTransition f) s fun t => SameOutside s t ∧ Answers 0x60 f n 6 [] s t ∧
        t.dev.err = errRecord 0x47 none (0, 0) none false s.dev.err ∧ t.dev.mem = s.dev.mem)) ∧
    (∀ tgt, interrupted s.otp = some tgt → live s.dev = true → s.otp.state.length = 5 → s.otp.intent.length = 5 → tgt ≠ 5 →
      Gives .lifecycleProgramDone s fun t => t.kennel = s.kennel ∧ t.pending = s.pending ∧ t.otp = completeTransition tgt s.otp ∧
        lifecycle t.otp = tgt ∧ t.dev.power.cause = 16 ∧ t.dev.boot.step = .sfdp ∧ t.dev.boot.accepted = false ∧ t.dev.mem = {} ∧
        t.dev.reqs = []) ∧
    (interrupted s.otp = none ∨ live s.dev = false → exec .lifecycleProgramDone s = .next s)

/-- R395, R398, R404: a Kennel reset keeps what the Kennel holds for good and restarts the rest, and places its power-up record; a
reading stands as taken, with zero tracking within its bound. The device is not touched. R393, R406, R407: the seal and the
calibration. An opening is counted unless the counter is exhausted, and is the only way into service; a commit takes the next of 64
slots; parameters are written in service alone. The maker's transition makes the Kennel key. -/
def Obligations.KennelResetsReadsSealAndCalibration : Prop :=
  (∀ s : State,
     let k := s.kennel
     (∀ (cause : Fin 3) (opened : Bool), Gives (.kennelReset cause opened) s fun t => t.dev = s.dev ∧ SameOtp s t ∧
       t.kennel.running = true ∧ t.kennel.bootId.length = 8 ∧ t.kennel.powerupDue = true ∧ t.kennel.sealOpen = opened ∧
       t.kennel.tare = none ∧ t.kennel.zero = 0 ∧ t.kennel.op = none ∧ t.kennel.reading = none ∧ t.kennel.mailbox = {} ∧
       t.kennel.slots = k.slots ∧ t.kennel.calib = k.calib ∧ t.kennel.draft = none ∧ t.kennel.signing = k.signing ∧ t.kennel.cert = k.cert ∧
       t.kennel.events = (if opened = true ∧ k.events < 4095 then k.events + 1 else k.events)) ∧
     (∀ raw st, k.running = true → k.powerupDue = true → k.reading = some (raw, st) → Gives .kennelPowerupRecord s fun t =>
       t.dev = s.dev ∧ SameOtp s t ∧ RecordPlaced 5 0 (raw - k.zero) k t.kennel ∧ t.kennel.powerupDue = false ∧ t.kennel.zero = k.zero) ∧
     (k.running = false ∨ k.powerupDue = false → exec .kennelPowerupRecord s = .next s) ∧
     (∀ (raw : Int) (otp : Bool) (temp : Int) (clock faults : Nat), Instr.wf (.kennelReading raw otp temp clock faults) = true →
       (k.running = true → (∀ i, i < 4 → bit faults i = true → bit k.faults i = true) → (otp = true → bit k.faults 6 = true) →
         Gives (.kennelReading raw otp temp clock faults) s fun t => t.dev = s.dev ∧ SameOtp s t ∧ (∃ st, t.kennel.reading = some (raw, st)) ∧
           t.kennel.recent = (clock, raw) :: k.recent.filter (fun r => decide (clock ≤ r.1 + (calibOf k).window)) ∧
           (t.kennel.reading = some (raw, true) ↔ (calibOf k).window ≤ clock ∧
             ∀ x y, x ∈ t.kennel.recent → y ∈ t.kennel.recent → 2 * (x.2 - y.2) ≤ (calibOf k).e) ∧
           t.kennel.temp = temp ∧ t.kennel.clock = clock ∧ (∀ i, i < 7 → bit t.kennel.faults i = (decide (i < 4) && bit faults i || (i == 6 && otp))) ∧ t.kennel.next = k.next ∧
           t.kennel.mailbox = k.mailbox ∧ t.kennel.tare = k.tare ∧
           (t.kennel.zero - k.zero).natAbs ≤ ceilDiv (calibOf k).e (2 * (calibOf k).rate) ∧
           ((calibOf k).tracking = false ∨ (calibOf k).e < 4 * (raw - k.zero).natAbs → t.kennel.zero = k.zero)) ∧
       (k.running = false → exec (.kennelReading raw otp temp clock faults) s = .next s))) ∧
  (∀ s : State,
     let k := s.kennel
     let with_ : Kennel → Host.Outcome State Fault Refusal := fun x => .next { s with kennel := x }
     (k.running = true → k.sealOpen = false →
       (k.events < 4095 → exec (.sealOpen true) s = with_ { k with
         sealOpen := true, events := k.events + 1, exhausted := decide (k.events + 1 = 4095), mode := 1, service := true }) ∧
       exec (.sealOpen false) s = with_ { k with sealOpen := true } ∧
       (4095 ≤ k.events → exec (.sealOpen true) s = with_ { k with sealOpen := true })) ∧
     (k.running = true → k.sealOpen = true →
       exec .sealClose s = with_ { k with sealOpen := false, draft := none, service := false, mode := 0 } ∧
       ∀ b, exec (.sealOpen b) s = .next s) ∧
     (k.running = true → k.service = true → k.mode = 1 →
       (∀ n v, exec (.calibrationParameterWrite n v) s = with_ { k with draft := some (setParam n v (k.draft.getD (calibOf k))) }) ∧
       (∀ raw st, k.slots < 64 → k.reading = some (raw, st) → Gives .calibrationCommit s fun t => t.dev = s.dev ∧ SameOtp s t ∧
         t.kennel.calib = some (k.slots, k.draft.getD (calibOf k)) ∧ t.kennel.slots = k.slots + 1 ∧ t.kennel.draft = none ∧
         RecordPlaced 4 0 (raw - k.zero) k t.kennel ∧ t.kennel.events = k.events) ∧
       (64 ≤ k.slots → exec .calibrationCommit s = .next s)) ∧
     (k.running = false ∨ k.service = false ∨ k.mode ≠ 1 → exec .calibrationCommit s = .next s ∧
       ∀ n v, exec (.calibrationParameterWrite n v) s = .next s) ∧
     (∀ lk cert patch : Bytes, (lifecycle s.otp = 0 → s.otp.state.length = 5 → Gives (.blankToTestTransition lk cert patch) s fun t =>
         lifecycle t.otp = 1 ∧ t.otp.identity.length = 32 ∧ t.otp.root.length = 32 ∧ t.otp.link = fit 32 lk ∧ t.otp.cert = cert.take 1024 ∧
         t.otp.floor = s.otp.floor ∧ t.kennel.patch = patch ∧ t.kennel.signing.length = 32 ∧ t.kennel.events = k.events ∧
         t.dev = { s.dev with freeCtr := s.dev.freeCtr + 72 } ∧ t.pending = s.pending) ∧
       (lifecycle s.otp ≠ 0 → exec (.blankToTestTransition lk cert patch) s = .next s)))

/-- R399, R402: the answers of the Kennel to the device. A stable reading carries the waiting operation out; without one it fails
after 3 s; after 4 s without an answer the device answers 0xFF itself and later discards what comes. -/
def Obligations.KennelAnswersComeOrTimeOut : Prop :=
  ∀ s : State, Settled s →
    let k := s.kennel
    let answered : Bytes → InProgress → State → Prop := fun a c t => t.dev.host.cur = none ∧
      t.dev.host.resp = some (responseBytes 0 c.frame.seq c.opcode a (c.prot.map (fun p => ⟨p.1, p.2, rspKey (getSession s.dev p.1)⟩)), 0) ∧
      t.dev.mem = s.dev.mem ∧ t.dev.reqs = s.dev.reqs
    (∀ o raw, k.op = some o → k.reading = some (raw, true) →
      let r := performOp o raw { k with op := none }
      (∀ c, s.dev.host.cur = some c → c.awaits = .kennel → Gives .kennelStableReached s fun t => SameOtp s t ∧ answered r.1 c t ∧
        t.kennel = r.2 ∧ t.kennel.op = none) ∧
      (s.dev.host.cur = none → exec .kennelStableReached s = .next { s with kennel := { r.2 with answer := some r.1 } })) ∧
    (∀ o, k.op = some o →
      (∀ c, s.dev.host.cur = some c → c.awaits = .kennel → Gives .kennelStableTimeout s fun t => SameOtp s t ∧
        answered (kAnswer 1 1 o.id noRecord) c t ∧ t.kennel = { k with op := none }) ∧
      (s.dev.host.cur = none → exec .kennelStableTimeout s =
        .next { s with kennel := { k with op := none, answer := some (kAnswer 1 1 o.id noRecord) } })) ∧
    (∀ c, s.dev.host.cur = some c → c.awaits = .kennel → Gives .kennelAnswerTimeout s fun t => SameOutside s t ∧
      answered (kAnswer 0xFF 0 (u16 c.payload 2) noRecord) c t ∧ t.dev.host.noAnswer = s.dev.host.noAnswer + 1 ∧ t.dev.host.kenLate = true) ∧
    (s.dev.host.cur = none → exec .kennelAnswerTimeout s = .next s) ∧
    exec .kennelLateAnswer s = .next { s with
      kennel := { k with answer := none }, dev := { s.dev with host := { s.dev.host with kenLate := false } } }

/-- R405: an advance of the mailbox head queues interrupt 0x05. The records from the last one forwarded up to the head, from number
1 after a new boot_id, go to the host in order, whole and unchanged, while they are still in the mailbox; each that has been
overwritten is lost and recorded with 0x80; a new boot_id is recorded with 0x82. Before acceptance there is no channel and the
records wait (log 49). -/
def Obligations.TheForwarderSendsOrLosesRecords : Prop :=
  ∀ s : State, Settled s →
    let k := s.kennel
    let h := s.dev.host
    let b := slotBoot k k.head
    let again : Bool := h.kenSeen.2.any (fun o => o != b)
    let last := if again then 0 else h.kenSeen.1
    let ns := (List.range (k.head - last)).map (fun i => last + 1 + i)
    let whole := ns.filter (inMailbox k)
    let gone := ns.filter (fun m => !inMailbox k m)
    (headAdvanced k s.dev = false ∨ awake s.dev = false → exec .mailboxHeadAdvance s = .next s) ∧
    (headAdvanced k s.dev = true → awake s.dev = true → Gives .mailboxHeadAdvance s fun t => SameOutside s t ∧ t.dev.mem = s.dev.mem ∧
      t.dev.reqs = s.dev.reqs ∧ t.dev.host.kenSeen = (if live s.dev then k.head else last, some b) ∧
      (h.ibis.length < 16 → (⟨5, (k.head % 256, k.head / 256 % 256, k.head / 65536 % 256)⟩ : Ibi) ∈ t.dev.host.ibis) ∧
      (live s.dev = false → t.dev.host.forwarded = h.forwarded ∧ t.dev.host.lost = h.lost ∧ t.dev.host.tx = h.tx) ∧
      (live s.dev = true → t.dev.host.forwarded = h.forwarded + BitVec.ofNat 32 whole.length ∧
        t.dev.host.lost = h.lost + BitVec.ofNat 32 gone.length ∧
        ∀ (ci : Nat) (c : Channel), channelOf s.dev.img 0 0x31 = some (ci, c) → (getTx s.dev c.port).queue.length + whole.length ≤ 256 →
          t.dev.err = ((if again then [0x82] else []) ++ gone.map (fun _ => 0x80)).foldl (fun e x => errRecord x none (0, 0) none false e)
            s.dev.err ∧
          ∃ xs : List TxRec, (getTx t.dev c.port).queue = (getTx s.dev c.port).queue ++ xs ∧ xs.length = whole.length ∧
            ∀ (i : Nat) (x : TxRec) (m : Nat), xs[i]? = some x → whole[i]? = some m → x.dtype = 0x31 ∧ u8 x.bytes 0 = 6 ∧
              slice x.bytes 32 (tabGet k.mailbox (m % 16) []).length = tabGet k.mailbox (m % 16) []))

/-- R399 to R404, Table 17.3: the operations of the Kennel at a stable reading. Zero within 2 % of Max takes the reading as zero;
tare takes the gross value to the nearest multiples of e; each places its record and answers its number; out of range, zero and tare
change nothing. R400, R401, R403, R408: what the Kennel answers without an operation: its status block or certificate at any time it
runs, a malformed request with 3, and with the seal open, no calibration or the slot taken, the code for it. A frame that the policy
does not permit is DENIED and does not reach the Kennel. An operation without a stable reading takes the slot and waits. -/
def Obligations.KennelOperationsAndRefusals : Prop :=
  (∀ (s : State) (f : Frame) (n : Option Nat) (p : Bytes) (rid : Nat) (raw : Int), Settled s → Carries 0x50 f n p s →
     kennelPermitted n p s.dev = true → KennelReady s.kennel → s.kennel.reading = some (raw, true) → rid < 65536 →
     let k := s.kennel
     let c := calibOf k
     let gross := raw - k.zero
     let ok : State → Prop := fun t => SameOtp s t ∧ Answers 0x50 f n 0 (kAnswer 0 0 rid k.next) s t ∧
       t.dev.host.kenRequests = s.dev.host.kenRequests + 1 ∧ t.dev.mem = s.dev.mem ∧ t.dev.reqs = s.dev.reqs ∧ t.kennel.op = none ∧
       t.kennel.events = k.events ∧ t.kennel.calib = k.calib
     (p = le 1 1 ++ le 1 0 ++ le 2 rid →
       (50 * raw.natAbs ≤ c.max → k.tare = none → Gives (.kennelZero f) s fun t => ok t ∧ t.kennel.zero = raw ∧ RecordPlaced 2 rid 0 k t.kennel) ∧
       (c.max < 50 * raw.natAbs ∨ k.tare ≠ none → Gives (.kennelZero f) s fun t => SameOtp s t ∧ t.kennel = k ∧
         ∃ detail, Answers 0x50 f n 0 (kAnswer 1 detail rid noRecord) s t)) ∧
     (p = le 1 2 ++ le 1 0 ++ le 2 rid →
       (0 < gross → gross ≤ c.max → 0 < c.e → Gives (.kennelTareTake f) s fun t => ok t ∧ t.kennel.zero = k.zero ∧
         RecordPlaced 3 rid gross k t.kennel ∧ ∃ v, t.kennel.tare = some v ∧ (v - gross).natAbs < c.e ∧ (c.e : Int) ∣ v) ∧
       (gross ≤ 0 ∨ (c.max : Int) < gross → Gives (.kennelTareTake f) s fun t => SameOtp s t ∧ t.kennel = k ∧
         Answers 0x50 f n 0 (kAnswer 1 4 rid noRecord) s t)) ∧
     (p = le 1 2 ++ le 1 1 ++ le 2 rid → Gives (.kennelTareClear f) s fun t => ok t ∧ t.kennel.tare = none ∧ t.kennel.zero = k.zero ∧
       RecordPlaced 3 rid gross k t.kennel) ∧
     (p = le 1 3 ++ le 1 0 ++ le 2 rid → Gives (.kennelReadLatest f) s fun t => ok t ∧ t.kennel.tare = k.tare ∧ t.kennel.zero = k.zero ∧
       RecordPlaced 1 rid gross k t.kennel) ∧
     (p = le 1 3 ++ le 1 1 ++ le 2 rid → Gives (.kennelReadStable f) s fun t => ok t ∧ t.kennel.tare = k.tare ∧ t.kennel.zero = k.zero ∧
       RecordPlaced 1 rid gross k t.kennel)) ∧
  (∀ (s : State) (f : Frame) (n : Option Nat) (p : Bytes), Settled s → Carries 0x50 f n p s →
     let k := s.kennel
     let ops := [Instr.kennelZero f, .kennelTareTake f, .kennelReadStable f]
     let rid := u16 p 2
     let kept : Bytes → State → Prop := fun a t => SameOtp s t ∧ t.kennel = k ∧ Answers 0x50 f n 0 a s t ∧ t.dev.mem = s.dev.mem
     (kennelPermitted n p s.dev = false → ∀ c ∈ ops, Gives c s fun t => SameOutside s t ∧ Answers 0x50 f n 6 [] s t ∧
       t.dev.host.kenRequests = s.dev.host.kenRequests ∧ t.dev.mem = s.dev.mem) ∧
     (kennelPermitted n p s.dev = true → k.running = true →
       (p = le 1 4 ++ le 1 0 ++ le 2 rid → Gives (.kennelStatusBlock f) s (kept (kAnswer 0 0 rid noRecord ++ statusBlock k))) ∧
       (p = le 1 4 ++ le 1 1 ++ le 2 rid → Gives (.kennelCertificate f) s (kept (kAnswer 0 0 rid noRecord ++ le 2 k.cert.length ++ k.cert))) ∧
       (requestValid p = false → Gives (.kennelBadRequest f) s (kept (kAnswer 3 0 rid noRecord))) ∧
       (requestValid p = true → u8 p 0 ≠ 4 → ∀ c ∈ ops,
         (k.sealOpen = true → Gives c s (kept (kAnswer 5 0 rid noRecord))) ∧
         (k.sealOpen = false → k.calib = none → Gives c s (kept (kAnswer 4 0 rid noRecord))) ∧
         (k.sealOpen = false → k.calib ≠ none → k.op ≠ none → Gives c s (kept (kAnswer 2 0 rid noRecord)))) ∧
       (requestValid p = true → u8 p 0 ≠ 4 → KennelReady k → (∀ raw, k.reading ≠ some (raw, true)) →
         (u8 p 0 = 1 ∨ (u8 p 0 = 2 ∧ u8 p 1 = 0) ∨ (u8 p 0 = 3 ∧ u8 p 1 = 1)) → ∀ c ∈ ops, Gives c s fun t => SameOtp s t ∧
           t.kennel = { k with op := some ⟨u8 p 0, u8 p 1, rid⟩ } ∧ t.dev.host.resp = none ∧ t.dev.mem = s.dev.mem ∧
           ∃ x, t.dev.host.cur = some x ∧ x.frame = f ∧ x.awaits = .kennel)))

/-- R363, R364, R366, R482: the output engine sends one record at a time: the head of the queue, or the first of the open frame's
channel while one is open, at most 64 to a frame, pass-through frames alone. A telemetry record carries its number and the words of
its list; its number advances whether or not the record finds room, and one that finds none is dropped and recorded with 0x22. -/
def Obligations.RecordsLeaveInFramesAndTelemetryJoins : Prop :=
  ∀ s : State, Settled s →
    (∀ (p : Fin 2) (held : Nat), let x := getTx s.dev p.val
      (live s.dev = false ∨ s.dev.power.isp = false ∨ txLanes s.dev.img p.val = 0 ∨ nextRecord x = none →
        exec (.recordSend p held) s = .next s) ∧
      (live s.dev = true → s.dev.power.isp = true → txLanes s.dev.img p.val ≠ 0 →
        ((x.frame = none ∧ x.queue ≠ []) ∨ ∃ c m, x.frame = some (c, m) ∧ x.queue.any (fun y => y.chan == c && !isPass y) = true) →
        ∃ i r, x.queue[i]? = some r ∧ (x.frame = none → i = 0) ∧
          (∀ c m, x.frame = some (c, m) → r.chan = c ∧ isPass r = false ∧
            ∀ j y, j < i → x.queue[j]? = some y → y.chan = c → isPass y = true) ∧
          (let rest := x.queue.eraseIdx i
           Gives (.recordSend p held) s fun t => SameOutside s t ∧ t.dev.mem = s.dev.mem ∧
            (∃ more, (getTx t.dev p.val).queue = rest ++ more) ∧
            (isPass r = true → (getTx t.dev p.val).sent = some (u64 r.bytes 8 % 65535 + 1, r) ∧ (getTx t.dev p.val).frame = x.frame ∧
              (getTx t.dev p.val).records = x.records) ∧
            (isPass r = false →
              let no := (tabGet s.dev.host.chans r.chan {}).frame
              let num := if x.frame.isSome then no else no % 65535 + 1
              let sent := (x.frame.map (fun f => f.2)).getD 0 + 1
              (getTx t.dev p.val).sent = some (num, r) ∧ (getTx t.dev p.val).records = x.records + 1 ∧
              (tabGet t.dev.host.chans r.chan {}).frame = num ∧
              (getTx t.dev p.val).frame = if sent < 64 ∧ rest.any (fun y => y.chan == r.chan && !isPass y) = true then some (r.chan, sent) else none) ∧
            (getTx t.dev p.val).held = (if heldBack p.val s.dev then addW x.held held else x.held)))) ∧
    (let h := s.dev.img.hostIf.getD {}
     (live s.dev = false ∨ h.telemetryPeriod = 0 → exec .telemetryPeriod s = .next s) ∧
     (live s.dev = true → h.telemetryPeriod ≠ 0 → Gives .telemetryPeriod s fun t => SameOutside s t ∧
        t.dev.host.telemetry = s.dev.host.telemetry + 1 ∧ t.dev.mem = s.dev.mem ∧ t.dev.reqs = s.dev.reqs ∧
        (channelOf s.dev.img 0 0x31 = none → t.dev.host.tx = s.dev.host.tx ∧ t.dev.err = s.dev.err) ∧
        (∀ (ci : Nat) (c : Channel), channelOf s.dev.img 0 0x31 = some (ci, c) →
          (256 ≤ (getTx s.dev c.port).queue.length → (getTx t.dev c.port).queue = (getTx s.dev c.port).queue ∧
            (getTx t.dev c.port).dropped = (getTx s.dev c.port).dropped + 1 ∧
            t.dev.err = errRecord 0x22 (some 0) (0, 0) none false s.dev.err) ∧
          ((getTx s.dev c.port).queue.length < 256 → t.dev.err = s.dev.err ∧
            ∃ x : TxRec, (getTx t.dev c.port).queue = (getTx s.dev c.port).queue ++ [x] ∧ x.dtype = 0x31 ∧ u8 x.bytes 0 = 5 ∧
              slice x.bytes 32 (8 + 4 * h.offsets.length) =
                le 8 s.dev.host.telemetry ++ (readWords h.offsets s).1.flatMap (fun w => le 4 w.toNat)))))
end

