-- ==== Sys2Proof/Laws/State.lean ====
section
/-! SUPPORT. What each named update of the device writes and what it leaves, one lemma per field. -/

namespace Sys2Proof.Machine

/-! ### modTier -/

@[simp] theorem modTier_boot (t : Nat) (f : Tier → Tier) (d : Dev) : (modTier t f d).boot = d.boot := rfl
@[simp] theorem modTier_img (t : Nat) (f : Tier → Tier) (d : Dev) : (modTier t f d).img = d.img := rfl
@[simp] theorem modTier_err (t : Nat) (f : Tier → Tier) (d : Dev) : (modTier t f d).err = d.err := rfl
@[simp] theorem modTier_flash (t : Nat) (f : Tier → Tier) (d : Dev) : (modTier t f d).flash = d.flash := rfl
@[simp] theorem modTier_tiers (t : Nat) (f : Tier → Tier) (d : Dev) :
    (modTier t f d).tiers = tabMod d.tiers t {} f := rfl
@[simp] theorem modTier_reqs (t : Nat) (f : Tier → Tier) (d : Dev) : (modTier t f d).reqs = d.reqs := rfl
@[simp] theorem modTier_nextOrder (t : Nat) (f : Tier → Tier) (d : Dev) : (modTier t f d).nextOrder = d.nextOrder := rfl
@[simp] theorem modTier_audio (t : Nat) (f : Tier → Tier) (d : Dev) : (modTier t f d).audio = d.audio := rfl
@[simp] theorem modTier_cam (t : Nat) (f : Tier → Tier) (d : Dev) : (modTier t f d).cam = d.cam := rfl
@[simp] theorem modTier_units (t : Nat) (f : Tier → Tier) (d : Dev) : (modTier t f d).units = d.units := rfl
@[simp] theorem modTier_clusters (t : Nat) (f : Tier → Tier) (d : Dev) : (modTier t f d).clusters = d.clusters := rfl
@[simp] theorem modTier_cats (t : Nat) (f : Tier → Tier) (d : Dev) : (modTier t f d).cats = d.cats := rfl
@[simp] theorem modTier_seqs (t : Nat) (f : Tier → Tier) (d : Dev) : (modTier t f d).seqs = d.seqs := rfl
@[simp] theorem modTier_blks (t : Nat) (f : Tier → Tier) (d : Dev) : (modTier t f d).blks = d.blks := rfl
@[simp] theorem modTier_kv (t : Nat) (f : Tier → Tier) (d : Dev) : (modTier t f d).kv = d.kv := rfl
@[simp] theorem modTier_mem (t : Nat) (f : Tier → Tier) (d : Dev) : (modTier t f d).mem = d.mem := rfl
@[simp] theorem modTier_mov (t : Nat) (f : Tier → Tier) (d : Dev) : (modTier t f d).mov = d.mov := rfl
@[simp] theorem modTier_sched (t : Nat) (f : Tier → Tier) (d : Dev) : (modTier t f d).sched = d.sched := rfl
@[simp] theorem modTier_host (t : Nat) (f : Tier → Tier) (d : Dev) : (modTier t f d).host = d.host := rfl
@[simp] theorem modTier_power (t : Nat) (f : Tier → Tier) (d : Dev) : (modTier t f d).power = d.power := rfl
@[simp] theorem modTier_age (t : Nat) (f : Tier → Tier) (d : Dev) : (modTier t f d).age = d.age := rfl
@[simp] theorem modTier_latches (t : Nat) (f : Tier → Tier) (d : Dev) : (modTier t f d).latches = d.latches := rfl
@[simp] theorem modTier_freeCtr (t : Nat) (f : Tier → Tier) (d : Dev) : (modTier t f d).freeCtr = d.freeCtr := rfl

/-! ### modUnit -/

@[simp] theorem modUnit_boot (u : Nat) (f : Unit_ → Unit_) (d : Dev) : (modUnit u f d).boot = d.boot := rfl
@[simp] theorem modUnit_img (u : Nat) (f : Unit_ → Unit_) (d : Dev) : (modUnit u f d).img = d.img := rfl
@[simp] theorem modUnit_err (u : Nat) (f : Unit_ → Unit_) (d : Dev) : (modUnit u f d).err = d.err := rfl
@[simp] theorem modUnit_flash (u : Nat) (f : Unit_ → Unit_) (d : Dev) : (modUnit u f d).flash = d.flash := rfl
@[simp] theorem modUnit_tiers (u : Nat) (f : Unit_ → Unit_) (d : Dev) : (modUnit u f d).tiers = d.tiers := rfl
@[simp] theorem modUnit_reqs (u : Nat) (f : Unit_ → Unit_) (d : Dev) : (modUnit u f d).reqs = d.reqs := rfl
@[simp] theorem modUnit_nextOrder (u : Nat) (f : Unit_ → Unit_) (d : Dev) : (modUnit u f d).nextOrder = d.nextOrder := rfl
@[simp] theorem modUnit_audio (u : Nat) (f : Unit_ → Unit_) (d : Dev) : (modUnit u f d).audio = d.audio := rfl
@[simp] theorem modUnit_cam (u : Nat) (f : Unit_ → Unit_) (d : Dev) : (modUnit u f d).cam = d.cam := rfl
@[simp] theorem modUnit_units (u : Nat) (f : Unit_ → Unit_) (d : Dev) :
    (modUnit u f d).units = tabMod d.units u {} f := rfl
@[simp] theorem modUnit_clusters (u : Nat) (f : Unit_ → Unit_) (d : Dev) : (modUnit u f d).clusters = d.clusters := rfl
@[simp] theorem modUnit_cats (u : Nat) (f : Unit_ → Unit_) (d : Dev) : (modUnit u f d).cats = d.cats := rfl
@[simp] theorem modUnit_seqs (u : Nat) (f : Unit_ → Unit_) (d : Dev) : (modUnit u f d).seqs = d.seqs := rfl
@[simp] theorem modUnit_blks (u : Nat) (f : Unit_ → Unit_) (d : Dev) : (modUnit u f d).blks = d.blks := rfl
@[simp] theorem modUnit_kv (u : Nat) (f : Unit_ → Unit_) (d : Dev) : (modUnit u f d).kv = d.kv := rfl
@[simp] theorem modUnit_mem (u : Nat) (f : Unit_ → Unit_) (d : Dev) : (modUnit u f d).mem = d.mem := rfl
@[simp] theorem modUnit_mov (u : Nat) (f : Unit_ → Unit_) (d : Dev) : (modUnit u f d).mov = d.mov := rfl
@[simp] theorem modUnit_sched (u : Nat) (f : Unit_ → Unit_) (d : Dev) : (modUnit u f d).sched = d.sched := rfl
@[simp] theorem modUnit_host (u : Nat) (f : Unit_ → Unit_) (d : Dev) : (modUnit u f d).host = d.host := rfl
@[simp] theorem modUnit_power (u : Nat) (f : Unit_ → Unit_) (d : Dev) : (modUnit u f d).power = d.power := rfl
@[simp] theorem modUnit_age (u : Nat) (f : Unit_ → Unit_) (d : Dev) : (modUnit u f d).age = d.age := rfl
@[simp] theorem modUnit_latches (u : Nat) (f : Unit_ → Unit_) (d : Dev) : (modUnit u f d).latches = d.latches := rfl
@[simp] theorem modUnit_freeCtr (u : Nat) (f : Unit_ → Unit_) (d : Dev) : (modUnit u f d).freeCtr = d.freeCtr := rfl

/-! ### modCluster -/

@[simp] theorem modCluster_boot (n : Nat) (f : Cluster → Cluster) (d : Dev) : (modCluster n f d).boot = d.boot := rfl
@[simp] theorem modCluster_img (n : Nat) (f : Cluster → Cluster) (d : Dev) : (modCluster n f d).img = d.img := rfl
@[simp] theorem modCluster_err (n : Nat) (f : Cluster → Cluster) (d : Dev) : (modCluster n f d).err = d.err := rfl
@[simp] theorem modCluster_flash (n : Nat) (f : Cluster → Cluster) (d : Dev) : (modCluster n f d).flash = d.flash := rfl
@[simp] theorem modCluster_tiers (n : Nat) (f : Cluster → Cluster) (d : Dev) : (modCluster n f d).tiers = d.tiers := rfl
@[simp] theorem modCluster_reqs (n : Nat) (f : Cluster → Cluster) (d : Dev) : (modCluster n f d).reqs = d.reqs := rfl
@[simp] theorem modCluster_nextOrder (n : Nat) (f : Cluster → Cluster) (d : Dev) : (modCluster n f d).nextOrder = d.nextOrder := rfl
@[simp] theorem modCluster_audio (n : Nat) (f : Cluster → Cluster) (d : Dev) : (modCluster n f d).audio = d.audio := rfl
@[simp] theorem modCluster_cam (n : Nat) (f : Cluster → Cluster) (d : Dev) : (modCluster n f d).cam = d.cam := rfl
@[simp] theorem modCluster_units (n : Nat) (f : Cluster → Cluster) (d : Dev) : (modCluster n f d).units = d.units := rfl
@[simp] theorem modCluster_clusters (n : Nat) (f : Cluster → Cluster) (d : Dev) :
    (modCluster n f d).clusters = tabMod d.clusters n {} f := rfl
@[simp] theorem modCluster_cats (n : Nat) (f : Cluster → Cluster) (d : Dev) : (modCluster n f d).cats = d.cats := rfl
@[simp] theorem modCluster_seqs (n : Nat) (f : Cluster → Cluster) (d : Dev) : (modCluster n f d).seqs = d.seqs := rfl
@[simp] theorem modCluster_blks (n : Nat) (f : Cluster → Cluster) (d : Dev) : (modCluster n f d).blks = d.blks := rfl
@[simp] theorem modCluster_kv (n : Nat) (f : Cluster → Cluster) (d : Dev) : (modCluster n f d).kv = d.kv := rfl
@[simp] theorem modCluster_mem (n : Nat) (f : Cluster → Cluster) (d : Dev) : (modCluster n f d).mem = d.mem := rfl
@[simp] theorem modCluster_mov (n : Nat) (f : Cluster → Cluster) (d : Dev) : (modCluster n f d).mov = d.mov := rfl
@[simp] theorem modCluster_sched (n : Nat) (f : Cluster → Cluster) (d : Dev) : (modCluster n f d).sched = d.sched := rfl
@[simp] theorem modCluster_host (n : Nat) (f : Cluster → Cluster) (d : Dev) : (modCluster n f d).host = d.host := rfl
@[simp] theorem modCluster_power (n : Nat) (f : Cluster → Cluster) (d : Dev) : (modCluster n f d).power = d.power := rfl
@[simp] theorem modCluster_age (n : Nat) (f : Cluster → Cluster) (d : Dev) : (modCluster n f d).age = d.age := rfl
@[simp] theorem modCluster_latches (n : Nat) (f : Cluster → Cluster) (d : Dev) : (modCluster n f d).latches = d.latches := rfl
@[simp] theorem modCluster_freeCtr (n : Nat) (f : Cluster → Cluster) (d : Dev) : (modCluster n f d).freeCtr = d.freeCtr := rfl

/-! ### modCat -/

@[simp] theorem modCat_boot (n : Nat) (f : Cat → Cat) (d : Dev) : (modCat n f d).boot = d.boot := rfl
@[simp] theorem modCat_img (n : Nat) (f : Cat → Cat) (d : Dev) : (modCat n f d).img = d.img := rfl
@[simp] theorem modCat_err (n : Nat) (f : Cat → Cat) (d : Dev) : (modCat n f d).err = d.err := rfl
@[simp] theorem modCat_flash (n : Nat) (f : Cat → Cat) (d : Dev) : (modCat n f d).flash = d.flash := rfl
@[simp] theorem modCat_tiers (n : Nat) (f : Cat → Cat) (d : Dev) : (modCat n f d).tiers = d.tiers := rfl
@[simp] theorem modCat_reqs (n : Nat) (f : Cat → Cat) (d : Dev) : (modCat n f d).reqs = d.reqs := rfl
@[simp] theorem modCat_nextOrder (n : Nat) (f : Cat → Cat) (d : Dev) : (modCat n f d).nextOrder = d.nextOrder := rfl
@[simp] theorem modCat_audio (n : Nat) (f : Cat → Cat) (d : Dev) : (modCat n f d).audio = d.audio := rfl
@[simp] theorem modCat_cam (n : Nat) (f : Cat → Cat) (d : Dev) : (modCat n f d).cam = d.cam := rfl
@[simp] theorem modCat_units (n : Nat) (f : Cat → Cat) (d : Dev) : (modCat n f d).units = d.units := rfl
@[simp] theorem modCat_clusters (n : Nat) (f : Cat → Cat) (d : Dev) : (modCat n f d).clusters = d.clusters := rfl
@[simp] theorem modCat_cats (n : Nat) (f : Cat → Cat) (d : Dev) :
    (modCat n f d).cats = tabMod d.cats n {} f := rfl
@[simp] theorem modCat_seqs (n : Nat) (f : Cat → Cat) (d : Dev) : (modCat n f d).seqs = d.seqs := rfl
@[simp] theorem modCat_blks (n : Nat) (f : Cat → Cat) (d : Dev) : (modCat n f d).blks = d.blks := rfl
@[simp] theorem modCat_kv (n : Nat) (f : Cat → Cat) (d : Dev) : (modCat n f d).kv = d.kv := rfl
@[simp] theorem modCat_mem (n : Nat) (f : Cat → Cat) (d : Dev) : (modCat n f d).mem = d.mem := rfl
@[simp] theorem modCat_mov (n : Nat) (f : Cat → Cat) (d : Dev) : (modCat n f d).mov = d.mov := rfl
@[simp] theorem modCat_sched (n : Nat) (f : Cat → Cat) (d : Dev) : (modCat n f d).sched = d.sched := rfl
@[simp] theorem modCat_host (n : Nat) (f : Cat → Cat) (d : Dev) : (modCat n f d).host = d.host := rfl
@[simp] theorem modCat_power (n : Nat) (f : Cat → Cat) (d : Dev) : (modCat n f d).power = d.power := rfl
@[simp] theorem modCat_age (n : Nat) (f : Cat → Cat) (d : Dev) : (modCat n f d).age = d.age := rfl
@[simp] theorem modCat_latches (n : Nat) (f : Cat → Cat) (d : Dev) : (modCat n f d).latches = d.latches := rfl
@[simp] theorem modCat_freeCtr (n : Nat) (f : Cat → Cat) (d : Dev) : (modCat n f d).freeCtr = d.freeCtr := rfl

/-! ### modSeq -/

@[simp] theorem modSeq_boot (n : Nat) (f : Seq → Seq) (d : Dev) : (modSeq n f d).boot = d.boot := rfl
@[simp] theorem modSeq_img (n : Nat) (f : Seq → Seq) (d : Dev) : (modSeq n f d).img = d.img := rfl
@[simp] theorem modSeq_err (n : Nat) (f : Seq → Seq) (d : Dev) : (modSeq n f d).err = d.err := rfl
@[simp] theorem modSeq_flash (n : Nat) (f : Seq → Seq) (d : Dev) : (modSeq n f d).flash = d.flash := rfl
@[simp] theorem modSeq_tiers (n : Nat) (f : Seq → Seq) (d : Dev) : (modSeq n f d).tiers = d.tiers := rfl
@[simp] theorem modSeq_reqs (n : Nat) (f : Seq → Seq) (d : Dev) : (modSeq n f d).reqs = d.reqs := rfl
@[simp] theorem modSeq_nextOrder (n : Nat) (f : Seq → Seq) (d : Dev) : (modSeq n f d).nextOrder = d.nextOrder := rfl
@[simp] theorem modSeq_audio (n : Nat) (f : Seq → Seq) (d : Dev) : (modSeq n f d).audio = d.audio := rfl
@[simp] theorem modSeq_cam (n : Nat) (f : Seq → Seq) (d : Dev) : (modSeq n f d).cam = d.cam := rfl
@[simp] theorem modSeq_units (n : Nat) (f : Seq → Seq) (d : Dev) : (modSeq n f d).units = d.units := rfl
@[simp] theorem modSeq_clusters (n : Nat) (f : Seq → Seq) (d : Dev) : (modSeq n f d).clusters = d.clusters := rfl
@[simp] theorem modSeq_cats (n : Nat) (f : Seq → Seq) (d : Dev) : (modSeq n f d).cats = d.cats := rfl
@[simp] theorem modSeq_seqs (n : Nat) (f : Seq → Seq) (d : Dev) :
    (modSeq n f d).seqs = tabMod d.seqs n {} f := rfl
@[simp] theorem modSeq_blks (n : Nat) (f : Seq → Seq) (d : Dev) : (modSeq n f d).blks = d.blks := rfl
@[simp] theorem modSeq_kv (n : Nat) (f : Seq → Seq) (d : Dev) : (modSeq n f d).kv = d.kv := rfl
@[simp] theorem modSeq_mem (n : Nat) (f : Seq → Seq) (d : Dev) : (modSeq n f d).mem = d.mem := rfl
@[simp] theorem modSeq_mov (n : Nat) (f : Seq → Seq) (d : Dev) : (modSeq n f d).mov = d.mov := rfl
@[simp] theorem modSeq_sched (n : Nat) (f : Seq → Seq) (d : Dev) : (modSeq n f d).sched = d.sched := rfl
@[simp] theorem modSeq_host (n : Nat) (f : Seq → Seq) (d : Dev) : (modSeq n f d).host = d.host := rfl
@[simp] theorem modSeq_power (n : Nat) (f : Seq → Seq) (d : Dev) : (modSeq n f d).power = d.power := rfl
@[simp] theorem modSeq_age (n : Nat) (f : Seq → Seq) (d : Dev) : (modSeq n f d).age = d.age := rfl
@[simp] theorem modSeq_latches (n : Nat) (f : Seq → Seq) (d : Dev) : (modSeq n f d).latches = d.latches := rfl
@[simp] theorem modSeq_freeCtr (n : Nat) (f : Seq → Seq) (d : Dev) : (modSeq n f d).freeCtr = d.freeCtr := rfl

/-! ### modBlk -/

@[simp] theorem modBlk_boot (n : Nat) (f : Blk → Blk) (d : Dev) : (modBlk n f d).boot = d.boot := rfl
@[simp] theorem modBlk_img (n : Nat) (f : Blk → Blk) (d : Dev) : (modBlk n f d).img = d.img := rfl
@[simp] theorem modBlk_err (n : Nat) (f : Blk → Blk) (d : Dev) : (modBlk n f d).err = d.err := rfl
@[simp] theorem modBlk_flash (n : Nat) (f : Blk → Blk) (d : Dev) : (modBlk n f d).flash = d.flash := rfl
@[simp] theorem modBlk_tiers (n : Nat) (f : Blk → Blk) (d : Dev) : (modBlk n f d).tiers = d.tiers := rfl
@[simp] theorem modBlk_reqs (n : Nat) (f : Blk → Blk) (d : Dev) : (modBlk n f d).reqs = d.reqs := rfl
@[simp] theorem modBlk_nextOrder (n : Nat) (f : Blk → Blk) (d : Dev) : (modBlk n f d).nextOrder = d.nextOrder := rfl
@[simp] theorem modBlk_audio (n : Nat) (f : Blk → Blk) (d : Dev) : (modBlk n f d).audio = d.audio := rfl
@[simp] theorem modBlk_cam (n : Nat) (f : Blk → Blk) (d : Dev) : (modBlk n f d).cam = d.cam := rfl
@[simp] theorem modBlk_units (n : Nat) (f : Blk → Blk) (d : Dev) : (modBlk n f d).units = d.units := rfl
@[simp] theorem modBlk_clusters (n : Nat) (f : Blk → Blk) (d : Dev) : (modBlk n f d).clusters = d.clusters := rfl
@[simp] theorem modBlk_cats (n : Nat) (f : Blk → Blk) (d : Dev) : (modBlk n f d).cats = d.cats := rfl
@[simp] theorem modBlk_seqs (n : Nat) (f : Blk → Blk) (d : Dev) : (modBlk n f d).seqs = d.seqs := rfl
@[simp] theorem modBlk_blks (n : Nat) (f : Blk → Blk) (d : Dev) :
    (modBlk n f d).blks = tabMod d.blks n {} f := rfl
@[simp] theorem modBlk_kv (n : Nat) (f : Blk → Blk) (d : Dev) : (modBlk n f d).kv = d.kv := rfl
@[simp] theorem modBlk_mem (n : Nat) (f : Blk → Blk) (d : Dev) : (modBlk n f d).mem = d.mem := rfl
@[simp] theorem modBlk_mov (n : Nat) (f : Blk → Blk) (d : Dev) : (modBlk n f d).mov = d.mov := rfl
@[simp] theorem modBlk_sched (n : Nat) (f : Blk → Blk) (d : Dev) : (modBlk n f d).sched = d.sched := rfl
@[simp] theorem modBlk_host (n : Nat) (f : Blk → Blk) (d : Dev) : (modBlk n f d).host = d.host := rfl
@[simp] theorem modBlk_power (n : Nat) (f : Blk → Blk) (d : Dev) : (modBlk n f d).power = d.power := rfl
@[simp] theorem modBlk_age (n : Nat) (f : Blk → Blk) (d : Dev) : (modBlk n f d).age = d.age := rfl
@[simp] theorem modBlk_latches (n : Nat) (f : Blk → Blk) (d : Dev) : (modBlk n f d).latches = d.latches := rfl
@[simp] theorem modBlk_freeCtr (n : Nat) (f : Blk → Blk) (d : Dev) : (modBlk n f d).freeCtr = d.freeCtr := rfl

/-! ### modKv -/

@[simp] theorem modKv_boot (n : Nat) (f : KvSeq → KvSeq) (d : Dev) : (modKv n f d).boot = d.boot := rfl
@[simp] theorem modKv_img (n : Nat) (f : KvSeq → KvSeq) (d : Dev) : (modKv n f d).img = d.img := rfl
@[simp] theorem modKv_err (n : Nat) (f : KvSeq → KvSeq) (d : Dev) : (modKv n f d).err = d.err := rfl
@[simp] theorem modKv_flash (n : Nat) (f : KvSeq → KvSeq) (d : Dev) : (modKv n f d).flash = d.flash := rfl
@[simp] theorem modKv_tiers (n : Nat) (f : KvSeq → KvSeq) (d : Dev) : (modKv n f d).tiers = d.tiers := rfl
@[simp] theorem modKv_reqs (n : Nat) (f : KvSeq → KvSeq) (d : Dev) : (modKv n f d).reqs = d.reqs := rfl
@[simp] theorem modKv_nextOrder (n : Nat) (f : KvSeq → KvSeq) (d : Dev) : (modKv n f d).nextOrder = d.nextOrder := rfl
@[simp] theorem modKv_audio (n : Nat) (f : KvSeq → KvSeq) (d : Dev) : (modKv n f d).audio = d.audio := rfl
@[simp] theorem modKv_cam (n : Nat) (f : KvSeq → KvSeq) (d : Dev) : (modKv n f d).cam = d.cam := rfl
@[simp] theorem modKv_units (n : Nat) (f : KvSeq → KvSeq) (d : Dev) : (modKv n f d).units = d.units := rfl
@[simp] theorem modKv_clusters (n : Nat) (f : KvSeq → KvSeq) (d : Dev) : (modKv n f d).clusters = d.clusters := rfl
@[simp] theorem modKv_cats (n : Nat) (f : KvSeq → KvSeq) (d : Dev) : (modKv n f d).cats = d.cats := rfl
@[simp] theorem modKv_seqs (n : Nat) (f : KvSeq → KvSeq) (d : Dev) : (modKv n f d).seqs = d.seqs := rfl
@[simp] theorem modKv_blks (n : Nat) (f : KvSeq → KvSeq) (d : Dev) : (modKv n f d).blks = d.blks := rfl
@[simp] theorem modKv_kv (n : Nat) (f : KvSeq → KvSeq) (d : Dev) :
    (modKv n f d).kv = { d.kv with seqs := tabMod d.kv.seqs n {} f } := rfl
@[simp] theorem modKv_mem (n : Nat) (f : KvSeq → KvSeq) (d : Dev) : (modKv n f d).mem = d.mem := rfl
@[simp] theorem modKv_mov (n : Nat) (f : KvSeq → KvSeq) (d : Dev) : (modKv n f d).mov = d.mov := rfl
@[simp] theorem modKv_sched (n : Nat) (f : KvSeq → KvSeq) (d : Dev) : (modKv n f d).sched = d.sched := rfl
@[simp] theorem modKv_host (n : Nat) (f : KvSeq → KvSeq) (d : Dev) : (modKv n f d).host = d.host := rfl
@[simp] theorem modKv_power (n : Nat) (f : KvSeq → KvSeq) (d : Dev) : (modKv n f d).power = d.power := rfl
@[simp] theorem modKv_age (n : Nat) (f : KvSeq → KvSeq) (d : Dev) : (modKv n f d).age = d.age := rfl
@[simp] theorem modKv_latches (n : Nat) (f : KvSeq → KvSeq) (d : Dev) : (modKv n f d).latches = d.latches := rfl
@[simp] theorem modKv_freeCtr (n : Nat) (f : KvSeq → KvSeq) (d : Dev) : (modKv n f d).freeCtr = d.freeCtr := rfl

/-! ### modPart -/

@[simp] theorem modPart_boot (p : Nat) (f : Part → Part) (d : Dev) : (modPart p f d).boot = d.boot := rfl
@[simp] theorem modPart_img (p : Nat) (f : Part → Part) (d : Dev) : (modPart p f d).img = d.img := rfl
@[simp] theorem modPart_err (p : Nat) (f : Part → Part) (d : Dev) : (modPart p f d).err = d.err := rfl
@[simp] theorem modPart_flash (p : Nat) (f : Part → Part) (d : Dev) : (modPart p f d).flash = d.flash := rfl
@[simp] theorem modPart_tiers (p : Nat) (f : Part → Part) (d : Dev) : (modPart p f d).tiers = d.tiers := rfl
@[simp] theorem modPart_reqs (p : Nat) (f : Part → Part) (d : Dev) : (modPart p f d).reqs = d.reqs := rfl
@[simp] theorem modPart_nextOrder (p : Nat) (f : Part → Part) (d : Dev) : (modPart p f d).nextOrder = d.nextOrder := rfl
@[simp] theorem modPart_audio (p : Nat) (f : Part → Part) (d : Dev) : (modPart p f d).audio = d.audio := rfl
@[simp] theorem modPart_cam (p : Nat) (f : Part → Part) (d : Dev) : (modPart p f d).cam = d.cam := rfl
@[simp] theorem modPart_units (p : Nat) (f : Part → Part) (d : Dev) : (modPart p f d).units = d.units := rfl
@[simp] theorem modPart_clusters (p : Nat) (f : Part → Part) (d : Dev) : (modPart p f d).clusters = d.clusters := rfl
@[simp] theorem modPart_cats (p : Nat) (f : Part → Part) (d : Dev) : (modPart p f d).cats = d.cats := rfl
@[simp] theorem modPart_seqs (p : Nat) (f : Part → Part) (d : Dev) : (modPart p f d).seqs = d.seqs := rfl
@[simp] theorem modPart_blks (p : Nat) (f : Part → Part) (d : Dev) : (modPart p f d).blks = d.blks := rfl
@[simp] theorem modPart_kv (p : Nat) (f : Part → Part) (d : Dev) : (modPart p f d).kv = d.kv := rfl
@[simp] theorem modPart_mem (p : Nat) (f : Part → Part) (d : Dev) : (modPart p f d).mem = d.mem := rfl
@[simp] theorem modPart_mov (p : Nat) (f : Part → Part) (d : Dev) : (modPart p f d).mov = d.mov := rfl
@[simp] theorem modPart_sched (p : Nat) (f : Part → Part) (d : Dev) :
    (modPart p f d).sched = { d.sched with parts := tabMod d.sched.parts p {} f } := rfl
@[simp] theorem modPart_host (p : Nat) (f : Part → Part) (d : Dev) : (modPart p f d).host = d.host := rfl
@[simp] theorem modPart_power (p : Nat) (f : Part → Part) (d : Dev) : (modPart p f d).power = d.power := rfl
@[simp] theorem modPart_age (p : Nat) (f : Part → Part) (d : Dev) : (modPart p f d).age = d.age := rfl
@[simp] theorem modPart_latches (p : Nat) (f : Part → Part) (d : Dev) : (modPart p f d).latches = d.latches := rfl
@[simp] theorem modPart_freeCtr (p : Nat) (f : Part → Part) (d : Dev) : (modPart p f d).freeCtr = d.freeCtr := rfl

/-! ### modSched -/

@[simp] theorem modSched_boot (f : Sched → Sched) (d : Dev) : (modSched f d).boot = d.boot := rfl
@[simp] theorem modSched_img (f : Sched → Sched) (d : Dev) : (modSched f d).img = d.img := rfl
@[simp] theorem modSched_err (f : Sched → Sched) (d : Dev) : (modSched f d).err = d.err := rfl
@[simp] theorem modSched_flash (f : Sched → Sched) (d : Dev) : (modSched f d).flash = d.flash := rfl
@[simp] theorem modSched_tiers (f : Sched → Sched) (d : Dev) : (modSched f d).tiers = d.tiers := rfl
@[simp] theorem modSched_reqs (f : Sched → Sched) (d : Dev) : (modSched f d).reqs = d.reqs := rfl
@[simp] theorem modSched_nextOrder (f : Sched → Sched) (d : Dev) : (modSched f d).nextOrder = d.nextOrder := rfl
@[simp] theorem modSched_audio (f : Sched → Sched) (d : Dev) : (modSched f d).audio = d.audio := rfl
@[simp] theorem modSched_cam (f : Sched → Sched) (d : Dev) : (modSched f d).cam = d.cam := rfl
@[simp] theorem modSched_units (f : Sched → Sched) (d : Dev) : (modSched f d).units = d.units := rfl
@[simp] theorem modSched_clusters (f : Sched → Sched) (d : Dev) : (modSched f d).clusters = d.clusters := rfl
@[simp] theorem modSched_cats (f : Sched → Sched) (d : Dev) : (modSched f d).cats = d.cats := rfl
@[simp] theorem modSched_seqs (f : Sched → Sched) (d : Dev) : (modSched f d).seqs = d.seqs := rfl
@[simp] theorem modSched_blks (f : Sched → Sched) (d : Dev) : (modSched f d).blks = d.blks := rfl
@[simp] theorem modSched_kv (f : Sched → Sched) (d : Dev) : (modSched f d).kv = d.kv := rfl
@[simp] theorem modSched_mem (f : Sched → Sched) (d : Dev) : (modSched f d).mem = d.mem := rfl
@[simp] theorem modSched_mov (f : Sched → Sched) (d : Dev) : (modSched f d).mov = d.mov := rfl
@[simp] theorem modSched_sched (f : Sched → Sched) (d : Dev) :
    (modSched f d).sched = f d.sched := rfl
@[simp] theorem modSched_host (f : Sched → Sched) (d : Dev) : (modSched f d).host = d.host := rfl
@[simp] theorem modSched_power (f : Sched → Sched) (d : Dev) : (modSched f d).power = d.power := rfl
@[simp] theorem modSched_age (f : Sched → Sched) (d : Dev) : (modSched f d).age = d.age := rfl
@[simp] theorem modSched_latches (f : Sched → Sched) (d : Dev) : (modSched f d).latches = d.latches := rfl
@[simp] theorem modSched_freeCtr (f : Sched → Sched) (d : Dev) : (modSched f d).freeCtr = d.freeCtr := rfl

/-! ### modInst -/

@[simp] theorem modInst_boot (g i : Nat) (f : GInst → GInst) (d : Dev) : (modInst g i f d).boot = d.boot := rfl
@[simp] theorem modInst_img (g i : Nat) (f : GInst → GInst) (d : Dev) : (modInst g i f d).img = d.img := rfl
@[simp] theorem modInst_err (g i : Nat) (f : GInst → GInst) (d : Dev) : (modInst g i f d).err = d.err := rfl
@[simp] theorem modInst_flash (g i : Nat) (f : GInst → GInst) (d : Dev) : (modInst g i f d).flash = d.flash := rfl
@[simp] theorem modInst_tiers (g i : Nat) (f : GInst → GInst) (d : Dev) : (modInst g i f d).tiers = d.tiers := rfl
@[simp] theorem modInst_reqs (g i : Nat) (f : GInst → GInst) (d : Dev) : (modInst g i f d).reqs = d.reqs := rfl
@[simp] theorem modInst_nextOrder (g i : Nat) (f : GInst → GInst) (d : Dev) : (modInst g i f d).nextOrder = d.nextOrder := rfl
@[simp] theorem modInst_audio (g i : Nat) (f : GInst → GInst) (d : Dev) : (modInst g i f d).audio = d.audio := rfl
@[simp] theorem modInst_cam (g i : Nat) (f : GInst → GInst) (d : Dev) : (modInst g i f d).cam = d.cam := rfl
@[simp] theorem modInst_units (g i : Nat) (f : GInst → GInst) (d : Dev) : (modInst g i f d).units = d.units := rfl
@[simp] theorem modInst_clusters (g i : Nat) (f : GInst → GInst) (d : Dev) : (modInst g i f d).clusters = d.clusters := rfl
@[simp] theorem modInst_cats (g i : Nat) (f : GInst → GInst) (d : Dev) : (modInst g i f d).cats = d.cats := rfl
@[simp] theorem modInst_seqs (g i : Nat) (f : GInst → GInst) (d : Dev) : (modInst g i f d).seqs = d.seqs := rfl
@[simp] theorem modInst_blks (g i : Nat) (f : GInst → GInst) (d : Dev) : (modInst g i f d).blks = d.blks := rfl
@[simp] theorem modInst_kv (g i : Nat) (f : GInst → GInst) (d : Dev) : (modInst g i f d).kv = d.kv := rfl
@[simp] theorem modInst_mem (g i : Nat) (f : GInst → GInst) (d : Dev) : (modInst g i f d).mem = d.mem := rfl
@[simp] theorem modInst_mov (g i : Nat) (f : GInst → GInst) (d : Dev) : (modInst g i f d).mov = d.mov := rfl
@[simp] theorem modInst_sched (g i : Nat) (f : GInst → GInst) (d : Dev) :
    (modInst g i f d).sched = { d.sched with insts := tabMod d.sched.insts (64 * g + i) {} f } := rfl
@[simp] theorem modInst_host (g i : Nat) (f : GInst → GInst) (d : Dev) : (modInst g i f d).host = d.host := rfl
@[simp] theorem modInst_power (g i : Nat) (f : GInst → GInst) (d : Dev) : (modInst g i f d).power = d.power := rfl
@[simp] theorem modInst_age (g i : Nat) (f : GInst → GInst) (d : Dev) : (modInst g i f d).age = d.age := rfl
@[simp] theorem modInst_latches (g i : Nat) (f : GInst → GInst) (d : Dev) : (modInst g i f d).latches = d.latches := rfl
@[simp] theorem modInst_freeCtr (g i : Nat) (f : GInst → GInst) (d : Dev) : (modInst g i f d).freeCtr = d.freeCtr := rfl

/-! ### modStep -/

@[simp] theorem modStep_boot (g : Nat) (f : StepG → StepG) (d : Dev) : (modStep g f d).boot = d.boot := rfl
@[simp] theorem modStep_img (g : Nat) (f : StepG → StepG) (d : Dev) : (modStep g f d).img = d.img := rfl
@[simp] theorem modStep_err (g : Nat) (f : StepG → StepG) (d : Dev) : (modStep g f d).err = d.err := rfl
@[simp] theorem modStep_flash (g : Nat) (f : StepG → StepG) (d : Dev) : (modStep g f d).flash = d.flash := rfl
@[simp] theorem modStep_tiers (g : Nat) (f : StepG → StepG) (d : Dev) : (modStep g f d).tiers = d.tiers := rfl
@[simp] theorem modStep_reqs (g : Nat) (f : StepG → StepG) (d : Dev) : (modStep g f d).reqs = d.reqs := rfl
@[simp] theorem modStep_nextOrder (g : Nat) (f : StepG → StepG) (d : Dev) : (modStep g f d).nextOrder = d.nextOrder := rfl
@[simp] theorem modStep_audio (g : Nat) (f : StepG → StepG) (d : Dev) : (modStep g f d).audio = d.audio := rfl
@[simp] theorem modStep_cam (g : Nat) (f : StepG → StepG) (d : Dev) : (modStep g f d).cam = d.cam := rfl
@[simp] theorem modStep_units (g : Nat) (f : StepG → StepG) (d : Dev) : (modStep g f d).units = d.units := rfl
@[simp] theorem modStep_clusters (g : Nat) (f : StepG → StepG) (d : Dev) : (modStep g f d).clusters = d.clusters := rfl
@[simp] theorem modStep_cats (g : Nat) (f : StepG → StepG) (d : Dev) : (modStep g f d).cats = d.cats := rfl
@[simp] theorem modStep_seqs (g : Nat) (f : StepG → StepG) (d : Dev) : (modStep g f d).seqs = d.seqs := rfl
@[simp] theorem modStep_blks (g : Nat) (f : StepG → StepG) (d : Dev) : (modStep g f d).blks = d.blks := rfl
@[simp] theorem modStep_kv (g : Nat) (f : StepG → StepG) (d : Dev) : (modStep g f d).kv = d.kv := rfl
@[simp] theorem modStep_mem (g : Nat) (f : StepG → StepG) (d : Dev) : (modStep g f d).mem = d.mem := rfl
@[simp] theorem modStep_mov (g : Nat) (f : StepG → StepG) (d : Dev) : (modStep g f d).mov = d.mov := rfl
@[simp] theorem modStep_sched (g : Nat) (f : StepG → StepG) (d : Dev) :
    (modStep g f d).sched = { d.sched with steps := tabMod d.sched.steps g {} f } := rfl
@[simp] theorem modStep_host (g : Nat) (f : StepG → StepG) (d : Dev) : (modStep g f d).host = d.host := rfl
@[simp] theorem modStep_power (g : Nat) (f : StepG → StepG) (d : Dev) : (modStep g f d).power = d.power := rfl
@[simp] theorem modStep_age (g : Nat) (f : StepG → StepG) (d : Dev) : (modStep g f d).age = d.age := rfl
@[simp] theorem modStep_latches (g : Nat) (f : StepG → StepG) (d : Dev) : (modStep g f d).latches = d.latches := rfl
@[simp] theorem modStep_freeCtr (g : Nat) (f : StepG → StepG) (d : Dev) : (modStep g f d).freeCtr = d.freeCtr := rfl

/-! ### modStream -/

@[simp] theorem modStream_boot (s : Nat) (f : CamStream → CamStream) (d : Dev) : (modStream s f d).boot = d.boot := rfl
@[simp] theorem modStream_img (s : Nat) (f : CamStream → CamStream) (d : Dev) : (modStream s f d).img = d.img := rfl
@[simp] theorem modStream_err (s : Nat) (f : CamStream → CamStream) (d : Dev) : (modStream s f d).err = d.err := rfl
@[simp] theorem modStream_flash (s : Nat) (f : CamStream → CamStream) (d : Dev) : (modStream s f d).flash = d.flash := rfl
@[simp] theorem modStream_tiers (s : Nat) (f : CamStream → CamStream) (d : Dev) : (modStream s f d).tiers = d.tiers := rfl
@[simp] theorem modStream_reqs (s : Nat) (f : CamStream → CamStream) (d : Dev) : (modStream s f d).reqs = d.reqs := rfl
@[simp] theorem modStream_nextOrder (s : Nat) (f : CamStream → CamStream) (d : Dev) : (modStream s f d).nextOrder = d.nextOrder := rfl
@[simp] theorem modStream_audio (s : Nat) (f : CamStream → CamStream) (d : Dev) : (modStream s f d).audio = d.audio := rfl
@[simp] theorem modStream_cam (s : Nat) (f : CamStream → CamStream) (d : Dev) :
    (modStream s f d).cam = { d.cam with streams := tabMod d.cam.streams s {} f } := rfl
@[simp] theorem modStream_units (s : Nat) (f : CamStream → CamStream) (d : Dev) : (modStream s f d).units = d.units := rfl
@[simp] theorem modStream_clusters (s : Nat) (f : CamStream → CamStream) (d : Dev) : (modStream s f d).clusters = d.clusters := rfl
@[simp] theorem modStream_cats (s : Nat) (f : CamStream → CamStream) (d : Dev) : (modStream s f d).cats = d.cats := rfl
@[simp] theorem modStream_seqs (s : Nat) (f : CamStream → CamStream) (d : Dev) : (modStream s f d).seqs = d.seqs := rfl
@[simp] theorem modStream_blks (s : Nat) (f : CamStream → CamStream) (d : Dev) : (modStream s f d).blks = d.blks := rfl
@[simp] theorem modStream_kv (s : Nat) (f : CamStream → CamStream) (d : Dev) : (modStream s f d).kv = d.kv := rfl
@[simp] theorem modStream_mem (s : Nat) (f : CamStream → CamStream) (d : Dev) : (modStream s f d).mem = d.mem := rfl
@[simp] theorem modStream_mov (s : Nat) (f : CamStream → CamStream) (d : Dev) : (modStream s f d).mov = d.mov := rfl
@[simp] theorem modStream_sched (s : Nat) (f : CamStream → CamStream) (d : Dev) : (modStream s f d).sched = d.sched := rfl
@[simp] theorem modStream_host (s : Nat) (f : CamStream → CamStream) (d : Dev) : (modStream s f d).host = d.host := rfl
@[simp] theorem modStream_power (s : Nat) (f : CamStream → CamStream) (d : Dev) : (modStream s f d).power = d.power := rfl
@[simp] theorem modStream_age (s : Nat) (f : CamStream → CamStream) (d : Dev) : (modStream s f d).age = d.age := rfl
@[simp] theorem modStream_latches (s : Nat) (f : CamStream → CamStream) (d : Dev) : (modStream s f d).latches = d.latches := rfl
@[simp] theorem modStream_freeCtr (s : Nat) (f : CamStream → CamStream) (d : Dev) : (modStream s f d).freeCtr = d.freeCtr := rfl

/-! ### modSensor -/

@[simp] theorem modSensor_boot (s : Nat) (f : Sensor → Sensor) (d : Dev) : (modSensor s f d).boot = d.boot := rfl
@[simp] theorem modSensor_img (s : Nat) (f : Sensor → Sensor) (d : Dev) : (modSensor s f d).img = d.img := rfl
@[simp] theorem modSensor_err (s : Nat) (f : Sensor → Sensor) (d : Dev) : (modSensor s f d).err = d.err := rfl
@[simp] theorem modSensor_flash (s : Nat) (f : Sensor → Sensor) (d : Dev) : (modSensor s f d).flash = d.flash := rfl
@[simp] theorem modSensor_tiers (s : Nat) (f : Sensor → Sensor) (d : Dev) : (modSensor s f d).tiers = d.tiers := rfl
@[simp] theorem modSensor_reqs (s : Nat) (f : Sensor → Sensor) (d : Dev) : (modSensor s f d).reqs = d.reqs := rfl
@[simp] theorem modSensor_nextOrder (s : Nat) (f : Sensor → Sensor) (d : Dev) : (modSensor s f d).nextOrder = d.nextOrder := rfl
@[simp] theorem modSensor_audio (s : Nat) (f : Sensor → Sensor) (d : Dev) : (modSensor s f d).audio = d.audio := rfl
@[simp] theorem modSensor_cam (s : Nat) (f : Sensor → Sensor) (d : Dev) :
    (modSensor s f d).cam = { d.cam with sensors := tabMod d.cam.sensors s {} f } := rfl
@[simp] theorem modSensor_units (s : Nat) (f : Sensor → Sensor) (d : Dev) : (modSensor s f d).units = d.units := rfl
@[simp] theorem modSensor_clusters (s : Nat) (f : Sensor → Sensor) (d : Dev) : (modSensor s f d).clusters = d.clusters := rfl
@[simp] theorem modSensor_cats (s : Nat) (f : Sensor → Sensor) (d : Dev) : (modSensor s f d).cats = d.cats := rfl
@[simp] theorem modSensor_seqs (s : Nat) (f : Sensor → Sensor) (d : Dev) : (modSensor s f d).seqs = d.seqs := rfl
@[simp] theorem modSensor_blks (s : Nat) (f : Sensor → Sensor) (d : Dev) : (modSensor s f d).blks = d.blks := rfl
@[simp] theorem modSensor_kv (s : Nat) (f : Sensor → Sensor) (d : Dev) : (modSensor s f d).kv = d.kv := rfl
@[simp] theorem modSensor_mem (s : Nat) (f : Sensor → Sensor) (d : Dev) : (modSensor s f d).mem = d.mem := rfl
@[simp] theorem modSensor_mov (s : Nat) (f : Sensor → Sensor) (d : Dev) : (modSensor s f d).mov = d.mov := rfl
@[simp] theorem modSensor_sched (s : Nat) (f : Sensor → Sensor) (d : Dev) : (modSensor s f d).sched = d.sched := rfl
@[simp] theorem modSensor_host (s : Nat) (f : Sensor → Sensor) (d : Dev) : (modSensor s f d).host = d.host := rfl
@[simp] theorem modSensor_power (s : Nat) (f : Sensor → Sensor) (d : Dev) : (modSensor s f d).power = d.power := rfl
@[simp] theorem modSensor_age (s : Nat) (f : Sensor → Sensor) (d : Dev) : (modSensor s f d).age = d.age := rfl
@[simp] theorem modSensor_latches (s : Nat) (f : Sensor → Sensor) (d : Dev) : (modSensor s f d).latches = d.latches := rfl
@[simp] theorem modSensor_freeCtr (s : Nat) (f : Sensor → Sensor) (d : Dev) : (modSensor s f d).freeCtr = d.freeCtr := rfl

/-! ### modCamPort -/

@[simp] theorem modCamPort_boot (p : Nat) (f : CamPort → CamPort) (d : Dev) : (modCamPort p f d).boot = d.boot := rfl
@[simp] theorem modCamPort_img (p : Nat) (f : CamPort → CamPort) (d : Dev) : (modCamPort p f d).img = d.img := rfl
@[simp] theorem modCamPort_err (p : Nat) (f : CamPort → CamPort) (d : Dev) : (modCamPort p f d).err = d.err := rfl
@[simp] theorem modCamPort_flash (p : Nat) (f : CamPort → CamPort) (d : Dev) : (modCamPort p f d).flash = d.flash := rfl
@[simp] theorem modCamPort_tiers (p : Nat) (f : CamPort → CamPort) (d : Dev) : (modCamPort p f d).tiers = d.tiers := rfl
@[simp] theorem modCamPort_reqs (p : Nat) (f : CamPort → CamPort) (d : Dev) : (modCamPort p f d).reqs = d.reqs := rfl
@[simp] theorem modCamPort_nextOrder (p : Nat) (f : CamPort → CamPort) (d : Dev) : (modCamPort p f d).nextOrder = d.nextOrder := rfl
@[simp] theorem modCamPort_audio (p : Nat) (f : CamPort → CamPort) (d : Dev) : (modCamPort p f d).audio = d.audio := rfl
@[simp] theorem modCamPort_cam (p : Nat) (f : CamPort → CamPort) (d : Dev) :
    (modCamPort p f d).cam = { d.cam with ports := tabMod d.cam.ports p {} f } := rfl
@[simp] theorem modCamPort_units (p : Nat) (f : CamPort → CamPort) (d : Dev) : (modCamPort p f d).units = d.units := rfl
@[simp] theorem modCamPort_clusters (p : Nat) (f : CamPort → CamPort) (d : Dev) : (modCamPort p f d).clusters = d.clusters := rfl
@[simp] theorem modCamPort_cats (p : Nat) (f : CamPort → CamPort) (d : Dev) : (modCamPort p f d).cats = d.cats := rfl
@[simp] theorem modCamPort_seqs (p : Nat) (f : CamPort → CamPort) (d : Dev) : (modCamPort p f d).seqs = d.seqs := rfl
@[simp] theorem modCamPort_blks (p : Nat) (f : CamPort → CamPort) (d : Dev) : (modCamPort p f d).blks = d.blks := rfl
@[simp] theorem modCamPort_kv (p : Nat) (f : CamPort → CamPort) (d : Dev) : (modCamPort p f d).kv = d.kv := rfl
@[simp] theorem modCamPort_mem (p : Nat) (f : CamPort → CamPort) (d : Dev) : (modCamPort p f d).mem = d.mem := rfl
@[simp] theorem modCamPort_mov (p : Nat) (f : CamPort → CamPort) (d : Dev) : (modCamPort p f d).mov = d.mov := rfl
@[simp] theorem modCamPort_sched (p : Nat) (f : CamPort → CamPort) (d : Dev) : (modCamPort p f d).sched = d.sched := rfl
@[simp] theorem modCamPort_host (p : Nat) (f : CamPort → CamPort) (d : Dev) : (modCamPort p f d).host = d.host := rfl
@[simp] theorem modCamPort_power (p : Nat) (f : CamPort → CamPort) (d : Dev) : (modCamPort p f d).power = d.power := rfl
@[simp] theorem modCamPort_age (p : Nat) (f : CamPort → CamPort) (d : Dev) : (modCamPort p f d).age = d.age := rfl
@[simp] theorem modCamPort_latches (p : Nat) (f : CamPort → CamPort) (d : Dev) : (modCamPort p f d).latches = d.latches := rfl
@[simp] theorem modCamPort_freeCtr (p : Nat) (f : CamPort → CamPort) (d : Dev) : (modCamPort p f d).freeCtr = d.freeCtr := rfl

/-! ### modSlot -/

@[simp] theorem modSlot_boot (a : Nat) (f : AudioSlot → AudioSlot) (d : Dev) : (modSlot a f d).boot = d.boot := rfl
@[simp] theorem modSlot_img (a : Nat) (f : AudioSlot → AudioSlot) (d : Dev) : (modSlot a f d).img = d.img := rfl
@[simp] theorem modSlot_err (a : Nat) (f : AudioSlot → AudioSlot) (d : Dev) : (modSlot a f d).err = d.err := rfl
@[simp] theorem modSlot_flash (a : Nat) (f : AudioSlot → AudioSlot) (d : Dev) : (modSlot a f d).flash = d.flash := rfl
@[simp] theorem modSlot_tiers (a : Nat) (f : AudioSlot → AudioSlot) (d : Dev) : (modSlot a f d).tiers = d.tiers := rfl
@[simp] theorem modSlot_reqs (a : Nat) (f : AudioSlot → AudioSlot) (d : Dev) : (modSlot a f d).reqs = d.reqs := rfl
@[simp] theorem modSlot_nextOrder (a : Nat) (f : AudioSlot → AudioSlot) (d : Dev) : (modSlot a f d).nextOrder = d.nextOrder := rfl
@[simp] theorem modSlot_audio (a : Nat) (f : AudioSlot → AudioSlot) (d : Dev) :
    (modSlot a f d).audio = { d.audio with slots := tabMod d.audio.slots a {} f } := rfl
@[simp] theorem modSlot_cam (a : Nat) (f : AudioSlot → AudioSlot) (d : Dev) : (modSlot a f d).cam = d.cam := rfl
@[simp] theorem modSlot_units (a : Nat) (f : AudioSlot → AudioSlot) (d : Dev) : (modSlot a f d).units = d.units := rfl
@[simp] theorem modSlot_clusters (a : Nat) (f : AudioSlot → AudioSlot) (d : Dev) : (modSlot a f d).clusters = d.clusters := rfl
@[simp] theorem modSlot_cats (a : Nat) (f : AudioSlot → AudioSlot) (d : Dev) : (modSlot a f d).cats = d.cats := rfl
@[simp] theorem modSlot_seqs (a : Nat) (f : AudioSlot → AudioSlot) (d : Dev) : (modSlot a f d).seqs = d.seqs := rfl
@[simp] theorem modSlot_blks (a : Nat) (f : AudioSlot → AudioSlot) (d : Dev) : (modSlot a f d).blks = d.blks := rfl
@[simp] theorem modSlot_kv (a : Nat) (f : AudioSlot → AudioSlot) (d : Dev) : (modSlot a f d).kv = d.kv := rfl
@[simp] theorem modSlot_mem (a : Nat) (f : AudioSlot → AudioSlot) (d : Dev) : (modSlot a f d).mem = d.mem := rfl
@[simp] theorem modSlot_mov (a : Nat) (f : AudioSlot → AudioSlot) (d : Dev) : (modSlot a f d).mov = d.mov := rfl
@[simp] theorem modSlot_sched (a : Nat) (f : AudioSlot → AudioSlot) (d : Dev) : (modSlot a f d).sched = d.sched := rfl
@[simp] theorem modSlot_host (a : Nat) (f : AudioSlot → AudioSlot) (d : Dev) : (modSlot a f d).host = d.host := rfl
@[simp] theorem modSlot_power (a : Nat) (f : AudioSlot → AudioSlot) (d : Dev) : (modSlot a f d).power = d.power := rfl
@[simp] theorem modSlot_age (a : Nat) (f : AudioSlot → AudioSlot) (d : Dev) : (modSlot a f d).age = d.age := rfl
@[simp] theorem modSlot_latches (a : Nat) (f : AudioSlot → AudioSlot) (d : Dev) : (modSlot a f d).latches = d.latches := rfl
@[simp] theorem modSlot_freeCtr (a : Nat) (f : AudioSlot → AudioSlot) (d : Dev) : (modSlot a f d).freeCtr = d.freeCtr := rfl

/-! ### modMover -/

@[simp] theorem modMover_boot (n : Nat) (f : Mover → Mover) (d : Dev) : (modMover n f d).boot = d.boot := rfl
@[simp] theorem modMover_img (n : Nat) (f : Mover → Mover) (d : Dev) : (modMover n f d).img = d.img := rfl
@[simp] theorem modMover_err (n : Nat) (f : Mover → Mover) (d : Dev) : (modMover n f d).err = d.err := rfl
@[simp] theorem modMover_flash (n : Nat) (f : Mover → Mover) (d : Dev) : (modMover n f d).flash = d.flash := rfl
@[simp] theorem modMover_tiers (n : Nat) (f : Mover → Mover) (d : Dev) : (modMover n f d).tiers = d.tiers := rfl
@[simp] theorem modMover_reqs (n : Nat) (f : Mover → Mover) (d : Dev) : (modMover n f d).reqs = d.reqs := rfl
@[simp] theorem modMover_nextOrder (n : Nat) (f : Mover → Mover) (d : Dev) : (modMover n f d).nextOrder = d.nextOrder := rfl
@[simp] theorem modMover_audio (n : Nat) (f : Mover → Mover) (d : Dev) : (modMover n f d).audio = d.audio := rfl
@[simp] theorem modMover_cam (n : Nat) (f : Mover → Mover) (d : Dev) : (modMover n f d).cam = d.cam := rfl
@[simp] theorem modMover_units (n : Nat) (f : Mover → Mover) (d : Dev) : (modMover n f d).units = d.units := rfl
@[simp] theorem modMover_clusters (n : Nat) (f : Mover → Mover) (d : Dev) : (modMover n f d).clusters = d.clusters := rfl
@[simp] theorem modMover_cats (n : Nat) (f : Mover → Mover) (d : Dev) : (modMover n f d).cats = d.cats := rfl
@[simp] theorem modMover_seqs (n : Nat) (f : Mover → Mover) (d : Dev) : (modMover n f d).seqs = d.seqs := rfl
@[simp] theorem modMover_blks (n : Nat) (f : Mover → Mover) (d : Dev) : (modMover n f d).blks = d.blks := rfl
@[simp] theorem modMover_kv (n : Nat) (f : Mover → Mover) (d : Dev) : (modMover n f d).kv = d.kv := rfl
@[simp] theorem modMover_mem (n : Nat) (f : Mover → Mover) (d : Dev) : (modMover n f d).mem = d.mem := rfl
@[simp] theorem modMover_mov (n : Nat) (f : Mover → Mover) (d : Dev) :
    (modMover n f d).mov = { d.mov with movers := tabMod d.mov.movers n {} f } := rfl
@[simp] theorem modMover_sched (n : Nat) (f : Mover → Mover) (d : Dev) : (modMover n f d).sched = d.sched := rfl
@[simp] theorem modMover_host (n : Nat) (f : Mover → Mover) (d : Dev) : (modMover n f d).host = d.host := rfl
@[simp] theorem modMover_power (n : Nat) (f : Mover → Mover) (d : Dev) : (modMover n f d).power = d.power := rfl
@[simp] theorem modMover_age (n : Nat) (f : Mover → Mover) (d : Dev) : (modMover n f d).age = d.age := rfl
@[simp] theorem modMover_latches (n : Nat) (f : Mover → Mover) (d : Dev) : (modMover n f d).latches = d.latches := rfl
@[simp] theorem modMover_freeCtr (n : Nat) (f : Mover → Mover) (d : Dev) : (modMover n f d).freeCtr = d.freeCtr := rfl

/-! ### modWin -/

@[simp] theorem modWin_boot (w : Nat) (f : Win → Win) (d : Dev) : (modWin w f d).boot = d.boot := rfl
@[simp] theorem modWin_img (w : Nat) (f : Win → Win) (d : Dev) : (modWin w f d).img = d.img := rfl
@[simp] theorem modWin_err (w : Nat) (f : Win → Win) (d : Dev) : (modWin w f d).err = d.err := rfl
@[simp] theorem modWin_flash (w : Nat) (f : Win → Win) (d : Dev) : (modWin w f d).flash = d.flash := rfl
@[simp] theorem modWin_tiers (w : Nat) (f : Win → Win) (d : Dev) : (modWin w f d).tiers = d.tiers := rfl
@[simp] theorem modWin_reqs (w : Nat) (f : Win → Win) (d : Dev) : (modWin w f d).reqs = d.reqs := rfl
@[simp] theorem modWin_nextOrder (w : Nat) (f : Win → Win) (d : Dev) : (modWin w f d).nextOrder = d.nextOrder := rfl
@[simp] theorem modWin_audio (w : Nat) (f : Win → Win) (d : Dev) : (modWin w f d).audio = d.audio := rfl
@[simp] theorem modWin_cam (w : Nat) (f : Win → Win) (d : Dev) : (modWin w f d).cam = d.cam := rfl
@[simp] theorem modWin_units (w : Nat) (f : Win → Win) (d : Dev) : (modWin w f d).units = d.units := rfl
@[simp] theorem modWin_clusters (w : Nat) (f : Win → Win) (d : Dev) : (modWin w f d).clusters = d.clusters := rfl
@[simp] theorem modWin_cats (w : Nat) (f : Win → Win) (d : Dev) : (modWin w f d).cats = d.cats := rfl
@[simp] theorem modWin_seqs (w : Nat) (f : Win → Win) (d : Dev) : (modWin w f d).seqs = d.seqs := rfl
@[simp] theorem modWin_blks (w : Nat) (f : Win → Win) (d : Dev) : (modWin w f d).blks = d.blks := rfl
@[simp] theorem modWin_kv (w : Nat) (f : Win → Win) (d : Dev) : (modWin w f d).kv = d.kv := rfl
@[simp] theorem modWin_mem (w : Nat) (f : Win → Win) (d : Dev) : (modWin w f d).mem = d.mem := rfl
@[simp] theorem modWin_mov (w : Nat) (f : Win → Win) (d : Dev) :
    (modWin w f d).mov = { d.mov with wins := tabMod d.mov.wins w {} f } := rfl
@[simp] theorem modWin_sched (w : Nat) (f : Win → Win) (d : Dev) : (modWin w f d).sched = d.sched := rfl
@[simp] theorem modWin_host (w : Nat) (f : Win → Win) (d : Dev) : (modWin w f d).host = d.host := rfl
@[simp] theorem modWin_power (w : Nat) (f : Win → Win) (d : Dev) : (modWin w f d).power = d.power := rfl
@[simp] theorem modWin_age (w : Nat) (f : Win → Win) (d : Dev) : (modWin w f d).age = d.age := rfl
@[simp] theorem modWin_latches (w : Nat) (f : Win → Win) (d : Dev) : (modWin w f d).latches = d.latches := rfl
@[simp] theorem modWin_freeCtr (w : Nat) (f : Win → Win) (d : Dev) : (modWin w f d).freeCtr = d.freeCtr := rfl

/-! ### modDdr -/

@[simp] theorem modDdr_boot (f : Ddr → Ddr) (d : Dev) : (modDdr f d).boot = d.boot := rfl
@[simp] theorem modDdr_img (f : Ddr → Ddr) (d : Dev) : (modDdr f d).img = d.img := rfl
@[simp] theorem modDdr_err (f : Ddr → Ddr) (d : Dev) : (modDdr f d).err = d.err := rfl
@[simp] theorem modDdr_flash (f : Ddr → Ddr) (d : Dev) : (modDdr f d).flash = d.flash := rfl
@[simp] theorem modDdr_tiers (f : Ddr → Ddr) (d : Dev) : (modDdr f d).tiers = d.tiers := rfl
@[simp] theorem modDdr_reqs (f : Ddr → Ddr) (d : Dev) : (modDdr f d).reqs = d.reqs := rfl
@[simp] theorem modDdr_nextOrder (f : Ddr → Ddr) (d : Dev) : (modDdr f d).nextOrder = d.nextOrder := rfl
@[simp] theorem modDdr_audio (f : Ddr → Ddr) (d : Dev) : (modDdr f d).audio = d.audio := rfl
@[simp] theorem modDdr_cam (f : Ddr → Ddr) (d : Dev) : (modDdr f d).cam = d.cam := rfl
@[simp] theorem modDdr_units (f : Ddr → Ddr) (d : Dev) : (modDdr f d).units = d.units := rfl
@[simp] theorem modDdr_clusters (f : Ddr → Ddr) (d : Dev) : (modDdr f d).clusters = d.clusters := rfl
@[simp] theorem modDdr_cats (f : Ddr → Ddr) (d : Dev) : (modDdr f d).cats = d.cats := rfl
@[simp] theorem modDdr_seqs (f : Ddr → Ddr) (d : Dev) : (modDdr f d).seqs = d.seqs := rfl
@[simp] theorem modDdr_blks (f : Ddr → Ddr) (d : Dev) : (modDdr f d).blks = d.blks := rfl
@[simp] theorem modDdr_kv (f : Ddr → Ddr) (d : Dev) : (modDdr f d).kv = d.kv := rfl
@[simp] theorem modDdr_mem (f : Ddr → Ddr) (d : Dev) : (modDdr f d).mem = d.mem := rfl
@[simp] theorem modDdr_mov (f : Ddr → Ddr) (d : Dev) :
    (modDdr f d).mov = { d.mov with ddr := f d.mov.ddr } := rfl
@[simp] theorem modDdr_sched (f : Ddr → Ddr) (d : Dev) : (modDdr f d).sched = d.sched := rfl
@[simp] theorem modDdr_host (f : Ddr → Ddr) (d : Dev) : (modDdr f d).host = d.host := rfl
@[simp] theorem modDdr_power (f : Ddr → Ddr) (d : Dev) : (modDdr f d).power = d.power := rfl
@[simp] theorem modDdr_age (f : Ddr → Ddr) (d : Dev) : (modDdr f d).age = d.age := rfl
@[simp] theorem modDdr_latches (f : Ddr → Ddr) (d : Dev) : (modDdr f d).latches = d.latches := rfl
@[simp] theorem modDdr_freeCtr (f : Ddr → Ddr) (d : Dev) : (modDdr f d).freeCtr = d.freeCtr := rfl

/-! ### modHost -/

@[simp] theorem modHost_boot (f : HostPort → HostPort) (d : Dev) : (modHost f d).boot = d.boot := rfl
@[simp] theorem modHost_img (f : HostPort → HostPort) (d : Dev) : (modHost f d).img = d.img := rfl
@[simp] theorem modHost_err (f : HostPort → HostPort) (d : Dev) : (modHost f d).err = d.err := rfl
@[simp] theorem modHost_flash (f : HostPort → HostPort) (d : Dev) : (modHost f d).flash = d.flash := rfl
@[simp] theorem modHost_tiers (f : HostPort → HostPort) (d : Dev) : (modHost f d).tiers = d.tiers := rfl
@[simp] theorem modHost_reqs (f : HostPort → HostPort) (d : Dev) : (modHost f d).reqs = d.reqs := rfl
@[simp] theorem modHost_nextOrder (f : HostPort → HostPort) (d : Dev) : (modHost f d).nextOrder = d.nextOrder := rfl
@[simp] theorem modHost_audio (f : HostPort → HostPort) (d : Dev) : (modHost f d).audio = d.audio := rfl
@[simp] theorem modHost_cam (f : HostPort → HostPort) (d : Dev) : (modHost f d).cam = d.cam := rfl
@[simp] theorem modHost_units (f : HostPort → HostPort) (d : Dev) : (modHost f d).units = d.units := rfl
@[simp] theorem modHost_clusters (f : HostPort → HostPort) (d : Dev) : (modHost f d).clusters = d.clusters := rfl
@[simp] theorem modHost_cats (f : HostPort → HostPort) (d : Dev) : (modHost f d).cats = d.cats := rfl
@[simp] theorem modHost_seqs (f : HostPort → HostPort) (d : Dev) : (modHost f d).seqs = d.seqs := rfl
@[simp] theorem modHost_blks (f : HostPort → HostPort) (d : Dev) : (modHost f d).blks = d.blks := rfl
@[simp] theorem modHost_kv (f : HostPort → HostPort) (d : Dev) : (modHost f d).kv = d.kv := rfl
@[simp] theorem modHost_mem (f : HostPort → HostPort) (d : Dev) : (modHost f d).mem = d.mem := rfl
@[simp] theorem modHost_mov (f : HostPort → HostPort) (d : Dev) : (modHost f d).mov = d.mov := rfl
@[simp] theorem modHost_sched (f : HostPort → HostPort) (d : Dev) : (modHost f d).sched = d.sched := rfl
@[simp] theorem modHost_host (f : HostPort → HostPort) (d : Dev) :
    (modHost f d).host = f d.host := rfl
@[simp] theorem modHost_power (f : HostPort → HostPort) (d : Dev) : (modHost f d).power = d.power := rfl
@[simp] theorem modHost_age (f : HostPort → HostPort) (d : Dev) : (modHost f d).age = d.age := rfl
@[simp] theorem modHost_latches (f : HostPort → HostPort) (d : Dev) : (modHost f d).latches = d.latches := rfl
@[simp] theorem modHost_freeCtr (f : HostPort → HostPort) (d : Dev) : (modHost f d).freeCtr = d.freeCtr := rfl

/-! ### modTx -/

@[simp] theorem modTx_boot (p : Nat) (f : TxPort → TxPort) (d : Dev) : (modTx p f d).boot = d.boot := rfl
@[simp] theorem modTx_img (p : Nat) (f : TxPort → TxPort) (d : Dev) : (modTx p f d).img = d.img := rfl
@[simp] theorem modTx_err (p : Nat) (f : TxPort → TxPort) (d : Dev) : (modTx p f d).err = d.err := rfl
@[simp] theorem modTx_flash (p : Nat) (f : TxPort → TxPort) (d : Dev) : (modTx p f d).flash = d.flash := rfl
@[simp] theorem modTx_tiers (p : Nat) (f : TxPort → TxPort) (d : Dev) : (modTx p f d).tiers = d.tiers := rfl
@[simp] theorem modTx_reqs (p : Nat) (f : TxPort → TxPort) (d : Dev) : (modTx p f d).reqs = d.reqs := rfl
@[simp] theorem modTx_nextOrder (p : Nat) (f : TxPort → TxPort) (d : Dev) : (modTx p f d).nextOrder = d.nextOrder := rfl
@[simp] theorem modTx_audio (p : Nat) (f : TxPort → TxPort) (d : Dev) : (modTx p f d).audio = d.audio := rfl
@[simp] theorem modTx_cam (p : Nat) (f : TxPort → TxPort) (d : Dev) : (modTx p f d).cam = d.cam := rfl
@[simp] theorem modTx_units (p : Nat) (f : TxPort → TxPort) (d : Dev) : (modTx p f d).units = d.units := rfl
@[simp] theorem modTx_clusters (p : Nat) (f : TxPort → TxPort) (d : Dev) : (modTx p f d).clusters = d.clusters := rfl
@[simp] theorem modTx_cats (p : Nat) (f : TxPort → TxPort) (d : Dev) : (modTx p f d).cats = d.cats := rfl
@[simp] theorem modTx_seqs (p : Nat) (f : TxPort → TxPort) (d : Dev) : (modTx p f d).seqs = d.seqs := rfl
@[simp] theorem modTx_blks (p : Nat) (f : TxPort → TxPort) (d : Dev) : (modTx p f d).blks = d.blks := rfl
@[simp] theorem modTx_kv (p : Nat) (f : TxPort → TxPort) (d : Dev) : (modTx p f d).kv = d.kv := rfl
@[simp] theorem modTx_mem (p : Nat) (f : TxPort → TxPort) (d : Dev) : (modTx p f d).mem = d.mem := rfl
@[simp] theorem modTx_mov (p : Nat) (f : TxPort → TxPort) (d : Dev) : (modTx p f d).mov = d.mov := rfl
@[simp] theorem modTx_sched (p : Nat) (f : TxPort → TxPort) (d : Dev) : (modTx p f d).sched = d.sched := rfl
@[simp] theorem modTx_host (p : Nat) (f : TxPort → TxPort) (d : Dev) :
    (modTx p f d).host = { d.host with tx := tabMod d.host.tx p {} f } := rfl
@[simp] theorem modTx_power (p : Nat) (f : TxPort → TxPort) (d : Dev) : (modTx p f d).power = d.power := rfl
@[simp] theorem modTx_age (p : Nat) (f : TxPort → TxPort) (d : Dev) : (modTx p f d).age = d.age := rfl
@[simp] theorem modTx_latches (p : Nat) (f : TxPort → TxPort) (d : Dev) : (modTx p f d).latches = d.latches := rfl
@[simp] theorem modTx_freeCtr (p : Nat) (f : TxPort → TxPort) (d : Dev) : (modTx p f d).freeCtr = d.freeCtr := rfl

/-! ### modSession -/

@[simp] theorem modSession_boot (n : Nat) (f : Session → Session) (d : Dev) : (modSession n f d).boot = d.boot := rfl
@[simp] theorem modSession_img (n : Nat) (f : Session → Session) (d : Dev) : (modSession n f d).img = d.img := rfl
@[simp] theorem modSession_err (n : Nat) (f : Session → Session) (d : Dev) : (modSession n f d).err = d.err := rfl
@[simp] theorem modSession_flash (n : Nat) (f : Session → Session) (d : Dev) : (modSession n f d).flash = d.flash := rfl
@[simp] theorem modSession_tiers (n : Nat) (f : Session → Session) (d : Dev) : (modSession n f d).tiers = d.tiers := rfl
@[simp] theorem modSession_reqs (n : Nat) (f : Session → Session) (d : Dev) : (modSession n f d).reqs = d.reqs := rfl
@[simp] theorem modSession_nextOrder (n : Nat) (f : Session → Session) (d : Dev) : (modSession n f d).nextOrder = d.nextOrder := rfl
@[simp] theorem modSession_audio (n : Nat) (f : Session → Session) (d : Dev) : (modSession n f d).audio = d.audio := rfl
@[simp] theorem modSession_cam (n : Nat) (f : Session → Session) (d : Dev) : (modSession n f d).cam = d.cam := rfl
@[simp] theorem modSession_units (n : Nat) (f : Session → Session) (d : Dev) : (modSession n f d).units = d.units := rfl
@[simp] theorem modSession_clusters (n : Nat) (f : Session → Session) (d : Dev) : (modSession n f d).clusters = d.clusters := rfl
@[simp] theorem modSession_cats (n : Nat) (f : Session → Session) (d : Dev) : (modSession n f d).cats = d.cats := rfl
@[simp] theorem modSession_seqs (n : Nat) (f : Session → Session) (d : Dev) : (modSession n f d).seqs = d.seqs := rfl
@[simp] theorem modSession_blks (n : Nat) (f : Session → Session) (d : Dev) : (modSession n f d).blks = d.blks := rfl
@[simp] theorem modSession_kv (n : Nat) (f : Session → Session) (d : Dev) : (modSession n f d).kv = d.kv := rfl
@[simp] theorem modSession_mem (n : Nat) (f : Session → Session) (d : Dev) : (modSession n f d).mem = d.mem := rfl
@[simp] theorem modSession_mov (n : Nat) (f : Session → Session) (d : Dev) : (modSession n f d).mov = d.mov := rfl
@[simp] theorem modSession_sched (n : Nat) (f : Session → Session) (d : Dev) : (modSession n f d).sched = d.sched := rfl
@[simp] theorem modSession_host (n : Nat) (f : Session → Session) (d : Dev) :
    (modSession n f d).host = { d.host with sessions := tabMod d.host.sessions n {} f } := rfl
@[simp] theorem modSession_power (n : Nat) (f : Session → Session) (d : Dev) : (modSession n f d).power = d.power := rfl
@[simp] theorem modSession_age (n : Nat) (f : Session → Session) (d : Dev) : (modSession n f d).age = d.age := rfl
@[simp] theorem modSession_latches (n : Nat) (f : Session → Session) (d : Dev) : (modSession n f d).latches = d.latches := rfl
@[simp] theorem modSession_freeCtr (n : Nat) (f : Session → Session) (d : Dev) : (modSession n f d).freeCtr = d.freeCtr := rfl

/-! ### modBoot -/

@[simp] theorem modBoot_boot (f : Boot → Boot) (d : Dev) :
    (modBoot f d).boot = f d.boot := rfl
@[simp] theorem modBoot_img (f : Boot → Boot) (d : Dev) : (modBoot f d).img = d.img := rfl
@[simp] theorem modBoot_err (f : Boot → Boot) (d : Dev) : (modBoot f d).err = d.err := rfl
@[simp] theorem modBoot_flash (f : Boot → Boot) (d : Dev) : (modBoot f d).flash = d.flash := rfl
@[simp] theorem modBoot_tiers (f : Boot → Boot) (d : Dev) : (modBoot f d).tiers = d.tiers := rfl
@[simp] theorem modBoot_reqs (f : Boot → Boot) (d : Dev) : (modBoot f d).reqs = d.reqs := rfl
@[simp] theorem modBoot_nextOrder (f : Boot → Boot) (d : Dev) : (modBoot f d).nextOrder = d.nextOrder := rfl
@[simp] theorem modBoot_audio (f : Boot → Boot) (d : Dev) : (modBoot f d).audio = d.audio := rfl
@[simp] theorem modBoot_cam (f : Boot → Boot) (d : Dev) : (modBoot f d).cam = d.cam := rfl
@[simp] theorem modBoot_units (f : Boot → Boot) (d : Dev) : (modBoot f d).units = d.units := rfl
@[simp] theorem modBoot_clusters (f : Boot → Boot) (d : Dev) : (modBoot f d).clusters = d.clusters := rfl
@[simp] theorem modBoot_cats (f : Boot → Boot) (d : Dev) : (modBoot f d).cats = d.cats := rfl
@[simp] theorem modBoot_seqs (f : Boot → Boot) (d : Dev) : (modBoot f d).seqs = d.seqs := rfl
@[simp] theorem modBoot_blks (f : Boot → Boot) (d : Dev) : (modBoot f d).blks = d.blks := rfl
@[simp] theorem modBoot_kv (f : Boot → Boot) (d : Dev) : (modBoot f d).kv = d.kv := rfl
@[simp] theorem modBoot_mem (f : Boot → Boot) (d : Dev) : (modBoot f d).mem = d.mem := rfl
@[simp] theorem modBoot_mov (f : Boot → Boot) (d : Dev) : (modBoot f d).mov = d.mov := rfl
@[simp] theorem modBoot_sched (f : Boot → Boot) (d : Dev) : (modBoot f d).sched = d.sched := rfl
@[simp] theorem modBoot_host (f : Boot → Boot) (d : Dev) : (modBoot f d).host = d.host := rfl
@[simp] theorem modBoot_power (f : Boot → Boot) (d : Dev) : (modBoot f d).power = d.power := rfl
@[simp] theorem modBoot_age (f : Boot → Boot) (d : Dev) : (modBoot f d).age = d.age := rfl
@[simp] theorem modBoot_latches (f : Boot → Boot) (d : Dev) : (modBoot f d).latches = d.latches := rfl
@[simp] theorem modBoot_freeCtr (f : Boot → Boot) (d : Dev) : (modBoot f d).freeCtr = d.freeCtr := rfl

/-! ### modPower -/

@[simp] theorem modPower_boot (f : Power → Power) (d : Dev) : (modPower f d).boot = d.boot := rfl
@[simp] theorem modPower_img (f : Power → Power) (d : Dev) : (modPower f d).img = d.img := rfl
@[simp] theorem modPower_err (f : Power → Power) (d : Dev) : (modPower f d).err = d.err := rfl
@[simp] theorem modPower_flash (f : Power → Power) (d : Dev) : (modPower f d).flash = d.flash := rfl
@[simp] theorem modPower_tiers (f : Power → Power) (d : Dev) : (modPower f d).tiers = d.tiers := rfl
@[simp] theorem modPower_reqs (f : Power → Power) (d : Dev) : (modPower f d).reqs = d.reqs := rfl
@[simp] theorem modPower_nextOrder (f : Power → Power) (d : Dev) : (modPower f d).nextOrder = d.nextOrder := rfl
@[simp] theorem modPower_audio (f : Power → Power) (d : Dev) : (modPower f d).audio = d.audio := rfl
@[simp] theorem modPower_cam (f : Power → Power) (d : Dev) : (modPower f d).cam = d.cam := rfl
@[simp] theorem modPower_units (f : Power → Power) (d : Dev) : (modPower f d).units = d.units := rfl
@[simp] theorem modPower_clusters (f : Power → Power) (d : Dev) : (modPower f d).clusters = d.clusters := rfl
@[simp] theorem modPower_cats (f : Power → Power) (d : Dev) : (modPower f d).cats = d.cats := rfl
@[simp] theorem modPower_seqs (f : Power → Power) (d : Dev) : (modPower f d).seqs = d.seqs := rfl
@[simp] theorem modPower_blks (f : Power → Power) (d : Dev) : (modPower f d).blks = d.blks := rfl
@[simp] theorem modPower_kv (f : Power → Power) (d : Dev) : (modPower f d).kv = d.kv := rfl
@[simp] theorem modPower_mem (f : Power → Power) (d : Dev) : (modPower f d).mem = d.mem := rfl
@[simp] theorem modPower_mov (f : Power → Power) (d : Dev) : (modPower f d).mov = d.mov := rfl
@[simp] theorem modPower_sched (f : Power → Power) (d : Dev) : (modPower f d).sched = d.sched := rfl
@[simp] theorem modPower_host (f : Power → Power) (d : Dev) : (modPower f d).host = d.host := rfl
@[simp] theorem modPower_power (f : Power → Power) (d : Dev) :
    (modPower f d).power = f d.power := rfl
@[simp] theorem modPower_age (f : Power → Power) (d : Dev) : (modPower f d).age = d.age := rfl
@[simp] theorem modPower_latches (f : Power → Power) (d : Dev) : (modPower f d).latches = d.latches := rfl
@[simp] theorem modPower_freeCtr (f : Power → Power) (d : Dev) : (modPower f d).freeCtr = d.freeCtr := rfl

/-! ### modCam -/

@[simp] theorem modCam_boot (f : Camera → Camera) (d : Dev) : (modCam f d).boot = d.boot := rfl
@[simp] theorem modCam_img (f : Camera → Camera) (d : Dev) : (modCam f d).img = d.img := rfl
@[simp] theorem modCam_err (f : Camera → Camera) (d : Dev) : (modCam f d).err = d.err := rfl
@[simp] theorem modCam_flash (f : Camera → Camera) (d : Dev) : (modCam f d).flash = d.flash := rfl
@[simp] theorem modCam_tiers (f : Camera → Camera) (d : Dev) : (modCam f d).tiers = d.tiers := rfl
@[simp] theorem modCam_reqs (f : Camera → Camera) (d : Dev) : (modCam f d).reqs = d.reqs := rfl
@[simp] theorem modCam_nextOrder (f : Camera → Camera) (d : Dev) : (modCam f d).nextOrder = d.nextOrder := rfl
@[simp] theorem modCam_audio (f : Camera → Camera) (d : Dev) : (modCam f d).audio = d.audio := rfl
@[simp] theorem modCam_cam (f : Camera → Camera) (d : Dev) :
    (modCam f d).cam = f d.cam := rfl
@[simp] theorem modCam_units (f : Camera → Camera) (d : Dev) : (modCam f d).units = d.units := rfl
@[simp] theorem modCam_clusters (f : Camera → Camera) (d : Dev) : (modCam f d).clusters = d.clusters := rfl
@[simp] theorem modCam_cats (f : Camera → Camera) (d : Dev) : (modCam f d).cats = d.cats := rfl
@[simp] theorem modCam_seqs (f : Camera → Camera) (d : Dev) : (modCam f d).seqs = d.seqs := rfl
@[simp] theorem modCam_blks (f : Camera → Camera) (d : Dev) : (modCam f d).blks = d.blks := rfl
@[simp] theorem modCam_kv (f : Camera → Camera) (d : Dev) : (modCam f d).kv = d.kv := rfl
@[simp] theorem modCam_mem (f : Camera → Camera) (d : Dev) : (modCam f d).mem = d.mem := rfl
@[simp] theorem modCam_mov (f : Camera → Camera) (d : Dev) : (modCam f d).mov = d.mov := rfl
@[simp] theorem modCam_sched (f : Camera → Camera) (d : Dev) : (modCam f d).sched = d.sched := rfl
@[simp] theorem modCam_host (f : Camera → Camera) (d : Dev) : (modCam f d).host = d.host := rfl
@[simp] theorem modCam_power (f : Camera → Camera) (d : Dev) : (modCam f d).power = d.power := rfl
@[simp] theorem modCam_age (f : Camera → Camera) (d : Dev) : (modCam f d).age = d.age := rfl
@[simp] theorem modCam_latches (f : Camera → Camera) (d : Dev) : (modCam f d).latches = d.latches := rfl
@[simp] theorem modCam_freeCtr (f : Camera → Camera) (d : Dev) : (modCam f d).freeCtr = d.freeCtr := rfl

/-! ### modAge -/

@[simp] theorem modAge_boot (f : Age → Age) (d : Dev) : (modAge f d).boot = d.boot := rfl
@[simp] theorem modAge_img (f : Age → Age) (d : Dev) : (modAge f d).img = d.img := rfl
@[simp] theorem modAge_err (f : Age → Age) (d : Dev) : (modAge f d).err = d.err := rfl
@[simp] theorem modAge_flash (f : Age → Age) (d : Dev) : (modAge f d).flash = d.flash := rfl
@[simp] theorem modAge_tiers (f : Age → Age) (d : Dev) : (modAge f d).tiers = d.tiers := rfl
@[simp] theorem modAge_reqs (f : Age → Age) (d : Dev) : (modAge f d).reqs = d.reqs := rfl
@[simp] theorem modAge_nextOrder (f : Age → Age) (d : Dev) : (modAge f d).nextOrder = d.nextOrder := rfl
@[simp] theorem modAge_audio (f : Age → Age) (d : Dev) : (modAge f d).audio = d.audio := rfl
@[simp] theorem modAge_cam (f : Age → Age) (d : Dev) : (modAge f d).cam = d.cam := rfl
@[simp] theorem modAge_units (f : Age → Age) (d : Dev) : (modAge f d).units = d.units := rfl
@[simp] theorem modAge_clusters (f : Age → Age) (d : Dev) : (modAge f d).clusters = d.clusters := rfl
@[simp] theorem modAge_cats (f : Age → Age) (d : Dev) : (modAge f d).cats = d.cats := rfl
@[simp] theorem modAge_seqs (f : Age → Age) (d : Dev) : (modAge f d).seqs = d.seqs := rfl
@[simp] theorem modAge_blks (f : Age → Age) (d : Dev) : (modAge f d).blks = d.blks := rfl
@[simp] theorem modAge_kv (f : Age → Age) (d : Dev) : (modAge f d).kv = d.kv := rfl
@[simp] theorem modAge_mem (f : Age → Age) (d : Dev) : (modAge f d).mem = d.mem := rfl
@[simp] theorem modAge_mov (f : Age → Age) (d : Dev) : (modAge f d).mov = d.mov := rfl
@[simp] theorem modAge_sched (f : Age → Age) (d : Dev) : (modAge f d).sched = d.sched := rfl
@[simp] theorem modAge_host (f : Age → Age) (d : Dev) : (modAge f d).host = d.host := rfl
@[simp] theorem modAge_power (f : Age → Age) (d : Dev) : (modAge f d).power = d.power := rfl
@[simp] theorem modAge_age (f : Age → Age) (d : Dev) :
    (modAge f d).age = f d.age := rfl
@[simp] theorem modAge_latches (f : Age → Age) (d : Dev) : (modAge f d).latches = d.latches := rfl
@[simp] theorem modAge_freeCtr (f : Age → Age) (d : Dev) : (modAge f d).freeCtr = d.freeCtr := rfl

/-! ### modErr -/

@[simp] theorem modErr_boot (f : Err → Err) (d : Dev) : (modErr f d).boot = d.boot := rfl
@[simp] theorem modErr_img (f : Err → Err) (d : Dev) : (modErr f d).img = d.img := rfl
@[simp] theorem modErr_err (f : Err → Err) (d : Dev) :
    (modErr f d).err = f d.err := rfl
@[simp] theorem modErr_flash (f : Err → Err) (d : Dev) : (modErr f d).flash = d.flash := rfl
@[simp] theorem modErr_tiers (f : Err → Err) (d : Dev) : (modErr f d).tiers = d.tiers := rfl
@[simp] theorem modErr_reqs (f : Err → Err) (d : Dev) : (modErr f d).reqs = d.reqs := rfl
@[simp] theorem modErr_nextOrder (f : Err → Err) (d : Dev) : (modErr f d).nextOrder = d.nextOrder := rfl
@[simp] theorem modErr_audio (f : Err → Err) (d : Dev) : (modErr f d).audio = d.audio := rfl
@[simp] theorem modErr_cam (f : Err → Err) (d : Dev) : (modErr f d).cam = d.cam := rfl
@[simp] theorem modErr_units (f : Err → Err) (d : Dev) : (modErr f d).units = d.units := rfl
@[simp] theorem modErr_clusters (f : Err → Err) (d : Dev) : (modErr f d).clusters = d.clusters := rfl
@[simp] theorem modErr_cats (f : Err → Err) (d : Dev) : (modErr f d).cats = d.cats := rfl
@[simp] theorem modErr_seqs (f : Err → Err) (d : Dev) : (modErr f d).seqs = d.seqs := rfl
@[simp] theorem modErr_blks (f : Err → Err) (d : Dev) : (modErr f d).blks = d.blks := rfl
@[simp] theorem modErr_kv (f : Err → Err) (d : Dev) : (modErr f d).kv = d.kv := rfl
@[simp] theorem modErr_mem (f : Err → Err) (d : Dev) : (modErr f d).mem = d.mem := rfl
@[simp] theorem modErr_mov (f : Err → Err) (d : Dev) : (modErr f d).mov = d.mov := rfl
@[simp] theorem modErr_sched (f : Err → Err) (d : Dev) : (modErr f d).sched = d.sched := rfl
@[simp] theorem modErr_host (f : Err → Err) (d : Dev) : (modErr f d).host = d.host := rfl
@[simp] theorem modErr_power (f : Err → Err) (d : Dev) : (modErr f d).power = d.power := rfl
@[simp] theorem modErr_age (f : Err → Err) (d : Dev) : (modErr f d).age = d.age := rfl
@[simp] theorem modErr_latches (f : Err → Err) (d : Dev) : (modErr f d).latches = d.latches := rfl
@[simp] theorem modErr_freeCtr (f : Err → Err) (d : Dev) : (modErr f d).freeCtr = d.freeCtr := rfl

/-! ### modFlash -/

@[simp] theorem modFlash_boot (f : Flash → Flash) (d : Dev) : (modFlash f d).boot = d.boot := rfl
@[simp] theorem modFlash_img (f : Flash → Flash) (d : Dev) : (modFlash f d).img = d.img := rfl
@[simp] theorem modFlash_err (f : Flash → Flash) (d : Dev) : (modFlash f d).err = d.err := rfl
@[simp] theorem modFlash_flash (f : Flash → Flash) (d : Dev) :
    (modFlash f d).flash = f d.flash := rfl
@[simp] theorem modFlash_tiers (f : Flash → Flash) (d : Dev) : (modFlash f d).tiers = d.tiers := rfl
@[simp] theorem modFlash_reqs (f : Flash → Flash) (d : Dev) : (modFlash f d).reqs = d.reqs := rfl
@[simp] theorem modFlash_nextOrder (f : Flash → Flash) (d : Dev) : (modFlash f d).nextOrder = d.nextOrder := rfl
@[simp] theorem modFlash_audio (f : Flash → Flash) (d : Dev) : (modFlash f d).audio = d.audio := rfl
@[simp] theorem modFlash_cam (f : Flash → Flash) (d : Dev) : (modFlash f d).cam = d.cam := rfl
@[simp] theorem modFlash_units (f : Flash → Flash) (d : Dev) : (modFlash f d).units = d.units := rfl
@[simp] theorem modFlash_clusters (f : Flash → Flash) (d : Dev) : (modFlash f d).clusters = d.clusters := rfl
@[simp] theorem modFlash_cats (f : Flash → Flash) (d : Dev) : (modFlash f d).cats = d.cats := rfl
@[simp] theorem modFlash_seqs (f : Flash → Flash) (d : Dev) : (modFlash f d).seqs = d.seqs := rfl
@[simp] theorem modFlash_blks (f : Flash → Flash) (d : Dev) : (modFlash f d).blks = d.blks := rfl
@[simp] theorem modFlash_kv (f : Flash → Flash) (d : Dev) : (modFlash f d).kv = d.kv := rfl
@[simp] theorem modFlash_mem (f : Flash → Flash) (d : Dev) : (modFlash f d).mem = d.mem := rfl
@[simp] theorem modFlash_mov (f : Flash → Flash) (d : Dev) : (modFlash f d).mov = d.mov := rfl
@[simp] theorem modFlash_sched (f : Flash → Flash) (d : Dev) : (modFlash f d).sched = d.sched := rfl
@[simp] theorem modFlash_host (f : Flash → Flash) (d : Dev) : (modFlash f d).host = d.host := rfl
@[simp] theorem modFlash_power (f : Flash → Flash) (d : Dev) : (modFlash f d).power = d.power := rfl
@[simp] theorem modFlash_age (f : Flash → Flash) (d : Dev) : (modFlash f d).age = d.age := rfl
@[simp] theorem modFlash_latches (f : Flash → Flash) (d : Dev) : (modFlash f d).latches = d.latches := rfl
@[simp] theorem modFlash_freeCtr (f : Flash → Flash) (d : Dev) : (modFlash f d).freeCtr = d.freeCtr := rfl

/-! ### modDesc -/

@[simp] theorem modDesc_boot (i : DescId) (f : Desc → Desc) (d : Dev) : (modDesc i f d).boot = d.boot := rfl
@[simp] theorem modDesc_img (i : DescId) (f : Desc → Desc) (d : Dev) : (modDesc i f d).img = d.img := rfl
@[simp] theorem modDesc_err (i : DescId) (f : Desc → Desc) (d : Dev) : (modDesc i f d).err = d.err := rfl
@[simp] theorem modDesc_flash (i : DescId) (f : Desc → Desc) (d : Dev) : (modDesc i f d).flash = d.flash := rfl
@[simp] theorem modDesc_tiers (i : DescId) (f : Desc → Desc) (d : Dev) : (modDesc i f d).tiers = d.tiers := rfl
@[simp] theorem modDesc_reqs (i : DescId) (f : Desc → Desc) (d : Dev) : (modDesc i f d).reqs = d.reqs := rfl
@[simp] theorem modDesc_nextOrder (i : DescId) (f : Desc → Desc) (d : Dev) : (modDesc i f d).nextOrder = d.nextOrder := rfl
@[simp] theorem modDesc_audio (i : DescId) (f : Desc → Desc) (d : Dev) : (modDesc i f d).audio = d.audio := rfl
@[simp] theorem modDesc_cam (i : DescId) (f : Desc → Desc) (d : Dev) : (modDesc i f d).cam = d.cam := rfl
@[simp] theorem modDesc_units (i : DescId) (f : Desc → Desc) (d : Dev) : (modDesc i f d).units = d.units := rfl
@[simp] theorem modDesc_clusters (i : DescId) (f : Desc → Desc) (d : Dev) : (modDesc i f d).clusters = d.clusters := rfl
@[simp] theorem modDesc_cats (i : DescId) (f : Desc → Desc) (d : Dev) : (modDesc i f d).cats = d.cats := rfl
@[simp] theorem modDesc_seqs (i : DescId) (f : Desc → Desc) (d : Dev) : (modDesc i f d).seqs = d.seqs := rfl
@[simp] theorem modDesc_blks (i : DescId) (f : Desc → Desc) (d : Dev) : (modDesc i f d).blks = d.blks := rfl
@[simp] theorem modDesc_kv (i : DescId) (f : Desc → Desc) (d : Dev) : (modDesc i f d).kv = d.kv := rfl
@[simp] theorem modDesc_mem (i : DescId) (f : Desc → Desc) (d : Dev) : (modDesc i f d).mem = d.mem := rfl
@[simp] theorem modDesc_mov (i : DescId) (f : Desc → Desc) (d : Dev) : (modDesc i f d).mov = d.mov := rfl
@[simp] theorem modDesc_sched (i : DescId) (f : Desc → Desc) (d : Dev) :
    (modDesc i f d).sched = { d.sched with live := d.sched.live.map (fun x => if x.id = i then f x else x) } := rfl
@[simp] theorem modDesc_host (i : DescId) (f : Desc → Desc) (d : Dev) : (modDesc i f d).host = d.host := rfl
@[simp] theorem modDesc_power (i : DescId) (f : Desc → Desc) (d : Dev) : (modDesc i f d).power = d.power := rfl
@[simp] theorem modDesc_age (i : DescId) (f : Desc → Desc) (d : Dev) : (modDesc i f d).age = d.age := rfl
@[simp] theorem modDesc_latches (i : DescId) (f : Desc → Desc) (d : Dev) : (modDesc i f d).latches = d.latches := rfl
@[simp] theorem modDesc_freeCtr (i : DescId) (f : Desc → Desc) (d : Dev) : (modDesc i f d).freeCtr = d.freeCtr := rfl

end Sys2Proof.Machine
end

