-- ==== Sys2Proof/Laws/Settle.lean ====
section
/-! SUPPORT. What follows from a command at once: which fields it touches, and where nothing follows. -/

namespace Sys2Proof.Machine

/-- An interrupt touches the host interfaces alone. -/
theorem ibi_eq (b x y z : Nat) (d : Dev) : ibi b x y z d = { d with host := (ibi b x y z d).host } := rfl

/-- Recording a code touches the error record and the host interfaces alone. -/
theorem recordAt_eq (c : Nat) (p : Option Nat) (k : Nat × Nat) (a : Option Nat) (i : Bool) (d : Dev) :
    recordAt c p k a i d = { d with err := (recordAt c p k a i d).err, host := (recordAt c p k a i d).host } := by
  unfold recordAt; dsimp only; split <;> rfl

theorem record_eq (c : Nat) (p : Option Nat) (k : Nat × Nat) (d : Dev) :
    record c p k d = { d with err := (record c p k d).err, host := (record c p k d).host } := recordAt_eq _ _ _ _ _ _

/-- An interrupt queued changes the queue and the count of merged ones. -/
theorem pushIbi_eq (i : Ibi) (h : HostPort) :
    pushIbi i h = { h with ibis := (pushIbi i h).ibis, ibiMerged := (pushIbi i h).ibiMerged } := by
  unfold pushIbi; dsimp only; split
  · rfl
  · split
    · rfl
    · split <;> rfl

/-- What an interrupt leaves of the host interfaces. -/
theorem ibi_frame (b x y z : Nat) (d : Dev) : ∃ i n,
    ibi b x y z d = { d with host := { d.host with ibis := i, ibiMerged := n } } :=
  ⟨_, _, by rw [ibi, pushIbi_eq]⟩

/-- Recording a code touches the error record and the queue of interrupts. -/
theorem recordAt_frame (c : Nat) (p : Option Nat) (k : Nat × Nat) (a : Option Nat) (j : Bool) (d : Dev) : ∃ e i n,
    recordAt c p k a j d = { d with err := e, host := { d.host with ibis := i, ibiMerged := n } } := by
  unfold recordAt
  dsimp only
  split
  · obtain ⟨i, n, h⟩ := ibi_frame 2 c (p.getD 255) (severity c) { d with err := errRecord c p k a j d.err }
    exact ⟨_, i, n, h⟩
  · exact ⟨_, _, _, rfl⟩

/-- An INFO code enters the error record and does nothing else. -/
theorem recordAt_info (c : Nat) (p : Option Nat) (k : Nat × Nat) (a : Option Nat) (j : Bool) (d : Dev) (h : severity c = 0) :
    recordAt c p k a j d = { d with err := errRecord c p k a j d.err } := by
  simp [recordAt, h]

/-- What frames that are lost and settings blocks that are settled may change of a device: the camera, the error record, the queue of
interrupts, and by a flag in a frame descriptor memory and the traffic of the DRAM. -/
def CamWork (d e : Dev) : Prop := ∃ c r i n m x k, e = { d with
  cam := c, err := r, host := { d.host with ibis := i, ibiMerged := n }, mem := m, mov := { d.mov with ddr := x }, freeCtr := k }

theorem CamWork.refl (d : Dev) : CamWork d d := ⟨d.cam, d.err, d.host.ibis, d.host.ibiMerged, d.mem, d.mov.ddr, d.freeCtr, rfl⟩

theorem CamWork.trans {a b c : Dev} (h : CamWork a b) (g : CamWork b c) : CamWork a c := by
  obtain ⟨_, _, _, _, _, _, _, rfl⟩ := h
  obtain ⟨_, _, _, _, _, _, _, rfl⟩ := g
  exact ⟨_, _, _, _, _, _, _, rfl⟩

/-- A change of the camera alone. -/
theorem CamWork.cam (d : Dev) (c : Camera) : CamWork d { d with cam := c } := ⟨c, d.err, d.host.ibis, d.host.ibiMerged, d.mem, d.mov.ddr, d.freeCtr, rfl⟩

/-- Recording a code. -/
theorem record_camWork (c : Nat) (p : Option Nat) (k : Nat × Nat) (d : Dev) : CamWork d (record c p k d) := by
  obtain ⟨e, i, n, h⟩ := recordAt_frame c p k none false d
  exact ⟨d.cam, e, i, n, d.mem, d.mov.ddr, d.freeCtr, h⟩

/-- A remote master's write. -/
theorem remoteStore_camWork (a : Nat) (b : Bytes) (d : Dev) : CamWork d (remoteStore a b d) := by
  unfold remoteStore countRemote
  split
  · unfold withChecks
    split
    · exact ⟨d.cam, d.err, d.host.ibis, d.host.ibiMerged, _, _, _, rfl⟩
    · exact ⟨d.cam, d.err, d.host.ibis, d.host.ibiMerged, _, _, d.freeCtr, rfl⟩
  · exact ⟨d.cam, d.err, d.host.ibis, d.host.ibiMerged, _, d.mov.ddr, d.freeCtr, rfl⟩

theorem dropFrame_camWork (s : Nat) (d : Dev) : CamWork d (dropFrame s d) :=
  (CamWork.cam d _).trans (record_camWork _ _ _ _)

/-- The flag of a missed block. -/
theorem markFrame_camWork (r : CamRec) (m : Nat) (d : Dev) : CamWork d (markFrame r m d) := by
  unfold markFrame
  split
  · exact .cam d _
  · unfold flagMissed
    split
    · exact .refl d
    · dsimp only
      split
      · exact remoteStore_camWork _ _ d
      · exact .refl d

theorem missBlock_camWork (r : CamRec) (m : Nat) (d : Dev) : CamWork d (missBlock r m d) := by
  have h := markFrame_camWork r m d
  unfold missBlock
  generalize markFrame r m d = e at h
  exact (h.trans (.cam e _)).trans (record_camWork _ _ _ _)

/-- A settings block that ends well. -/
theorem applyBlock_camWork (n id k m : Nat) (d : Dev) : CamWork d (applyBlock n id k m d) := by
  unfold applyBlock
  split
  · exact .refl d
  · split
    · exact .cam d _
    · exact (CamWork.cam d _).trans (missBlock_camWork _ _ _)

theorem settleHeld_camWork (r : CamRec) (d : Dev) : CamWork d (settleHeld r d) := by
  unfold settleHeld
  split
  · exact (CamWork.cam d _).trans (applyBlock_camWork _ _ _ _ _)
  · exact .refl d

/-- A fold of operations on the camera is one. -/
theorem foldl_camWork {α : Type} (f : Dev → α → Dev) (h : ∀ d x, CamWork d (f d x)) (l : List α) : ∀ d : Dev, CamWork d (l.foldl f d) := by
  induction l with
  | nil => exact .refl
  | cons x r ih => exact fun d => (h d x).trans (ih _)

theorem settleBlocks_camWork (p : CamRec → Bool) (d : Dev) : CamWork d (settleBlocks p d) :=
  foldl_camWork _ (fun d r => settleHeld_camWork r d) _ d

theorem loseFrames_camWork (d : Dev) : CamWork d (loseFrames d) := foldl_camWork _ (fun d _ => dropFrame_camWork _ d) _ d

/-- The power-down of the ISP domain is work of the camera, and the domain's own bit falls. -/
theorem ispDown_frame (d : Dev) : ∃ e, CamWork d e ∧ ispDown d = { e with power := { e.power with isp := false } } := by
  have h := (settleBlocks_camWork (fun r => r.pipe != 2) d).trans (loseFrames_camWork _)
  unfold ispDown
  generalize loseFrames _ = e at h ⊢
  exact ⟨{ e with cam := camOff e.img e.cam }, h.trans (.cam e _), rfl⟩

/-- The supervisor must be powered. -/
def supWanted (d : Dev) : Bool := d.power.clusters != 0 || booting d || hostBusy d

/-- The ISP domain must be powered. -/
def ispWanted (d : Dev) : Bool := d.power.clusters != 0 || cameraAlwaysOn d || forwarding d

/-- The power bits that settlePower leaves in the supervisor, ISP and Perk domains. -/
def perkAfter (sup : Bool) (d : Dev) : Bool :=
  if d.boot.step = .halted then false
  else if creditsHeld d 1 || sup || (d.boot.accepted && d.img.cams.any (fun c => c.pipe == 2)) then true
  else if (getTier d 1).idle then false else d.power.perk

/-- What settlePower touches: three power bits and, where the ISP domain goes down, what the camera's work may. -/
theorem settlePower_frame (d : Dev) (h : d.boot.step ≠ .held) : ∃ e, CamWork d e ∧
    settlePower d = { e with power := { d.power with sup := supWanted d, isp := ispWanted d, perk := perkAfter (supWanted d) d } } ∧
    (d.power.isp = false ∨ ispWanted d = true → e = d) := by
  unfold settlePower
  rw [if_neg h]
  dsimp only
  by_cases hw : ispWanted d = true
  · have hw' : (d.power.clusters != 0 || cameraAlwaysOn d || forwarding d) = true := hw
    refine ⟨d, .refl d, ?_, fun _ => rfl⟩
    have e1 : ({ d with power := { d.power with sup := supWanted d } } : Dev).power.clusters = d.power.clusters := rfl
    have e2 : cameraAlwaysOn { d with power := { d.power with sup := supWanted d } } = cameraAlwaysOn d := rfl
    have e3 : forwarding { d with power := { d.power with sup := supWanted d } } = forwarding d := rfl
    rw [show (d.power.clusters != 0 || booting d || hostBusy d) = supWanted d from rfl, e2, e3, if_pos hw', hw]
    rfl
  · have hw' : ¬ (d.power.clusters != 0 || cameraAlwaysOn d || forwarding d) = true := hw
    have hf : ispWanted d = false := by simpa using hw
    have e2 : cameraAlwaysOn { d with power := { d.power with sup := supWanted d } } = cameraAlwaysOn d := rfl
    have e3 : forwarding { d with power := { d.power with sup := supWanted d } } = forwarding d := rfl
    rw [show (d.power.clusters != 0 || booting d || hostBusy d) = supWanted d from rfl, e2, e3, if_neg hw', hf]
    by_cases hi : d.power.isp = true
    · rw [if_pos hi]
      obtain ⟨e, hw, hd⟩ := ispDown_frame { d with power := { d.power with sup := supWanted d } }
      obtain ⟨_, _, _, _, _, _, _, rfl⟩ := hw
      exact ⟨_, ⟨_, _, _, _, _, _, _, rfl⟩, by rw [hd]; rfl, fun o => by simp [hi] at o⟩
    · rw [if_neg hi]
      refine ⟨d, .refl d, ?_, fun _ => rfl⟩
      have : d.power.isp = false := by simpa using hi
      simp [perkAfter, perkNeeded, creditsHeld, getTier, this]
      rfl

/-- The domains are settled where each bit is what is wanted. -/
theorem powerSettled_iff (d : Dev) : PowerSettled d ↔
    (d.boot.step = .held ∧ d.power.isp = false) ∨ (d.boot.step ≠ .held ∧ d.power.sup = supWanted d ∧ d.power.isp = ispWanted d ∧ d.power.perk = perkAfter (supWanted d) d) := by
  unfold PowerSettled
  by_cases h : d.boot.step = .held
  · simp only [settlePower, h, if_true, true_and, ne_eq, not_true, false_and, or_false]
    constructor
    · exact fun he => (congrArg (fun x => x.power.isp) he).symm
    · intro he; rw [← he]
  · obtain ⟨e, _, hd, hk⟩ := settlePower_frame d h
    simp only [h, false_and, false_or, ne_eq, not_false_eq_true, true_and]
    constructor
    · intro he
      rw [hd] at he
      have hp := congrArg Dev.power he
      exact ⟨(congrArg Power.sup hp).symm, (congrArg Power.isp hp).symm, (congrArg Power.perk hp).symm⟩
    · rintro ⟨h1, h2, h3⟩
      have hi : d.power.isp = false ∨ ispWanted d = true := by
        rcases hx : d.power.isp with _ | _
        · exact .inl rfl
        · right; rw [← h2, hx]
      rw [hk hi] at hd
      rw [hd, ← h3, ← h2, ← h1]

theorem perkAfter_again (x : Bool) (d e : Dev) (hb : e.boot = d.boot) (hi : e.img = d.img) (hr : e.reqs = d.reqs)
    (ht : e.tiers = d.tiers) (hp : e.power.perk = perkAfter x d) : perkAfter x e = perkAfter x d := by
  unfold perkAfter creditsHeld getTier at *
  simp only [hb, hi, hr, ht, hp]
  split
  · rfl
  · split
    · rfl
    · split <;> rfl

/-- Settling the domains twice is settling them once. -/
theorem settlePower_settled (d : Dev) : PowerSettled (settlePower d) := by
  by_cases h : d.boot.step = .held
  · rw [powerSettled_iff]
    exact .inl (by simp [settlePower, h])
  · obtain ⟨e, hw, hd, _⟩ := settlePower_frame d h
    obtain ⟨_, _, _, _, _, _, _, rfl⟩ := hw
    generalize settlePower d = x at hd
    have hs : supWanted x = supWanted d := by rw [hd]; rfl
    have hi : ispWanted x = ispWanted d := by rw [hd]; rfl
    have hp : x.power.sup = supWanted d ∧ x.power.isp = ispWanted d ∧ x.power.perk = perkAfter (supWanted d) d := by
      rw [hd]; exact ⟨rfl, rfl, rfl⟩
    rw [powerSettled_iff, hs, hi]
    refine .inr ⟨by rw [hd]; exact h, hp.1, hp.2.1, ?_⟩
    rw [perkAfter_again (supWanted d) d x (by rw [hd]) (by rw [hd]) (by rw [hd]) (by rw [hd]) hp.2.2, hp.2.2]

/-- Where nothing is due and the domains are settled, nothing follows from a command. -/
theorem settle_eq (s : State) (h : Settled s) : settle s = s := by
  obtain ⟨h1, h2, h3⟩ := h
  have ht : tripCheck s.dev = s.dev := by simp [tripCheck, h1]
  unfold settle
  dsimp only
  rw [ht]
  have hr : romDone s = s := by simp [romDone, h2]
  show { romDone s with dev := settlePower (romDone s).dev } = s
  rw [hr, h3]

/-- The domains stay settled under a change of the fields that they do not depend on. -/
theorem powerSettled_congr (d e : Dev) (hb : e.boot.step = d.boot.step) (ha : e.boot.accepted = d.boot.accepted)
    (hi : e.img = d.img) (hr : e.reqs = d.reqs) (ht : e.tiers = d.tiers) (hp : e.power = d.power) (hc : e.host.cur = d.host.cur)
    (hx : e.host.tx = d.host.tx) (h : PowerSettled d) : PowerSettled e := by
  rw [powerSettled_iff] at h ⊢
  have e1 : supWanted e = supWanted d := by simp [supWanted, booting, hostBusy, hb, hp, hc]
  have e2 : ispWanted e = ispWanted d := by simp [ispWanted, cameraAlwaysOn, forwarding, getTx, ha, hi, hp, hx]
  have e3 : perkAfter (supWanted d) e = perkAfter (supWanted d) d := by
    unfold perkAfter creditsHeld getTier
    rw [hr, ht, ha, hi, hp]
    by_cases hh : d.boot.step = .halted
    · rw [if_pos hh, if_pos (hb.trans hh)]
    · rw [if_neg hh, if_neg (fun x => hh (hb.symm.trans x))]
  rw [e1, e2, e3, hb, hp]; exact h

/-- A meaning of the device that touches none of the fields which something follows from ends as it stands. -/
theorem devStep_eq (f : Dev → Dev) (s : State) (h : Settled s) (hb : (f s.dev).boot = s.dev.boot)
    (hi : (f s.dev).img = s.dev.img) (hr : (f s.dev).reqs = s.dev.reqs) (ht : (f s.dev).tiers = s.dev.tiers)
    (hp : (f s.dev).power = s.dev.power) (hc : (f s.dev).host.cur = s.dev.host.cur) (hx : (f s.dev).host.tx = s.dev.host.tx)
    (hv : (f s.dev).sched.tripped = s.dev.sched.tripped) :
    devStep f s = .next { s with dev := f s.dev } := by
  unfold devStep
  rw [settle_eq]
  obtain ⟨h1, h2, h3⟩ := h
  exact ⟨by rw [hv]; exact h1, by rw [hb]; exact h2,
    powerSettled_congr s.dev _ (by rw [hb]) (by rw [hb]) hi hr ht hp hc hx h3⟩

end Sys2Proof.Machine
end

