-- ==== Sys2Proof/Laws/Boot.lean ====
section
/-! SUPPORT. What follows from a command in a device that goes on booting: the ROM step of a new boot, the power bits. -/

namespace Sys2Proof.Machine

/-- A draw of bytes advances the count of free values and nothing else. -/
theorem drawBytes_dev : ∀ (n : Nat) (d : Dev), (drawBytes n d).2 = { d with freeCtr := d.freeCtr + n }
  | 0, _ => rfl
  | n + 1, d => by
    unfold drawBytes
    dsimp only
    rw [drawBytes_dev n]
    simp [Nat.add_assoc, Nat.add_comm 1 n]

theorem drawBytes_length : ∀ (n : Nat) (d : Dev), (drawBytes n d).1.length = n
  | 0, _ => rfl
  | n + 1, d => by unfold drawBytes; simp [drawBytes_length n]

/-- Step 2 of a boot in a state that goes on to read a header: salt and keys of the boot, nothing else. -/
theorem romStep_boots (s : State) (h : Boots s.otp) : ∃ salt : Bytes, salt.length = 16 ∧
    romStep s = { s with dev := { s.dev with
      boot := { s.dev.boot with
        romDue := false, lastTarget := 15, unlocked := false, policyOk := false, salt := salt
        linkKey := Config.hkdf s.otp.link salt (ascii "KYNER LINK") 32
        xtsKeys := Config.hkdf s.otp.root salt (ascii "KYNER DRAM") 64 }
      freeCtr := s.dev.freeCtr + 16 } } := by
  obtain ⟨h0, h5, hi⟩ := h
  refine ⟨(drawBytes 16 { s.dev with
    boot := { s.dev.boot with romDue := false, lastTarget := 15, unlocked := false, policyOk := false } }).1,
    drawBytes_length _ _, ?_⟩
  unfold romStep
  simp only [hi, Option.getD_none, drawBytes_dev, h0, h5, or_self, if_false]

/-- Nothing is due: only power bits change, and with the ISP domain the camera and its errors. -/
theorem settle_calm (s : State) (ht : s.dev.sched.tripped = none) (hr : s.dev.boot.romDue = false) : ∃ e a b p, CamWork s.dev e ∧
    settle s = { s with dev := { e with power := { s.dev.power with sup := a, isp := b, perk := p } } } := by
  have h1 : tripCheck s.dev = s.dev := by simp [tripCheck, ht]
  have h2 : romDone s = s := by simp [romDone, hr]
  unfold settle
  dsimp only
  rw [h1]
  show ∃ e a b p, CamWork s.dev e ∧ { romDone s with dev := settlePower (romDone s).dev } = _
  rw [h2]
  by_cases h : s.dev.boot.step = .held
  · exact ⟨s.dev, s.dev.power.sup, false, s.dev.power.perk, .refl _, by simp [settlePower, h]⟩
  · obtain ⟨e, hw, hd, _⟩ := settlePower_frame s.dev h
    exact ⟨e, _, _, _, hw, by rw [hd]⟩

/-- A boot has begun: its ROM step, then the power bits. -/
theorem settle_boots (s : State) (h : Boots s.otp) (ht : s.dev.sched.tripped = none) (hr : s.dev.boot.romDue = true) :
    ∃ (salt : Bytes), salt.length = 16 ∧ ∃ e a b p, CamWork { s.dev with freeCtr := s.dev.freeCtr + 16 } e ∧
    settle s = { s with dev := { e with
      power := { s.dev.power with sup := a, isp := b, perk := p }
      boot := { s.dev.boot with
        romDue := false, lastTarget := 15, unlocked := false, policyOk := false, salt := salt
        linkKey := Config.hkdf s.otp.link salt (ascii "KYNER LINK") 32
        xtsKeys := Config.hkdf s.otp.root salt (ascii "KYNER DRAM") 64 } } } := by
  obtain ⟨salt, hl, hs⟩ := romStep_boots s h
  refine ⟨salt, hl, ?_⟩
  obtain ⟨e, a, b, p, hw, hc⟩ := settle_calm (romStep s) (by rw [hs]; exact ht) (by rw [hs])
  rw [hs] at hw
  obtain ⟨c, r, i, n, m, x, k, rfl⟩ := hw
  refine ⟨{ s.dev with cam := c, err := r, host := { s.dev.host with ibis := i, ibiMerged := n }, mem := m, mov := { s.dev.mov with ddr := x }, freeCtr := k },
    a, b, p, ⟨c, r, i, n, m, x, k, rfl⟩, ?_⟩
  have h1 : tripCheck s.dev = s.dev := by simp [tripCheck, ht]
  have h1' : tripCheck (romStep s).dev = (romStep s).dev := by rw [hs]; simp [tripCheck, ht]
  have h2 : romDone s = romStep s := by simp [romDone, hr]
  have h3 : romDone (romStep s) = romStep s := by rw [romDone, if_neg (by rw [hs]; simp)]
  have h4 : settle s = settle (romStep s) := by
    unfold settle
    dsimp only
    rw [h1, h1']
    show { romDone s with dev := settlePower (romDone s).dev } =
      { romDone (romStep s) with dev := settlePower (romDone (romStep s)).dev }
    rw [h2, h3]
  rw [h4, hc, hs]

/-- A change of phase touches the phase and the interrupts. -/
theorem setPhase_frame (p : Nat) (d : Dev) : ∃ i n,
    setPhase p d = { d with boot := { d.boot with phase := p }, host := { d.host with ibis := i, ibiMerged := n } } := by
  unfold setPhase
  split
  · rename_i h; exact ⟨d.host.ibis, d.host.ibiMerged, by subst h; rfl⟩
  · obtain ⟨i, n, h⟩ := ibi_frame 6 p 0 0 { d with boot := { d.boot with phase := p } }
    exact ⟨i, n, h⟩

@[simp] theorem setPhase_boot (p : Nat) (d : Dev) : (setPhase p d).boot = { d.boot with phase := p } := by
  obtain ⟨i, n, h⟩ := setPhase_frame p d; rw [h]

@[simp] theorem setPhase_sched (p : Nat) (d : Dev) : (setPhase p d).sched = d.sched := by
  obtain ⟨i, n, h⟩ := setPhase_frame p d; rw [h]

/-- What a write of the configuration flash may change: the flash, the command sent to it, and by a read-back that differs the error
record and the queue of interrupts. -/
def Writes (d e : Dev) : Prop := ∃ x f r i n k, e = { d with
  flash := x, boot := { d.boot with sent := f }, err := r, host := { d.host with ibis := i, ibiMerged := n }, freeCtr := k }

theorem Writes.refl (d : Dev) : Writes d d := ⟨d.flash, d.boot.sent, d.err, d.host.ibis, d.host.ibiMerged, d.freeCtr, rfl⟩

theorem Writes.trans {a b c : Dev} (h : Writes a b) (g : Writes b c) : Writes a c := by
  obtain ⟨_, _, _, _, _, _, rfl⟩ := h
  obtain ⟨_, _, _, _, _, _, rfl⟩ := g
  exact ⟨_, _, _, _, _, _, rfl⟩

/-- A change of the flash alone. -/
theorem Writes.flash (d : Dev) (x : Flash) : Writes d { d with flash := x } := ⟨x, d.boot.sent, d.err, d.host.ibis, d.host.ibiMerged, d.freeCtr, rfl⟩

theorem endWrite_writes (same : Bool) (d : Dev) : Writes d (endWrite same d) := by
  unfold endWrite
  split
  · unfold landWrite
    split
    · exact .flash d _
    · exact .refl d
  · refine (Writes.flash d { d.flash with writing := none }).trans ?_
    obtain ⟨e, i, n, h⟩ := recordAt_frame 0xA7 none (0, 0) none false (modFlash (fun f => { f with writing := none }) d)
    exact ⟨_, d.boot.sent, e, i, n, d.freeCtr, h⟩

theorem awaitWrite_writes (d : Dev) : Writes d (awaitWrite d) := by
  unfold awaitWrite
  split
  · exact .refl d
  · exact Writes.trans ⟨d.flash, d.boot.sent, d.err, d.host.ibis, d.host.ibiMerged, d.freeCtr + 1, rfl⟩ (endWrite_writes _ _)

/-- The snapshot of a DEVICE-severity error is such writes. -/
theorem deviceSnapshot_writes (d : Dev) : Writes d (deviceSnapshot d) := by
  unfold deviceSnapshot
  split
  · refine .trans (.trans (.trans (awaitWrite_writes d) ?_) (awaitWrite_writes _)) (.flash _ _)
    exact ⟨_, _, (awaitWrite d).err, (awaitWrite d).host.ibis, (awaitWrite d).host.ibiMerged, (awaitWrite d).freeCtr, rfl⟩
  · exact .refl d

/-- A snapshot that may be left out touches the same. -/
theorem maySnapshot_writes (sup : Bool) (d : Dev) : Writes d (if sup = true then deviceSnapshot d else d) := by
  cases sup
  · exact .refl d
  · exact deviceSnapshot_writes d

/-- The drop of the domains, as it acts on the boot state and on what waits in the scheduler. -/
theorem dropDomains_boot (d : Dev) : (dropDomains d).boot = bootKept d.boot ∧ (dropDomains d).sched.tripped = d.sched.tripped := by
  have h : ∃ e, e.boot = d.boot ∧ e.sched = d.sched ∧ settleBlocks (fun _ => true) (if d.power.isp then ispDown d else d) = e := by
    refine ⟨_, ?_, ?_, rfl⟩ <;>
    · obtain ⟨_, _, _, _, _, _, _, hs⟩ := settleBlocks_camWork (fun _ => true) (if d.power.isp then ispDown d else d)
      rw [hs]
      split
      · obtain ⟨_, ⟨_, _, _, _, _, _, _, rfl⟩, hd⟩ := ispDown_frame d
        rw [hd]
      · rfl
  obtain ⟨e, hb, hs, he⟩ := h
  unfold dropDomains
  dsimp only
  rw [he]
  exact ⟨by rw [hb], by show (schedKept e.sched).tripped = _; rw [hs]; rfl⟩

/-- What a boot that has failed leaves for the next attempt or for the halt. -/
structure BootEnded (d r : Dev) : Prop where
  failCause : r.boot.failCause = d.boot.failCause
  failKind : r.boot.failKind = d.boot.failKind
  failEntry : r.boot.failEntry = d.boot.failEntry
  failSeg : r.boot.failSeg = d.boot.failSeg
  accepted : r.boot.accepted = false
  tripped : r.sched.tripped = d.sched.tripped
  ends : (r.boot.step = .halted ∧ r.boot.phase = 15 ∧ r.boot.romDue = false) ∨
    (r.boot.step = .sfdp ∧ r.boot.phase = 0 ∧ r.boot.romDue = true)

theorem haltDevice_ended (d : Dev) : BootEnded d (haltDevice d) := by
  obtain ⟨h, ht⟩ := dropDomains_boot d
  unfold haltDevice
  refine ⟨?_, ?_, ?_, ?_, ?_, ?_, .inl ⟨?_, ?_, ?_⟩⟩ <;> simp [h, ht, bootKept]

theorem beginBoot_ended (d x : Dev) (h : d.boot = bootKept x.boot ∨ ∃ n, d.boot = { bootKept x.boot with retries := n })
    (ht : d.sched.tripped = x.sched.tripped) : BootEnded x (beginBoot d) := by
  unfold beginBoot
  rcases h with h | ⟨n, h⟩ <;>
    refine ⟨?_, ?_, ?_, ?_, ?_, ?_, .inr ⟨?_, ?_, ?_⟩⟩ <;> simp [h, ht, bootKept]

theorem BootEnded.trans {a b c : Dev} (h : BootEnded b c) (h1 : b.boot.failCause = a.boot.failCause)
    (h2 : b.boot.failKind = a.boot.failKind) (h3 : b.boot.failEntry = a.boot.failEntry) (h4 : b.boot.failSeg = a.boot.failSeg)
    (h5 : b.sched.tripped = a.sched.tripped) : BootEnded a c :=
  ⟨h.failCause.trans h1, h.failKind.trans h2, h.failEntry.trans h3, h.failSeg.trans h4, h.accepted, h.tripped.trans h5, h.ends⟩

/-- The halt after a snapshot that may be left out. -/
theorem haltAfter_ended (sup : Bool) (d : Dev) : BootEnded d (haltDevice (if sup = true then deviceSnapshot d else d)) := by
  obtain ⟨x, f, r, i, n, k, h⟩ := maySnapshot_writes sup d
  rw [h]
  exact (haltDevice_ended _).trans rfl rfl rfl rfl rfl

/-- A boot that fails is retried or halts (R53). -/
theorem bootEnds_ended (sup : Bool) (d : Dev) : BootEnded d (bootEnds sup d) := by
  unfold bootEnds
  obtain ⟨h, ht⟩ := dropDomains_boot d
  split
  · exact beginBoot_ended _ d (.inr ⟨d.boot.retries + 1, by simp only [h]; rfl⟩) ht
  · exact haltAfter_ended sup d

/-- A failed boot check: its cause stands in DEV_BOOT_FAIL, and the attempt has ended. -/
theorem bootFail_ended (c k e sg : Nat) (d : Dev) :
    BootEnded { d with boot := { d.boot with failCause := c, failKind := k, failEntry := e, failSeg := sg } } (bootFail c k e sg d) := by
  unfold bootFail info record
  dsimp only
  obtain ⟨x, i, n, hr⟩ := recordAt_frame c none (0, 0) none false
    { d with boot := { d.boot with failCause := c, failKind := k, failEntry := e, failSeg := sg } }
  rw [hr]
  exact (bootEnds_ended true _).trans rfl rfl rfl rfl rfl

/-- A failed check of a boot whose policy record has not been read: the device halts. -/
theorem bootFail_halts (c k e sg : Nat) (d : Dev) (h : d.boot.policyOk = false) : (bootFail c k e sg d).boot.romDue = false := by
  unfold bootFail info record
  dsimp only
  obtain ⟨x, i, n, hr⟩ := recordAt_frame c none (0, 0) none false
    { d with boot := { d.boot with failCause := c, failKind := k, failEntry := e, failSeg := sg } }
  rw [hr]
  unfold bootEnds
  rw [if_neg (by simp [h])]
  obtain ⟨y, f, _, _, _, _, hs⟩ := maySnapshot_writes true { d with
    boot := { d.boot with failCause := c, failKind := k, failEntry := e, failSeg := sg }, err := x,
    host := { d.host with ibis := i, ibiMerged := n } }
  rw [hs]
  simp [haltDevice, dropDomains_boot, bootKept]

/-- A meaning of the device whose boot attempt ends in a device that goes on booting. -/
theorem devStep_failed (f : Dev → Dev) (s : State) (x : Dev) (hb : Boots s.otp) (hx : x.sched.tripped = none)
    (he : BootEnded x (f s.dev)) :
    ∃ t, devStep f s = .next t ∧ SameOutside s t ∧
      BootFailed x.boot.failCause x.boot.failKind x.boot.failEntry x.boot.failSeg t := by
  refine ⟨_, rfl, ?_⟩
  have ht : (f s.dev).sched.tripped = none := he.tripped.trans hx
  rcases he.ends with ⟨h1, h2, h3⟩ | ⟨h1, h2, h3⟩
  · obtain ⟨e, a, b, p, ⟨_, _, _, _, _, _, _, rfl⟩, hc⟩ := settle_calm { s with dev := f s.dev } ht h3
    rw [hc]
    exact ⟨⟨rfl, rfl, rfl⟩, he.failCause, he.failKind, he.failEntry, he.failSeg, he.accepted, .inl ⟨h1, h2⟩⟩
  · obtain ⟨salt, hl, e, a, b, p, ⟨_, _, _, _, _, _, _, rfl⟩, hc⟩ := settle_boots { s with dev := f s.dev } hb ht h3
    rw [hc]
    exact ⟨⟨rfl, rfl, rfl⟩, he.failCause, he.failKind, he.failEntry, he.failSeg, he.accepted, .inr ⟨h1, h2⟩⟩

/-- The same where the check may pass. -/
theorem bootFail_if (p : Prop) [Decidable p] (c k e sg : Nat) (d : Dev) (h : d.boot.policyOk = false) (hr : d.boot.romDue = false) :
    (if p then bootFail c k e sg d else d).boot.romDue = false ∧
      (if p then bootFail c k e sg d else d).sched.tripped = d.sched.tripped := by
  by_cases hp : p
  · rw [if_pos hp]; exact ⟨bootFail_halts c k e sg d h, (bootFail_ended c k e sg d).tripped⟩
  · rw [if_neg hp]; exact ⟨hr, rfl⟩

/-- The ROM step begins no further boot, and nothing waits in the scheduler that did not wait before. -/
theorem romStep_done (s : State) : (romStep s).dev.boot.romDue = false ∧ (romStep s).dev.sched.tripped = s.dev.sched.tripped := by
  unfold romStep
  simp only [drawBytes_dev]
  exact bootFail_if _ _ _ _ _ _ rfl rfl

/-- What follows from a command leaves the device settled. -/
theorem settle_settled (s : State) : Settled (settle s) := by
  have ht : (tripCheck s.dev).sched.tripped = none := by
    unfold tripCheck; split
    · rfl
    · assumption
  have hd : (romDone { s with dev := tripCheck s.dev }).dev.boot.romDue = false ∧
      (romDone { s with dev := tripCheck s.dev }).dev.sched.tripped = (tripCheck s.dev).sched.tripped := by
    unfold romDone
    split
    · exact romStep_done _
    · rename_i h; exact ⟨by simpa using h, rfl⟩
  have hr : ∀ d : Dev, (settlePower d).sched = d.sched ∧ (settlePower d).boot = d.boot := by
    intro d
    by_cases h : d.boot.step = .held
    · simp [settlePower, h]
    · obtain ⟨e, ⟨_, _, _, _, _, _, _, rfl⟩, hd, _⟩ := settlePower_frame d h
      rw [hd]; exact ⟨rfl, rfl⟩
  refine ⟨?_, ?_, settlePower_settled _⟩
  · show (settlePower _).sched.tripped = none
    rw [(hr _).1]; exact hd.2.trans ht
  · show (settlePower _).boot.romDue = false
    rw [(hr _).2]; exact hd.1

end Sys2Proof.Machine
end

