-- ==== Sys2Proof/Laws/Memory.lean ====
section
/-! SUPPORT. The laws of memory: a read after a write, and that every operation keeps the canonical form. -/

namespace Sys2Proof.Machine

theorem cellsWf_mono {l : List Host.Cell} : ∀ {lo hi : Nat}, lo ≤ hi → cellsWf hi l = true → cellsWf lo l = true := by
  cases l with
  | nil => intros; rfl
  | cons c r =>
    intro lo hi h w
    simp only [cellsWf, Bool.and_eq_true, decide_eq_true_eq] at w ⊢
    exact ⟨⟨by omega, w.1.2⟩, w.2⟩

theorem setCell_wf (a : Nat) (v : Byte) : ∀ (l : List Host.Cell) (lo : Nat), lo ≤ a → cellsWf lo l = true →
    cellsWf lo (setCell a v l) = true := by
  intro l
  induction l with
  | nil => intro lo h _; unfold setCell; split <;> simp_all [cellsWf]
  | cons c r ih =>
    obtain ⟨b, w⟩ := c
    intro lo h hw
    have hw' := hw
    simp only [cellsWf, Bool.and_eq_true, decide_eq_true_eq] at hw
    unfold setCell
    split
    · split
      · exact hw'
      · simp only [cellsWf, Bool.and_eq_true, decide_eq_true_eq]
        refine ⟨⟨h, by simpa⟩, ⟨⟨by omega, hw.1.2⟩, hw.2⟩⟩
    · split
      · split
        · exact cellsWf_mono (by omega) hw.2
        · simp only [cellsWf, Bool.and_eq_true, decide_eq_true_eq]
          subst_vars; exact ⟨⟨h, by simpa⟩, hw.2⟩
      · simp only [cellsWf, Bool.and_eq_true, decide_eq_true_eq]
        exact ⟨hw.1, ih (b + 1) (by omega) hw.2⟩

theorem lookup_absent (k : Nat) : ∀ (l : List Host.Cell) (lo : Nat), k < lo → cellsWf lo l = true → lookupKey k l = none := by
  intro l
  induction l with
  | nil => intros; rfl
  | cons c r ih =>
    intro lo h hw
    simp only [cellsWf, Bool.and_eq_true, decide_eq_true_eq] at hw
    have : k ≠ c.1 := by omega
    simp [lookupKey, this, ih (c.1 + 1) (by omega) hw.2]

theorem lookup_setCell (a : Nat) (v : Byte) (k : Nat) : ∀ (l : List Host.Cell) (lo : Nat), cellsWf lo l = true →
    (lookupKey k (setCell a v l)).getD 0 = if k = a then v else (lookupKey k l).getD 0 := by
  intro l
  induction l with
  | nil => intro lo _; unfold setCell; by_cases hv : v = 0#8 <;> by_cases hk : k = a <;> simp [lookupKey, hv, hk]
  | cons c r ih =>
    obtain ⟨b, w⟩ := c
    intro lo hw
    have hw' := hw
    simp only [cellsWf, Bool.and_eq_true, decide_eq_true_eq] at hw
    unfold setCell
    split
    · rename_i hab
      have hk : lookupKey a ((b, w) :: r) = none := by
        have : a ≠ b := by omega
        simp [lookupKey, this, lookup_absent a r (b + 1) (by omega) hw.2]
      split
      · by_cases h : k = a
        · subst h; simp_all
        · simp [h]
      · by_cases h : k = a <;> simp [lookupKey, h]
    · split
      · rename_i h1 h2; subst h2
        have hr := lookup_absent a r (a + 1) (by omega) hw.2
        split
        · by_cases h : k = a
          · subst h; simp_all
          · simp [lookupKey, h]
        · by_cases h : k = a <;> simp [lookupKey, h]
      · rename_i h1 h2
        have h2' : ¬ b = a := fun e => h2 e.symm
        by_cases h : k = b
        · subst h; simp [lookupKey, h2']
        · simpa [lookupKey, h] using ih (b + 1) hw.2

/-- A byte written to memory is read back, and every other byte reads as before. -/
theorem memByte_memPut (m : Mem) (a : Nat) (v : Byte) (k : Nat) (h : m.wf = true) :
    memByte (memPut m a v) k = if k = a then v else memByte m k := lookup_setCell a v k m.cells 0 h

theorem memPut_wf (m : Mem) (a : Nat) (v : Byte) (h : m.wf = true) : (memPut m a v).wf = true :=
  setCell_wf a v m.cells 0 (Nat.zero_le _) h

theorem memWrite_wf : ∀ (b : Bytes) (m : Mem) (a : Nat), m.wf = true → (memWrite m a b).wf = true := by
  intro b
  induction b with
  | nil => intro m a h; exact h
  | cons v r ih => intro m a h; exact ih _ _ (memPut_wf m a v h)

/-- Bytes outside a write read as before. -/
theorem memByte_memWrite_out : ∀ (b : Bytes) (m : Mem) (a k : Nat), m.wf = true → (k < a ∨ a + b.length ≤ k) →
    memByte (memWrite m a b) k = memByte m k := by
  intro b
  induction b with
  | nil => intros; rfl
  | cons v r ih =>
    intro m a k h hk
    simp only [List.length_cons] at hk
    rw [memWrite, ih _ _ _ (memPut_wf m a v h) (by omega), memByte_memPut _ _ _ _ h, if_neg (by omega)]

/-- Bytes written are read back. -/
theorem memByte_memWrite_in : ∀ (b : Bytes) (m : Mem) (a i : Nat), m.wf = true → (hi : i < b.length) →
    memByte (memWrite m a b) (a + i) = b[i] := by
  intro b
  induction b with
  | nil => intro m a i _ hi; simp at hi
  | cons v r ih =>
    intro m a i h hi
    cases i with
    | zero =>
      rw [memWrite, memByte_memWrite_out _ _ _ _ (memPut_wf m a v h) (by omega), memByte_memPut _ _ _ _ h]; simp
    | succ n =>
      have := ih (memPut m a v) (a + 1) n (memPut_wf m a v h) (by simpa using hi)
      rw [memWrite, show a + (n + 1) = a + 1 + n by omega, this]; simp

theorem filter_wf (p : Host.Cell → Bool) : ∀ (l : List Host.Cell) (lo : Nat), cellsWf lo l = true → cellsWf lo (l.filter p) = true := by
  intro l
  induction l with
  | nil => intros; rfl
  | cons c r ih =>
    intro lo h
    simp only [cellsWf, Bool.and_eq_true, decide_eq_true_eq] at h
    rw [List.filter_cons]
    split
    · simp only [cellsWf, Bool.and_eq_true, decide_eq_true_eq]; exact ⟨h.1, ih _ h.2⟩
    · exact cellsWf_mono (by omega) (ih _ h.2)

theorem memLose_wf (m : Mem) (a n : Nat) (h : m.wf = true) : (memLose m a n).wf = true := filter_wf _ _ _ h

@[simp] theorem poisonGranules_cells (gs : List Nat) (m : Mem) : (poisonGranules gs m).cells = m.cells := rfl

@[simp] theorem cleanGranules_cells (gs : List Nat) (m : Mem) : (cleanGranules gs m).cells = m.cells := rfl

@[simp] theorem poisonGranules_wf (gs : List Nat) (m : Mem) : (poisonGranules gs m).wf = m.wf := rfl

@[simp] theorem cleanGranules_wf (gs : List Nat) (m : Mem) : (cleanGranules gs m).wf = m.wf := rfl

theorem memStore_wf (a : Nat) (b : Bytes) (d : Dev) (h : d.mem.wf = true) : (memStore a b d).mem.wf = true :=
  memWrite_wf b d.mem a h

theorem statAdd_wf (a n : Nat) (m : Mem) (h : m.wf = true) : (statAdd a n m).wf = true := memWrite_wf _ _ _ h

theorem poisonRange_wf (a n : Nat) (d : Dev) : (poisonRange a n d).mem.wf = d.mem.wf := rfl

theorem foldSet_wf (g : Host.Cell → Nat) : ∀ (l : List Host.Cell) (c : List Host.Cell), cellsWf 0 c = true →
    cellsWf 0 (l.foldl (fun x e => setCell (g e) e.2 x) c) = true := by
  intro l
  induction l with
  | nil => intro c h; exact h
  | cons e r ih => intro c h; exact ih _ (setCell_wf _ _ _ _ (Nat.zero_le _) h)

theorem copyRange_wf (src dst n : Nat) (m : Mem) (h : m.wf = true) : (copyRange src dst n m).wf = true :=
  foldSet_wf (fun c => c.1 - src + dst) _ _ (memLose_wf m dst n h)

end Sys2Proof.Machine
end

