-- ==== Sys2Proof/Laws/PerInstr.lean ====
section
/-! SUPPORT. Statements made per command. -/

namespace Sys2Proof.Laws.FrameField

/-- The frame that a command of the I3C target port carries. -/
def frame? : Instr → Option Frame
  | .watchedCountClear f => some f
  | .prtResetReq f => some f
  | .statusRead f => some f
  | .windowWrite f => some f
  | .badOpcode _ f => some f
  | .attest f => some f
  | .sessionOpen f => some f
  | .sessionClose f => some f
  | .eventInjectWake f => some f
  | .eventInjectMark f => some f
  | .promptSubmit f => some f
  | .prerollRead f => some f
  | .errlogSnapshot f => some f
  | .selfTestRequest f => some f
  | .lifecycleTransition f => some f
  | .tensorDump f => some f
  | .kennelZero f => some f
  | .kennelTareTake f => some f
  | .kennelTareClear f => some f
  | .kennelReadLatest f => some f
  | .kennelReadStable f => some f
  | .kennelStatusBlock f => some f
  | .kennelCertificate f => some f
  | .kennelBadRequest f => some f
  | .injArm f => some f
  | .injDisarm f => some f
  | .errEntryClear f => some f
  | .errFirstClear f => some f
  | _ => none

/-- A well-formed command that carries a frame carries one whose fields fit their widths (Table 15.4). -/
def Statement (i : Instr) : Prop := i.wf = true → ∀ f, frame? i = some f → f.wf = true

/-- The frame that a command carries is the one that was found well formed. -/
theorem of_some {f g : Frame} (h : f.wf = true) (e : some f = some g) : g.wf = true := Option.some.inj e ▸ h

theorem powerOn : Statement .powerOn := fun _ _ e => nomatch e
theorem brownOut (rail : Fin 2) (micros : Nat) : Statement (.brownOut rail micros) := fun _ _ e => nomatch e
theorem porstAssert (nanos : Nat) : Statement (.porstAssert nanos) := fun _ _ e => nomatch e
theorem porstRelease (straps : Fin 4) (rewritten : Option (List Bytes)) : Statement (.porstRelease straps rewritten) := fun _ _ e => nomatch e
theorem sfdpReadDone (density : Option Nat) (eraseKib : List (Nat × Nat)) : Statement (.sfdpReadDone density eraseKib) := fun _ _ e => nomatch e
theorem headerReadDone (first second : Bytes) : Statement (.headerReadDone first second) := fun _ _ e => nomatch e
theorem manifestReadDone (bytes : Bytes) : Statement (.manifestReadDone bytes) := fun _ _ e => nomatch e
theorem recordReadDone (bytes : Bytes) : Statement (.recordReadDone bytes) := fun _ _ e => nomatch e
theorem dramTrainingDone (passed : Bool) (mib : Nat) (goodBlocks : List (List Bool)) : Statement (.dramTrainingDone passed mib goodBlocks) := fun _ _ e => nomatch e
theorem imageAcceptance (keyBlock : Bytes) (present : List Nat) (found : List (Fin 2 × Nat)) : Statement (.imageAcceptance keyBlock present found) := fun _ _ e => nomatch e
theorem blobSegmentReadDone (entry : Nat) (segment : Option Nat) (bytes : Bytes) (corrected : List (List Nat)) (uncorrectable : List (List (List Nat))) : Statement (.blobSegmentReadDone entry segment bytes corrected uncorrectable) := fun _ _ e => nomatch e
theorem errlogSpacingExpiry : Statement .errlogSpacingExpiry := fun _ _ e => nomatch e
theorem flashWriteDone (same : Bool) : Statement (.flashWriteDone same) := fun _ _ e => nomatch e
theorem wakeArrival (w : Wake) : Statement (.wakeArrival w) := fun _ _ e => nomatch e
theorem arbiterCycle : Statement .arbiterCycle := fun _ _ e => nomatch e
theorem idleHoldExpiry (tier : Fin 3) : Statement (.idleHoldExpiry tier) := fun _ _ e => nomatch e
theorem arriveCounterRead (tier : Fin 3) : Statement (.arriveCounterRead tier) := fun _ _ e => nomatch e
theorem audioSample (slot : Fin 8) (value : Int) (high : List Int) : Statement (.audioSample slot value high) := fun _ _ e => nomatch e
theorem pdmLineStuck (line : Fin 8) : Statement (.pdmLineStuck line) := fun _ _ e => nomatch e
theorem pdmLineRecover (line : Fin 8) : Statement (.pdmLineRecover line) := fun _ _ e => nomatch e
theorem tdmFrameSync (slots : List Int) : Statement (.tdmFrameSync slots) := fun _ _ e => nomatch e
theorem tdmLost : Statement .tdmLost := fun _ _ e => nomatch e
theorem tdmLock : Statement .tdmLock := fun _ _ e => nomatch e
theorem wakeInputEdge (input : Fin 16) (level : Bool) : Statement (.wakeInputEdge input level) := fun _ _ e => nomatch e
theorem sensorIbi (sensor : Fin 32) (payload : Bytes) : Statement (.sensorIbi sensor payload) := fun _ _ e => nomatch e
theorem perkStep (arrival : Nat) (outputs : List Int) (busy latency : Nat) : Statement (.perkStep arrival outputs busy latency) := fun _ _ e => nomatch e
theorem perkSramUncorrectable (arrival : Nat) : Statement (.perkSramUncorrectable arrival) := fun _ _ e => nomatch e
theorem snfIndexRead (slot : Fin 8) : Statement (.snfIndexRead slot) := fun _ _ e => nomatch e
theorem csi2FrameStart (port : Fin 4) (vc : Fin 16) (fn : Nat) (ecc : Ecc) : Statement (.csi2FrameStart port vc fn ecc) := fun _ _ e => nomatch e
theorem csi2LongPacket (port : Fin 4) (vc : Fin 16) (dtype : Nat) (bytes : Bytes) (crcOk : Bool) (ecc : Ecc) : Statement (.csi2LongPacket port vc dtype bytes crcOk ecc) := fun _ _ e => nomatch e
theorem csi2FrameEnd (port : Fin 4) (vc : Fin 16) (ecc : Ecc) : Statement (.csi2FrameEnd port vc ecc) := fun _ _ e => nomatch e
theorem streamIdle (stream : Fin 48) : Statement (.streamIdle stream) := fun _ _ e => nomatch e
theorem pipe0LineDone (out : IspFrame) : Statement (.pipe0LineDone out) := fun _ _ e => nomatch e
theorem pipe1FrameStart : Statement .pipe1FrameStart := fun _ _ e => nomatch e
theorem pipe1FrameDone (out : IspFrame) : Statement (.pipe1FrameDone out) := fun _ _ e => nomatch e
theorem thumbnailReceived (stream : Fin 48) (fn : Nat) (lines : List Bytes) (crcOk : List Bool) (dropped corrected : Nat) : Statement (.thumbnailReceived stream fn lines crcOk dropped corrected) := fun _ _ e => nomatch e
theorem settingsBlockPost (sensor : Fin 32) (part : Fin 128) (settingsId : Nat) (entries : List (Nat × Nat)) : Statement (.settingsBlockPost sensor part settingsId entries) := fun _ _ e => nomatch e
theorem settingsTransferDone (sensor : Fin 32) (ack : Bool) : Statement (.settingsTransferDone sensor ack) := fun _ _ e => nomatch e
theorem sensorHotJoin (port : Fin 2) (pid : Nat) : Statement (.sensorHotJoin port pid) := fun _ _ e => nomatch e
theorem csiFrameRead (stream : Fin 48) : Statement (.csiFrameRead stream) := fun _ _ e => nomatch e
theorem requestBind (graph : Nat) : Statement (.requestBind graph) := fun _ _ e => nomatch e
theorem descriptorInstantiate (graph inst : Nat) : Statement (.descriptorInstantiate graph inst) := fun _ _ e => nomatch e
theorem descriptorReady (d : DescId) : Statement (.descriptorReady d) := fun _ _ e => nomatch e
theorem tileDispatch (unit : Fin 28) (latency : Nat) : Statement (.tileDispatch unit latency) := fun _ _ e => nomatch e
theorem affinityWaitExpiry (d : DescId) : Statement (.affinityWaitExpiry d) := fun _ _ e => nomatch e
theorem tileAdvanceEnd (unit : Fin 28) (run : TileRun) : Statement (.tileAdvanceEnd unit run) := fun _ _ e => nomatch e
theorem tileCommitEnd (unit : Fin 28) (out : CommitData) : Statement (.tileCommitEnd unit out) := fun _ _ e => nomatch e
theorem tileFault (unit : Fin 28) (detector : Nat) : Statement (.tileFault unit detector) := fun _ _ e => nomatch e
theorem scaleTagMismatch (unit : Fin 28) (dataBlock kind tag seenKind : Nat) (poisoned : Bool) : Statement (.scaleTagMismatch unit dataBlock kind tag seenKind poisoned) := fun _ _ e => nomatch e
theorem hardStop (cluster : Fin 4) : Statement (.hardStop cluster) := fun _ _ e => nomatch e
theorem hardStopRelease (cluster : Fin 4) : Statement (.hardStopRelease cluster) := fun _ _ e => nomatch e
theorem tilesCounterRead (core : Fin 24) : Statement (.tilesCounterRead core) := fun _ _ e => nomatch e
theorem watchedCountClear (f : Frame) : Statement (.watchedCountClear f) := fun h _ e => of_some h e
theorem queryJoin (slot : Fin 8) (q : Query) : Statement (.queryJoin slot q) := fun _ _ e => nomatch e
theorem batchWaitExpiry (slot : Fin 8) : Statement (.batchWaitExpiry slot) := fun _ _ e => nomatch e
theorem sweepStart (slot : Fin 8) : Statement (.sweepStart slot) := fun _ _ e => nomatch e
theorem clusterMergeDone (slot : Fin 8) (cluster : Fin 4) : Statement (.clusterMergeDone slot cluster) := fun _ _ e => nomatch e
theorem deviceMergeDone (slot : Fin 8) (cycles : Nat) : Statement (.deviceMergeDone slot cycles) := fun _ _ e => nomatch e
theorem sweepsCounterRead (slot : Fin 8) : Statement (.sweepsCounterRead slot) := fun _ _ e => nomatch e
theorem resetMark (part : Fin 128) (seq : Fin 64) (step : Nat) : Statement (.resetMark part seq step) := fun _ _ e => nomatch e
theorem stateSwapInDone (block : Nat) (headerBlock headerChunks : Nat) (uncorrectable : List Nat) (waited : Nat) : Statement (.stateSwapInDone block headerBlock headerChunks uncorrectable waited) := fun _ _ e => nomatch e
theorem stateSwapOutDone (block : Nat) : Statement (.stateSwapOutDone block) := fun _ _ e => nomatch e
theorem stateIdleExpiry (block : Nat) : Statement (.stateIdleExpiry block) := fun _ _ e => nomatch e
theorem chunkCounterRead (seq : Fin 64) : Statement (.chunkCounterRead seq) := fun _ _ e => nomatch e
theorem pageWalkStart (d : DescId) (walker : Fin 2) : Statement (.pageWalkStart d walker) := fun _ _ e => nomatch e
theorem pageWalkEnd (d : DescId) (poisoned : Bool) : Statement (.pageWalkEnd d poisoned) := fun _ _ e => nomatch e
theorem allocate (d : DescId) (page : Nat) : Statement (.allocate d page) := fun _ _ e => nomatch e
theorem fill (d : DescId) : Statement (.fill d) := fun _ _ e => nomatch e
theorem truncate (part : Fin 128) (seq : Fin 256) (length : Nat) : Statement (.truncate part seq length) := fun _ _ e => nomatch e
theorem release (part : Fin 128) (seq : Fin 256) : Statement (.release part seq) := fun _ _ e => nomatch e
theorem editApply (seq : Fin 256) (waited : Nat) : Statement (.editApply seq waited) := fun _ _ e => nomatch e
theorem pageTableDirectWrite (master : Nat) (part : Fin 128) (seq : Fin 256) : Statement (.pageTableDirectWrite master part seq) := fun _ _ e => nomatch e
theorem attCounterRead (cluster : Fin 4) : Statement (.attCounterRead cluster) := fun _ _ e => nomatch e
theorem transferGranuleDone (mover : Fin 4) (fault : Nat) (roundTrip held : Nat) : Statement (.transferGranuleDone mover fault roundTrip held) := fun _ _ e => nomatch e
theorem windowLoadStart (window : Fin 4) : Statement (.windowLoadStart window) := fun _ _ e => nomatch e
theorem windowLayerPresent (window : Fin 4) (stall : Nat) : Statement (.windowLayerPresent window stall) := fun _ _ e => nomatch e
theorem windowLayerLate (window : Fin 4) : Statement (.windowLayerLate window) := fun _ _ e => nomatch e
theorem windowLayerFailed (window : Fin 4) : Statement (.windowLayerFailed window) := fun _ _ e => nomatch e
theorem remoteBarrierSignal (cell : Fin 8192) : Statement (.remoteBarrierSignal cell) := fun _ _ e => nomatch e
theorem scrubPeriod (corrected : Nat) (uncorrectable : List Nat) : Statement (.scrubPeriod corrected uncorrectable) := fun _ _ e => nomatch e
theorem movCounterRead (mover : Fin 4) : Statement (.movCounterRead mover) := fun _ _ e => nomatch e
theorem windowCounterRead (window : Fin 4) : Statement (.windowCounterRead window) := fun _ _ e => nomatch e
theorem ddrCounterRead : Statement .ddrCounterRead := fun _ _ e => nomatch e
theorem budgetWindowStart (cluster : Fin 4) : Statement (.budgetWindowStart cluster) := fun _ _ e => nomatch e
theorem quotaReached (cluster : Fin 4) (part : Fin 128) (charge : Nat) : Statement (.quotaReached cluster part charge) := fun _ _ e => nomatch e
theorem coreLeaveSchedule (core : Fin 24) : Statement (.coreLeaveSchedule core) := fun _ _ e => nomatch e
theorem stepStart (graph : Nat) : Statement (.stepStart graph) := fun _ _ e => nomatch e
theorem accessViolation (master : Nat) (part : Fin 128) (address : Nat) : Statement (.accessViolation master part address) := fun _ _ e => nomatch e
theorem prtResetReq (f : Frame) : Statement (.prtResetReq f) := fun h _ e => of_some h e
theorem partitionResetCommand (issuer target : Fin 128) : Statement (.partitionResetCommand issuer target) := fun _ _ e => nomatch e
theorem partitionResetComplete (part : Fin 128) : Statement (.partitionResetComplete part) := fun _ _ e => nomatch e
theorem schedCounterRead : Statement .schedCounterRead := fun _ _ e => nomatch e
theorem checkerParityFail (pool : Fin 7) (instance_ : Nat) : Statement (.checkerParityFail pool instance_) := fun _ _ e => nomatch e
theorem backstopExpiry (watch : Fin 6) (instance_ : Nat) : Statement (.backstopExpiry watch instance_) := fun _ _ e => nomatch e
theorem enec (events : Nat) : Statement (.enec events) := fun _ _ e => nomatch e
theorem disec (events : Nat) : Statement (.disec events) := fun _ _ e => nomatch e
theorem rstdaa : Statement .rstdaa := fun _ _ e => nomatch e
theorem entdaa (address : Fin 128) : Statement (.entdaa address) := fun _ _ e => nomatch e
theorem setdasa (staticAddr address : Fin 128) : Statement (.setdasa staticAddr address) := fun _ _ e => nomatch e
theorem getpid : Statement .getpid := fun _ _ e => nomatch e
theorem getbcr : Statement .getbcr := fun _ _ e => nomatch e
theorem getdcr : Statement .getdcr := fun _ _ e => nomatch e
theorem getmxds : Statement .getmxds := fun _ _ e => nomatch e
theorem getstatus : Statement .getstatus := fun _ _ e => nomatch e
theorem rstact (action : Nat) : Statement (.rstact action) := fun _ _ e => nomatch e
theorem unsupportedCcc (direct : Bool) : Statement (.unsupportedCcc direct) := fun _ _ e => nomatch e
theorem hotJoinTimer : Statement .hotJoinTimer := fun _ _ e => nomatch e
theorem ibiSend (acked : Bool) : Statement (.ibiSend acked) := fun _ _ e => nomatch e
theorem ibiSpacingExpiry : Statement .ibiSpacingExpiry := fun _ _ e => nomatch e
theorem statusRead (f : Frame) : Statement (.statusRead f) := fun h _ e => of_some h e
theorem windowWrite (f : Frame) : Statement (.windowWrite f) := fun h _ e => of_some h e
theorem badOpcode (opcode : Nat) (f : Frame) : Statement (.badOpcode opcode f) := fun h _ e => of_some ((Bool.and_eq_true _ _).mp h).2 e
theorem responseRead (count : Nat) : Statement (.responseRead count) := fun _ _ e => nomatch e
theorem attest (f : Frame) : Statement (.attest f) := fun h _ e => of_some h e
theorem sessionOpen (f : Frame) : Statement (.sessionOpen f) := fun h _ e => of_some h e
theorem sessionClose (f : Frame) : Statement (.sessionClose f) := fun h _ e => of_some h e
theorem eventInjectWake (f : Frame) : Statement (.eventInjectWake f) := fun h _ e => of_some h e
theorem eventInjectMark (f : Frame) : Statement (.eventInjectMark f) := fun h _ e => of_some h e
theorem promptSubmit (f : Frame) : Statement (.promptSubmit f) := fun h _ e => of_some h e
theorem prerollRead (f : Frame) : Statement (.prerollRead f) := fun h _ e => of_some h e
theorem prerollResponseReady : Statement .prerollResponseReady := fun _ _ e => nomatch e
theorem errlogSnapshot (f : Frame) : Statement (.errlogSnapshot f) := fun h _ e => of_some h e
theorem selfTestRequest (f : Frame) : Statement (.selfTestRequest f) := fun h _ e => of_some h e
theorem lifecycleTransition (f : Frame) : Statement (.lifecycleTransition f) := fun h _ e => of_some h e
theorem lifecycleProgramDone : Statement .lifecycleProgramDone := fun _ _ e => nomatch e
theorem tensorDump (f : Frame) : Statement (.tensorDump f) := fun h _ e => of_some h e
theorem recordSend (port : Fin 2) (held : Nat) : Statement (.recordSend port held) := fun _ _ e => nomatch e
theorem telemetryPeriod : Statement .telemetryPeriod := fun _ _ e => nomatch e
theorem i3tCounterRead : Statement .i3tCounterRead := fun _ _ e => nomatch e
theorem kennelReset (cause : Fin 3) (sealOpen : Bool) : Statement (.kennelReset cause sealOpen) := fun _ _ e => nomatch e
theorem kennelPowerupRecord : Statement .kennelPowerupRecord := fun _ _ e => nomatch e
theorem kennelReading (gross : Int) (otpError : Bool) (temperature : Int) (clock : Nat) (faults : Nat) : Statement (.kennelReading gross otpError temperature clock faults) := fun _ _ e => nomatch e
theorem kennelZero (f : Frame) : Statement (.kennelZero f) := fun h _ e => of_some h e
theorem kennelTareTake (f : Frame) : Statement (.kennelTareTake f) := fun h _ e => of_some h e
theorem kennelTareClear (f : Frame) : Statement (.kennelTareClear f) := fun h _ e => of_some h e
theorem kennelReadLatest (f : Frame) : Statement (.kennelReadLatest f) := fun h _ e => of_some h e
theorem kennelReadStable (f : Frame) : Statement (.kennelReadStable f) := fun h _ e => of_some h e
theorem kennelStatusBlock (f : Frame) : Statement (.kennelStatusBlock f) := fun h _ e => of_some h e
theorem kennelCertificate (f : Frame) : Statement (.kennelCertificate f) := fun h _ e => of_some h e
theorem kennelBadRequest (f : Frame) : Statement (.kennelBadRequest f) := fun h _ e => of_some h e
theorem kennelStableReached : Statement .kennelStableReached := fun _ _ e => nomatch e
theorem kennelStableTimeout : Statement .kennelStableTimeout := fun _ _ e => nomatch e
theorem kennelAnswerTimeout : Statement .kennelAnswerTimeout := fun _ _ e => nomatch e
theorem kennelLateAnswer : Statement .kennelLateAnswer := fun _ _ e => nomatch e
theorem mailboxHeadAdvance : Statement .mailboxHeadAdvance := fun _ _ e => nomatch e
theorem sealOpen (programmed : Bool) : Statement (.sealOpen programmed) := fun _ _ e => nomatch e
theorem sealClose : Statement .sealClose := fun _ _ e => nomatch e
theorem calibrationCommit : Statement .calibrationCommit := fun _ _ e => nomatch e
theorem kenCounterRead : Statement .kenCounterRead := fun _ _ e => nomatch e
theorem crystalStop : Statement .crystalStop := fun _ _ e => nomatch e
theorem crystalRestart : Statement .crystalRestart := fun _ _ e => nomatch e
theorem pllLockLost (pll : Fin 5) : Statement (.pllLockLost pll) := fun _ _ e => nomatch e
theorem bootPointStepUp : Statement .bootPointStepUp := fun _ _ e => nomatch e
theorem governorPeriod (milliwatts : Nat) (base compute : Int) : Statement (.governorPeriod milliwatts base compute) := fun _ _ e => nomatch e
theorem governorStepDown : Statement .governorStepDown := fun _ _ e => nomatch e
theorem governorStepUp : Statement .governorStepUp := fun _ _ e => nomatch e
theorem operatingPointChangeDone : Statement .operatingPointChangeDone := fun _ _ e => nomatch e
theorem holdLevelExpiry (cluster : Fin 4) : Statement (.holdLevelExpiry cluster) := fun _ _ e => nomatch e
theorem thermalCapStep : Statement .thermalCapStep := fun _ _ e => nomatch e
theorem thermalCapRecover : Statement .thermalCapRecover := fun _ _ e => nomatch e
theorem thermalShutdown : Statement .thermalShutdown := fun _ _ e => nomatch e
theorem cooldownBootStart : Statement .cooldownBootStart := fun _ _ e => nomatch e
theorem watchdogExpiry : Statement .watchdogExpiry := fun _ _ e => nomatch e
theorem clusterReset (cluster : Fin 4) (cause : Nat) (fifos : Nat) : Statement (.clusterReset cluster cause fifos) := fun _ _ e => nomatch e
theorem pwrCounterRead : Statement .pwrCounterRead := fun _ _ e => nomatch e
theorem injArm (f : Frame) : Statement (.injArm f) := fun h _ e => of_some h e
theorem injDisarm (f : Frame) : Statement (.injDisarm f) := fun h _ e => of_some h e
theorem errEntryClear (f : Frame) : Statement (.errEntryClear f) := fun h _ e => of_some h e
theorem errFirstClear (f : Frame) : Statement (.errFirstClear f) := fun h _ e => of_some h e
theorem selfTestPeriod : Statement .selfTestPeriod := fun _ _ e => nomatch e
theorem selfTestDone (pass : Bool) : Statement (.selfTestDone pass) := fun _ _ e => nomatch e
theorem abortWindowExpiry (core : Fin 24) : Statement (.abortWindowExpiry core) := fun _ _ e => nomatch e
theorem bankTestPeriod : Statement .bankTestPeriod := fun _ _ e => nomatch e
theorem bankSliceDone (uncorrectable : List Nat) (corrected : Nat) : Statement (.bankSliceDone uncorrectable corrected) := fun _ _ e => nomatch e
theorem ageingMeasure (readings : List Nat) : Statement (.ageingMeasure readings) := fun _ _ e => nomatch e
theorem blankToTestTransition (linkKey certificate patch : Bytes) : Statement (.blankToTestTransition linkKey certificate patch) := fun _ _ e => nomatch e
theorem calibrationParameterWrite (name : Nat) (value : Bytes) : Statement (.calibrationParameterWrite name value) := fun _ _ e => nomatch e
theorem commandResponseReady : Statement .commandResponseReady := fun _ _ e => nomatch e
theorem stemCounterRead (cluster : Fin 4) : Statement (.stemCounterRead cluster) := fun _ _ e => nomatch e

end Sys2Proof.Laws.FrameField
end

