-- ==== Sys2Proof/Laws/Requests.lean ====
section
/-! SUPPORT. What sending records, freeing instances and pumping the lanes can touch. -/

namespace Sys2Proof.Machine

/-- What composing and sending records may change of a device: the output ports, the channels' numbers, the queue of interrupts, the
error record. -/
def Sends (d e : Dev) : Prop :=
  ∃ r t c i n, e = { d with err := r, host := { d.host with tx := t, chans := c, ibis := i, ibiMerged := n } }

theorem Sends.refl (d : Dev) : Sends d d := ⟨_, _, _, _, _, rfl⟩

theorem Sends.trans {a b c : Dev} (h : Sends a b) (g : Sends b c) : Sends a c := by
  obtain ⟨_, _, _, _, _, rfl⟩ := h
  obtain ⟨_, _, _, _, _, rfl⟩ := g
  exact ⟨_, _, _, _, _, rfl⟩

/-- Recording a code sends. -/
theorem record_sends (c : Nat) (p : Option Nat) (k : Nat × Nat) (d : Dev) : Sends d (record c p k d) := by
  obtain ⟨e, i, n, h⟩ := recordAt_frame c p k none false d
  exact ⟨e, d.host.tx, d.host.chans, i, n, h⟩

/-- A port changes and nothing else. -/
theorem modTx_sends (p : Nat) (f : TxPort → TxPort) (d : Dev) : Sends d (modTx p f d) := ⟨_, _, _, _, _, rfl⟩

/-- An interrupt queued sends. -/
theorem ibi_sends (b x y z : Nat) (d : Dev) : Sends d (ibi b x y z d) := by
  obtain ⟨i, n, h⟩ := ibi_frame b x y z d
  exact ⟨d.err, d.host.tx, d.host.chans, i, n, h⟩

/-- A record is queued, dropped or made to wait, and nothing else happens (R364). -/
theorem enqueueRecord_sends (p : Nat) (o : OutRec) (m : RecMeta) (w : Bool) (d : Dev) : Sends d (enqueueRecord p o m w d).2 := by
  unfold enqueueRecord
  split
  · exact .refl d
  · split
    · split
      · exact .refl d
      · dsimp only
        exact (modTx_sends _ _ d).trans (record_sends _ _ _ _)
    · dsimp only
      split
      · exact Sends.trans ⟨d.err, _, _, d.host.ibis, d.host.ibiMerged, rfl⟩ (ibi_sends _ _ _ _ _)
      · exact ⟨d.err, _, _, d.host.ibis, d.host.ibiMerged, rfl⟩

/-- A record of the device itself is queued or dropped. -/
theorem emitLoose_sends (p : Nat) (o : OutRec) (d : Dev) : Sends d (emitLoose p o d) := enqueueRecord_sends p o {} false d

/-- Sending a request's records touches the ports, the error record and the placeholders' count; what is left to send is a tail of
what there was. -/
theorem sendRecs_frame (r : Req) : ∀ (l : List OutRec) (d : Dev), ∃ n, Sends { d with sched := { d.sched with placeholders := n } } (sendRecs r l d).2 ∧
    (sendRecs r l d).1 <:+ l := by
  intro l
  induction l with
  | nil => intro d; exact ⟨d.sched.placeholders, .refl d, List.suffix_refl _⟩
  | cons o rest ih =>
    intro d
    have hs := enqueueRecord_sends r.q.part o (metaOf r (r.ended.isSome && rest.isEmpty)) true d
    unfold sendRecs
    dsimp only
    split
    · split
      · obtain ⟨n, h, t⟩ := ih (modSched (fun c => { c with placeholders := c.placeholders + 1 })
          (enqueueRecord r.q.part o (metaOf r (r.ended.isSome && rest.isEmpty)) true d).2)
        refine ⟨n, ?_, t.trans (List.suffix_cons _ _)⟩
        obtain ⟨_, _, _, _, _, he⟩ := hs
        rw [he] at h ⊢
        exact Sends.trans ⟨_, _, _, _, _, rfl⟩ h
      · obtain ⟨n, h, t⟩ := ih (enqueueRecord r.q.part o (metaOf r (r.ended.isSome && rest.isEmpty)) true d).2
        refine ⟨n, ?_, t.trans (List.suffix_cons _ _)⟩
        obtain ⟨_, _, _, _, _, he⟩ := hs
        rw [he] at h ⊢
        exact Sends.trans ⟨_, _, _, _, _, rfl⟩ h
    · exact ⟨d.sched.placeholders, .refl d, List.suffix_refl _⟩

/-- What pumping the lanes may change: the ports, the error record, the placeholders' count, and the credits on their way back. -/
def Pumps (d e : Dev) : Prop := ∃ n t, Sends { d with sched := { d.sched with placeholders := n }, tiers := t } e

theorem Pumps.refl (d : Dev) : Pumps d d := ⟨d.sched.placeholders, d.tiers, .refl d⟩

theorem Pumps.trans {a b c : Dev} (h : Pumps a b) (g : Pumps b c) : Pumps a c := by
  obtain ⟨_, _, _, _, _, _, _, rfl⟩ := h
  obtain ⟨_, _, _, _, _, _, _, rfl⟩ := g
  exact ⟨_, _, _, _, _, _, _, rfl⟩

/-- The requests that are left are some of those there were, in their order, with the records still to send (R343, R346). -/
theorem pumpReqs_frame : ∀ (l : List Req) (held : List (Nat × Nat × Nat)) (d : Dev), Pumps d (pumpReqs l held d).2 ∧
    ((pumpReqs l held d).1.map (fun r => r.order)).Sublist (l.map (fun r => r.order)) := by
  intro l
  induction l with
  | nil => intro h d; exact ⟨.refl d, List.Sublist.refl _⟩
  | cons r rs ih =>
    intro held d
    have back (e : Dev) : Pumps e (creditBack r e) := ⟨e.sched.placeholders, _, .refl _⟩
    have sent : Pumps d (sendRecs r r.recs d).2 := by
      obtain ⟨n, h, _⟩ := sendRecs_frame r r.recs d
      exact ⟨n, d.tiers, h⟩
    unfold pumpReqs
    split
    · split
      · exact ⟨(back d).trans (ih held _).1, (ih held _).2.cons _⟩
      · exact ⟨(ih held d).1, (ih held d).2.cons_cons _⟩
    · split
      · exact ⟨(ih held d).1, (ih held d).2.cons_cons _⟩
      · dsimp only
        split
        · exact ⟨sent.trans ((back _).trans (ih held _).1), (ih held _).2.cons _⟩
        · exact ⟨sent.trans (ih _ _).1, (ih _ _).2.cons_cons _⟩

/-- What a checker that observes a take or return may change: by an injection, the error record, the queue of interrupts, and what the
scheduler knows of checkers. -/
def Taps (d e : Dev) : Prop := ∃ r i n t l, e = { d with
  err := r, host := { d.host with ibis := i, ibiMerged := n }, sched := { d.sched with tripped := t, lost := l } }

theorem Taps.refl (d : Dev) : Taps d d := ⟨d.err, d.host.ibis, d.host.ibiMerged, d.sched.tripped, d.sched.lost, rfl⟩

theorem fired_eq (d : Dev) : fired d = { d with err := (fired d).err } := by unfold fired; split <;> rfl

/-- A take or return that a checker observes. -/
theorem tap_taps (pool inst kind part : Nat) (d : Dev) : Taps d (tap pool inst kind part d) := by
  unfold tap
  split
  · exact .refl d
  · split
    · rw [fired_eq]
      exact ⟨_, d.host.ibis, d.host.ibiMerged, _, d.sched.lost, rfl⟩
    · rw [fired_eq]
      unfold checkerLost
      obtain ⟨e, i, n, h⟩ := recordAt_frame 0x14 none (7, pool) none true (modSched (fun c =>
        { c with lost := if (pool, inst) ∈ c.lost then c.lost else c.lost ++ [(pool, inst)] }) { d with err := (fired d).err })
      exact ⟨e, i, n, d.sched.tripped, _, h⟩
    · exact .refl d

/-- With nothing armed no checker finds anything. -/
theorem tap_calm (pool inst kind part : Nat) (d : Dev) (h : d.err.armed = none) : tap pool inst kind part d = d := by
  unfold tap armedOn
  rw [h]
  split <;> rfl

/-- What freeing instances and frames may change: entries of instances, frames of units, what checkers do. -/
def Frees (d e : Dev) : Prop := ∃ r i n t l x u, e = { d with
  err := r, host := { d.host with ibis := i, ibiMerged := n }, units := u, sched := { d.sched with tripped := t, lost := l, insts := x } }

theorem Frees.refl (d : Dev) : Frees d d := ⟨d.err, d.host.ibis, d.host.ibiMerged, d.sched.tripped, d.sched.lost, d.sched.insts, d.units, rfl⟩

theorem Frees.trans {a b c : Dev} (h : Frees a b) (g : Frees b c) : Frees a c := by
  obtain ⟨_, _, _, _, _, _, _, rfl⟩ := h
  obtain ⟨_, _, _, _, _, _, _, rfl⟩ := g
  exact ⟨_, _, _, _, _, _, _, rfl⟩

theorem Taps.frees {d e : Dev} (h : Taps d e) : Frees d e := by
  obtain ⟨r, i, n, t, l, rfl⟩ := h
  exact ⟨r, i, n, t, l, d.sched.insts, d.units, rfl⟩

/-- A fold of such operations is one. -/
theorem foldl_frees {α : Type} (f : Dev → α → Dev) (h : ∀ d x, Frees d (f d x)) (l : List α) : ∀ d : Dev, Frees d (l.foldl f d) := by
  induction l with
  | nil => exact .refl
  | cons x r ih => exact fun d => (h d x).trans (ih _)

/-- The frames of an instance are freed. -/
theorem freeFrames_frees (g i : Nat) (d : Dev) : Frees d (freeFrames g i d) := by
  unfold freeFrames
  dsimp only
  have h := foldl_frees (fun e (c : Nat × Unit_) => tap 4 c.1 1 (graphOf d.img g).part e) (fun e c => (tap_taps _ _ _ _ e).frees)
    (d.units.cells.filter (fun c => c.2.frames.any (fun f => f.1 == g && f.2.1 == i))) d
  generalize List.foldl _ d _ = e at h ⊢
  exact h.trans ⟨e.err, e.host.ibis, e.host.ibiMerged, e.sched.tripped, e.sched.lost, e.sched.insts, _, rfl⟩

/-- An instance's entry goes. -/
theorem dropInst_frees (k : Nat) (e : Dev) : Frees e (modSched (fun s => { s with insts := tabDrop s.insts k }) e) :=
  ⟨e.err, e.host.ibis, e.host.ibiMerged, e.sched.tripped, e.sched.lost, _, e.units, rfl⟩

/-- Freeing the instances that are done drops their entries and their frames. -/
theorem sweepInsts_frees (d : Dev) : Frees d (sweepInsts d) := by
  unfold sweepInsts
  refine foldl_frees _ (fun e c => ?_) _ d
  refine (dropInst_frees c.1 e).trans ?_
  generalize modSched _ e = x
  refine (tap_taps 2 (graphOf d.img (c.1 / 64)).pool 1 (graphOf d.img (c.1 / 64)).part x).frees.trans ?_
  exact freeFrames_frees _ _ _

/-- Pumping touches the requests, the ports and their numbers, the interrupts, the error record, the count of placeholders, the
credits on their way back, and the instances and frames that are freed. -/
theorem pump_frame (d : Dev) : ∃ q e, Pumps d e ∧ Frees { e with reqs := q } (pump d) ∧
    (q.map (fun r => r.order)).Sublist (d.reqs.map (fun r => r.order)) :=
  have h := pumpReqs_frame d.reqs [] d
  ⟨_, _, h.1, sweepInsts_frees _, h.2⟩

/-- A ramp-up touches the leashes and the weight blocks of its unit. -/
theorem rampUp_frame (u : Nat) (x : DescId) (b : Bytes) (d : Dev) :
    rampUp u x b d = { d with units := (rampUp u x b d).units } := by
  unfold rampUp loadFirst
  split <;> rfl

end Sys2Proof.Machine
end

