-- ==== Sys2Proof/Laws/Table.lean ====
section
/-! SUPPORT. Reading and writing the entries of a sparse table. -/

namespace Sys2Proof.Machine

variable {α : Type}

/-- What was written to an entry of a table is read from it, whatever the table held. -/
@[simp] theorem lookupKey_insertKey_self (k : Nat) (v : α) (l : List (Nat × α)) : lookupKey k (insertKey k v l) = some v := by
  induction l with
  | nil => simp [insertKey, lookupKey]
  | cons c r ih =>
    obtain ⟨a, w⟩ := c
    unfold insertKey
    split
    · simp [lookupKey]
    · split
      · simp [lookupKey]
      · rename_i h1 h2; simp [lookupKey, h2, ih]

/-- Writing one entry leaves the others. -/
theorem lookupKey_insertKey_ne (k j : Nat) (v : α) (l : List (Nat × α)) (h : j ≠ k) :
    lookupKey j (insertKey k v l) = lookupKey j l := by
  induction l with
  | nil => simp [insertKey, lookupKey, h]
  | cons c r ih =>
    obtain ⟨a, w⟩ := c
    unfold insertKey
    split
    · simp [lookupKey, h]
    · split
      · rename_i h2; subst h2; simp [lookupKey, h]
      · by_cases hj : j = a <;> simp [lookupKey, hj, ih]

@[simp] theorem tabGet?_tabSet_self (t : Tab α) (k : Nat) (v : α) : tabGet? (tabSet t k v) k = some v := by
  simp [tabGet?, tabSet]

@[simp] theorem tabGet_tabSet_self (t : Tab α) (k : Nat) (v x : α) : tabGet (tabSet t k v) k x = v := by
  simp [tabGet]

theorem tabGet_tabSet_ne (t : Tab α) (k j : Nat) (v x : α) (h : j ≠ k) : tabGet (tabSet t k v) j x = tabGet t j x := by
  simp [tabGet, tabGet?, tabSet, lookupKey_insertKey_ne _ _ _ _ h]

@[simp] theorem tabGet_tabMod_self (t : Tab α) (k : Nat) (x y : α) (f : α → α) :
    tabGet (tabMod t k x f) k y = f (tabGet t k x) := by simp [tabMod]

theorem tabGet_tabMod_ne (t : Tab α) (k j : Nat) (x y : α) (f : α → α) (h : j ≠ k) :
    tabGet (tabMod t k x f) j y = tabGet t j y := by simp [tabMod, tabGet_tabSet_ne _ _ _ _ _ h]

theorem lookupKey_map (k : Nat) (f : Nat → α → α) (l : List (Nat × α)) :
    lookupKey k (l.map (fun c => (c.1, f c.1 c.2))) = (lookupKey k l).map (f k) := by
  induction l with
  | nil => rfl
  | cons c r ih => by_cases h : k = c.1 <;> simp [lookupKey, h, ih]

/-- Mapping a table whose function leaves the default alone maps each entry read. -/
theorem tabGet_tabMap (t : Tab α) (f : Nat → α → α) (k : Nat) (x : α) (h : f k x = x) :
    tabGet (tabMap t f) k x = f k (tabGet t k x) := by
  unfold tabGet tabGet? tabMap
  rw [lookupKey_map]
  cases lookupKey k t.cells <;> simp [h]

end Sys2Proof.Machine
end

