-- ==== Sys2Proof/Tests/Slice0.lean ====
section
/-! SUPPORT. Tests: an ill-formed operand of each check, states that meet the hypotheses of each statement (one conjunct or theorem
per clause), and single steps against values worked out from the manual. -/

namespace Sys2Proof.Tests

open Sys2Proof Sys2Proof.Machine

set_option Elab.async false

/-! ### Small states -/

/-- A device that runs: the boot has ended, every domain is powered, the I3C target has an address. -/
def runDev : Dev :=
  { State.reset.dev with
    boot := { State.reset.dev.boot with step := .running, phase := 9, accepted := true, reached := true, sniff := true, point := true, fetch := true }
    power := { State.reset.dev.power with clusters := 15, dram := true, isp := true, sup := true, perk := true, xtal := true, fll := true
                                          banks := BitVec.allOnes 48, point := 1 }
    host := { State.reset.dev.host with addr := some 8 }
    age := { State.reset.dev.age with avail := 0xFFFFFF } }

/-- A state with the device given, in lifecycle TEST. -/
def st (d : Dev) : State := { State.reset with dev := d, otp := { State.reset.otp with state := [0xFF, 0, 0, 0, 0] } }

/-- The running device under an image. -/
def withImg (i : Image) : Dev := { runDev with img := i }

/-- Clusters powered, nothing due: what makes the device settled. -/
def onCheck (d : Dev) : Bool :=
  d.sched.tripped.isNone && !d.boot.romDue && d.boot.step != .halted && d.boot.step != .held && d.power.clusters != 0 && d.power.sup && d.power.isp && d.power.perk

theorem on_settled (s : State) (h : onCheck s.dev = true) : Settled s := by
  simp only [onCheck, Bool.and_eq_true, Option.isNone_iff_eq_none, Bool.not_eq_true', bne_iff_ne, ne_eq] at h
  obtain ⟨⟨⟨⟨⟨⟨⟨h1, h2⟩, h3⟩, h8⟩, h4⟩, h5⟩, h6⟩, h7⟩ := h
  have hc : s.dev.power.clusters ≠ 0#4 := h4
  refine ⟨h1, h2, (powerSettled_iff _).2 (.inr ⟨h8, ?_, ?_, ?_⟩)⟩
  · simp [supWanted, hc, h5]
  · simp [ispWanted, hc, h6]
  · have : supWanted s.dev = true := by simp [supWanted, hc]
    simp [perkAfter, h3, this, h7]

/-- The outcome is a next state that passes a check. -/
def gives (r : Result) (p : State → Bool) : Bool :=
  match r with
  | .next t => p t
  | _ => false

/-! ### Ill-formed operands: one for each check of WellFormed -/

def badFrame : Frame := { session := 256 }

theorem test_wf_training : Instr.wf (.dramTrainingDone true 4095 []) = false ∧ Instr.wf (.dramTrainingDone true 32769 []) = false ∧
    Instr.wf (.dramTrainingDone true 4096 []) = true ∧ Instr.wf (.dramTrainingDone false 0 []) = true := by decide
theorem test_wf_header : Instr.wf (.headerReadDone [] []) = false := by decide
theorem test_wf_wake_source : Instr.wf (.wakeArrival { source := 5 }) = false := by decide
theorem test_wf_wake_target : Instr.wf (.wakeArrival { target := 4 }) = false ∧ Instr.wf (.wakeArrival { target := 0 }) = false := by decide
theorem test_wf_wake_stream : Instr.wf (.wakeArrival { stream := 48 }) = false ∧ Instr.wf (.wakeArrival { stream := 47 }) = true := by decide
theorem test_wf_wake_class : Instr.wf (.wakeArrival { cls := 255 }) = false ∧ Instr.wf (.wakeArrival { cls := 254 }) = true := by decide
theorem test_wf_wake_score : Instr.wf (.wakeArrival { score := 65536 }) = false ∧ Instr.wf (.wakeArrival { onset := 2 ^ 48 }) = false := by decide
theorem test_wf_sensor_ibi : Instr.wf (.sensorIbi 0 [0, 0, 0, 0, 0]) = false := by decide
theorem test_wf_perk : Instr.wf (.perkStep 0 [128] 0 0) = false ∧ Instr.wf (.perkStep 0 [-128, 127] 0 0) = true := by decide
theorem test_wf_tdm : Instr.wf (.tdmFrameSync [2147483648]) = false ∧ Instr.wf (.tdmFrameSync [-2147483648]) = true := by decide
theorem test_wf_acceptance : Instr.wf (.imageAcceptance [] [] [(0, 2 ^ 48)]) = false := by decide
theorem test_wf_thumbnail : Instr.wf (.thumbnailReceived 0 65536 [] [] 0 0) = false := by decide
theorem test_wf_frame_start : Instr.wf (.csi2FrameStart 0 0 65536 .ok) = false := by decide
theorem test_wf_settings : Instr.wf (.settingsBlockPost 0 0 0 [(0, 0)]) = false ∧ Instr.wf (.settingsBlockPost 0 0 1 []) = false ∧
    Instr.wf (.settingsBlockPost 0 0 (2 ^ 32) [(0, 0)]) = false ∧ Instr.wf (.settingsBlockPost 0 0 1 [(65536, 0)]) = false ∧
    Instr.wf (.settingsBlockPost 0 0 1 [(0, 256)]) = false ∧ Instr.wf (.settingsBlockPost 0 0 1 (List.replicate 65 (0, 0))) = false := by decide
theorem test_wf_hot_join : Instr.wf (.sensorHotJoin 0 (2 ^ 48)) = false := by decide
theorem test_wf_query : Instr.wf (.queryJoin 0 { frame := 2 ^ 48, box := [0, 0, 0, 0, 0, 0, 0, 0] }) = false ∧
    Instr.wf (.queryJoin 0 { stream := 256, box := [0, 0, 0, 0, 0, 0, 0, 0] }) = false ∧ Instr.wf (.queryJoin 0 { box := [] }) = false ∧
    Instr.wf (.queryJoin 0 { score := 65536, box := [0, 0, 0, 0, 0, 0, 0, 0] }) = false ∧
    Instr.wf (.queryJoin 0 { detection := 65536, box := [0, 0, 0, 0, 0, 0, 0, 0] }) = false := by decide
theorem test_wf_mark : Instr.wf (.resetMark 0 0 (2 ^ 48)) = false := by decide
theorem test_wf_tile_fault : Instr.wf (.tileFault 0 0x68) = false ∧ Instr.wf (.tileFault 0 0x69) = true := by decide
theorem test_wf_direct_write : Instr.wf (.pageTableDirectWrite 256 0 0) = false := by decide
theorem test_wf_violation : Instr.wf (.accessViolation 256 0 0) = false ∧ Instr.wf (.accessViolation 0 0 (2 ^ 40)) = false := by decide
theorem test_wf_granule : Instr.wf (.transferGranuleDone 0 6 0 0) = false := by decide
theorem test_wf_cluster_reset : Instr.wf (.clusterReset 0 256 0) = false := by decide
theorem test_wf_governor : Instr.wf (.governorPeriod 0 128 0) = false ∧ Instr.wf (.governorPeriod 0 0 (-129)) = false := by decide
theorem test_wf_ageing : Instr.wf (.ageingMeasure []) = false ∧ Instr.wf (.ageingMeasure (List.replicate 40 65536)) = false := by decide
theorem test_wf_kennel_reading : Instr.wf (.kennelReading 0 true 128 0 0) = false ∧ Instr.wf (.kennelReading 0 true 0 (2 ^ 48) 0) = false ∧
    Instr.wf (.kennelReading 0 true 0 0 16) = false := by decide
theorem test_wf_opcode : Instr.wf (.badOpcode 0x10000 {}) = false ∧ Instr.wf (.badOpcode 0x50 {}) = false ∧ Instr.wf (.badOpcode 0x51 {}) = true := by
  decide
theorem test_wf_frame : badFrame.wf = false ∧ Frame.wf { flags := 256 } = false ∧ Frame.wf { seq := 65536 } = false ∧
    Frame.wf { len := 65536 } = false := by decide
theorem test_wf_frames : ∀ i ∈ [Instr.statusRead badFrame, .windowWrite badFrame, .attest badFrame, .sessionOpen badFrame,
    .sessionClose badFrame, .eventInjectWake badFrame, .eventInjectMark badFrame, .promptSubmit badFrame, .prerollRead badFrame,
    .errlogSnapshot badFrame, .selfTestRequest badFrame, .lifecycleTransition badFrame, .tensorDump badFrame, .kennelZero badFrame,
    .kennelTareTake badFrame, .kennelTareClear badFrame, .kennelReadLatest badFrame, .kennelReadStable badFrame,
    .kennelStatusBlock badFrame, .kennelCertificate badFrame, .kennelBadRequest badFrame, .injArm badFrame, .injDisarm badFrame,
    .errEntryClear badFrame, .errFirstClear badFrame, .prtResetReq badFrame, .watchedCountClear badFrame],
    i.wf = false := by decide
theorem test_wf_nop (s : State) : exec (.clusterReset 0 256 0) s = .next s := rfl

/-! ### States that meet the hypotheses of the statements -/

theorem run_settled : Settled (st runDev) := on_settled _ rfl

theorem witness_settled_reset : Settled State.reset ∧ State.reset.dev.mem.wf = true ∧ State.reset.dev.audio.sram.wf = true :=
  ⟨⟨rfl, rfl, rfl⟩, rfl, rfl⟩

/-- A step from a settled state with a canonical memory and a command in front answers a next state. -/
theorem witness_step : Settled { st runDev with pending := [.thermalCapRecover] } ∧
    ({ st runDev with pending := [.thermalCapRecover] } : State).dev.mem.wf = true ∧
    ∃ t, step { st runDev with pending := [.thermalCapRecover] } = .next t :=
  ⟨on_settled _ rfl, rfl, _, rfl⟩

/-- R43 at its edges: the floor stands one above the image; a boot before and in the running phase. -/
def provisioned : Otp := { State.reset.otp with state := [0xFF, 0xFF, 0, 0, 0] }

/-- A private scalar for the witnesses. -/
def aKey : Bytes := List.replicate 32 1

/-- What a scalar signs, its public key verifies. -/
theorem verify_sign (k m : Bytes) : Config.ecdsaVerify (Config.publicKey k) m (Config.ecdsaSign k m) = true :=
  (@Config.ecdsa Config.ecdsaExists).sound k m

/-- A state that waits for a manifest of one header, signed by the owner over the header and the manifest b. -/
def manifestState (floor version : Nat) (b : Bytes) : State :=
  { State.reset with
    otp := { provisioned with floor := floor, ownerHash := Config.sha256 (Config.publicKey aKey) }
    dev := { State.reset.dev with
      boot := { State.reset.dev.boot with step := .manifest, phase := 1 }
      img := { header := { manifestLength := b.length, securityVersion := version, raw := [1], signer := Config.publicKey aKey
                           signature := Config.ecdsaSign aKey ([1] ++ b) } } } }

/-- A manifest of three record entries and no blob. -/
def aManifest : Bytes := le 2 1 ++ le 2 3 ++ zeros (0x2C + 48 * 3)

theorem witness_manifest (floor version : Nat) (b : Bytes) :
    let s := manifestState floor version b
    Boots s.otp ∧ s.dev.sched.tripped = none ∧ s.dev.boot.romDue = false ∧ s.dev.boot.step = .manifest ∧
    signerHash s.otp = some (Config.sha256 s.dev.img.header.signer) ∧
    Config.ecdsaVerify s.dev.img.header.signer (s.dev.img.header.raw ++ b) s.dev.img.header.signature = true ∧
    b.length = s.dev.img.header.manifestLength :=
  have l : lifecycle (manifestState floor version b).otp = 2 := show stateOf [0xFF, 0xFF, 0, 0, 0] = 2 by decide
  ⟨⟨by rw [l]; decide, by rw [l]; decide, by rfl⟩, rfl, rfl, rfl, by unfold signerHash; rw [l]; rfl, verify_sign _ _, rfl⟩

/-- The edges of the manifest's clauses: version one below the floor, at the floor; a manifest that passes R478 and one that does not;
a header that no accepted key signed. -/
theorem witness_manifest_edges :
    (manifestState 6 5 aManifest).dev.img.header.securityVersion < (manifestState 6 5 aManifest).otp.floor ∧
    ¬ (manifestState 5 5 aManifest).dev.img.header.securityVersion < (manifestState 5 5 aManifest).otp.floor ∧
    manifestOk aManifest = true ∧ manifestOk [] = false ∧ signerHash State.reset.otp = none := by decide +kernel

theorem witness_running_floor : Settled (st runDev) ∧ (st runDev).dev.boot.step = .running ∧ (st runDev).dev.err.armed = none :=
  ⟨run_settled, rfl, rfl⟩

/-- A state waiting for the last segment of its only blob, which a boot policy lets raise the floor. -/
def lastSegment : State :=
  { State.reset with
    otp := { State.reset.otp with state := [0xFF, 0, 0, 0, 0] }
    dev := { State.reset.dev with
      boot := { State.reset.dev.boot with step := .loading, phase := 6, accepted := true, policy := { advanceFloor := 1 }
                                          blobs := ⟨[(0, { table := some (Config.sha256 [7]) })]⟩ }
      img := { header := { securityVersion := 3 }, blobs := [{ id := 1, length := 1, digest := Config.sha256 (Config.sha256 [7]) }] }
      power := { State.reset.dev.power with sup := true, perk := true } } }

theorem witness_floor_before : lastSegment.dev.boot.step ≠ .running ∧ lastSegment.otp.floor < lastSegment.dev.img.header.securityVersion ∧
    Settled lastSegment := ⟨by decide, by decide, rfl, rfl, rfl⟩

theorem witness_kennel_paths : reachesKennel .sealClose = true ∧ reachesKennel .kennelAnswerTimeout = false ∧
    ∃ t, exec .kennelAnswerTimeout (st runDev) = .next t := ⟨rfl, rfl, _, rfl⟩

/-- The error record at its edges: a code that has an entry, one that has none while entry 1 is free, and a full record. -/
def oneError : Err := { entries := ⟨[(0, { used := true, cause := 0x40, count := 65535 })]⟩ }
def fullErrors : Err := { entries := ⟨(List.range 64).map (fun i => (i, { used := true, cause := i, count := 1 }))⟩ }

theorem witness_err_entry : (tabGet oneError.entries 0 {}).used = true ∧ (tabGet oneError.entries 0 {}).cause = 0x40 ∧ oneError.first = none ∧
    1 ≤ severity 0x40 := by decide
theorem witness_err_free : (∀ j, j < 64 → ¬ ((tabGet oneError.entries j {}).used = true ∧ (tabGet oneError.entries j {}).cause = 0x22)) ∧
    (tabGet oneError.entries 1 {}).used = false ∧ (∀ j, j < 1 → (tabGet oneError.entries j {}).used = true) := by decide +kernel
theorem witness_err_full : (∀ j, j < 64 → ¬ ((tabGet fullErrors.entries j {}).used = true ∧ (tabGet fullErrors.entries j {}).cause = 0x40)) ∧
    (∀ j, j < 64 → (tabGet fullErrors.entries j {}).used = true) := by decide +kernel
theorem witness_parity : Settled (st runDev) ∧ live (st runDev).dev = true := ⟨run_settled, rfl⟩

theorem witness_latch : Settled (st runDev) ∧ awake (st runDev).dev = true ∧ (∀ c, c < 4 → (st runDev).dev.power.clusters.getLsbD c = true) ∧
    (∀ r ∈ (st runDev).dev.img.windows, r.window = 3 → (st runDev).dev.power.clusters.getLsbD r.home = true) :=
  ⟨run_settled, rfl, by decide, nofun⟩

theorem witness_resets : State.reset.dev.boot.step = .held ∧ Settled State.reset ∧ 10000 ≤ 10000 ∧ 999 < 1000 ∧ 1 < 2 :=
  ⟨rfl, witness_settled_reset.1, by decide⟩

/-- A part in TEST with PORST_N low, and one that runs. -/
theorem witness_boot_start : Boots (st State.reset.dev).otp ∧ (st State.reset.dev).dev.sched.tripped = none ∧
    (st State.reset.dev).dev.boot.step = .held ∧ Boots (st runDev).otp ∧ (st runDev).dev.boot.step ≠ .held ∧ Settled (st runDev) :=
  ⟨⟨by decide, by decide, rfl⟩, rfl, rfl, ⟨by decide, by decide, rfl⟩, by decide, run_settled⟩

theorem witness_blank : lifecycle State.reset.otp = 0 ∧ interrupted State.reset.otp = none ∧ State.reset.dev.boot.step = .held ∧
    State.reset.dev.boot.reached = false ∧ lifecycle { State.reset.otp with state := [0xFF, 0, 0, 0, 0xFF] } = 5 ∧
    interrupted { State.reset.otp with state := [0xFF, 0, 0, 0, 0xFF] } = none := by decide

/-- A boot that waits at a step of Table 2.15. -/
def bootAt (p : BootStep) (i : Image) : State :=
  st { State.reset.dev with boot := { State.reset.dev.boot with step := p, density := some 33554432, erase := [64] }, img := i }

theorem witness_boot_at (p : BootStep) (i : Image) : Boots (bootAt p i).otp ∧ (bootAt p i).dev.sched.tripped = none ∧
    (bootAt p i).dev.boot.romDue = false ∧ (bootAt p i).dev.boot.step = p :=
  have l : lifecycle (bootAt p i).otp = 1 := show stateOf [0xFF, 0, 0, 0, 0] = 1 by decide
  ⟨⟨by rw [l]; decide, by rw [l]; decide, by rfl⟩, rfl, rfl, rfl⟩

/-- A header that passes R61, as the flash holds it. -/
def aHeader : Bytes := le 4 0x4F4A4C47 ++ le 2 1 ++ le 2 0x100 ++ zeros 248

theorem witness_header : aHeader.length = 256 ∧ headerOk (zeros 256) = false ∧ (zeros 256).length = 256 := by decide +kernel

/-- Record entries of a minimal image, 16 bytes apart. -/
def okRecs : List RecEntry :=
  ([0x0102, 0x0201, 0x0201, 0x0201, 0x0502, 0x0B01, 0x0B02, 0x0C01, 0x0C02, 0x0C03, 0x0C04, 0x0D01, 0x0D02].zipIdx).map
    (fun t => { ty := t.1, version := 1, length := 8, offset := 0x10000 + 16 * t.2 })

/-- A minimal image that passes every check of R479 step 5: one partition, one graph of one descriptor, one channel for partition 0. -/
def okImage : Image :=
  { header := { manifestOffset := 0x1000, manifestLength := 0x300 }, recs := okRecs, counts := List.replicate 13 1, dramMin := 2048
    blobs := [{ id := 1, offset := 0x20000, length := 64 }]
    tiers := [{ tier := 1 }, { tier := 2 }, { tier := 3 }], templates := [{ id := 1 }]
    regions := [{ id := 1, base := 0x100000, pages := 1 }], mem := some { ranks := 1, retainMask := 0xFFFFFFFFFFFF }
    parts := [{ part := 0 }], descPools := [{ pool := 0, region := 1, slots := 4 }]
    graphs := [{ id := 1, instances := 1, descriptors := 1, blob := 1 }]
    hostIf := some { txLanes := 2 }, channels := [{ types := 2, stream := 255, region := 1 }] }

/-- A header that R61 accepts. -/
def goodHeader : Bytes := le 4 0x4F4A4C47 ++ le 2 1 ++ le 2 0x100 ++ le 1 0 ++ le 1 25 ++ zeros 14 ++ le 4 0x30 ++ zeros 228

theorem witness_good_header : goodHeader.length = 256 ∧ headerOk goodHeader = true := by decide +kernel

/-- A record of type 0x1102, and the image whose first entry it is. -/
def aRecord : Bytes := le 2 0x1102 ++ le 2 1 ++ le 4 4 ++ zeros 8
def recordImage : Image :=
  { recs := [{ ty := 0x1102, version := 1, length := 4, offset := 0x10000, digest := Config.sha256 (aRecord.take 12) }, {}] }
def recordCtx : RecCtx := { nand := 0, density := 33554432, erase := [64], life := 1 }

theorem witness_record_ok : recordCause recordCtx recordImage 0 aRecord = none ∧ 0 + 1 < recordImage.recs.length := by
  refine ⟨?_, by decide⟩
  unfold recordCause
  dsimp only
  rw [if_neg (by decide +kernel), if_neg (by decide +kernel), if_neg (by decide +kernel), if_neg (by simp [recordImage]),
    if_neg (by decide +kernel), if_neg (by decide +kernel), if_neg (by decide +kernel)]
  unfold bodyCause
  rw [if_neg (by decide +kernel), if_neg (by simp [recordImage]), if_neg (by simp [recordImage])]

theorem witness_record_bad : recordCause recordCtx recordImage 0 [] = some 0xA1 := by decide +kernel

theorem witness_training : 4096 ≤ 4096 ∧ 32768 ≤ 32768 ∧ okImage.dramMin ≤ 4096 ∧ 4096 < ({ okImage with dramMin := 4097 } : Image).dramMin ∧
    (bootAt .training okImage).dev.boot.step = .training := by decide

/-- Acceptance: an image that passes the cross-record checks, and one without its records. -/
theorem witness_acceptance : crossCheck 33554432 okImage = none ∧ crossCheck 33554432 {} = some 0x7FFF ∧
    lifecycle (bootAt .acceptance okImage).otp ≠ 4 ∧ encrypted okImage = false ∧ (∃ b ∈ okImage.blobs, atPoint okImage b = true) ∧
    (bootAt .acceptance okImage).dev.boot.point = false ∧ (bootAt .acceptance okImage).dev.boot.blobs = {} := by
  decide +kernel

/-- A blob entry of 1,048,577 bytes: two segments. -/
def blobImage (digest : Bytes) : Image := { blobs := [{ id := 1, length := 1048577, digest := digest }] }
def aTable : Bytes := Config.sha256 [1] ++ Config.sha256 [2]

theorem witness_blob_table (b : Bytes) : Config.sha256 b = ((blobImage (Config.sha256 b)).blobs.getD 0 {}).digest ∧
    ((blobImage (Config.sha256 b)).blobs.getD 0 {}).medium = 0 ∧ ((blobImage (Config.sha256 b)).blobs.getD 0 {}).length = 1048577 ∧
    segmentsOf { length := 1048577 } = 2 ∧ segmentsOf { length := 1048576 } = 1 := ⟨rfl, rfl, rfl, by decide +kernel, by decide +kernel⟩

/-- The table at its edge: 64 bytes for two segments, and 63. -/
theorem witness_blob_lengths : (zeros 64).length = 32 * 2 ∧ (zeros 63).length ≠ 32 * 2 := by decide +kernel

/-- A boot that loads one blob from two NAND devices of 2 GiB capacity, and the same with too few good blocks. -/
def nandBoot (blocks : Nat) : State :=
  st { State.reset.dev with
    boot := { State.reset.dev.boot with step := .loading, goodBlocks := [List.range blocks, List.range blocks] }
    img := { header := { nandDevices := 2 }, nand := some { pageBytes := 4096, pagesPerBlock := 64 }, blobs := [{ id := 1, medium := 1, length := 1048577 }] } }
theorem witness_blob_nand : Boots (nandBoot 4096).otp ∧ (nandBoot 4096).dev.boot.step = .loading ∧
    (let e := (nandBoot 4096).dev.img.blobs.getD 0 {}
     e.medium = 1 ∧ e.offset + blobExtent e ≤ nandCapacity (nandBoot 4096).dev) ∧
    (tabGet (nandBoot 4096).dev.boot.blobs 0 {}).done = false ∧ (tabGet (nandBoot 4096).dev.boot.blobs 0 {}).table = none := by
  refine ⟨⟨by decide, by decide, rfl⟩, rfl, by decide +kernel, rfl, rfl⟩

/-- The first segment of a table that was made for it. -/
theorem witness_blob_segment (b : Bytes) : Config.sha256 b = slice (Config.sha256 b ++ zeros 32) (32 * 0) 32 := by
  have h : (Config.sha256 b).length = 32 := (@Config.sha Config.shaExists).size b
  simp [slice, zeros, h]

/-- Flash writes in progress and due. -/
def flashDev (f : Flash) : State := st { runDev with flash := f }
theorem witness_flash :
    Settled (flashDev { writing := some (true, true, {}) }) ∧ (flashDev { writing := some (true, true, {}) }).dev.flash.planDue = none ∧
    (flashDev { writing := some (true, true, {}) }).dev.flash.logDue = none ∧
    Settled (flashDev { spacing := true }) ∧ (flashDev { spacing := true }).dev.flash.logDue = none ∧
    Settled (flashDev { spacing := true, logDue := some 2 }) ∧ (flashDev { spacing := true, logDue := some 2 }).dev.flash.writing = none :=
  ⟨on_settled _ rfl, rfl, rfl, on_settled _ rfl, rfl, on_settled _ rfl, rfl⟩

/-! ### Wakes, audio, Perk -/

/-- An image with one partition that owns streams 0 and 1, a floor credit at every tier, and routes to a Perk graph and an ordinary
graph. Stream 0 is a microphone, stream 1 a camera. -/
def wakeImage : Image :=
  { okImage with
    parts := [{ part := 0, streams := 3 }, { part := 5, flags := 2 }]
    floors := [{ part := 0, f1 := 1, f2 := 1, f3 := 1 }]
    routes := [{ target := 2, stream := 0, cls := 7, graph := 1 }, { target := 2, stream := 0, cls := 255, prio := 2, graph := 1 },
               { target := 2, stream := 1, cls := 255, graph := 1 }, { target := 1, stream := 0, cls := 255, graph := 9 }]
    tiers := [{ tier := 1, total := 1 }, { tier := 2, total := 1, d0 := 2 }, { tier := 3, total := 1 }]
    audioIn := some { tdmEnable := 1, tdmSlots := 2, slotBits := 16 }
    audio := [{ stream := 0, slot := 0 }, { stream := 2, slot := 1, kind := 1 }]
    perk := [{ graph := 9, outputs := 2, maxSteps := 2, wakeScore := 40000, blob := 1 }]
    cams := [{ stream := 1, dt := 0x2A, width := 4, height := 2, pipe := 1, rawBuffers := 1, sensor := 0, region := 1 }]
    outs := [{ stream := 1, cropW := 4, cropH := 2, outW := 4, outH := 2, region := 1 }]
    rxPorts := [{ port := 0 }]
    sensors := [{ sensor := 0, port := 0, dynAddr := 9, flags := 2, pid := 0x123, pidMask := 0xFFF }]
    ctrlPorts := [{ port := 0, flags := 1 }]
    wakeInputs := [{ input := 3, mode := 2, stream := 0 }, { input := 16, stream := 0 }]
    policies := [{ part := 0, flags := 3 }] }

def wakeDev : Dev := withImg wakeImage

theorem wake_settled : Settled (st wakeDev) := on_settled _ rfl

/-- R72: the exact route of class 7, the route of any class for 8, none for stream 3. -/
theorem witness_routes : routeOf wakeImage 2 0 7 = some { target := 2, stream := 0, cls := 7, graph := 1 } ∧
    routeOf wakeImage 2 0 8 = some { target := 2, stream := 0, cls := 255, prio := 2, graph := 1 } ∧ routeOf wakeImage 2 3 7 = none := by decide

/-- Table 3.1 at its edges: Perk wakes T2 and Sniff does not. -/
theorem witness_unrouted : live wakeDev = true ∧ Wake.wf { source := 1, target := 2, stream := 3 } = true ∧ mayWake 1 2 = true ∧
    (∀ r ∈ wakeDev.img.routes, ¬ (r.target = 2 ∧ r.stream = 3 ∧ (r.cls = 0 ∨ r.cls = 255))) ∧
    Wake.wf { target := 2, stream := 3 } = true ∧ mayWake 0 2 = false := by decide

/-- A tier whose highest onset of stream 0 is 100. -/
def highDev : Dev := { wakeDev with tiers := ⟨[(2, { highest := ⟨[(0, 100)]⟩ })]⟩ }
/-- A stopped partition. -/
def stoppedDev : Dev := { wakeDev with sched := { wakeDev.sched with parts := ⟨[(0, { stopped := true })]⟩ } }

theorem quiet (d : Dev) (h : [1, 2, 3].all (fun t => (getTier d t).returned == [] && waitingOf (getTier d t) == []) = true) :
    ∀ t, 1 ≤ t → t ≤ 3 → (getTier d t).returned = [] ∧ waitingOf (getTier d t) = [] := by
  intro t h1 h2
  simp only [List.all_cons, List.all_nil, Bool.and_true, Bool.and_eq_true, beq_iff_eq] at h
  obtain ⟨a, b, c⟩ := h
  obtain rfl | rfl | rfl : t = 1 ∨ t = 2 ∨ t = 3 := by omega
  · exact a
  · exact b
  · exact c

theorem witness_wake_stale : Settled (st highDev) ∧ live highDev = true ∧ highDev.err.armed = none ∧
    (routeOf highDev.img 2 0 7).isSome = true ∧ (getPart highDev 0).resetting = false ∧ 99 < tabGet (getTier highDev 2).highest 0 0 ∧
    ¬ 100 < tabGet (getTier highDev 2).highest 0 0 ∧ (∀ t, 1 ≤ t → t ≤ 3 → (getTier highDev t).returned = [] ∧ waitingOf (getTier highDev t) = []) :=
  ⟨on_settled _ rfl, rfl, rfl, by decide, rfl, by decide, by decide, quiet _ (by decide)⟩

theorem witness_wake_admitted : tierRuns highDev 2 = true ∧ (getPart highDev 0).stopped = false ∧ frozen highDev 0 2 = false ∧
    tabGet (getTier highDev 2).held 0 0 < floorOf highDev.img 0 2 := by decide

theorem witness_wake_pended : Settled (st stoppedDev) ∧ (getPart stoppedDev 0).stopped = true ∧
    videoFlag stoppedDev.img { source := 4, target := 2, stream := 1 } = true ∧ mayWake 4 2 = true ∧ (routeOf stoppedDev.img 2 1 0).isSome = true :=
  ⟨on_settled _ rfl, rfl, by decide, by decide, by decide⟩

theorem witness_arbiter : Settled (st wakeDev) ∧ live wakeDev = true ∧ wakeDev.err.armed = none ∧
    (∀ n, 1 ≤ n → n ≤ 3 → waitingOf (getTier wakeDev n) = []) := ⟨wake_settled, rfl, rfl, fun n a b => (quiet wakeDev (by decide) n a b).2⟩

/-- T3 idle for its hold already; T2 not. -/
def idleDev (t2 t3 : Bool) : Dev := { runDev with tiers := ⟨[(2, { idle := t2 }), (3, { idle := t3 })]⟩ }
theorem witness_idle : Settled (st (idleDev false true)) ∧ live (idleDev false true) = true ∧
    (∀ n : Fin 3, tierIdle (idleDev false true) (n.val + 1) = true) ∧ (getTier (idleDev false true) 2).idle = false ∧
    (getTier (idleDev false true) 3).idle = true ∧ (idleDev false true).boot.step = .running ∧ (idleDev false true).power.clusters ≠ 0 :=
  ⟨on_settled _ rfl, rfl, by decide, rfl, rfl, rfl, by decide⟩

/-- Slot 0 holds an active PDM stream, slot 1 a TDM stream. -/
def audioDev (stuck : BitVec 8) (locked : Bool) : Dev :=
  { wakeDev with audio := { wakeDev.audio with
      input := { pdmLines := 1, tdmEnable := 1, tdmSlots := 2, slotBits := 16 }
      slots := ⟨[(0, { active := true, cfg := { stream := 0, flags := 1, gain := -256 } }), (1, { active := true, cfg := { stream := 2, kind := 1 } })]⟩
      stuck := stuck, tdmLocked := locked } }
theorem witness_audio : Settled (st (audioDev 0 true)) ∧ (getSlot (audioDev 0 true) 0).active = true ∧
    replaced (audioDev 0 true) (getSlot (audioDev 0 true) 0) = false ∧ replaced (audioDev 1 true) (getSlot (audioDev 1 true) 0) = true ∧
    replaced (audioDev 0 false) (getSlot (audioDev 0 false) 1) = true ∧ Settled (st (audioDev 1 true)) ∧
    bit (getSlot (audioDev 0 true) 0).cfg.flags 0 = true ∧ (getSlot (audioDev 0 true) 1).cfg.gain = 0 :=
  ⟨on_settled _ rfl, rfl, by decide, by decide, by decide, on_settled _ rfl, by decide, by decide⟩

theorem witness_sources : Settled (st (audioDev 0 true)) ∧ bit (audioDev 0 true).audio.input.pdmLines 0 = true ∧
    (audioDev 0 true).audio.stuck.getLsbD 0 = false ∧ (audioDev 0 true).audio.input.tdmEnable = 1 ∧
    (∀ v ∈ ([-2147483648, 2147483647] : List Int), -2147483648 ≤ v ∧ v < 2147483648) := ⟨on_settled _ rfl, by decide⟩

/-- A joined sensor, and a device whose input 3 is named by the image. -/
def joinedDev : Dev := { wakeDev with cam := { wakeDev.cam with sensors := ⟨[(0, { joined := true })]⟩ } }
theorem witness_inputs : (∀ r ∈ wakeDev.img.wakeInputs, r.input ≠ 15) ∧
    (wakeDev.img.wakeInputs.find? (fun x => x.input == 3)).isSome = true ∧ wakeDev.audio.gpio.getLsbD 3 ≠ bit 2 1 ∧
    (getSensor joinedDev 0).joined = true ∧ (∃ x ∈ joinedDev.img.sensors, x.sensor = 0 ∧ bit x.flags 1 = true) ∧
    (joinedDev.img.wakeInputs.find? (fun x => x.input == 0x10 + 0)).isSome = true ∧ live joinedDev = true := by decide

/-- One Perk instance on stream 0, after a number of its two steps, with samples for any window. -/
def perkDev (steps : Nat) : Dev :=
  { audioDev 0 true with
    audio := { (audioDev 0 true).audio with
      slots := ⟨[(0, { active := true, cfg := { stream := 0 }, index := 30000 })]⟩, insts := [{ arrival := 4, graph := 9, start := 160, steps := steps }] }
    boot := { runDev.boot with blobs := ⟨[(0, { placed := true, bytes := [1] })]⟩ }
    reqs := [{ tier := 1, q := { w := { target := 1, stream := 0 }, graph := 9, arrival := 4 }, order := 11 }] }

theorem witness_perk : Settled (st (perkDev 0)) ∧ (perkTurn (perkDev 0)).map (fun p => p.arrival) = some 4 ∧ (perkDev 0).power.perk = true ∧
    (∀ p, perkTurn (perkDev 0) = some p → (perkReq (perkDev 0) p).isSome = true) ∧ (perkOf wakeImage 9).outputs = [27, 28].length ∧
    blobBytes (perkDev 0) 1 ≠ [] ∧ (∀ v ∈ ([-128, 127] : List Int), -128 ≤ v ∧ v < 128) := by
  refine ⟨on_settled _ rfl, by decide +kernel, rfl, ?_, rfl, by decide +kernel, by decide⟩
  intro p h
  have : perkTurn (perkDev 0) = some { arrival := 4, graph := 9, start := 160, steps := 0 } := by decide +kernel
  rw [this] at h; cases h; decide +kernel

/-- The edges of the clauses: a score one step below wake_score and at it, the last step and the one before it. -/
theorem witness_perk_edges : (bestClass [27, -128]).1 < 40000 ∧ 40000 ≤ (bestClass [28, -128]).1 ∧ (perkOf wakeImage 9).wakeScore = 40000 ∧
    0 + 1 < (perkOf wakeImage 9).maxSteps ∧ (perkOf wakeImage 9).maxSteps ≤ 1 + 1 ∧
    (perkTurn (perkDev 1)).map (fun p => p.steps) = some 1 := by decide +kernel

theorem witness_perk_sram : (perkDev 0).audio.insts.find? (fun x => x.arrival == 4) = some { arrival := 4, graph := 9, start := 160, steps := 0 } ∧
    OrdersUnique (perkDev 0) ∧ (perkReq (perkDev 0) { arrival := 4 }).isSome = true := ⟨by decide, by simp [OrdersUnique, perkDev], by decide⟩
/-- The same with an injected uncorrectable error of Perk SRAM; one with a second instance, whose turn it is not. -/
def perkHit : Dev := { perkDev 0 with err := { armed := some (0x1020, 1) } }
theorem witness_perk_injected : Settled (st perkHit) ∧ armedOn perkHit 1 0x20 = some 1 ∧ OrdersUnique perkHit ∧
    (perkTurn perkHit).map (fun p => p.arrival) = some 4 ∧ (5 : Nat) ≠ 4 ∧ (perkDev 0).audio.insts.find? (fun x => x.arrival == 5) = none :=
  ⟨on_settled _ rfl, by decide, by simp [OrdersUnique, perkHit, perkDev], by decide +kernel, by decide, by decide⟩

/-! ### Camera -/

/-- Cameras of the three pipes: stream 1 through pipe 1, stream 2 a thumbnail, stream 0 through pipe 0. -/
def camImage : Image :=
  { wakeImage with
    cams := wakeImage.cams ++ [{ stream := 2, port := 1, pipe := 2, width := 2, height := 2 }, { stream := 0, port := 2, pipe := 0, width := 4, height := 2, dt := 0x2A }]
    outs := wakeImage.outs ++ [{ stream := 0, cropW := 4, cropH := 2, outW := 4, outH := 2, region := 1 }] }

/-- The cameras with a camera state. -/
def camDev (c : Camera) : Dev := { withImg camImage with cam := c }

/-- Stream 1's frame in reception, open with a number of lines. -/
def openAt (lines : Nat) (matched : Bool) : Camera :=
  { rx := ⟨[(0, { fn := 7, matched := matched })]⟩
    streams := ⟨[(1, { state := 1, seen := true, frame := 4, openFrame := some { stream := 1, number := 4, lines := List.replicate lines ([1, 2, 3, 4], []) } })]⟩ }

theorem cam_settled (c : Camera) : Settled (st (camDev c)) := on_settled _ rfl

theorem witness_headers : Settled (st (camDev {})) ∧ (camDev {}).err.armed = none ∧ rxOn (camDev {}) 0 3 = true ∧
    rxOn (camDev {}) 0 4 = false ∧ csiFrame (camDev {}) 0 3 = none ∧ (camDev {}).mem.wf = true := ⟨cam_settled _, rfl, by decide, by decide, by decide, rfl⟩

/-- A complete frame of stream 1 that a CSI-2 frame in reception will reuse; a frame that pipe 1 may take, and one of a muzzled stream. -/
def claimedDev : Dev := camDev { queue := [{ stream := 1, number := 1 }], rx := ⟨[(0, { fn := 7, claims := [(1, some 1)] })]⟩ }
theorem witness_pipes_claimed : Settled (st claimedDev) ∧ claimedDev.cam.queue.find? (fun g => !isMuzzled claimedDev (0x40 + g.stream)) = some { stream := 1, number := 1 } ∧
    claimed claimedDev { stream := 1, number := 1 } = true ∧ claimed (camDev { queue := [{ number := 1 }, { number := 2 }] }) { number := 1 } = false ∧
    (camDev { queue := [{ number := 1 }, { number := 2 }] }).cam.queue.find?
      (fun g => !isMuzzled (camDev { queue := [{ number := 1 }, { number := 2 }] }) (0x40 + g.stream)) = some { number := 1 } :=
  ⟨cam_settled _, by decide, by decide, by decide, by decide⟩

theorem witness_pipes : Settled (st (camDev { places := 1 })) ∧ live (camDev {}) = true ∧ (camDev {}).power.isp = true ∧
    (camDev { places := 1 }).cam.pipe0 = [] ∧ (camDev { pipe0 := [{ left := 2 }] }).cam.pipe0 = [{ left := 2 }] ∧
    (camDev { queue := [{ number := 1 }, { number := 2 }] }).cam.pipe1 = none ∧
    Settled (st (camDev { queue := [{ number := 1 }, { number := 2 }] })) ∧ Settled (st (camDev { pipe0 := [{ left := 2 }] })) :=
  ⟨cam_settled _, rfl, rfl, rfl, rfl, rfl, cam_settled _, cam_settled _⟩

theorem witness_thumbnail : Settled (st (camDev {})) ∧ (∃ r, camRec? camImage 2 = some r ∧ r.stream = 2 ∧ r.pipe = 2 ∧ r.fnMode = 0) ∧
    streamFrozen (camDev {}) 2 = false ∧ (camDev {}).power.perk = true ∧ 65535 < 65536 ∧ live (camDev {}) = true ∧
    (camDev {}).audio.sram.wf = true := ⟨cam_settled _, ⟨_, rfl, rfl, rfl, rfl⟩, by decide, rfl, by decide, rfl, rfl⟩
theorem witness_no_held_block : (getSensor (camDev {}) 0).held = none ∧ (1 : Nat) ∉ ({ fn := 7 } : CsiFrame).opened := by decide

theorem witness_long_packet_unmatched : supportedLong 0x12 = true ∧ supportedLong 0x13 = false ∧ supportedLong 0x1E = true ∧ supportedLong 0x2E = false := by
  decide

theorem witness_long_packet_line : supportedLong 0x2A = true ∧ csiFrame (camDev (openAt 1 true)) 0 0 = some { fn := 7, matched := true } ∧
    (∃ r, (streamsOn camImage 0 0).find? (fun x => x.dt == 0x2A) = some r ∧ r.stream = 1 ∧ r.pipe = 1 ∧ 1 < r.height) ∧
    (getStream (camDev (openAt 1 true)) 1).openFrame = some { stream := 1, number := 4, lines := [([1, 2, 3, 4], [])] } ∧
    Settled (st (camDev (openAt 1 true))) :=
  ⟨by decide, by decide, ⟨_, rfl, rfl, rfl, by decide⟩, by decide, cam_settled _⟩

/-- A CSI-2 frame after whose start a later frame start was lost. -/
def lostDev : Dev := camDev { rx := ⟨[(0, { fn := 7, matched := true, lost := true })]⟩ }
theorem witness_lost_frame_start : Settled (st lostDev) ∧ lostDev.err.armed = none ∧ rxOn lostDev 0 0 = true ∧
    csiFrame lostDev 0 0 = some { fn := 7, matched := true, lost := true } ∧ supportedLong 0x2A = true ∧
    csiFrame (camDev (openAt 1 true)) 0 0 = some { fn := 7, matched := true } ∧ csiFrame (camDev {}) 0 0 = none ∧ 65535 < 65536 :=
  ⟨cam_settled _, rfl, by decide, by decide, by decide, by decide, by decide, by decide⟩

/-- A CSI-2 frame of stream 1 before its first line. -/
def beforeLine : Dev := camDev { rx := ⟨[(0, { fn := 7 })]⟩ }
theorem witness_long_packet_opens : (getStream beforeLine 1).openFrame = none ∧ streamFrozen beforeLine 1 = false ∧
    ({ fn := 7 } : CsiFrame).claims.find? (fun k => k.1 == 1) = none ∧ (∃ r, camRec? camImage 1 = some r ∧ r.fnMode = 0 ∧ 0 < r.height) ∧ (getSensor beforeLine 0).held = none ∧ csiFrame beforeLine 0 0 = some { fn := 7 } ∧ Settled (st beforeLine) :=
  ⟨by decide, by decide, by decide, ⟨_, rfl, rfl, by decide⟩, by decide, by decide, cam_settled _⟩

/-- Raw buffers with a place in their region: stream 1's line 0 at the region's base. -/
def placedImage : Image := { camImage with cams := camImage.cams.map (fun r => if r.stream = 1 then { r with region := 1 } else r) }
theorem witness_line_places : (camRec? placedImage 1).map (fun r => (linePlace (withImg placedImage) r 0 0, linePlace (withImg placedImage) r 0 0x10000)) =
    some (some 0x100000, none) := by decide +kernel

/-- R114 at its edges: the last line missing, and none missing. -/
theorem witness_frame_end (n : Nat) : ∃ r, streamsOn camImage 0 0 = [r] ∧ r.pipe = 1 ∧ r.height = 2 ∧
    csiFrame (camDev (openAt n true)) 0 0 = some { fn := 7, matched := true } ∧
    (∃ f, (getStream (camDev (openAt n true)) r.stream).openFrame = some f ∧ f.dropped = false ∧ f.missing = 0 ∧ f.lines.length = n) ∧
    (getSensor (camDev (openAt n true)) r.sensor).held = none ∧ (getSensor (camDev (openAt n true)) r.sensor).waiting = none :=
  ⟨_, rfl, rfl, rfl, rfl, ⟨_, rfl, rfl, rfl, by simp⟩, rfl, rfl⟩

/-- A RAW stream, which keeps a reference, and one of another data type. -/
theorem witness_raw : isRaw 0x2A = true ∧ isRaw 0x1E = false := by decide

/-- Stream 1 active with no frame open. -/
def activeDev : Dev := camDev { streams := ⟨[(1, { state := 1 })]⟩ }
theorem witness_stream_idle : Settled (st activeDev) ∧ (∃ r, camRec? camImage 1 = some r ∧ r.stream = 1) ∧ (getStream activeDev 1).state = 1 ∧
    (getStream activeDev 1).openFrame = none := ⟨cam_settled _, ⟨_, rfl, rfl⟩, rfl, rfl⟩

/-- A complete frame in pipe 1. -/
def pipe1Dev : Dev := camDev { pipe1 := some { stream := 1, number := 4, lines := [([1, 2, 3, 4], []), ([5, 6, 7, 8], [])] } }
theorem witness_pipe1 : Settled (st pipe1Dev) ∧ ∃ g r o, pipe1Dev.cam.pipe1 = some g ∧ camRec? camImage g.stream = some r ∧
    outOf camImage g.stream = some o ∧ o.flags = 0 ∧ camImage.clipStats.find? (fun k => k.stream == r.stream) = none ∧
    pipe1Dev.mem.wf = true ∧ (∀ l ∈ rawFrame pipe1Dev r g, l.2 = []) :=
  ⟨cam_settled _, _, _, _, rfl, rfl, rfl, rfl, rfl, rfl, by decide +kernel⟩

theorem witness_settings_post : (1 ≤ 4294967295 ∧ 4294967295 < 2 ^ 32) ∧ (List.replicate 64 (65535, 255)).length ≤ 64 ∧
    (∀ e ∈ List.replicate 64 (65535, 255), e.1 < 65536 ∧ e.2 < 256) ∧ (∃ r, sensorStream camImage 0 = some r ∧ streamOwner camImage r.stream = some 0) ∧
    (∃ x ∈ camImage.sensors, x.sensor = 0) :=
  ⟨by decide, by simp, fun e h => by rw [List.eq_of_mem_replicate h]; decide, ⟨_, rfl, by decide⟩, by decide⟩

/-- A block of two entries in progress on sensor 0, after k transfers. -/
def blockDev (k : Nat) (nacked : Bool) : Dev := camDev { sensors := ⟨[(0, { cur := some (⟨5, [(1, 2), (3, 4)]⟩, k, 9, nacked) })]⟩ }
theorem witness_settings_transfer (k : Nat) (nacked : Bool) : Settled (st (blockDev k nacked)) ∧
    (getSensor (blockDev k nacked) 0).cur = some (⟨5, [(1, 2), (3, 4)]⟩, k, 9, nacked) ∧
    [(1, 2), (3, 4)].length = 2 := ⟨cam_settled _, rfl, rfl⟩

/-- The last transfer of a block, whose stream numbers frame 9 and is between frames; a port whose 16 addresses are given out. -/
def lastDev : Dev := camDev { streams := ⟨[(1, { frame := 9 })]⟩, sensors := ⟨[(0, { cur := some (⟨5, [(1, 2), (3, 4)]⟩, 3, 9, false) })]⟩ }
theorem witness_settings_last : Settled (st lastDev) ∧ (∃ r, sensorStream camImage 0 = some r ∧ csiFrame lastDev r.port r.vc = none ∧
    (getStream lastDev r.stream).frame = 9) := ⟨cam_settled _, _, rfl, rfl, rfl⟩
theorem witness_unmatched_targets : ¬ (List.range 16).length < 16 ∧ (List.range 15).length < 16 := by decide

/-- A sensor whose first settings are not there yet. -/
def lateImage : Image := { camImage with sensors := camImage.sensors.map (fun r => { r with initBlob := 1 }) }
theorem witness_hot_join_blob : blobPlaced (withImg lateImage) 1 = false ∧ (∀ r ∈ lateImage.sensors, r.initBlob = 1) ∧
    (∀ r ∈ camImage.sensors, r.initBlob = 0) := by decide

theorem witness_hot_join : (∃ c ∈ camImage.ctrlPorts, c.port = 0 ∧ bit c.flags 0 = true) ∧
    (∃ r, camImage.sensors.find? (fun x => x.port == 0 && !bit x.flags 0 && pidMatches x 0xFFFFFFFFF123) = some r) ∧ 0xFFFFFFFFF123 < 2 ^ 48 ∧
    camImage.sensors.find? (fun x => x.port == 0 && !bit x.flags 0 && pidMatches x 0x122) = none :=
  ⟨by decide, ⟨_, rfl⟩, by decide, by decide⟩

/-! ### Scheduling -/

/-- An ordinary graph of two descriptors and two instances, and a step graph of two batch slots. -/
def schedImage : Image :=
  { wakeImage with
    parts := [{ part := 0, streams := 3, quota := 100 }]
    graphs := [{ id := 1, instances := 2, descriptors := 2, blob := 1, instanceFloor := 1, barrierCells := 2, regions := [1] },
               { id := 2, pool := 0, instances := 2, batchShape := 2, descriptors := 1, blob := 1, instanceFloor := 1, barrierBase := 4, barrierCells := 1 }] }

/-- Two requests of tier 2 for a graph, orders 1 and 2. -/
def twoReqs (g : Nat) : List Req :=
  [{ tier := 2, q := { graph := g, arrival := 5 }, order := 1 }, { tier := 2, q := { graph := g, arrival := 6 }, order := 2 }]

/-- The schedule's image with requests and a scheduler state. -/
def schedDev (rs : List Req) (c : Sched) : Dev := { withImg schedImage with reqs := rs, sched := c }

theorem sched_settled (rs : List Req) (c : Sched) (h : c.tripped = none) : Settled (st (schedDev rs c)) :=
  on_settled _ (by simp [onCheck, st, schedDev, withImg, runDev, h]; rfl)

/-- Both instances of the ordinary graph free, or only the second. -/
theorem witness_bind : Settled (st (schedDev (twoReqs 1) {})) ∧ graphRuns (schedDev (twoReqs 1) {}) 1 = true ∧
    firstReq (unbound (schedDev (twoReqs 1) {}) 1) = some { tier := 2, q := { graph := 1, arrival := 5 }, order := 1 } ∧
    isStep (graphOf schedImage 1) = false ∧ 0 < (graphOf schedImage 1).instances ∧ 1 < (graphOf schedImage 1).instances ∧
    tabGet? (schedDev (twoReqs 1) {}).sched.insts (64 * 1 + 0) = none ∧
    tabGet? (schedDev (twoReqs 1) { insts := ⟨[(64, {})]⟩ }).sched.insts (64 * 1 + 1) = none ∧
    tabGet? (schedDev (twoReqs 1) { insts := ⟨[(64, {})]⟩ }).sched.insts (64 * 1 + 0) ≠ none :=
  ⟨sched_settled _ _ rfl, by decide, by decide, by decide, by decide, by decide, rfl, rfl, by decide⟩

theorem witness_bind_step : isStep (graphOf schedImage 2) = true ∧ graphRuns (schedDev (twoReqs 2) {}) 2 = true ∧
    firstReq (unbound (schedDev (twoReqs 2) {}) 2) = some { tier := 2, q := { graph := 2, arrival := 5 }, order := 1 } ∧
    0 < (graphOf schedImage 2).batchShape ∧ tabGet? (getStep (schedDev (twoReqs 2) {}) 2).slots 0 = none := by decide

/-- Instance 0 of graph 1 bound to request 1, before its last descriptor. -/
def boundSched (next : Nat) : Sched := { insts := ⟨[(64, { bound := some 1, next := next })]⟩ }
theorem witness_instantiate : Settled (st (schedDev (twoReqs 1) (boundSched 1))) ∧
    (getInst (schedDev (twoReqs 1) (boundSched 1)) 1 0).bound.isSome = true ∧ (getInst (schedDev (twoReqs 1) (boundSched 1)) 1 0).cancelled = false ∧
    (getInst (schedDev (twoReqs 1) (boundSched 1)) 1 0).next < (graphOf schedImage 1).descriptors ∧
    ¬ (getInst (schedDev (twoReqs 1) (boundSched 2)) 1 0).next < (graphOf schedImage 1).descriptors ∧
    (schedDev (twoReqs 1) (boundSched 1)).sched.live.length < 1048576 ∧ slotSource (schedDev (twoReqs 1) (boundSched 1)) 1 0 = some false :=
  ⟨sched_settled _ _ rfl, by decide, by decide, by decide, by decide, by decide, by decide⟩

/-- A descriptor of graph 1: kind, operation, signal, destination. -/
def descOf (kind op signal out : Nat) (rest : Bytes) : Bytes :=
  fit 64 (le 1 kind ++ le 1 0 ++ le 2 op ++ le 1 0 ++ le 1 7 ++ le 2 0 ++ le 4 0xFFFFFFFF ++ le 2 signal ++ zeros 10 ++ le 4 out ++ zeros 4 ++ rest)

def id0 : DescId := { graph := 1, inst := 0, index := 0 }

/-- One live descriptor of graph 1 that works for request 1. -/
def liveSched (y : Desc) : Sched := { boundSched 1 with live := [y] }
def kindDev (kind op signal out : Nat) (rest : Bytes) (ready released : Bool) : Dev :=
  schedDev (twoReqs 1) (liveSched { id := id0, bytes := descOf kind op signal out rest, order := some 1, ready := ready, released := released })

/-- An array tile, a barrier and a transfer of one row of 2 granules from 0x100000 to 0x100100. -/
def arrayDev : Dev := kindDev 0 1 0xFFFF 0x40000010 [] false false
def barrierDev : Dev := kindDev 7 0 1 0xFFFFFFFF [] false false
def xferRest : Bytes := le 4 0xC0000000 ++ le 4 0xC0000004 ++ le 2 2 ++ le 2 1 ++ zeros 16
def xferDev : Dev := kindDev 6 0 0xFFFF 0xFFFFFFFF xferRest false false

theorem kind_settled (k o g u : Nat) (r : Bytes) (a b : Bool) : Settled (st (kindDev k o g u r a b)) := sched_settled _ _ rfl

theorem witness_ready_tile : Settled (st arrayDev) ∧ ∃ y, desc? arrayDev id0 = some y ∧ readyBut arrayDev y = true ∧ dKind y.bytes = 0 :=
  ⟨kind_settled .., _, rfl, by decide +kernel, by decide +kernel⟩
theorem witness_ready_barrier : Settled (st barrierDev) ∧ ∃ y, desc? barrierDev id0 = some y ∧ readyBut barrierDev y = true ∧
    dKind y.bytes = 7 ∧ dSignal y.bytes ≠ 0xFFFF ∧ cellNo schedImage 1 0 (dSignal y.bytes) / 2048 = dCluster y.bytes :=
  ⟨kind_settled .., _, rfl, by decide +kernel, by decide +kernel, by decide +kernel, by decide +kernel⟩
theorem witness_ready_transfer : Settled (st xferDev) ∧ ∃ y, desc? xferDev id0 = some y ∧ readyBut xferDev y = true ∧ dKind y.bytes = 6 ∧
    (xferOf xferDev id0 y.bytes).isSome = true :=
  ⟨kind_settled .., _, rfl, by decide +kernel, by decide +kernel, by decide +kernel⟩

/-- A ready array tile and idle cores. -/
def readyDev : Dev := kindDev 0 1 0xFFFF 0x40000010 [] true false
theorem witness_dispatch : Settled (st readyDev) ∧ live readyDev = true ∧ tileOf readyDev 0 = none ∧
    readyDev.mem.wf = true ∧ (∃ y, pickFor (prepareBank 0 readyDev) 0 = some y ∧ dKind y.bytes = 0) := by
  refine ⟨kind_settled .., rfl, rfl, rfl, ?_⟩
  have h : (pickFor (prepareBank 0 readyDev) 0).any (fun y => dKind y.bytes == 0) = true := by decide +kernel
  cases e : pickFor (prepareBank 0 readyDev) 0 with
  | none => rw [e] at h; cases h
  | some y => rw [e] at h; exact ⟨y, rfl, by simpa using h⟩

/-- Quota 100: charged 99 so far on cluster 2, where a tile of partition 0 is in progress on core 12. -/
def chargedDev : Dev :=
  { kindDev 0 1 0xFFFF 0x40000010 [] false true with clusters := ⟨[(2, { charge := ⟨[(0, 99)]⟩ })]⟩, units := ⟨[(12, { tile := some { d := id0 } })]⟩ }
theorem witness_budget_running : unitsRunning chargedDev 2 0 = [12] ∧ unitsRunning chargedDev 2 1 = [] := by decide +kernel
theorem witness_budget : Settled (st chargedDev) ∧ chargedDev.power.clusters.getLsbD 2 = true ∧ live chargedDev = true ∧
    running chargedDev 0 = true ∧ tabGet (getCluster chargedDev 2).charge 0 0 < quotaOf schedImage 0 ∧ quotaOf schedImage 0 ≤ 100 ∧
    ¬ quotaOf schedImage 0 ≤ 99 := ⟨on_settled _ rfl, rfl, rfl, by decide, by decide, by decide, by decide⟩

/-- A step graph with request 1 in batch slot 1. -/
def slotDev : Dev := schedDev [{ tier := 2, q := { graph := 2, arrival := 5 }, order := 1, slot := some 1 }] { steps := ⟨[(2, { slots := ⟨[(1, 1)]⟩ })]⟩ }
theorem witness_step_start : Settled (st slotDev) ∧ graphRuns slotDev 2 = true ∧ isStep (graphOf schedImage 2) = true ∧ stepDone slotDev 2 = true ∧
    tabGet? slotDev.sched.insts (64 * 2 + (getStep slotDev 2).steps % 2) = none ∧ unbound slotDev 2 = [] ∧
    (getStep slotDev 2).slots.cells.filter (fun c => openReq slotDev c.2) ≠ [] :=
  ⟨sched_settled _ _ rfl, by decide, by decide, by decide, by decide, by decide, by decide⟩

/-- Transfers of requests 1 and 2 wait in movers 0 and 1 for tags that the floor of partition 1 keeps; mover 1 holds one already. -/
def stuckImage : Image := { schedImage with tagFloors := [{ part := 1, read := 240 }] }
def stuckXfer (x : DescId) : Xfer := { d := some x, rowGranules := 2, rows := 1 }
def id1 : DescId := { graph := 1, inst := 0, index := 1 }
def stuckDev (tags : List Tag) : Dev :=
  { withImg stuckImage with
    reqs := twoReqs 1
    sched := { boundSched 1 with live := [{ id := id0, bytes := descOf 6 0 0xFFFF 0xFFFFFFFF xferRest, order := some 1, released := true },
                                          { id := id1, bytes := descOf 6 0 0xFFFF 0xFFFFFFFF xferRest, order := some 2, released := true }] }
    mov := { movers := ⟨[(0, { queue := [stuckXfer id0] }), (1, { queue := [stuckXfer id1] })]⟩, tags := tags } }
theorem witness_backstop : Settled (st (stuckDev [])) ∧ watchWaiters (stuckDev []) 0 0 = [(1, false), (2, false)] ∧ watchFrozen (stuckDev []) 0 0 = false ∧
    watchWaiters (stuckDev [{ row := 0, master := 0x1C }]) 0 0 = [(1, true), (2, false)] ∧ (stuckDev []).sched.backFirst = none ∧
    watchWaiters (stuckDev []) 1 3 = [] ∧ (stuckDev []).mem.wf = true :=
  ⟨on_settled _ rfl, by decide +kernel, rfl, by decide +kernel, rfl, by decide +kernel, rfl⟩

/-- No tile to take, and a busy core. -/
theorem witness_dispatch_idle : Settled (st arrayDev) ∧ tileOf arrayDev 27 = none ∧ pickFor (prepareBank 27 arrayDev) 27 = none := by
  refine ⟨kind_settled .., rfl, ?_⟩
  have h : (pickFor (prepareBank 27 arrayDev) 27).isNone = true := by decide +kernel
  exact Option.isNone_iff_eq_none.1 h

/-! ### Tiles -/

/-- A tile of descriptor id0 on unit 0; the descriptor as in kindDev, released. -/
def tileDev (kind : Nat) (rest : Bytes) (t : Tile) : Dev :=
  { kindDev kind 1 1 0x40000010 rest false true with units := ⟨[(0, { tile := some t })]⟩ }

/-- An array tile that advances. -/
def advDev : Dev := tileDev 0 [] { d := id0 }
theorem tile_settled (k : Nat) (r : Bytes) (t : Tile) : Settled (st (tileDev k r t)) := on_settled _ rfl

theorem witness_advance : Settled (st advDev) ∧ live advDev = true ∧ tileOf advDev 0 = some { d := id0 } ∧
    advDev.mem.wf = true ∧ ∃ y, desc? advDev id0 = some y ∧ dKind y.bytes < 3 ∧ readBreach advDev id0 y.bytes = none ∧
      (tileBubbles advDev 0 { d := id0 } y.bytes []).bad = false ∧ tileMismatch advDev 0 id0 y.bytes (cellsOf advDev 0 id0 y.bytes) [] = none :=
  ⟨tile_settled .., rfl, rfl, rfl, _, rfl, by decide +kernel, by decide +kernel, by decide +kernel, by decide +kernel⟩
theorem witness_advance_scatter : tileOf (tileDev 5 [] { d := id0 }) 0 = some { d := id0 } ∧
    (∃ y, desc? (tileDev 5 [] { d := id0 }) id0 = some y ∧ dKind y.bytes = 5) ∧ isMuzzled (tileDev 5 [] { d := id0 }) (0x28 + clusterOf 0) = false :=
  ⟨rfl, ⟨_, rfl, by decide +kernel⟩, by decide⟩

/-- The same tile in its commit, with one accumulated value. -/
def commitDev : Dev := tileDev 0 [] { d := id0, committing := true, acc := [{ value := 7 }] }
theorem witness_commit : Settled (st commitDev) ∧ ∃ t y base, tileOf commitDev 0 = some t ∧ desc? commitDev t.d = some y ∧
    t.committing = true ∧ t.stopped = false ∧ dKind y.bytes = 0 ∧ isSearch commitDev.img y.bytes = false ∧
    destAddr commitDev t.d y.bytes = some base ∧ zcOf commitDev.img y.bytes = none ∧ scaleKind commitDev.img y.bytes = none ∧
    (∀ r, rqOf commitDev.img y.bytes = some r → bit r.flags 3 = false) ∧ dSignal y.bytes ≠ 0xFFFF ∧
    cellNo commitDev.img t.d.graph t.d.inst (dSignal y.bytes) / 2048 = dCluster y.bytes ∧ writeBreach commitDev 0 t.d t.pages y.bytes = none ∧
    commitDev.mem.wf = true := by
  refine ⟨tile_settled .., _, _, 0x1100000400, rfl, rfl, rfl, rfl, by decide +kernel, by decide +kernel, by decide +kernel,
    by decide +kernel, by decide +kernel, ?_, by decide +kernel, by decide +kernel, by decide +kernel, rfl⟩
  intro r h
  have : rqOf commitDev.img (descOf 0 1 1 0x40000010 []) = none := by decide +kernel
  rw [this] at h; cases h

/-- A tile of one output whose int2 weights have group scales of 128 elements, from data block 1,000 on (Example 7.2). -/
def scaledDev : Dev :=
  { tileDev 0 (zeros 16 ++ le 4 1000 ++ zeros 4 ++ le 4 0x40000020) { d := id0 } with
    img := { schedImage with parts := [{ part := 0, quota := 0 }]
                             templates := [{ id := 1, dataflow := 1, wFormat := 2, rows := 1, outElements := 1 }]
                             fmtOpts := [{ template := 1, groupLog2 := 7 }] } }
theorem witness_faults : (∃ y, desc? advDev id0 = some y ∧ dKind y.bytes ≠ 3 ∧ isSearch advDev.img y.bytes = false) ∧
    (∃ y, desc? scaledDev id0 = some y ∧
      (pairAt scaledDev 0 id0 y.bytes (cellsOf scaledDev 0 id0 y.bytes) [] 2 1000).isSome = true ∧
      pairAt scaledDev 0 id0 y.bytes (cellsOf scaledDev 0 id0 y.bytes) [] 2 1001 = none) ∧ Settled (st scaledDev) ∧
    tileOf scaledDev 0 = some { d := id0 } ∧ 233 % 256 ≠ 1000 % 256 :=
  ⟨⟨_, rfl, by decide +kernel, by decide +kernel⟩, ⟨_, rfl, by decide +kernel, by decide +kernel⟩, on_settled _ rfl, rfl, by decide⟩

/-! ### Power, clocks and tests -/

theorem witness_hard_stop : Settled (st advDev) ∧ advDev.power.clusters.getLsbD 0 = true ∧ (getCluster advDev 0).stopped = false ∧
    (∀ u ∈ unitsOf 0, ∀ t, tileOf advDev u = some t → t.replay = false ∨ t.committing = true) := by
  refine ⟨tile_settled .., rfl, rfl, ?_⟩
  intro u hu t ht
  have h : (unitsOf 0).all (fun u => (tileOf advDev u).all (fun t => !t.replay)) = true := by decide +kernel
  have := List.all_eq_true.1 h u hu
  rw [ht] at this
  exact .inl (by simpa using this)

def stoppedCluster : Dev := { runDev with clusters := ⟨[(2, { stopped := true })]⟩ }
theorem witness_hard_stop_release : Settled (st stoppedCluster) ∧ (getCluster stoppedCluster 2).stopped = true ∧ anyStopped stoppedCluster = true :=
  ⟨on_settled _ rfl, rfl, by decide⟩

/-- Point 1 in force, governor counts given. -/
def pointDev (p : Power → Power) : Dev := { runDev with power := p runDev.power }
theorem witness_points :
    (live runDev = true ∧ capPoint (pointDev (fun p => { p with raising := true })) < (pointDev (fun p => { p with raising := true })).power.point) ∧
    (100 ≤ (pointDev (fun p => { p with high := 100 })).power.high ∧ (pointDev (fun p => { p with high := 100 })).power.point < 2) ∧
    (1000 ≤ (pointDev (fun p => { p with low := 1000 })).power.low ∧
      capPoint (pointDev (fun p => { p with low := 1000 })) < (pointDev (fun p => { p with low := 1000 })).power.point) ∧
    runDev.power.changing = none ∧ anyStopped runDev = false ∧ awake runDev = true ∧
    (pointDev (fun p => { p with changing := some 0 })).power.changing = some 0 ∧ refRunning runDev.power = true ∧
    Instr.wf (.governorPeriod 65535 127 (-128)) = true := by decide

/-- The settled devices of the clauses on the operating point. -/
theorem witness_points_settled (a b : Nat) (c : Bool) (n : Option Nat) :
    Settled (st (pointDev (fun p => { p with high := a, low := b, raising := c, changing := n }))) := on_settled _ rfl

/-- A core of cluster 0 with a test due, and one that is out for its test. -/
def testDev (busy : Bool) : Dev := { runDev with age := { runDev.age with testing := some (3, 2), busy := busy } }
theorem witness_tests : Settled (st (testDev false)) ∧ (testDev false).age.busy = false ∧ mayLeave (testDev false) 3 = true ∧
    (testDev true).age.busy = true ∧ muzzledMaster (testDev true) 3 = false ∧ (testDev true).age.tests = [] ∧ Settled (st (testDev true)) :=
  ⟨on_settled _ rfl, rfl, by decide, rfl, by decide, rfl, on_settled _ rfl⟩

/-- Periodic tests due: core 23 in a full cluster, and in one that has lost core 18. -/
def periodDev (avail : BitVec 24) : Dev :=
  { runDev with img := { rel := { selftestLog2 := 20, bankLog2 := 20 } }, age := { runDev.age with nextCore := 23, avail := avail } }
theorem witness_periods : Settled (st (periodDev 0xFFFFFF)) ∧ Settled (st (periodDev 0xFBFFFF)) ∧ (periodDev 0xFFFFFF).age.retired.getLsbD 23 = false ∧
    (∀ k, k < 6 → (periodDev 0xFFFFFF).age.avail.getLsbD (6 * (23 / 6) + k) = true) ∧
    (∃ k, k < 6 ∧ (periodDev 0xFBFFFF).age.avail.getLsbD (6 * (23 / 6) + k) = false) ∧ (periodDev 0).img.rel.selftestLog2 ≠ 0 ∧
    (periodDev 0).img.rel.bankLog2 ≠ 0 ∧ (periodDev 0).age.bank = none ∧ ((periodDev 0).age.lastBank + 1) % 48 = 0 ∧
    (periodDev 0).power.banks.getLsbD 0 = true :=
  ⟨on_settled _ rfl, on_settled _ rfl, by decide, by decide, ⟨0, by decide, by decide⟩, by decide, by decide, rfl, by decide, by decide⟩

/-- A bank under test before its last slice and the one before. -/
def sliceDev (k : Nat) : Dev := { runDev with age := { runDev.age with bank := some (47, k) } }
theorem witness_slices (k : Nat) : Settled (st (sliceDev k)) ∧ (sliceDev k).age.bank = some (47, k) ∧ (sliceDev k).power.banks.getLsbD 47 = true ∧
    510 + 1 < 512 ∧ 512 ≤ 511 + 1 ∧ 63 < 64 := ⟨on_settled _ rfl, rfl, (by decide : runDev.power.banks.getLsbD 47 = true), by decide⟩

theorem witness_ageing : Instr.wf (.ageingMeasure (List.replicate 40 65535)) = true ∧ runDev.boot.point = true ∧
    exhausted (replanGuard runDev.img.rel (takeReadings (List.replicate 40 400) runDev).age) 2 = false ∧ live runDev = true := by decide +kernel

theorem witness_watchdog : Boots (st runDev).otp ∧ awake runDev = true ∧ runDev.power.sup = true ∧ runDev.sched.tripped = none :=
  ⟨witness_boot_start.2.2.2.1, by decide⟩

/-- A device that cooled down to one degree below its limit of 80, and one that has not. -/
def coolDev (t : Int) : Dev := { State.reset.dev with boot := { State.reset.dev.boot with step := .cooling }, power := { State.reset.dev.power with base := t } }
theorem witness_cooldown : Boots (st (coolDev 79)).otp ∧ (coolDev 79).boot.step = .cooling ∧ hottest (coolDev 79) < gradeMax (st (coolDev 79)).otp - 15 ∧
    ¬ hottest (coolDev 80) < gradeMax (st (coolDev 80)).otp - 15 :=
  ⟨⟨by decide, by decide, rfl⟩, rfl, by decide, by decide⟩

theorem witness_clocks : runDev.power.fll = true ∧ (∀ k : Fin 5, pllLocked runDev.power k.val = true) ∧ runDev.boot.step ≠ .halted ∧
    Boots (st runDev).otp ∧ Settled (st runDev) ∧ runDev.boot.policy.errorAction ≠ 1 ∧ runDev.boot.reached = true :=
  ⟨rfl, by decide, by decide, witness_watchdog.1, run_settled, by decide, rfl⟩

/-- The base die at a temperature, for the limits 95, 90 and 110. -/
def hotDev (t : Int) (cap : Nat) : Dev := pointDev (fun p => { p with base := t, thermal := cap })
theorem witness_temperature : gradeMax (st (hotDev 96 0)).otp < hottest (hotDev 96 0) ∧ ¬ gradeMax (st (hotDev 95 0)).otp < hottest (hotDev 95 0) ∧
    (hotDev 96 1).power.thermal < 2 ∧ 2 ≤ (hotDev 96 2).power.thermal ∧ hottest (hotDev 89 1) < gradeMax (st (hotDev 89 1)).otp - 5 ∧
    ¬ hottest (hotDev 90 1) < gradeMax (st (hotDev 90 1)).otp - 5 ∧ gradeMax (st (hotDev 110 0)).otp + 15 ≤ hottest (hotDev 110 0) ∧
    ¬ gradeMax (st (hotDev 109 0)).otp + 15 ≤ hottest (hotDev 109 0) := by decide
theorem witness_temperature_settled (t : Int) (c : Nat) : Settled (st (hotDev t c)) ∧ awake (hotDev t c) = true ∧ Boots (st (hotDev t c)).otp :=
  ⟨on_settled _ rfl, rfl, witness_watchdog.1⟩

theorem witness_cluster_reset : Settled (st advDev) ∧ live advDev = true ∧ advDev.power.clusters.getLsbD 0 = true ∧ 255 < 256 ∧ advDev.mem.wf = true :=
  ⟨tile_settled .., rfl, rfl, by decide, rfl⟩

/-! ### Search -/

/-- Catalogue 2 of two best entries, queried from graph 1. -/
def searchImage : Image := { schedImage with cats := [{ slot := 2, k := 2, queryMask := 1, template := 1 }] }
def catDev (c : Cat) : Dev := { schedDev (twoReqs 1) (boundSched 1) with img := searchImage, cats := ⟨[(2, c)]⟩ }
def aQuery : Query := { graph := 1, inst := 0, box := [0, 0, 0, 0, 0, 0, 0, 0] }
def batchOf (n : Nat) : List QEntry := List.replicate n { q := aQuery, order := 1 }

theorem cat_settled (c : Cat) : Settled (st (catDev c)) := on_settled _ rfl

theorem witness_query_join (n : Nat) : Settled (st (catDev { batch := batchOf n })) ∧ (catRec? searchImage 2).isSome = true ∧
    Instr.wf (.queryJoin 2 aQuery) = true ∧ queryOrder (catDev { batch := batchOf n }) aQuery = some 1 ∧
    running (catDev { batch := batchOf n }) 0 = true ∧ bit ((catRec? searchImage 2).getD {}).queryMask (graphOf searchImage 1).part = true :=
  ⟨cat_settled _, by decide, by decide, rfl, rfl, by decide⟩

/-- R196 at its edges: 63 queries, and 64. -/
theorem witness_batches : (batchOf 63).length < 64 ∧ ¬ (batchOf 64).length < 64 ∧ batchOf 1 ≠ [] := by decide

theorem witness_sweep_start : (getCat (catDev { batch := batchOf 64 }) 2).sweep = none ∧ (getCat (catDev { batch := batchOf 64 }) 2).batch.length = 64 ∧
    (getCat (catDev { batch := batchOf 1, expired := true }) 2).expired = true ∧ coresOn (catDev {}) ≠ [] ∧ (catDev {}).power.clusters ≠ 0 := by
  decide +kernel

/-- A sweep over cores 0 and 7, and the same with cluster 0's merge done. -/
def sweepDev (merged : Tab (Tab KList)) : Dev := catDev { sweep := some { queries := batchOf 1, snapshot := 3, cores := [0, 7], done := [(0, 3)], merged := merged } }
theorem witness_merges : Settled (st (sweepDev {})) ∧ live (sweepDev {}) = true ∧
    (getCat (sweepDev {}) 2).sweep = some { queries := batchOf 1, snapshot := 3, cores := [0, 7], done := [(0, 3)] } ∧
    sweepDone (sweepDev {}) 2 ((getCat (sweepDev {}) 2).sweep.getD {}) = true ∧
    mergeCores (sweepDev {}) 2 0 ((getCat (sweepDev {}) 2).sweep.getD {}) = [0] ∧
    mergeCores (sweepDev {}) 2 1 ((getCat (sweepDev {}) 2).sweep.getD {}) = [7] ∧
    searching (sweepDev {}) 2 0 = false ∧ searching (sweepDev {}) 2 1 = false := by
  exact ⟨cat_settled _, rfl, rfl, by decide, by decide, by decide, by decide, by decide⟩
theorem witness_device_merge : (∀ c ∈ sweepClusters (sweepDev ⟨[(0, {}), (1, {})]⟩) 2 ((getCat (sweepDev ⟨[(0, {}), (1, {})]⟩) 2).sweep.getD {}),
    (tabGet? (⟨[(0, {}), (1, {})]⟩ : Tab (Tab KList)) c).isSome = true) ∧
    sweepClusters (sweepDev ⟨[(0, {}), (1, {})]⟩) 2 ((getCat (sweepDev ⟨[(0, {}), (1, {})]⟩) 2).sweep.getD {}) = [0, 1] ∧
    Settled (st (sweepDev ⟨[(0, {}), (1, {})]⟩)) := ⟨by decide, by decide, cat_settled _⟩

/-- The same while a search tile of graph 1 has not been instantiated and no item has been searched. -/
def leftDev : Dev :=
  { catDev { sweep := some { queries := batchOf 1, snapshot := 3, cores := [0, 7] } } with
    img := { searchImage with templates := [{ id := 1, flags := 4 }] }
    sched := boundSched 0
    boot := { runDev.boot with blobs := ⟨[(0, { placed := true, bytes := descOf 0 1 0xFFFF 0x40000010 [] })]⟩ } }
theorem witness_tiles_left : Settled (st leftDev) ∧ sweepDone leftDev 2 ((getCat leftDev 2).sweep.getD {}) = false := ⟨on_settled _ rfl, by decide +kernel⟩

/-- R195: 33 items are three groups, two of them on the first of two cores. -/
theorem witness_sweep_ranges : sweepRanges [0, 7] 33 = [(0, 0, 2), (7, 2, 1)] ∧ sweepRanges [0, 7] 0 = [(0, 0, 0), (7, 0, 0)] := by decide

/-! ### Sequences and state blocks -/

/-- Sequence 5 of partition 0 and 6 of partition 1, chunks of 8 steps; blocks 0 and 1 of one slot. -/
def seqImage : Image :=
  { schedImage with
    parts := schedImage.parts ++ [{ part := 1 }]
    scans := [{ id := 1, steps := 8, slice := 16, elements := 16 }]
    seqs := [{ seq := 5, forward := 1, idleCycles := 10 }, { seq := 6, part := 1, forward := 1 }]
    blocks := [{ id := 0, scan := 1, seq := 5, spillTier := 1, count := 16 }, { id := 1, scan := 1, seq := 5, spillTier := 2, count := 16 }] }
def seqDev (b : Tab Blk) : Dev := { withImg seqImage with seqs := ⟨[(5, { base := 2 })]⟩, blks := b }
theorem seq_settled (b : Tab Blk) : Settled (st (seqDev b)) := on_settled _ rfl

/-- The edges of R236: the last step before chunk 2, its first, the last of chunk 5, the first of chunk 6. -/
theorem witness_marks : Settled (st (seqDev {})) ∧ running (seqDev {}) 0 = true ∧ (seqRec? seqImage 5).map (fun r => r.part) = some 0 ∧
    (seqRec? seqImage 6).map (fun r => r.part) = some 1 ∧ chunkSteps seqImage 5 = 8 ∧ (getSeq (seqDev {}) 5).base = 2 ∧
    15 / 8 < 2 ∧ 2 ≤ 16 / 8 ∧ 47 / 8 < 2 + 4 ∧ 2 + 4 ≤ 48 / 8 ∧ 48 < 2 ^ 48 :=
  ⟨seq_settled _, by decide, by decide, by decide, by decide, by decide, by decide⟩

/-- Block 0 waits for its slot; block 0 is resident, wanted by block 1 or idle. -/
def blkIn : Tab Blk := ⟨[(0, { place := 1, chunks := 4, waiting := some 0 })]⟩
def blkOut (moving : Bool) (w : Option Nat) : Tab Blk := ⟨[(0, { place := 0, moving := moving }), (1, { place := 2, waiting := w })]⟩
theorem witness_swaps : Settled (st (seqDev blkIn)) ∧ seqImage.blocks.any (fun r => r.id == 0) = true ∧ (getBlk (seqDev blkIn) 0).place ≠ 0 ∧
    slotTurn (seqDev blkIn) 0 = true ∧ (seqDev blkIn).power.clusters.getLsbD (blkCore (seqDev blkIn) 0 / 6) = true ∧
    (getBlk (seqDev blkIn) 0).chunks = 4 ∧ (getBlk (seqDev (blkOut false (some 1))) 0).place = 0 ∧
    (getBlk (seqDev (blkOut false (some 1))) 0).pins = 0 ∧ slotWanted (seqDev (blkOut false (some 1))) 0 = true ∧
    slotWanted (seqDev (blkOut true none)) 0 = false ∧ (getBlk (seqDev (blkOut true none)) 0).moving = true ∧
    ((seqRec? seqImage (blkRec seqImage 0).seq).getD {}).idleCycles ≠ 0 ∧ Settled (st (seqDev (blkOut false (some 1)))) :=
  ⟨seq_settled _, by decide, by decide, by decide, by decide, by decide, by decide, by decide, by decide, by decide, by decide, by decide, seq_settled _⟩

/-- The header of block 0 with chunk count 4 where its spilled home lies, and none there. -/
def headedDev (m : Mem) : Dev := { seqDev blkIn with mem := m }
theorem witness_state_header : headerMatches (headedDev (memWrite {} (blkAddr (seqDev blkIn) 0) (blkHeader (seqDev blkIn) 0))) 0 0 4 = true ∧
    (memWrite {} (blkAddr (seqDev blkIn) 0) (blkHeader (seqDev blkIn) 0)).wf = true ∧
    headerMatches (headedDev {}) 0 0 4 = false ∧ headerMatches (headedDev {}) 0 1 4 = false := by decide +kernel
theorem headed_settled (m : Mem) : Settled (st (headedDev m)) ∧ live (headedDev m) = true := ⟨on_settled _ rfl, rfl⟩

/-- A scan tile of chunk 2 of block 0, whose block is resident and has applied the chunks before it. -/
def scanDesc : Desc := { id := id0, bytes := descOf 3 1 0xFFFF 0x40000010 (zeros 8 ++ le 2 0 ++ le 2 0 ++ le 4 2), order := some 1 }
def scanDev : Dev := { seqDev ⟨[(0, { place := 0, chunks := 2 })]⟩ with reqs := twoReqs 1, sched := liveSched scanDesc }
theorem witness_ready_scan : Settled (st scanDev) ∧ desc? scanDev id0 = some scanDesc ∧ dKind scanDesc.bytes = 3 ∧
    waitsMet scanDev id0 scanDesc.bytes = true ∧ readyBut (noteInputs scanDesc.bytes scanDev) scanDesc = true ∧
    present (noteInputs scanDesc.bytes scanDev) (dBlock scanDesc.bytes) = true ∧
    slotWanted (noteInputs scanDesc.bytes scanDev) (dBlock scanDesc.bytes) = false := by
  refine ⟨on_settled _ rfl, rfl, by decide +kernel, by decide +kernel, by decide +kernel, by decide +kernel, by decide +kernel⟩

/-! ### Key-value sequences -/

/-- Sequence 3 of partition 0 over a pool of two pages. -/
def kvImage : Image :=
  { schedImage with
    parts := schedImage.parts ++ [{ part := 1 }]
    regions := [{ id := 1, base := 0x100000, pages := 16 }]
    attns := [{ id := 1, span := 2, headDim := 64, kvHeads := 1 }]
    kvs := [{ seq := 3, headDim := 64, kvHeads := 1, layers := 1, tablePages := 4, region := 1, offset := 0xF000 }]
    pagePools := [{ headDim := 64, kvHeads := 1, region := 1, pages := 2, shared := 2 }] }

def kvDev (q : KvSeq) (walks : List Walk) (c : Sched) : Dev :=
  { withImg kvImage with reqs := twoReqs 1, sched := c, kv := { seqs := ⟨[(3, q)]⟩, walks := walks } }
theorem kv_settled (q : KvSeq) (w : List Walk) (y : Desc) : Settled (st (kvDev q w (liveSched y))) := on_settled _ rfl

/-- An attend tile over pages 0 and 1 of sequence 3, and a scatter tile of 2 tokens at a position. -/
def attendDesc : Desc := { id := id0, bytes := descOf 4 1 0xFFFF 0x40000010 (le 1 3 ++ zeros 3 ++ le 4 0), order := some 1 }
def scatterDesc (first : Nat) : Desc := { id := id0, bytes := descOf 5 0 0xFFFF 0xFFFFFFFF (zeros 4 ++ le 1 3 ++ le 1 0 ++ le 2 2 ++ le 4 first), order := some 1 }

/-- The table with its two pages. -/
def twoPages : KvSeq := { entries := ⟨[(0, { frame := 0x100, valid := true }), (1, { frame := 0x103, valid := true, check := 1, first := 64 })]⟩, length := 128, pages := 2 }

theorem witness_walk_start : Settled (st (kvDev { locks := 254 } [] (liveSched attendDesc))) ∧
    desc? (kvDev { locks := 254 } [] (liveSched attendDesc)) id0 = some attendDesc ∧
    walkOf (kvDev { locks := 254 } [] (liveSched attendDesc)) attendDesc.bytes = some (3, 0, [0, 1]) ∧ attendDesc.released = false ∧
    waitsMet (kvDev { locks := 254 } [] (liveSched attendDesc)) id0 attendDesc.bytes = true ∧
    (getKv (kvDev { locks := 254 } [] (liveSched attendDesc)) 3).locks < 255 ∧
    isMuzzled (kvDev { locks := 254 } [] (liveSched attendDesc)) (0x20 + 2 * dCluster attendDesc.bytes + 1) = false ∧
    running (kvDev { locks := 254 } [] (liveSched attendDesc)) (dPart attendDesc.bytes) = true ∧
    overCapacity (kvDev { locks := 254 } [] (liveSched attendDesc)) attendDesc.bytes = false :=
  ⟨kv_settled .., rfl, by decide +kernel, rfl, by decide +kernel, by decide, by decide +kernel, by decide +kernel, by decide +kernel⟩

/-- A walk under way, over a table that checks and over an empty one. -/
def walkDev (q : KvSeq) : Dev := kvDev q [{ d := id0, seq := 3 }] (liveSched attendDesc)
theorem witness_walk_end : (walkDev twoPages).kv.walks.find? (fun v => v.d == id0 && v.pages.isNone) = some { d := id0, seq := 3 } ∧
    (walkPages (walkDev twoPages) 3 0 [0, 1] [] (0, 0) []).1 = true ∧ (walkPages (walkDev {}) 3 0 [0, 1] [] (0, 0) []).1 = false ∧
    tabGet (getCluster (walkDev twoPages) 0).aside 0 [] = [] ∧ Settled (st (walkDev twoPages)) ∧ Settled (st (walkDev {})) :=
  ⟨by decide +kernel, by decide +kernel, by decide +kernel, rfl, kv_settled .., kv_settled ..⟩

/-- R260 at the table's end: capacity 256, an append of 2 at 254 and at 255. -/
theorem witness_allocate : kvCapacity (kvRecOf kvImage 3) = 256 ∧
    overCapacity (kvDev {} [] (liveSched (scatterDesc 254))) (scatterDesc 254).bytes = false ∧
    overCapacity (kvDev {} [] (liveSched (scatterDesc 255))) (scatterDesc 255).bytes = true ∧
    walkOf (kvDev {} [] (liveSched (scatterDesc 254))) (scatterDesc 254).bytes = some (3, 0, [3]) ∧ dKind (scatterDesc 254).bytes = 5 ∧
    walkOf (kvDev {} [] (liveSched (scatterDesc 255))) (scatterDesc 255).bytes = some (3, 0, [3, 4]) ∧
    pageHeld (kvDev {} [] (liveSched (scatterDesc 254))) 3 0 3 = false ∧ running (kvDev {} [] (liveSched (scatterDesc 254))) 0 = true := by decide +kernel

/-- A committed scatter tile whose FILL is due. -/
def fillDev : Dev := { kvDev {} [] {} with kv := { seqs := ⟨[(3, {})]⟩, scattered := [(id0, 3, 0, 64, 2)] } }
theorem witness_fill : Settled (st fillDev) ∧ fillDev.kv.scattered.find? (fun v => v.1 == id0) = some (id0, 3, 0, 64, 2) := ⟨on_settled _ rfl, rfl⟩

theorem witness_truncate : running (kvDev {} [] {}) 0 = true ∧ running (kvDev {} [] {}) 1 = true ∧ (kvRec? kvImage 3).isSome = true ∧
    (kvRecOf kvImage 3).part = 0 ∧ (kvRecOf kvImage 3).part ≠ 1 ∧ Settled (st (kvDev {} [] {})) :=
  ⟨by decide, by decide, by decide, by decide, by decide, on_settled _ rfl⟩

/-- Partition 0's tile on core 0 writes the table, locked or not. -/
def directDev (locks : Nat) : Dev :=
  { kvDev { locks := locks } [] (liveSched { id := id0, bytes := descOf 0 1 0xFFFF 0x40000010 [], released := true }) with units := ⟨[(0, { tile := some { d := id0 } })]⟩ }
theorem witness_direct_write (locks : Nat) : Settled (st (directDev locks)) ∧ running (directDev locks) 0 = true ∧ worksFor (directDev locks) 0 0 = true ∧
    (getKv (directDev locks) 3).locks = locks := ⟨on_settled _ rfl, rfl, by rfl, rfl⟩

/-- An edit at the front. -/
def editDev (e : Edit) (locks : Nat) : Dev := kvDev { twoPages with edits := [e], locks := locks } [] {}
theorem witness_edits (e : Edit) (locks : Nat) : Settled (st (editDev e locks)) ∧ (getKv (editDev e locks) 3).edits = [e] ∧
    (getKv (editDev e locks) 3).locks = locks := ⟨on_settled _ rfl, rfl, rfl⟩
theorem witness_edit_allocate : isRing (kvRecOf kvImage 3) = false ∧ pageSource (editDev (.allocate 0 2 1) 0) 0 0 = some true ∧
    frozen (editDev (.allocate 0 2 1) 0) 3 0 = false ∧ freePages (editDev (.allocate 0 2 1) 0) 0 ≠ [] := by decide +kernel

/-! ### Transfers, windows and partitions -/

/-- A mapped device with a transfer in mover 1. -/
def xferIn (x : Xfer) : Dev :=
  { kvDev {} [] {} with boot := { runDev.boot with mib := 2048 }, mov := { movers := ⟨[(1, { queue := [x] })]⟩ } }
def aXfer (done : Nat) (dst : Nat) : Xfer := { src := 0x100000, dst := dst, rowGranules := 2, rows := 1, done := done }
theorem witness_transfer (done dst : Nat) : Settled (st (xferIn (aXfer done dst))) ∧ live (xferIn (aXfer done dst)) = true ∧
    (getMover (xferIn (aXfer done dst)) 1).queue = [aXfer done dst] ∧ (xferIn (aXfer done dst)).mem.wf = true ∧
    isMuzzled (xferIn (aXfer done dst)) (0x1C + 1) = false := ⟨on_settled _ rfl, rfl, rfl, rfl, rfl⟩

/-- A granule is in flight, or its tags are free; none is free where another partition's floor keeps them all. -/
theorem witness_transfer_flies : (issueGranule 1 (aXfer 0 0x100800) (xferIn (aXfer 0 0x100800))).isSome = true ∧
    (issueGranule 1 (aXfer 0 0x100800) { xferIn (aXfer 0 0x100800) with img := { kvImage with tagFloors := [{ part := 1, read := 240 }] } }).isSome = false ∧
    (getMover (xferIn (aXfer 0 0x100800)) 1).issued = 0 := by decide +kernel

/-- A load of a codebook bank of core 6. -/
theorem witness_load : ({ aXfer 0 0x100800 with load := some (6, 0) } : Xfer).load = some (6, 0) ∧
    readsBlob kvImage { aXfer 0 0x100800 with load := some (6, 0) } = true := by decide +kernel

/-- The first of two granules, the last, one at the region's end, one past it. -/
theorem witness_transfer_edges :
    mayRead (xferIn (aXfer 0 0x100800)) 0 (xferSrc (aXfer 0 0x100800) 0) = true ∧ mayWrite (xferIn (aXfer 0 0x100800)) 0 (xferDst (aXfer 0 0x100800) 0) = true ∧
    nextGranule {} (aXfer 0 0x100800) < 2 * 1 ∧ 2 * 1 ≤ nextGranule {} (aXfer 1 0x100800) ∧
    mayWrite (xferIn (aXfer 1 0x10FF80)) 0 (xferDst (aXfer 1 0x10FF80) 1) = true ∧ mayWrite (xferIn (aXfer 1 0x10FFC0)) 0 (xferDst (aXfer 1 0x10FFC0) 1) = false ∧
    xferDst (aXfer 0 0x100800) 0 % 64 = 0 ∧ (aXfer 0 0).mode ≠ 2 ∧ running (xferIn (aXfer 0 0)) 0 = true := by decide +kernel

/-- Window 1 of two slots over three layers. -/
def windowImage : Image :=
  { kvImage with windows := [{ window := 1, depth := 2, layers := 3, windowRegion := 1, slotBytes := 64, sourceRegion := 1
                               entries := [⟨0x800, 64⟩, ⟨0x840, 64⟩, ⟨0x880, 64⟩] }] }
def winDev (w : Win) : Dev := { withImg windowImage with mov := { wins := ⟨[(1, w)]⟩ } }
theorem win_settled (w : Win) : Settled (st (winDev w)) := on_settled _ rfl
theorem witness_windows : Settled (st (winDev { next := 1 })) ∧ (∃ r, winRec? windowImage 1 = some r ∧ r.depth = 2 ∧ r.layers = 3) ∧
    running (winDev {}) 0 = true ∧ tabGet? (getWin (winDev { next := 1 }) 1).slots (1 % 2) = none ∧ 1 < 2 ∧
    tabGet? (getWin (winDev { next := 1, slots := ⟨[(1, 1)]⟩ }) 1).slots (1 % 2) = some 1 ∧
    (getWin (winDev { loading := some 2, stalled := [(2, 1, 0)] }) 1).loading = some 2 ∧ (winDev {}).mem.wf = true ∧
    (getWin (winDev { loading := some 2, stalled := [(2, 1, 0)] }) 1).stalled = [(2, 1, 0)] ∧
    poisonedIn (winDev {}).mem 0x100880 1 = 0 ∧ poisonedIn { poison := [0x4022] } 0x100880 1 = 1 ∧ 64 % 64 = 0 ∧
    layerSource (winDev {}) ((winRec? windowImage 1).getD {}) 2 = (0x100880, 64) :=
  ⟨win_settled _, ⟨_, rfl, rfl, rfl⟩, by decide, by decide, by decide, by decide, rfl, rfl, rfl, by decide, by decide, by decide, by decide +kernel⟩

def remoteDev : Dev := { runDev with sched := { runDev.sched with remote := [8191, 5] } }
theorem witness_remote : Settled (st remoteDev) ∧ remoteDev.sched.remote.contains 8191 = true ∧ remoteDev.sched.remote.contains 0 = false :=
  ⟨on_settled _ rfl, by decide, by decide⟩

def scrubDev : Dev := { withImg { mem := some { ranks := 1, flags := 1 } } with boot := { runDev.boot with mib := 2048 } }
theorem witness_scrub : Settled (st scrubDev) ∧ live scrubDev = true ∧ bit (scrubDev.img.mem.getD {}).flags 0 = true ∧ scrubDev.power.dram = true :=
  ⟨on_settled _ rfl, rfl, by decide, rfl⟩

/-- The tile of partition 0 on core 0 reaches past its region. -/
theorem witness_violation : Settled (st (directDev 0)) ∧ 0x110000 < 2 ^ 40 ∧ running (directDev 0) 0 = true ∧ worksFor (directDev 0) 0 0 = true ∧
    fullyOwns (directDev 0) 0 0x110000 = false ∧ (directDev 0).sched.muzzleFirst = none :=
  ⟨on_settled _ rfl, by decide, rfl, by rfl, by decide +kernel, rfl⟩

/-- Partition 5 issues resets, partition 6 does not exist. -/
def resetDev5 (resetting : Bool) : Dev := { wakeDev with sched := { wakeDev.sched with parts := ⟨[(5, { resetting := resetting, stopped := true })]⟩ } }
theorem witness_partition_reset : Settled (st (resetDev5 false)) ∧ live (resetDev5 false) = true ∧ (getPart (resetDev5 false) 0).stopped = false ∧
    declared wakeImage 5 = true ∧ bit ((partRec? wakeImage 5).getD {}).flags 1 = true ∧ (getPart (resetDev5 false) 5).resetting = false ∧
    declared wakeImage 6 = false ∧ bit ((partRec? wakeImage 0).getD {}).flags 1 = false ∧ (getPart (resetDev5 true) 5).resetting = true ∧
    Settled (st (resetDev5 true)) :=
  ⟨on_settled _ rfl, rfl, by decide, by decide, by decide, by decide, by decide, by decide, by decide, on_settled _ rfl⟩

/-! ### The host ports -/

/-- An image that names everything the host may ask for. -/
def hostImage : Image :=
  { wakeImage with
    routes := wakeImage.routes ++ [{ target := 3, stream := 255, cls := 7, graph := 1 }, { target := 3, stream := 9, cls := 255, part := 5, graph := 1 }]
    policies := [{ part := 0, flags := 3 }, { part := 5, flags := 2 }]
    prePolicies := [{ part := 0, flags := 4 }]
    scans := [{ id := 1, steps := 8, slice := 16, elements := 16 }]
    seqs := [{ seq := 5, flags := 2, forward := 1 }, { seq := 6, forward := 1 }]
    regions := [{ id := 1, base := 0x100000, pages := 1 }, { id := 2, kind := 1, base := 0x200000, pages := 1 }]
    channels := [{ types := 6, stream := 255, region := 1 }]
    hostIf := some { txLanes := 2, ibiSpacing := 1, telemetryPeriod := 1, offsets := [0, 0x10018] }
    ken := some { part := 0, flags := 1 }
    injMask := 4 }

/-- A session of partition 0 and one of partition 5. -/
def hostSession (part turn : Nat) (prompt : List Nat) (busy : Bool) : Session :=
  { opened := true, part := part, keys := zeros 96, turn := turn, prompt := prompt, busy := busy }

def hostDev : Dev :=
  { withImg hostImage with
    host := { addr := some 8, sessions := ⟨[(0, hostSession 0 0 [] false), (1, hostSession 5 0 [] false)]⟩ }
    reqs := twoReqs 1, nextOrder := 3 }

theorem host_settled : Settled (st hostDev) := on_settled _ rfl

/-- The port takes frames of an opcode. -/
def ready (op : Nat) (d : Dev) : Bool :=
  awake d && d.host.addr.isSome && d.host.cur.isNone && (armedOn d 0xA 0).isNone && answered d op

/-- A plain frame with a payload. -/
def plain (op : Nat) (p : Bytes) : Frame :=
  let f : Frame := { session := 255, seq := 7, len := p.length, payload := p }
  { f with crc := crc32 (frameBytes op f) }

/-- A plain frame reaches its handler. -/
theorem carries_plain_at (op : Nat) (p : Bytes) (s : State) (h : ready op s.dev = true) (hp : p.length ≤ 4096) : Carries op (plain op p) none p s := by
  simp only [ready, Bool.and_eq_true, Option.isNone_iff_eq_none] at h
  obtain ⟨⟨⟨⟨h1, h2⟩, h3⟩, h4⟩, h5⟩ := h
  refine ⟨⟨h1, h2, h3, ?_, rfl, hp, rfl, h4⟩, h5, rfl, rfl⟩
  have : p.length < 65536 := by omega
  simp [Frame.wf, plain, this]

theorem carries_plain (op : Nat) (p : Bytes) (d : Dev) (h : ready op d = true) (hp : p.length ≤ 4096) : Carries op (plain op p) none p (st d) :=
  carries_plain_at op p (st d) h hp

/-- A protected frame of session k, whose counter stands at 0. -/
def sealed (op k : Nat) (x : Session) (p : Bytes) : Frame :=
  let f : Frame := { session := k, seq := 7, len := 24 + p.length }
  let g : Frame := { f with payload := be 8 x.counter ++ Config.gcmSeal (cmdKey x) (frameIv 1 k x.counter) (frameHead op f) p }
  { g with crc := crc32 (frameBytes op g) }

theorem seal_length (k iv a p : Bytes) : (Config.gcmSeal k iv a p).length = p.length + 16 := (@Config.gcm Config.gcmExists).size k iv a p
theorem seal_opens (k iv a p : Bytes) : Config.gcmOpen k iv a (Config.gcmSeal k iv a p) = some p := (@Config.gcm Config.gcmExists).sound k iv a p

/-- A protected frame reaches its handler with its plaintext. -/
theorem carries_sealed_at (op k : Nat) (p : Bytes) (s : State) (h : ready op s.dev = true) (hk : k < 8) (ho : op ≠ 0x11)
    (hx : (getSession s.dev k).opened = true) (hc : (getSession s.dev k).counter = 0) (hp : p.length ≤ 4072) :
    Carries op (sealed op k (getSession s.dev k) p) (some k) p s := by
  simp only [ready, Bool.and_eq_true, Option.isNone_iff_eq_none] at h
  obtain ⟨⟨⟨⟨h1, h2⟩, h3⟩, h4⟩, h5⟩ := h
  generalize hX : getSession s.dev k = x at hx hc
  have l8 : (be 8 0).length = 8 := by decide
  have hl : (sealed op k x p).payload.length = 24 + p.length := by
    simp only [sealed, List.length_append, seal_length, hc, l8]; omega
  refine ⟨⟨h1, h2, h3, ?_, hl, ?_, rfl, h4⟩, h5, rfl, hk, ho, by rw [hX]; exact hx, ?_⟩
  · have e1 : (sealed op k x p).session = k := rfl
    have e2 : (sealed op k x p).len = 24 + p.length := rfl
    have e3 : (sealed op k x p).seq = 7 := rfl
    have e4 : (sealed op k x p).flags = 0 := rfl
    simp only [Frame.wf, e1, e2, e3, e4, hl, Bool.and_eq_true, decide_eq_true_eq]
    omega
  · show 24 + p.length ≤ 4096; omega
  · rw [hX]
    unfold unprotect
    rw [if_neg ?_]
    · have d8 : (sealed op k x p).payload.drop 8 = Config.gcmSeal (cmdKey x) (frameIv 1 k x.counter) (frameHead op (sealed op k x p)) p := by
        simp only [sealed, hc]; rw [List.drop_append_of_le_length (by rw [l8])]
        rfl
      rw [d8]; exact seal_opens _ _ _ _
    · have t8 : (sealed op k x p).payload.take 8 = be 8 0 := by
        simp only [sealed, hc]; rw [List.take_append_of_le_length (by rw [l8])]
        rfl
      rw [hl, t8, hc]
      have : be64 (be 8 0) = 0 := by decide
      omega

theorem carries_sealed (op k : Nat) (p : Bytes) (d : Dev) (h : ready op d = true) (hk : k < 8) (ho : op ≠ 0x11)
    (hx : (getSession d k).opened = true) (hc : (getSession d k).counter = 0) (hp : p.length ≤ 4072) :
    Carries op (sealed op k (getSession d k) p) (some k) p (st d) := carries_sealed_at op k p (st d) h hk ho hx hc hp

theorem witness_ccc : Settled (st runDev) ∧ awake runDev = true ∧ runDev.host.addr ≠ none ∧ (pointDev id).host.addr ≠ none ∧
    ({ runDev with host := {} } : Dev).host.addr = none ∧ (0x48 : Nat) = 0x48 + runDev.boot.straps % 4 ∧ ({} : HostPort).hj = true :=
  ⟨run_settled, by decide, by decide, by decide, rfl, by decide, rfl⟩

/-- A result and an error wait; the spacing of results runs or not. -/
def ibiDev (sp : Bool) : Dev := { runDev with host := { addr := some 8, ibis := [{ byte := 4 }, { byte := 3 }], spacing := sp } }
theorem witness_ibis : Settled (st (ibiDev false)) ∧ nextIbi (ibiDev false).host = some 0 ∧ nextIbi (ibiDev true).host = some 1 ∧
    nextIbi {} = none ∧ (ibiDev false).host.int = true ∧ (ibiDev true).host.ibis[1]? = some { byte := 3 } := ⟨on_settled _ rfl, by decide, by decide, by decide, rfl, rfl⟩

/-- GPIO 0 to 7 take the functions 2, 3, 4, 5, 6, 0, 1, 7; polarity high for 0 and 2. An interrupt waits; the ISP domain is on. -/
def gpioDev : Dev := { ibiDev false with
  img := { hostDev.img with hostIf := some { gpioFunction := [2, 3, 4, 5, 6, 0, 1, 7], gpioPolarity := 5 } }
  boot := { hostDev.boot with accepted := true, step := .running }, power := { hostDev.power with isp := true, perk := false } }
theorem witness_gpio : live gpioDev = true ∧ gpioDev.host.ibis ≠ [] ∧ gpioDev.power.isp = true ∧ gpioDev.power.perk = false ∧
    (List.range 8).map (gpioPin gpioDev) = [some true, some false, some false, some true, some false, none, none, none] := by decide

/-- Frames that fail one check each. -/
theorem witness_frame_checks : Settled (st hostDev) ∧ awake hostDev = true ∧ hostDev.host.addr ≠ none ∧ hostDev.host.cur = none ∧ hostDev.err.armed = none ∧
    Frame.wf { len := 1 } = true ∧ ({ len := 1 } : Frame).payload.length ≠ ({ len := 1 } : Frame).len ∧
    ({} : Frame).crc ≠ crc32 (frameBytes 1 {}) ∧ opcodes.contains 0x51 = false ∧ armedOn hostDev 0xA 0 = none := by
  refine ⟨host_settled, by decide, by decide, by decide, by decide, by decide, by decide, by decide +kernel, by decide, by decide⟩

theorem witness_frame_lengths : Frame.wf { len := 4097, payload := zeros 4097 } = true ∧ (zeros 4097).length = 4097 ∧ 4096 < 4097 ∧ (zeros 4096).length ≤ 4096 :=
  have l (n : Nat) : (zeros n).length = n := List.length_replicate
  ⟨by unfold Frame.wf; simp only [l]; decide, l _, by decide, (l _).le⟩

/-- A frame whose CRC is right is taken. -/
def withCrc (op : Nat) (f : Frame) : Frame := { f with crc := crc32 (frameBytes op f) }
theorem frame_taken (op : Nat) (f : Frame) (d : Dev) (h : ready op d = true ∨ answered d op = false ∧ ready 1 d = true) (hw : f.wf = true)
    (hl : f.payload.length = f.len) (hm : f.len ≤ 4096) : FrameTaken op (withCrc op f) (st d) := by
  have g : awake d = true ∧ d.host.addr.isSome = true ∧ d.host.cur = none ∧ armedOn d 0xA 0 = none := by
    rcases h with h | ⟨_, h⟩ <;> simp only [ready, Bool.and_eq_true, Option.isNone_iff_eq_none] at h <;> exact ⟨h.1.1.1.1, h.1.1.1.2, h.1.1.2, h.1.2⟩
  exact ⟨g.1, g.2.1, g.2.2.1, hw, hl, hm, rfl, g.2.2.2⟩

/-- A frame before the image is accepted; a session that is not open; a protected frame that does not open, the last that is let off. -/
def earlyDev : Dev := { runDev with boot := { runDev.boot with step := .loading, accepted := false } }
theorem witness_frame_early : FrameTaken 0x10 (withCrc 0x10 {}) (st { earlyDev with host := { addr := some 8 } }) ∧ answered earlyDev 0x10 = false :=
  ⟨frame_taken _ _ _ (.inr ⟨by decide, by decide⟩) (by decide) rfl (by decide), by decide⟩

def refusedDev (row : Nat) : Dev := { hostDev with host := { hostDev.host with sessions := ⟨[(0, { hostSession 0 0 [] false with row := row })]⟩ } }
theorem witness_frame_session : FrameTaken 1 (withCrc 1 { session := 8 }) (st hostDev) ∧ FrameTaken 1 (withCrc 1 { session := 2 }) (st hostDev) ∧
    (getSession hostDev 2).opened = false ∧ FrameTaken 1 (withCrc 1 { session := 0 }) (st (refusedDev 14)) ∧
    (getSession (refusedDev 14) 0).opened = true ∧ unprotect 1 (withCrc 1 { session := 0 }) (getSession (refusedDev 14) 0) = none ∧
    (getSession (refusedDev 14) 0).row < 15 ∧ Settled (st (refusedDev 14)) :=
  ⟨frame_taken _ _ _ (.inl (by decide)) (by decide) rfl (by decide), frame_taken _ _ _ (.inl (by decide)) (by decide) rfl (by decide), by decide,
   frame_taken _ _ _ (.inl (by decide)) (by decide) rfl (by decide), by decide, if_pos (.inl (by decide)), by decide, on_settled _ rfl⟩

/-- A read of one word and of 256, plain and in a session. -/
def readOf (off cnt : Nat) : Bytes := le 4 off ++ le 2 cnt
theorem witness_status_read : Carries 1 (plain 1 (readOf 0xE0000 1)) none (readOf 0xE0000 1) (st hostDev) ∧
    Carries 1 (sealed 1 0 (getSession hostDev 0) (readOf 0x10000 256)) (some 0) (readOf 0x10000 256) (st hostDev) ∧
    (readOf 0xE0000 1).length = 6 ∧ u32 (readOf 0xE0000 1) 0 % 4 = 0 ∧ u32 (readOf 0xE0000 1) 0 / 65536 = 14 ∧ u16 (readOf 0xE0000 1) 4 = 1 ∧
    u16 (readOf 0x10000 256) 4 = 256 ∧ live hostDev = true ∧ (∀ o ∈ run 0x10000 256, mayReadBlock (some 0) o = true) ∧
    (∃ o ∈ run 0x20000 1, mayReadBlock none o = false) :=
  ⟨carries_plain _ _ _ (by decide) (by decide), carries_sealed _ _ _ _ (by decide) (by decide) (by decide) rfl rfl (by decide), by decide, by decide, by decide,
   by decide, by decide, rfl, by decide +kernel, by decide⟩

/-- A response of 3 bytes, one read so far; a command in progress. -/
def respDev (h : HostPort) : Dev := { runDev with host := { h with addr := some 8 } }
theorem witness_response : Settled (st (respDev { resp := some ([1, 2, 3], 1) })) ∧ (respDev { resp := some ([1, 2, 3], 1) }).host.resp = some ([1, 2, 3], 1) ∧
    Settled (st (respDev { cur := some { awaits := .kennel } })) ∧ (respDev { cur := some { awaits := .kennel } }).host.resp = none ∧
    Settled (st (respDev {})) := ⟨on_settled _ rfl, rfl, on_settled _ rfl, rfl, on_settled _ rfl⟩

/-- Writes of a word to the window, in the session of partition 0, and one outside a session. -/
def writeOf (off : Nat) (v : Word) : Bytes := le 4 off ++ le 4 v.toNat
theorem witness_window_write (off : Nat) (v : Word) : Carries 2 (sealed 2 0 (getSession hostDev 0) (writeOf off v)) (some 0) (writeOf off v) (st hostDev) ∧
    HostSession (some 0) (st hostDev) ∧ (writeOf off v).length = 8 :=
  have l : (writeOf off v).length = 8 := by simp [writeOf, le]
  ⟨carries_sealed _ _ _ _ (by decide) (by decide) (by decide) rfl rfl (by rw [l]; decide), ⟨0, rfl, rfl⟩, l⟩
theorem witness_window_denied : Carries 2 (sealed 2 1 (getSession hostDev 1) (writeOf 0x10018 0)) (some 1) (writeOf 0x10018 0) (st hostDev) ∧
    ¬ HostSession (some 1) (st hostDev) ∧ ¬ HostSession none (st hostDev) ∧
    hostDev.power.clusters.getLsbD (23 / 6) = true :=
  ⟨carries_sealed _ _ _ _ (by decide) (by decide) (by decide) rfl rfl (by decide), (fun ⟨k, h, g⟩ => by cases h; revert g; decide), (fun ⟨k, h, _⟩ => by cases h),
   rfl⟩

/-- A register that is written, one that nothing may write, no register; the last word of the window's offsets; a cluster without power. -/
theorem witness_window_offsets : (writeReg 0x10018 0 (st hostDev)).isSome = true ∧ writeReg 0xE0000 0 (st hostDev) = none ∧
    (liveReg (st hostDev) 0 0xE0000).isSome = true ∧ writeReg 0xFFFFFFFC 0 (st hostDev) = none ∧
    (liveReg (st hostDev) 0 0xFFFFFFFC).isSome = false ∧ 0xFFFFFFFC < 2 ^ 32 ∧ 0xFFFFFFFC % 4 = 0 ∧ hostDev.err.armed = none := by decide +kernel
def oneCluster : Dev := { hostDev with power := { hostDev.power with clusters := 1 } }
theorem witness_window_unpowered (v : Word) : Settled (st oneCluster) ∧ oneCluster.power.clusters.getLsbD (23 / 6) = false ∧
    HostSession (some 0) (st oneCluster) ∧
    Carries 2 (sealed 2 0 (getSession oneCluster 0) (writeOf 0x6D5BC v)) (some 0) (writeOf 0x6D5BC v) (st oneCluster) ∧
    0x60000 + 23 / 6 * 0x4000 + 0x1040 + 23 % 6 * 0x100 + 8 * 15 + 4 = 0x6D5BC :=
  have l : (writeOf 0x6D5BC v).length = 8 := by simp [writeOf, le]
  ⟨on_settled _ rfl, by decide, ⟨0, rfl, rfl⟩,
   carries_sealed _ _ _ _ (by decide) (by decide) (by decide) rfl rfl (by rw [l]; decide), by decide⟩

theorem witness_injection : injectionState (st hostDev).otp hostDev = true ∧ lifecycle (st hostDev).otp ≠ 3 ∧ live hostDev = true ∧
    injectionState { provisioned with state := [0xFF, 0xFF, 0xFF, 0xFF, 0xFF] } hostDev = false ∧
    lifecycle { provisioned with state := [0xFF, 0xFF, 0xFF, 0, 0] } = 3 ∧ bit hostImage.injMask (0x1000 / 4096) = false ∧
    (1#32).getLsbD 1 = false ∧ (1#32).getLsbD 0 = true ∧ (2#32).getLsbD 1 = true ∧ (0x80000000#32).getLsbD 31 = true := by decide

theorem witness_reset_request : hostDev.sched.go = false ∧ hostDev.err.armed = none ∧ fieldOf 0x80000005 6 0 = 5 ∧ declared hostImage 5 = true ∧
    (getPart hostDev 5).resetting = false ∧ fieldOf 0x80000000 6 0 = 0 ∧ declared hostImage (fieldOf 0x8000007F 6 0) = false ∧
    (0x80000005#32).getLsbD 31 = true := by decide

/-! ### Reports, sessions, events and prompts -/

theorem witness_attest : Carries 0x10 (plain 0x10 (zeros 32)) none (zeros 32) (st hostDev) ∧ (zeros 32).length = 32 ∧ canAttest (st hostDev).otp = true ∧
    canAttest State.reset.otp = false ∧ Carries 0x10 (plain 0x10 (zeros 32)) none (zeros 32) { State.reset with dev := hostDev } :=
  ⟨carries_plain _ _ _ (by decide) (by decide), by decide, by decide, by decide, carries_plain_at _ _ _ (by decide) (by decide)⟩

theorem witness_report_ready : Settled (st (respDev { cur := some { awaits := .report } })) ∧
    (respDev { cur := some { awaits := .report } }).host.cur = some { awaits := .report } := ⟨on_settled _ rfl, rfl⟩

/-- The base point of P-256 as a host's ephemeral key, for partition 5, whose sessions need no signature. -/
def openOf : Bytes :=
  le 1 5 ++ zeros 35 ++ be 32 0x6B17D1F2E12C4247F8BCE6E563A440F277037D812DEB33A0F4A13945D898C296 ++
    be 32 0x4FE342E2FE1A7F9B8EE7EB4A7C0F9E162BCE33576B315ECECBB6406837BF51F5 ++ zeros 128
def fullDev : Dev := { hostDev with host := { hostDev.host with sessions := ⟨(List.range 8).map (fun k => (k, hostSession 5 0 [] false))⟩ } }
theorem witness_session_open : Carries 0x11 (plain 0x11 openOf) none openOf (st hostDev) ∧ openOf.length = 228 ∧ declared hostImage (u8 openOf 0) = true ∧
    bit (policyOf hostImage (u8 openOf 0)).flags 1 = true ∧ pointValid (slice openOf 0x24 64) = true ∧ (getSession hostDev 2).opened = false ∧
    (∀ j, j < 2 → (getSession hostDev j).opened = true) ∧ (∀ j, j < 8 → (getSession fullDev j).opened = true) ∧ Settled (st fullDev) ∧
    Carries 0x11 (plain 0x11 openOf) none openOf (st fullDev) :=
  have l : openOf.length = 228 := by decide +kernel
  ⟨carries_plain _ _ _ (by decide) (by rw [l]; decide), l, by decide +kernel, by decide +kernel, by decide +kernel, rfl, by decide, by decide, on_settled _ rfl,
   carries_plain _ _ _ (by decide) (by rw [l]; decide)⟩
theorem witness_session_signed : hostAuthentic openOf (u8 openOf 0) (st hostDev) = true := by
  have h5 : u8 openOf 0 = 5 := by decide +kernel
  have ha : (st hostDev).dev.img.auths.find? (fun a => a.part == 5) = none := rfl
  rw [h5]; unfold hostAuthentic; simp only [show (5 : Nat) ≠ 0 by decide, if_false, ha]
  decide +kernel

theorem witness_session_close : Carries 0x12 (sealed 0x12 1 (getSession hostDev 1) []) (some 1) [] (st hostDev) ∧
    Carries 0x12 (plain 0x12 []) none [] (st hostDev) ∧ hostDev.err.armed = none :=
  ⟨carries_sealed _ _ _ _ (by decide) (by decide) (by decide) rfl rfl (by decide), carries_plain _ _ _ (by decide) (by decide), rfl⟩

/-- Events: kind, target, stream or sequence, class, onset or step. -/
def eventOf (a b c d v : Nat) : Bytes := le 1 a ++ le 1 b ++ le 1 c ++ le 1 d ++ le 8 v
theorem witness_events (v : Nat) (a b c d : Nat) : Carries 0x20 (plain 0x20 (eventOf a b c d v)) none (eventOf a b c d v) (st hostDev) ∧
    (eventOf a b c d v).length = 12 :=
  have l : (eventOf a b c d v).length = 12 := by simp [eventOf, le]
  ⟨carries_plain _ _ _ (by decide) (by rw [l]; decide), l⟩
theorem witness_event_routes : u8 (eventOf 0 2 0 7 5) 0 = 0 ∧ u8 (eventOf 0 3 9 0 5) 1 = 3 ∧ (routeOf hostImage 2 0 7).map (fun r => r.part) = some 0 ∧
    bit (policyOf hostImage 0).flags 0 = true ∧ (routeOf hostImage 3 9 0).map (fun r => r.part) = some 5 ∧ bit (policyOf hostImage 5).flags 0 = false ∧
    routeOf hostImage 2 9 0 = none ∧ u8 (eventOf 1 0 5 0 31) 0 = 1 ∧ (seqRec? hostImage 5).map (fun r => bit r.flags 1) = some true ∧
    (seqRec? hostImage 6).map (fun r => bit r.flags 1) = some false ∧ u64 (eventOf 1 0 5 0 31) 4 % 2 ^ 48 / chunkSteps hostImage 5 = 3 ∧
    (getSeq hostDev 5).base = 0 := by decide

/-- A prompt of n tokens, the last of its turn or not. -/
def promptOf (fin : Nat) (n : Nat) : Bytes := le 1 7 ++ le 1 fin ++ le 2 n ++ zeros (4 * n)
def busyDev : Dev := { hostDev with host := { hostDev.host with sessions := ⟨[(0, hostSession 0 0 (List.replicate 7175 9) true)]⟩ } }
theorem witness_prompts : Carries 0x30 (sealed 0x30 0 (getSession hostDev 0) (promptOf 1 1017)) (some 0) (promptOf 1 1017) (st hostDev) ∧
    Carries 0x30 (sealed 0x30 0 (getSession hostDev 0) (promptOf 0 0)) (some 0) (promptOf 0 0) (st hostDev) ∧
    Carries 0x30 (sealed 0x30 0 (getSession busyDev 0) (promptOf 1 1017)) (some 0) (promptOf 1 1017) (st busyDev) ∧ Settled (st busyDev) :=
  have l : (promptOf 1 1017).length ≤ 4072 := by decide +kernel
  ⟨carries_sealed _ _ _ _ (by decide) (by decide) (by decide) rfl rfl l, carries_sealed _ _ _ _ (by decide) (by decide) (by decide) rfl rfl (by decide),
   carries_sealed _ _ _ _ (by decide) (by decide) (by decide) rfl rfl l, on_settled _ rfl⟩
theorem witness_prompt_fields : u16 (promptOf 1 1017) 2 = 1017 ∧ (promptOf 1 1017).length = 4 + 4 * 1017 ∧ bit (u8 (promptOf 1 1017) 1) 0 = true ∧
    bit (u8 (promptOf 0 0) 1) 0 = false ∧ (getSession busyDev 0).prompt.length + 1017 ≤ 8192 ∧ (getSession busyDev 0).busy = true ∧
    (routeOf hostImage 3 255 7).map (fun r => r.part) = some 0 ∧ (getSession hostDev 0).part = 0 := by decide +kernel

/-! ### Pre-roll, maintenance, lifecycle -/

/-- A request of tier 2 with a grant of 4 samples from index -2, of which n are copied. -/
def grantDev (n : Nat) (cur : Option InProgress) : Dev :=
  { hostDev with
    reqs := [{ tier := 2, q := { graph := 1, arrival := 5 }, order := 1, grant := some { start := -2, size := 4, tile := List.replicate n 3 } }]
    host := { hostDev.host with cur := cur } }
def prerollOf (first cnt : Nat) : Bytes := le 1 2 ++ zeros 3 ++ le 4 5 ++ le 8 first ++ le 2 cnt
theorem witness_preroll (n first cnt : Nat) : Settled (st (grantDev n none)) ∧
    Carries 0x40 (sealed 0x40 0 (getSession (grantDev n none) 0) (prerollOf first cnt)) (some 0) (prerollOf first cnt) (st (grantDev n none)) ∧
    (prerollOf first cnt).length = 18 ∧ ((some 0 : Option Nat).map (fun k => (getSession (grantDev n none) k).part)) = some 0 :=
  have l : (prerollOf first cnt).length = 18 := by simp [prerollOf, le, zeros]
  ⟨on_settled _ rfl, carries_sealed _ _ _ _ rfl (by decide) (by decide) rfl rfl (by rw [l]; decide), l, rfl⟩
/-- The window's four samples, one too many, the first copied and the next not. -/
theorem witness_preroll_edges :
    (openRequest 2 5 (grantDev 4 none)).isSome = true ∧ (namedRequest 2 5 (grantDev 4 none)).map (fun r => r.ended.isNone) = some true ∧
    isMuzzled (grantDev 4 none) 0x70 = false ∧ (prePolicy hostImage 0).any (fun x => bit x.flags 2) = true ∧
    signed 64 (u64 (prerollOf (2 ^ 64 - 2) 4) 8) = -2 ∧ u16 (prerollOf 0 2048) 16 = 2048 ∧
    inWindow { start := -2, size := 4 } (-2) 4 = true ∧ inWindow { start := -2, size := 4 } (-2) 5 = false ∧
    (grantSamples { start := -2, size := 4, tile := [3, 3, 3, 3] } (-2) 4).isSome = true ∧ grantSamples { start := -2, size := 4, tile := [3] } (-1) 1 = none := by
  decide +kernel
/-- The same grant once its request has ended, and with the session's channel muzzled. -/
theorem witness_preroll_over :
    (namedRequest 2 5 { grantDev 4 none with reqs := (grantDev 4 none).reqs.map (fun r => { r with ended := some 0 }) }).bind (fun r => r.ended) = some 0 ∧
    isMuzzled { grantDev 4 none with sched := { parts := ⟨[(0, { muzzled := [0x70] })]⟩ } } 0x70 = true := by decide
def waitingCur : InProgress := { awaits := .preroll 2 5 (-2) 4 }
theorem witness_preroll_ready : Settled (st (grantDev 4 (some waitingCur))) ∧ (grantDev 4 (some waitingCur)).host.cur = some waitingCur ∧
    Settled (st (respDev { cur := some waitingCur })) ∧ openRequest 2 5 (respDev { cur := some waitingCur }) = none :=
  ⟨on_settled _ rfl, rfl, on_settled _ rfl, rfl⟩

theorem witness_maintenance (p : Bytes) (h : p.length ≤ 4072) :
    Carries 0x60 (sealed 0x60 0 (getSession hostDev 0) p) (some 0) p (st hostDev) ∧ HostSession (some 0) (st hostDev) ∧
    Carries 0x60 (plain 0x60 p) none p (st hostDev) :=
  ⟨carries_sealed _ _ _ _ (by decide) (by decide) (by decide) rfl rfl h, ⟨0, rfl, rfl⟩, carries_plain _ _ _ (by decide) (by omega)⟩
def spacedDev : Dev := { hostDev with flash := { spacing := true } }
theorem witness_snapshot : hostDev.flash.spacing = false ∧ hostDev.flash.writing = none ∧ spacedDev.flash.spacing = true ∧ Settled (st spacedDev) ∧
    Carries 0x60 (sealed 0x60 0 (getSession spacedDev 0) (le 2 1)) (some 0) (le 2 1) (st spacedDev) :=
  ⟨rfl, rfl, rfl, on_settled _ rfl, carries_sealed _ _ _ _ (by decide) (by decide) (by decide) rfl rfl (by decide)⟩
/-- Core 23 in a full cluster, and as the last of its cluster; a retired core. -/
theorem witness_self_test : hostDev.age.retired.getLsbD 23 = false ∧ lastOfCluster hostDev 23 = false ∧ lastOfCluster (periodDev 0x83FFFF) 23 = true ∧
    ({ hostDev.age with retired := 1 } : Age).retired.getLsbD 0 = true ∧ 23 < 24 ∧ 3 ≤ 3 := by decide
theorem witness_dump : region? hostImage 1 = some { id := 1, base := 0x100000, pages := 1 } ∧ dumpState (st hostDev).otp hostDev = true ∧
    0xF80 % 64 = 0 ∧ 0xF80 + 128 ≤ 1 * 4096 ∧ 1 * 4096 < 0xFC0 + 128 ∧ (region? hostImage 2).map (fun r => r.kind) = some 1 ∧
    (channelOf hostImage 0 0x32).map (fun c => c.1) = some 0 ∧ (getTx hostDev 0).queue.length < 256 := by decide

/-- A request of zeros names no state the part is in: it is not accepted. -/
theorem witness_transition : requestAccepted (zeros 196) (st hostDev).otp = false ∧ (zeros 196).length = 196 ∧
    Carries 0x60 (sealed 0x60 0 (getSession hostDev 0) (le 2 3 ++ zeros 196)) (some 0) (le 2 3 ++ zeros 196) (st hostDev) := by
  refine ⟨?_, by decide +kernel, carries_sealed _ _ _ _ (by decide) (by decide) (by decide) rfl rfl (by decide +kernel)⟩
  have : (u8 (zeros 196) 0 == lifecycle (st hostDev).otp) = false := by decide +kernel
  simp [requestAccepted, this]

/-- A part in PROVISIONED whose owner asks for DEPLOYED, signed with the owner key: accepted. -/
def idKey : Bytes := List.replicate 32 1
def ownId : Bytes := Config.sha256 (Config.publicKey idKey)
def deployLead : Bytes := le 1 2 ++ le 1 3 ++ zeros 2 ++ ownId ++ zeros 32
theorem id_length : ownId.length = 32 := (@Config.sha Config.shaExists).size _
def deployHead : Bytes := deployLead ++ Config.publicKey aKey
def deployOf : Bytes := deployHead ++ Config.ecdsaSign aKey deployHead
def ownedOtp : Otp := { provisioned with identity := idKey, ownerHash := Config.sha256 (Config.publicKey aKey) }
theorem key_length (k : Bytes) : (Config.publicKey k).length = 64 := ((@Config.ecdsa Config.ecdsaExists).sizes k []).1
theorem sign_length (k m : Bytes) : (Config.ecdsaSign k m).length = 64 := ((@Config.ecdsa Config.ecdsaExists).sizes k m).2
theorem lead_length : deployLead.length = 68 := by
  rw [deployLead, List.length_append, List.length_append, id_length]; decide +kernel
theorem lead_get (n : Nat) (h : n < 68) : deployOf.getD n 0 = deployLead.getD n 0 := by
  have := lead_length
  simp only [deployOf, deployHead, List.append_assoc, List.getD_eq_getElem?_getD]
  rw [List.getElem?_append_left (by omega)]
theorem lead_slice (o n : Nat) (h : o + n ≤ 68) : slice deployOf o n = slice deployLead o n := by
  have := lead_length
  simp only [slice, deployOf, deployHead, List.append_assoc]
  rw [List.drop_append_of_le_length (by omega), List.take_append_of_le_length (by rw [List.length_drop]; omega)]
theorem deploy_key : slice deployOf 0x44 64 = Config.publicKey aKey := by
  simp only [slice, deployOf, deployHead, List.append_assoc]
  rw [List.drop_left' lead_length, List.take_left' (key_length _)]
theorem head_length : deployHead.length = 0x84 := by rw [deployHead, List.length_append, lead_length, key_length]
theorem deploy_sign : slice deployOf 0x84 64 = Config.ecdsaSign aKey deployHead := by
  simp only [slice, deployOf]
  rw [List.drop_left' head_length, List.take_of_length_le (by rw [sign_length])]
theorem deploy_take : deployOf.take 0x84 = deployHead := by rw [deployOf, List.take_left' head_length]
theorem witness_transition_accepted : requestAccepted deployOf ownedOtp = true ∧ deployOf.length = 196 := by
  refine ⟨?_, by rw [deployOf, List.length_append, head_length, sign_length]⟩
  have h0 : u8 deployOf 0 = 2 := by unfold u8; rw [lead_get 0 (by decide)]; rfl
  have h1 : u8 deployOf 1 = 3 := by unfold u8; rw [lead_get 1 (by decide)]; rfl
  have hl : lifecycle ownedOtp = 2 := show stateOf [0xFF, 0xFF, 0, 0, 0] = 2 by decide
  have hd : deviceId ownedOtp = ownId := if_neg (show ¬ absent (List.replicate 32 1) = true by decide +kernel)
  have hi : slice deployOf 4 32 = ownId := (lead_slice 4 32 (by decide)).trans (by
    simp only [slice, deployLead, List.append_assoc]
    rw [← List.append_assoc, ← List.append_assoc, List.drop_left' (by decide +kernel), List.take_left' id_length])
  have hn : slice deployOf 0x24 32 = zeros 32 := (lead_slice 0x24 32 (by decide)).trans (by
    simp only [slice, deployLead]
    rw [List.drop_left' (by rw [List.length_append, id_length]; decide +kernel)]; decide +kernel)
  have ho : ownedOtp.ownerHash = Config.sha256 (Config.publicKey aKey) := rfl
  have hz : (zeros 32).any (fun b => b != 0) = false := by decide +kernel
  simp only [requestAccepted, h0, h1, hl, hd, hi, hn, hz, deploy_key, deploy_sign, deploy_take, ho, verify_sign, transitionSigner, beq_self_eq_true, Bool.and_true]
  decide

/-- Phase 1 has programmed the intent of PROVISIONED. -/
def intentState : State := { st hostDev with otp := { (st hostDev).otp with intent := [0, 0xFF, 0, 0, 0] } }
theorem witness_program_done : Settled intentState ∧ interrupted intentState.otp = some 2 ∧ live intentState.dev = true ∧
    intentState.otp.state.length = 5 ∧ intentState.otp.intent.length = 5 ∧ interrupted (st hostDev).otp = none :=
  ⟨host_settled, by decide, rfl, rfl, rfl, by decide⟩

/-! ### The Kennel -/

/-- A Kennel that weighs: Max 10,000, e 10, a stable reading. -/
def weighing (raw : Int) : Kennel :=
  { running := true, sealOpen := false, calib := some (0, { max := 10000, e := 10 }), slots := 1, reading := some (raw, true) }
def kenState (k : Kennel) : State := { st hostDev with kennel := k }

theorem witness_kennel_powerup : ({ weighing 5 with powerupDue := true } : Kennel).running = true ∧
    ({ weighing 5 with powerupDue := true } : Kennel).reading = some (5, true) ∧ (weighing 5).powerupDue = false := by decide

/-- A reading whose faults stand already, at the ends of its fields; zero tracking at a quarter of e and past it. -/
theorem witness_kennel_reading : Instr.wf (.kennelReading (-2147483648) true (-128) (2 ^ 48 - 1) 2) = true ∧
    (∀ i, i < 4 → bit 2 i = true → bit ({ weighing 0 with faults := 66 } : Kennel).faults i = true) ∧
    bit ({ weighing 0 with faults := 66 } : Kennel).faults 6 = true ∧
    ¬ (calibOf (weighing 0)).e < 4 * (2 - (weighing 0).zero).natAbs ∧ (calibOf (weighing 0)).e < 4 * (3 - (weighing 0).zero).natAbs ∧
    (calibOf (weighing 0)).tracking = false := by decide

/-- R398: readings of the last 1,000 ms within half of e (10) of one another; the one of 1,000 ms ago counts, an older one does not. -/
theorem test_stable : let c : Calib := { e := 10, window := 1000 }
    let k : Kennel := { running := true, calib := some (0, c), recent := [(1000, 4), (999, 90)] }
    (takeReading 9 20 2000 0 k).reading = some (9, true) ∧ (takeReading 10 20 2000 0 k).reading = some (10, false) ∧
    (takeReading 9 20 1999 0 k).reading = some (9, false) ∧ stableAt c 999 [(999, 0)] = false := by decide

theorem witness_seal : (weighing 0).sealOpen = false ∧ ({ weighing 0 with events := 4094 } : Kennel).events < 4095 ∧
    4095 ≤ ({ weighing 0 with events := 4095 } : Kennel).events ∧ ({ weighing 0 with sealOpen := true } : Kennel).sealOpen = true := by decide

/-- In service, with one calibration slot left, and with none. -/
def inService (slots : Nat) : Kennel := { weighing 20 with sealOpen := true, service := true, mode := 1, slots := slots }
theorem witness_calibration : (inService 63).running = true ∧ (inService 63).service = true ∧ (inService 63).mode = 1 ∧ (inService 63).slots < 64 ∧
    (inService 63).reading = some (20, true) ∧ 64 ≤ (inService 64).slots ∧ (weighing 0).service = false := by decide

theorem witness_blank_to_test : lifecycle State.reset.otp = 0 ∧ State.reset.otp.state.length = 5 ∧ lifecycle (st runDev).otp ≠ 0 := by decide

/-- An operation waits, and the host's command with it. -/
def askedDev : Dev := { hostDev with host := { hostDev.host with cur := some { awaits := .kennel, payload := le 1 3 ++ le 1 1 ++ le 2 9 } } }
def asked (k : Kennel) : State := { st askedDev with kennel := k }
theorem witness_kennel_answers : Settled (asked { weighing 20 with op := some ⟨3, 1, 9⟩ }) ∧
    (asked { weighing 20 with op := some ⟨3, 1, 9⟩ }).kennel.op = some ⟨3, 1, 9⟩ ∧
    (asked (weighing 20)).dev.host.cur = some { awaits := .kennel, payload := le 1 3 ++ le 1 1 ++ le 2 9 } ∧
    (kenState { weighing 20 with op := some ⟨3, 1, 9⟩ }).dev.host.cur = none ∧ Settled (kenState { weighing 20 with op := some ⟨3, 1, 9⟩ }) :=
  ⟨on_settled _ rfl, rfl, rfl, rfl, host_settled⟩

/-- A mailbox whose newest record is number 17, with record 16's slot, and one whose slot 1 holds another record. -/
def boxRecord (n : Nat) : Bytes := fit 152 (zeros 8 ++ le 4 n ++ zeros 4 ++ le 8 77)
def boxed (n : Nat) : Kennel := { weighing 0 with head := 17, next := 18, mailbox := ⟨[(1, boxRecord n)]⟩ }
def seenDev (n : Nat) : Dev := { hostDev with host := { hostDev.host with kenSeen := (n, some (le 8 77)) } }
theorem witness_forwarder : headAdvanced (boxed 17) (seenDev 16) = true ∧ headAdvanced (boxed 17) (seenDev 17) = false ∧
    slotBoot (boxed 17) (boxed 17).head = le 8 77 ∧ (boxed 17).head = 16 + 1 ∧ inMailbox (boxed 17) (boxed 17).head = true ∧
    inMailbox (boxed 1) (boxed 1).head = false ∧ slotBoot (boxed 1) (boxed 1).head = le 8 77 ∧
    (channelOf hostImage 0 0x31).map (fun c => c.1) = some 0 ∧ (getTx (seenDev 16) 0).queue.length < 256 ∧ awake (seenDev 16) = true ∧
    live (seenDev 16) = true := by decide +kernel
theorem witness_forwarder_settled (n : Nat) : Settled (st (seenDev n)) := on_settled _ rfl

/-- Two records since the last forwarded, the first overwritten; a new boot_id; an image that has not been accepted. -/
theorem witness_forwarder_edges : headAdvanced (boxed 17) (seenDev 15) = true ∧ inMailbox (boxed 17) 16 = false ∧
    (List.range (17 - 15)).map (fun i => 15 + 1 + i) = [16, 17] ∧ (seenDev 16).host.ibis.length < 16 ∧
    (some (le 8 76)).any (fun o => o != slotBoot (boxed 17) (boxed 17).head) = true ∧
    (some (le 8 77)).any (fun o => o != slotBoot (boxed 17) (boxed 17).head) = false ∧
    awake { earlyDev with host := (seenDev 16).host } = true ∧ live { earlyDev with host := (seenDev 16).host } = false ∧
    headAdvanced (boxed 17) { earlyDev with host := (seenDev 16).host } = true := by decide +kernel

/-- A request of the Kennel in the session of partition 0. -/
def kenReq (a b rid : Nat) : Bytes := le 1 a ++ le 1 b ++ le 2 rid
theorem ken_req_length (a b rid : Nat) : (kenReq a b rid).length = 4 := by simp [kenReq, le]
theorem witness_kennel_request (k : Kennel) (a b rid : Nat) :
    Carries 0x50 (sealed 0x50 0 (getSession hostDev 0) (kenReq a b rid)) (some 0) (kenReq a b rid) (kenState k) ∧
    kennelPermitted (some 0) (kenReq a b rid) (kenState k).dev = true ∧ Settled (kenState k) ∧
    Carries 0x50 (plain 0x50 (kenReq a b rid)) none (kenReq a b rid) (kenState k) :=
  ⟨carries_sealed_at _ _ _ (kenState k) (show ready 0x50 hostDev = true by decide) (by decide) (by decide) rfl rfl (by rw [ken_req_length]; decide),
   by rfl, host_settled, carries_plain_at _ _ (kenState k) (show ready 0x50 hostDev = true by decide) (by rw [ken_req_length]; decide)⟩

/-- Table 17.3 at its edges: 2 % of Max and one past it, a tare in force; gross 0, 1, Max and one past it. -/
theorem witness_kennel_edges : KennelReady (weighing 200) ∧ 50 * (200 : Int).natAbs ≤ (calibOf (weighing 200)).max ∧
    (calibOf (weighing 201)).max < 50 * (201 : Int).natAbs ∧ (weighing 200).tare = none ∧ ({ weighing 5 with tare := some 10 } : Kennel).tare ≠ none ∧
    ((0 : Int) < 1 - (weighing 1).zero ∧ (10000 : Int) - (weighing 1).zero ≤ (calibOf (weighing 1)).max) ∧ 0 < (calibOf (weighing 1)).e ∧
    ((0 : Int) - (weighing 0).zero ≤ 0) ∧ ((calibOf (weighing 0)).max : Int) < 10001 - (weighing 0).zero ∧ 65535 < 65536 :=
  ⟨⟨rfl, rfl, rfl, rfl⟩, by decide, by decide, rfl, by decide, by decide, by decide, by decide, by decide, by decide⟩

/-- What the policy leaves outside a session: read and status, not zero. A malformed request; an open seal, no calibration, a busy
slot, no stable reading. -/
theorem witness_kennel_refusals : kennelPermitted none (kenReq 1 0 9) hostDev = false ∧ kennelPermitted none (kenReq 4 0 9) hostDev = true ∧
    requestValid (kenReq 4 2 9) = false ∧ requestValid (kenReq 3 1 9) = true ∧ u16 (kenReq 3 1 9) 2 = 9 ∧ u8 (kenReq 3 1 9) 0 ≠ 4 ∧
    ({ weighing 0 with calib := none } : Kennel).calib = none ∧ (weighing 0).calib ≠ none ∧
    ({ weighing 0 with op := some ⟨1, 0, 2⟩ } : Kennel).op ≠ none := by decide
theorem witness_kennel_waits : KennelReady { weighing 0 with reading := some (5, false) } ∧
    (∀ raw, ({ weighing 0 with reading := some (5, false) } : Kennel).reading ≠ some (raw, true)) ∧ u8 (kenReq 1 0 9) 0 = 1 ∧
    (u8 (kenReq 2 0 9) 0 = 2 ∧ u8 (kenReq 2 0 9) 1 = 0) ∧ (u8 (kenReq 3 1 9) 0 = 3 ∧ u8 (kenReq 3 1 9) 1 = 1) :=
  ⟨⟨rfl, rfl, rfl, rfl⟩, (fun raw h => by cases h), by decide, by decide, by decide⟩

/-! ### Records and telemetry -/

/-- Port 0 with a queue and perhaps an open record frame. -/
def txDev (q : List TxRec) (fr : Option (Nat × Nat)) : Dev :=
  { hostDev with host := { hostDev.host with tx := ⟨[(0, { queue := q, frame := fr })]⟩ } }
def rec31 : TxRec := { chan := 0, dtype := 0x31, bytes := zeros 40 }
def pass18 : TxRec := { chan := 0, dtype := 0x18, bytes := zeros 64 }
theorem witness_record_send : Settled (st (txDev [pass18, rec31] (some (0, 63)))) ∧ txLanes hostImage 0 ≠ 0 ∧ hostDev.power.isp = true ∧
    nextRecord (getTx (txDev [pass18, rec31] (some (0, 63))) 0) = some 1 ∧ nextRecord (getTx (txDev [pass18, rec31] none) 0) = some 0 ∧
    nextRecord (getTx (txDev [rec31, rec31] none) 0) = some 0 ∧ isPass pass18 = true ∧ isPass rec31 = false ∧
    heldBack 0 (txDev [rec31] none) = false ∧ Settled (st (txDev [rec31, rec31] none)) ∧ live hostDev = true ∧
    [pass18, rec31].any (fun y => y.chan == 0 && !isPass y) = true ∧ [pass18].any (fun y => y.chan == 0 && !isPass y) = false ∧
    nextRecord (getTx (txDev [] none) 0) = none ∧ nextRecord (getTx (txDev [pass18] (some (0, 63))) 0) = none :=
  ⟨on_settled _ rfl, by decide, rfl, by decide, by decide, by decide, by decide, by decide, by decide, on_settled _ rfl, rfl, by decide, by decide,
   by decide, by decide⟩

/-- A full queue; no channel for telemetry; no period; no accepted image. -/
theorem witness_telemetry_edges : 256 ≤ (getTx (txDev (List.replicate 256 rec31) none) 0).queue.length ∧
    Settled (st (txDev (List.replicate 256 rec31) none)) ∧ channelOf {} 0 0x31 = none ∧
    (wakeImage.hostIf.getD {}).telemetryPeriod = 0 ∧ live earlyDev = false :=
  ⟨by decide +kernel, on_settled _ rfl, by decide, by decide, rfl⟩

theorem witness_telemetry : live hostDev = true ∧ (∃ h, hostDev.img.hostIf = some h ∧ h.telemetryPeriod ≠ 0) ∧
    (channelOf hostImage 0 0x31).map (fun c => c.1) = some 0 ∧ (getTx hostDev 0).queue.length < 256 := ⟨rfl, ⟨_, rfl, by decide⟩, by decide, by decide⟩

/-! ### Worked examples of the manual -/

/-- Example 0.1: the windows of cluster 2. Example 1.1: the window of core 17. -/
theorem test_example_0_1_and_1_1 : clusterBase 2 = 0x1102000000 ∧ coreBase 17 = 0x1102000000 + 0x400000 + 5 * 0x200000 := by decide

/-- The MXFP4 element 0b0101 is 3.0 (chapter 7), and with the scale 0x7C it is 0.375. -/
theorem test_mxfp4_element : toF32 (decodeElem 7 0 5) = 0x40400000#32 ∧
    fMul (toF32 (decodeElem 7 0 5)) (toF32 (decodeE8M0 0x7C)) = 0x3EC00000#32 := by decide +kernel

/-- Example 7.1: the first element is clipped to 127, the second is 55. -/
theorem test_example_7_1 : convInt 2 3 ((51234 - 1200) * 1518500250) (2 ^ 39) = { bits := 127, clipped := true } ∧
    convInt 2 3 ((20000 - 1200) * 1518500250) (2 ^ 39) = { bits := 55, clipped := false } := by decide +kernel

/-- Example 7.2: the tag of data block 1,000 against tag 233 of a block of kind 2. -/
theorem test_example_7_2 : gives (exec (.scaleTagMismatch 0 1000 2 233 2 false) (st scaledDev))
    (fun t => decide (((quantWords (getUnit t.dev 0)).contains 0x8002E8E9#32) = true ∧ (getUnit t.dev 0).tile = none)) = true := by
  decide +kernel

/-- Example 4.1: settings of the detector. -/
def example41 : AudioSlot :=
  { active := true, cfg := { threshold := 96, hold := 3, fall := 2, rise := 8 }, floor := -512 * 65536 }

/-- Example 4.1: three frames at −360. -/
theorem test_example_4_1 :
    let a := detect 20250050 (-360) example41
    let b := detect 20250051 (-360) a.1
    let c := detect 20250052 (-360) b.1
    a.2 = none ∧ a.1.floor = -512 * 65536 + 38912 ∧ b.2 = none ∧ b.1.floor = a.1.floor + 38760 ∧
      c.2 = some (1296003200, 4832) ∧ c.1.armed = false := by decide +kernel

/-- Example 5.1: the cost of a 1920 × 1080 frame. -/
theorem test_example_5_1 : pipe1Cost { width := 1920, height := 1080 } = 2092928 := by decide

/-- Table 9.2 and Example 9.2: of the 9 taps of a dilation beyond the input, 8 are wholly in padding. -/
theorem test_example_9_2 : (skippedTaps { inH := 8, inW := 8, kh := 3, kw := 3, sh := 1, sw := 1, dh := 64, dw := 64, padTop := 64
                                          padLeft := 64, outH := 8, outW := 8 } 0 64).length = 8 := by decide +kernel

/-- The steps of Example 10.1. -/
def example101 : List (Word × Word × Word × Bool) :=
  [0x3F800000, 0x40000000, 0x40400000, 0x40800000, 0x40A00000, 0x40C00000, 0x40E00000, 0x41000000].zipIdx.map
    (fun e => (0x3F000000#32, e.1, e.1, e.2 == 5))

/-- Example 10.1: the outputs 6, 5, 5.5, 6.75 and 8.375 before the mark, and carry_out 13. -/
theorem test_example_10_1 : (scanChunk [example101] 0x41200000#32).1.take 5 =
      [0x40C00000#32, 0x40A00000#32, 0x40B00000#32, 0x40D80000#32, 0x41060000#32] ∧
    (scanChunk [example101] 0x41200000#32).2 = 0x41500000#32 := by decide +kernel

/-- The graph of Example 13.1. -/
def example131 : Dev := withImg
  { graphs := [{ id := 0x310, part := 3, barrierBase := 4096, barrierCells := 40, memStride := 0x400, regions := [0, 0, 0, 0x211] }]
    regions := [{ id := 0x211, base := 0x40000000, pages := 4096 }] }

/-- Example 13.1: the address of ref 0x83001000 in instance 2, and the wait that a cell satisfies across its wrap. -/
theorem test_example_13_1 : refAddr example131 0x310 2 0 0 0x83001000 = some 0x40060000 ∧ cellNo example131.img 0x310 2 7 = 4183 ∧
    reached 0x00000001#32 (0xFFFFFFFE#32 + 3#32) = true ∧ reached 0x00000000#32 (0xFFFFFFFE#32 + 3#32) = false := by decide

/-- The frame of Example 15.1. -/
def example151 : Frame :=
  { seq := 0x2A, len := 6, payload := [0x10, 0, 0, 0, 2, 0]
    crc := crc32 (frameBytes 1 { seq := 0x2A, len := 6, payload := [0x10, 0, 0, 0, 2, 0] }) }

/-- Example 15.1: the bytes of the frame. -/
theorem test_example_15_1_frame : frameBytes 1 example151 = [1, 0, 6, 0, 0xFF, 0, 0x2A, 0, 0x10, 0, 0, 0, 2, 0] := by decide

/-- Example 15.1: the response but for its CRC, and interrupt 0x01 with payload FF 2A 00. -/
theorem test_example_15_1_response :
    gives (exec (.statusRead example151) (st { runDev with boot := { runDev.boot with attempts := 1, trained := true } }))
      (fun t => decide ((t.dev.host.resp.map (fun r => r.1.take 16)) =
          some [0, 0, 8, 0, 0x2A, 0, 1, 0, 9, 0x0F, 1, 0, 0, 0, 0, 0] ∧ t.dev.host.ibis = [{ byte := 1, data := (0xFF, 0x2A, 0) }])) = true := by
  decide +kernel

/-- Example 17.1: the answer to a tare that placed record 4,117. -/
theorem test_example_17_1 : kAnswer 0 0 7 4117 = [0, 0, 7, 0, 0x15, 0x10, 0, 0] := by decide

/-- The plan of Example 19.1 with a reading of monitor 13. -/
def example191 (reading : Nat) (g : List Nat) : RelRec × Age :=
  ({ g0 := 20, g1 := 15, g2 := 10, d0 := 16, d1 := 24, d2 := 32, u0 := 4, u1 := 6, u2 := 8 },
   { State.reset.dev.age with baseline := (List.replicate 40 0).set 13 1100, last := (List.replicate 40 0).set 13 reading, guard := g })

/-- Example 19.1: the first re-plan raises only g(0), to 11; years later the guardbands are 22, 14 and 9. -/
theorem test_example_19_1 : replanGuard (example191 1141 [10, 6, 4]).1 (example191 1141 [10, 6, 4]).2 = [11, 6, 4] ∧
    replanGuard (example191 1188 [11, 6, 4]).1 (example191 1188 [11, 6, 4]).2 = [22, 14, 9] ∧ exhausted [22, 14, 9] 0 = true := by
  decide +kernel

/-! ### Single steps -/

/-- A blank part halts at its first boot with failure code 0xA6 (R54, R376). -/
theorem test_blank_boot_halts : gives (exec (.porstRelease 0 none) State.reset)
    (fun t => decide (t.dev.boot.step = .halted ∧ t.dev.boot.failCause = 0xA6)) = true := by decide +kernel

/-- A wake that no route takes counts UNROUTED, not ARRIVE, and makes no request (R72). -/
theorem test_wake_unrouted : gives (exec (.wakeArrival { source := 1, target := 2, stream := 1 }) (st runDev))
    (fun t => decide (t.dev.reqs.length = 0 ∧ (getTier t.dev 2).arrive = 0 ∧ (getTier t.dev 2).unrouted = 1)) = true := by decide +kernel

/-- The front of the queue runs and the rest stays (step). -/
theorem test_step_takes_front : gives (step { st runDev with pending := [.thermalCapStep, .tdmLost] })
    (fun t => decide (t.pending = [.tdmLost])) = true := by decide +kernel

/-- Leaving the schedule clears the core's bit of DEV_CORE_AVAIL (Example 1.1: core 17 is bit 17). -/
theorem test_core_leaves : gives (exec (.coreLeaveSchedule 17) (st { runDev with age := { runDev.age with testing := some (17, 2) } })) (fun t => decide (t.dev.age.avail = 0xFDFFFF#24)) = true := by
  decide +kernel

/-- Example 6.3: the configuration word of a core with the default division, and where it stands for core 15. -/
theorem test_example_6_3 : cfgWord {} = 0x4204080A#32 ∧ readWord (st runDev) 0x681C0 = 0x4204080A#32 := by decide +kernel

/-- Example 18.1: the device with a limit of 10,000 mW at throttle level n. -/
def example181 (n : Nat) : Dev := { runDev with img := { power := { limit := 10000 } }, power := { runDev.power with level := n } }

/-- Example 18.1: 10.85 W raises L, 9.9125 W holds it. -/
theorem test_example_18_1 : gives (exec (.governorPeriod 10750 40 40) (st (example181 0))) (fun t => decide (t.dev.power.level = 1)) = true ∧
    gives (exec (.governorPeriod 9812 40 40) (st (example181 3))) (fun t => decide (t.dev.power.level = 3)) = true := by decide +kernel

end Sys2Proof.Tests
end

section
/-! PROOFS. Which functions of the device leave its boot state and its image as they are. -/

namespace Sys2Proof.Machine

/-- The boot state and the image of a device. -/
def bootSide (d : Dev) : Boot × Image := (d.boot, d.img)

@[simp] theorem bootSide_update (d : Dev) (err : Err) (flash : Flash) (tiers : Tab Tier) (reqs : List Req) (nextOrder : Nat)
    (audio : Audio) (cam : Camera) (units : Tab Unit_) (clusters : Tab Cluster) (cats : Tab Cat) (seqs : Tab Seq) (blks : Tab Blk)
    (kv : Kv) (mem : Mem) (mov : Moving) (sched : Sched) (host : HostPort) (power : Power) (age : Age) (latches : Tab (List Word))
    (freeCtr : Nat) : bootSide ⟨d.boot, d.img, err, flash, tiers, reqs, nextOrder, audio, cam, units, clusters, cats, seqs, blks, kv,
      mem, mov, sched, host, power, age, latches, freeCtr⟩ = bootSide d := congrArg₂ Prod.mk rfl rfl

@[simp] theorem foldl_bootSide {α : Type} (f : Dev → α → Dev) (h : ∀ d x, bootSide (f d x) = bootSide d) (l : List α) :
    ∀ d : Dev, bootSide (l.foldl f d) = bootSide d := by
  induction l with
  | nil => intro d; rfl
  | cons x r ih => intro d; rw [List.foldl_cons, ih, h]

/-- The same of a fold that carries a value beside the device. -/
theorem foldl_bootSide_snd {α β : Type} (f : β × Dev → α → β × Dev) (h : ∀ x a, bootSide (f x a).2 = bootSide x.2) (l : List α) :
    ∀ x, bootSide (l.foldl f x).2 = bootSide x.2 := by
  induction l with
  | nil => intro x; rfl
  | cons a r ih => intro x; rw [List.foldl_cons, ih, h]

/-! ### Flags -/

@[simp] theorem ibi_bootSide (b x y z : Nat) (d : Dev) : bootSide (ibi b x y z d) = bootSide d := by simp [ibi]

@[simp] theorem recordAt_bootSide (c : Nat) (part : Option Nat) (detail : Nat × Nat) (addr : Option Nat) (inj : Bool) (d : Dev) :
    bootSide (recordAt c part detail addr inj d) = bootSide d := by simp [recordAt, apply_ite bootSide]

@[simp] theorem record_bootSide (c : Nat) (part : Option Nat) (detail : Nat × Nat) (d : Dev) :
    bootSide (record c part detail d) = bootSide d := by simp [record]

@[simp] theorem info_bootSide (c : Nat) (d : Dev) : bootSide (info c d) = bootSide d := by simp [info]

@[simp] theorem infoN_bootSide (c n : Nat) (d : Dev) : bootSide (infoN c n d) = bootSide d := by
  fun_induction infoN c n d <;> simp_all

/-! ### Ops -/

@[simp] theorem modTier_bootSide (t : Nat) (f : Tier → Tier) (d : Dev) :
    bootSide (modTier t f d) = bootSide d := by simp [modTier]

@[simp] theorem modUnit_bootSide (u : Nat) (f : Unit_ → Unit_) (d : Dev) :
    bootSide (modUnit u f d) = bootSide d := by simp [modUnit]

@[simp] theorem modCluster_bootSide (n : Nat) (f : Cluster → Cluster) (d : Dev) :
    bootSide (modCluster n f d) = bootSide d := by simp [modCluster]

@[simp] theorem modCat_bootSide (n : Nat) (f : Cat → Cat) (d : Dev) : bootSide (modCat n f d) = bootSide d := by simp [modCat]

@[simp] theorem modSeq_bootSide (n : Nat) (f : Seq → Seq) (d : Dev) : bootSide (modSeq n f d) = bootSide d := by simp [modSeq]

@[simp] theorem modBlk_bootSide (n : Nat) (f : Blk → Blk) (d : Dev) : bootSide (modBlk n f d) = bootSide d := by simp [modBlk]

@[simp] theorem modKv_bootSide (n : Nat) (f : KvSeq → KvSeq) (d : Dev) : bootSide (modKv n f d) = bootSide d := by simp [modKv]

@[simp] theorem modPart_bootSide (p : Nat) (f : Part → Part) (d : Dev) :
    bootSide (modPart p f d) = bootSide d := by simp [modPart]

@[simp] theorem modSched_bootSide (f : Sched → Sched) (d : Dev) : bootSide (modSched f d) = bootSide d := by simp [modSched]

@[simp] theorem modInst_bootSide (g i : Nat) (f : GInst → GInst) (d : Dev) :
    bootSide (modInst g i f d) = bootSide d := by simp [modInst]

@[simp] theorem modStep_bootSide (g : Nat) (f : StepG → StepG) (d : Dev) :
    bootSide (modStep g f d) = bootSide d := by simp [modStep]

@[simp] theorem modStream_bootSide (s : Nat) (f : CamStream → CamStream) (d : Dev) :
    bootSide (modStream s f d) = bootSide d := by simp [modStream]

@[simp] theorem modSensor_bootSide (s : Nat) (f : Sensor → Sensor) (d : Dev) :
    bootSide (modSensor s f d) = bootSide d := by simp [modSensor]

@[simp] theorem modCamPort_bootSide (p : Nat) (f : CamPort → CamPort) (d : Dev) :
    bootSide (modCamPort p f d) = bootSide d := by simp [modCamPort]

@[simp] theorem modSlot_bootSide (a : Nat) (f : AudioSlot → AudioSlot) (d : Dev) :
    bootSide (modSlot a f d) = bootSide d := by simp [modSlot]

@[simp] theorem modMover_bootSide (n : Nat) (f : Mover → Mover) (d : Dev) :
    bootSide (modMover n f d) = bootSide d := by simp [modMover]

@[simp] theorem settleLoads_bootSide (d : Dev) : bootSide (settleLoads d) = bootSide d := by simp [settleLoads]

@[simp] theorem noteLevels_bootSide (d : Dev) : bootSide (noteLevels d) = bootSide d := by simp [noteLevels]

@[simp] theorem modWin_bootSide (w : Nat) (f : Win → Win) (d : Dev) : bootSide (modWin w f d) = bootSide d := by simp [modWin]

@[simp] theorem modDdr_bootSide (f : Ddr → Ddr) (d : Dev) : bootSide (modDdr f d) = bootSide d := by simp [modDdr]

@[simp] theorem modHost_bootSide (f : HostPort → HostPort) (d : Dev) : bootSide (modHost f d) = bootSide d := by simp [modHost]

@[simp] theorem modTx_bootSide (p : Nat) (f : TxPort → TxPort) (d : Dev) : bootSide (modTx p f d) = bootSide d := by simp [modTx]

@[simp] theorem modSession_bootSide (n : Nat) (f : Session → Session) (d : Dev) :
    bootSide (modSession n f d) = bootSide d := by simp [modSession]

@[simp] theorem modPower_bootSide (f : Power → Power) (d : Dev) : bootSide (modPower f d) = bootSide d := by simp [modPower]

@[simp] theorem modCam_bootSide (f : Camera → Camera) (d : Dev) : bootSide (modCam f d) = bootSide d := by simp [modCam]

@[simp] theorem modAge_bootSide (f : Age → Age) (d : Dev) : bootSide (modAge f d) = bootSide d := by simp [modAge]

@[simp] theorem modErr_bootSide (f : Err → Err) (d : Dev) : bootSide (modErr f d) = bootSide d := by simp [modErr]

@[simp] theorem draw_bootSide (d : Dev) : bootSide (draw d).2 = bootSide d := by simp [draw]

@[simp] theorem drawBytes_bootSide (n : Nat) (d : Dev) : bootSide (drawBytes n d).2 = bootSide d := by
  fun_induction drawBytes n d with
  | case1 => rfl
  | case2 n d r ih => simp [r, ih]

@[simp] theorem memStore_bootSide (a : Nat) (b : Bytes) (d : Dev) : bootSide (memStore a b d) = bootSide d := by simp [memStore]

@[simp] theorem poisonRange_bootSide (a n : Nat) (d : Dev) : bootSide (poisonRange a n d) = bootSide d := by simp [poisonRange]

@[simp] theorem modDesc_bootSide (i : DescId) (f : Desc → Desc) (d : Dev) :
    bootSide (modDesc i f d) = bootSide d := by simp [modDesc]

@[simp] theorem signalCell_bootSide (k : Nat) (d : Dev) : bootSide (signalCell k d) = bootSide d := by simp [signalCell]

@[simp] theorem signalOwn_bootSide (x : DescId) (b : Bytes) (d : Dev) :
    bootSide (signalOwn x b d) = bootSide d := by simp [signalOwn, apply_ite bootSide]

@[simp] theorem fired_bootSide (d : Dev) : bootSide (fired d) = bootSide d := by
  unfold fired
  split <;> simp

@[simp] theorem recordOn_bootSide (cls inst c : Nat) (part : Option Nat) (detail : Nat × Nat) (d : Dev) :
    bootSide (recordOn cls inst c part detail d) = bootSide d := by
  unfold recordOn
  split <;> simp

@[simp] theorem checkerLost_bootSide (pool inst : Nat) (inj : Bool) (d : Dev) :
    bootSide (checkerLost pool inst inj d) = bootSide d := by simp [checkerLost]

@[simp] theorem tap_bootSide (pool inst kind part : Nat) (d : Dev) : bootSide (tap pool inst kind part d) = bootSide d := by
  fun_cases tap pool inst kind part d <;> simp

/-! ### Places -/

@[simp] theorem poisonDest_bootSide (x : DescId) (pages : List (Nat × Nat)) (d : Dev) :
    bootSide (poisonDest x pages d) = bootSide d := by simp [poisonDest, apply_ite bootSide]

@[simp] theorem writeBlkHeader_bootSide (b : Nat) (d : Dev) :
    bootSide (writeBlkHeader b d) = bootSide d := by simp [writeBlkHeader]

@[simp] theorem noteSlices_bootSide (b pos : Nat) (ss : List Nat) (d : Dev) :
    bootSide (noteSlices b pos ss d) = bootSide d := by simp [noteSlices, apply_ite bootSide]

@[simp] theorem settleChunks_bootSide (b : Nat) (d : Dev) :
    bootSide (settleChunks b d) = bootSide d := by simp [settleChunks, apply_ite bootSide]

@[simp] theorem skipScans_bootSide (g i : Nat) (d : Dev) : bootSide (skipScans g i d) = bootSide d := by simp [skipScans]

@[simp] theorem noteTags_bootSide (row n : Nat) (d : Dev) :
    bootSide (noteTags row n d) = bootSide d := by simp [noteTags, apply_ite bootSide]

theorem takeTag_bootSide (master p n a : Nat) (write : Bool) (d e : Dev) (h : takeTag master p n a write d = some e) :
    bootSide e = bootSide d := by
  unfold takeTag at h
  split at h
  · rw [Option.some.inj h]
  · split at h
    · rw [Option.some.inj h]
    · obtain ⟨_, _, rfl⟩ := Option.map_eq_some_iff.mp h
      simp

@[simp] theorem returnTags_bootSide (master : Nat) (keep : Tag → Bool) (d : Dev) :
    bootSide (returnTags master keep d) = bootSide d := by simp [returnTags]

@[simp] theorem keepXfers_bootSide (keep : Xfer → Bool) (n : Nat) (d : Dev) :
    bootSide (keepXfers keep n d) = bootSide d := by simp [keepXfers]

@[simp] theorem passTags_bootSide (p row granules : Nat) (d : Dev) : bootSide (passTags p row granules d) = bootSide d := by
  unfold passTags
  split <;> simp

@[simp] theorem withChecks_bootSide (granules : Nat) (d : Dev) : bootSide (withChecks granules d).2 = bootSide d := by
  unfold withChecks
  split <;> simp

@[simp] theorem countTraffic_bootSide (a granules : Nat) (write : Bool) (d : Dev) :
    bootSide (countTraffic a granules write d) = bootSide d := by
  unfold countTraffic
  split <;> simp

@[simp] theorem countRemote_bootSide (a granules : Nat) (d : Dev) : bootSide (countRemote a granules d) = bootSide d := by
  unfold countRemote
  split <;> simp

@[simp] theorem remoteStore_bootSide (a : Nat) (b : Bytes) (d : Dev) :
    bootSide (remoteStore a b d) = bootSide d := by simp [remoteStore]

@[simp] theorem touchGranules_bootSide (gs : List Nat) (write : Bool) (d : Dev) :
    bootSide (touchGranules gs write d) = bootSide d := by simp [touchGranules]

@[simp] theorem readErrors_bootSide (part : Option Nat) (detail : Nat × Nat) (read uncorrectable corrected : List Nat) (d : Dev) :
    bootSide (readErrors part detail read uncorrectable corrected d) = bootSide d := by simp [readErrors, apply_ite bootSide]

@[simp] theorem deviceXfer_bootSide (n part src dst granules : Nat) (d : Dev) :
    bootSide (deviceXfer n part src dst granules d) = bootSide d := by
  simp only [deviceXfer]
  repeat' split
  all_goals simp

/-! ### Requests -/

@[simp] theorem modReq_bootSide (o : Nat) (f : Req → Req) (d : Dev) : bootSide (modReq o f d) = bootSide d := by simp [modReq]

@[simp] theorem enqueueRecord_bootSide (part : Nat) (o : OutRec) (m : RecMeta) (waits : Bool) (d : Dev) :
    bootSide (enqueueRecord part o m waits d).2 = bootSide d := by
  simp only [enqueueRecord]
  repeat' split
  all_goals simp

@[simp] theorem emitLoose_bootSide (part : Nat) (o : OutRec) (d : Dev) :
    bootSide (emitLoose part o d) = bootSide d := by simp [emitLoose]

@[simp] theorem sendRecs_bootSide (r : Req) (l : List OutRec) (d : Dev) : bootSide (sendRecs r l d).2 = bootSide d := by
  fun_induction sendRecs r l d with
  | case1 d => rfl
  | case2 d o rest e he ih => rw [ih]; split <;> simp [e]
  | case3 d o rest e he => simp

@[simp] theorem creditBack_bootSide (r : Req) (d : Dev) : bootSide (creditBack r d) = bootSide d := by simp [creditBack]

@[simp] theorem pumpReqs_bootSide (l : List Req) (l' : List (Nat × Nat × Nat)) (d : Dev) :
    bootSide (pumpReqs l l' d).2 = bootSide d := by
  fun_induction pumpReqs l l' d with
  | case1 => rfl
  | case2 _ _ _ _ _ _ ih => rw [ih, creditBack_bootSide]
  | case3 _ _ _ _ _ _ _ ih => exact ih
  | case4 _ _ _ _ _ _ _ ih => exact ih
  | case5 _ _ _ _ _ _ _ _ ih => rw [ih, creditBack_bootSide, sendRecs_bootSide]
  | case6 _ _ _ _ _ _ _ _ _ ih => exact ih.trans (sendRecs_bootSide _ _ _)

@[simp] theorem freeFrames_bootSide (g i : Nat) (d : Dev) : bootSide (freeFrames g i d) = bootSide d := by simp [freeFrames]

@[simp] theorem sweepInsts_bootSide (d : Dev) : bootSide (sweepInsts d) = bootSide d := by simp [sweepInsts]

@[simp] theorem pump_bootSide (d : Dev) : bootSide (pump d) = bootSide d := by simp [pump]

@[simp] theorem composeRec_bootSide (o : Nat) (x : OutRec) (d : Dev) :
    bootSide (composeRec o x d) = bootSide d := by simp [composeRec]

@[simp] theorem dropWalk_bootSide (x : DescId) (d : Dev) : bootSide (dropWalk x d) = bootSide d := by simp [dropWalk]

@[simp] theorem freeStrand_bootSide (x : DescId) (strand : Nat) (d : Dev) :
    bootSide (freeStrand x strand d) = bootSide d := by simp [freeStrand]

@[simp] theorem retire_bootSide (x : DescId) (d : Dev) : bootSide (retire x d) = bootSide d := by
  unfold retire
  split <;> simp [apply_ite bootSide]

@[simp] theorem cancelInst_bootSide (g i : Nat) (d00 : Dev) : bootSide (cancelInst g i d00).1 = bootSide d00 := by
  unfold cancelInst
  split <;> simp

@[simp] theorem emptySlot_bootSide (o : Nat) (d : Dev) : bootSide (emptySlot o d) = bootSide d := by simp [emptySlot]

@[simp] theorem dropEdits_bootSide (o : Nat) (d : Dev) : bootSide (dropEdits o d) = bootSide d := by simp [dropEdits]

@[simp] theorem endOne_bootSide (r : Req) (cause : Nat) (orphaned : Bool) (d : Dev) :
    bootSide (endOne r cause orphaned d).1 = bootSide d := by
  simp only [endOne]
  repeat' split
  all_goals simp

@[simp] theorem endMany_bootSide (n : Nat) (l : List (Nat × Nat × Bool)) (d : Dev) : bootSide (endMany n l d) = bootSide d := by
  fun_induction endMany n l d with
  | case1 => rfl
  | case2 => rfl
  | case3 _ _ _ _ _ _ _ ih => exact ih
  | case4 d n o c b rest r hr e ih => rw [ih]; simp [e]

@[simp] theorem endReqs_bootSide (os : List Nat) (cause : Nat) (d : Dev) :
    bootSide (endReqs os cause d) = bootSide d := by simp [endReqs]

@[simp] theorem finishReq_bootSide (o : Nat) (d : Dev) : bootSide (finishReq o d) = bootSide d := by
  simp only [finishReq]
  repeat' split
  all_goals simp

@[simp] theorem truncateBack_bootSide (o : Nat) (d : Dev) : bootSide (truncateBack o d) = bootSide d := by
  unfold truncateBack
  split <;> simp

@[simp] theorem endBoth_bootSide (own orphans : List Nat) (cause : Nat) (d : Dev) :
    bootSide (endBoth own orphans cause d) = bootSide d := by simp [endBoth]

@[simp] theorem failDesc_bootSide (x : DescId) (cause : Nat) (d : Dev) : bootSide (failDesc x cause d) = bootSide d := by
  unfold failDesc
  repeat' split
  all_goals simp [apply_ite bootSide]

@[simp] theorem discardDesc_bootSide (x : DescId) (cause : Option Nat) (d : Dev) :
    bootSide (discardDesc x cause d) = bootSide d := by
  unfold discardDesc
  split <;> simp

@[simp] theorem chargeTile_bootSide (u p n : Nat) (d : Dev) :
    bootSide (chargeTile u p n d) = bootSide d := by simp [chargeTile, apply_ite bootSide]

@[simp] theorem lostWork_bootSide (u : Nat) (t : Tile) (d : Dev) : bootSide (lostWork u t d).2 = bootSide d := by
  simp only [lostWork]
  repeat' split
  all_goals simp

@[simp] theorem endWait_bootSide (u cycles : Nat) (d : Dev) : bootSide (endWait u cycles d) = bootSide d := by
  unfold endWait
  split <;> simp

@[simp] theorem chargeLost_bootSide (u : Nat) (t : Tile) (d : Dev) :
    bootSide (chargeLost u t d) = bootSide d := by simp [chargeLost]

@[simp] theorem endWork_bootSide (u : Nat) (t : Tile) (d : Dev) : bootSide (endWork u t d) = bootSide d := by simp [endWork]

@[simp] theorem clearTile_bootSide (u : Nat) (d : Dev) : bootSide (clearTile u d) = bootSide d := by simp [clearTile]

@[simp] theorem abortTile_bootSide (u cause : Nat) (d : Dev) : bootSide (abortTile u cause d) = bootSide d := by
  unfold abortTile
  split <;> simp [apply_ite bootSide]

@[simp] theorem discardTile_bootSide (u : Nat) (cause : Option Nat) (d : Dev) :
    bootSide (discardTile u cause d) = bootSide d := by
  unfold discardTile
  split <;> simp [apply_ite bootSide]

@[simp] theorem discardPart_bootSide (p : Nat) (cause : Option Nat) (d : Dev) :
    bootSide (discardPart p cause d) = bootSide d := by simp [discardPart, apply_ite bootSide]

/-! ### Reset -/

@[simp] theorem dropFrame_bootSide (s : Nat) (d : Dev) : bootSide (dropFrame s d) = bootSide d := by simp [dropFrame]

@[simp] theorem markMissed_bootSide (stream number : Nat) (d : Dev) :
    bootSide (markMissed stream number d) = bootSide d := by simp [markMissed]

@[simp] theorem flagMissed_bootSide (stream number : Nat) (d : Dev) : bootSide (flagMissed stream number d) = bootSide d := by
  unfold flagMissed
  split <;> simp [apply_ite bootSide]

@[simp] theorem markFrame_bootSide (r : CamRec) (m : Nat) (d : Dev) : bootSide (markFrame r m d) = bootSide d := by
  unfold markFrame
  split <;> simp

@[simp] theorem missBlock_bootSide (r : CamRec) (m : Nat) (d : Dev) :
    bootSide (missBlock r m d) = bootSide d := by simp [missBlock]

@[simp] theorem applyBlock_bootSide (n id from_ m : Nat) (d : Dev) : bootSide (applyBlock n id from_ m d) = bootSide d := by
  unfold applyBlock
  split <;> simp [apply_ite bootSide]

@[simp] theorem settleHeld_bootSide (r : CamRec) (d : Dev) : bootSide (settleHeld r d) = bootSide d := by
  unfold settleHeld
  split <;> simp

@[simp] theorem settleBlocks_bootSide (p : CamRec → Bool) (d : Dev) :
    bootSide (settleBlocks p d) = bootSide d := by simp [settleBlocks]

@[simp] theorem loseFrames_bootSide (d : Dev) : bootSide (loseFrames d) = bootSide d := by simp [loseFrames]

@[simp] theorem ispDown_bootSide (d : Dev) : bootSide (ispDown d) = bootSide d := by simp [ispDown]

/-! ### Domains -/

@[simp] theorem freeXfer_bootSide (part src dst granules : Nat) (d : Dev) :
    bootSide (freeXfer part src dst granules d) = bootSide d := by simp [freeXfer]

@[simp] theorem storeElems_bootSide (b first : Nat) (l : List (Word × Bool)) (d : Dev) :
    bootSide (storeElems b first l d) = bootSide d := by simp [storeElems]

@[simp] theorem poisonElems_bootSide (b : Nat) (ns : List Nat) (d : Dev) :
    bootSide (poisonElems b ns d) = bootSide d := by simp [poisonElems]

@[simp] theorem poisonBlk_bootSide (b : Nat) (d : Dev) : bootSide (poisonBlk b d) = bootSide d := by simp [poisonBlk]

@[simp] theorem moveBlk_bootSide (n b place : Nat) (d : Dev) : bootSide (moveBlk n b place d) = bootSide d := by simp [moveBlk]

@[simp] theorem initBlk_bootSide (b : Nat) (d : Dev) : bootSide (initBlk b d) = bootSide d := by simp [initBlk]

@[simp] theorem spillOut_bootSide (d : Dev) : bootSide (spillOut d) = bootSide d := by simp [spillOut]

@[simp] theorem copyBacked_bootSide (back : Bool) (d : Dev) : bootSide (copyBacked back d) = bootSide d := by
  unfold copyBacked
  split <;> simp

@[simp] theorem banksDown_bootSide (d0 : Dev) : bootSide (banksDown d0) = bootSide d0 := by simp [banksDown]

@[simp] theorem banksUp_bootSide (d : Dev) : bootSide (banksUp d) = bootSide d := by
  unfold banksUp
  split <;> simp

@[simp] theorem dropLatches_bootSide (lo n : Nat) (d : Dev) : bootSide (dropLatches lo n d) = bootSide d := by simp [dropLatches]

@[simp] theorem clearCluster_bootSide (n : Nat) (d : Dev) : bootSide (clearCluster n d) = bootSide d := by
  unfold clearCluster
  split <;> simp

@[simp] theorem enterCores_bootSide (n : Nat) (d : Dev) : bootSide (enterCores n d) = bootSide d := by
  unfold enterCores
  split <;> simp

@[simp] theorem initCheckers_bootSide (n : Nat) (d : Dev) : bootSide (initCheckers n d) = bootSide d := by simp [initCheckers]

@[simp] theorem clusterUp_bootSide (n : Nat) (d : Dev) :
    bootSide (clusterUp n d) = bootSide d := by simp [clusterUp, apply_ite bootSide]

@[simp] theorem clustersUp_bootSide (d : Dev) : bootSide (clustersUp d) = bootSide d := by simp [clustersUp]

@[simp] theorem swapOut_bootSide (b : Nat) (d : Dev) : bootSide (swapOut b d) = bootSide d := by simp [swapOut]

@[simp] theorem swapAllOut_bootSide (d : Dev) : bootSide (swapAllOut d) = bootSide d := by simp [swapAllOut]

@[simp] theorem clustersDown_bootSide (d : Dev) : bootSide (clustersDown d) = bootSide d := by simp [clustersDown]

@[simp] theorem settlePower_bootSide (d : Dev) :
    bootSide (settlePower d) = bootSide d := by simp [settlePower, apply_ite bootSide]

/-! ### KvOps -/

@[simp] theorem bumpEdit_bootSide (s : Nat) (d : Dev) : bootSide (bumpEdit s d) = bootSide d := by simp [bumpEdit]

@[simp] theorem returnPage_bootSide (pool k part : Nat) (d : Dev) :
    bootSide (returnPage pool k part d) = bootSide d := by simp [returnPage]

@[simp] theorem clearPage_bootSide (addr n : Nat) (d : Dev) : bootSide (clearPage addr n d) = bootSide d := by simp [clearPage]

@[simp] theorem putEntry_bootSide (s layer p addr : Nat) (d : Dev) :
    bootSide (putEntry s layer p addr d) = bootSide d := by simp [putEntry]

theorem editAllocate_bootSide (s layer p : Nat) (d e : Dev) (h : editAllocate s layer p d = some e) :
    bootSide e = bootSide d := by
  unfold editAllocate at h
  dsimp only at h
  split at h
  · rw [← Option.some.inj h]; simp
  · split at h
    · rw [← Option.some.inj h]; simp
    · exact absurd h (by simp)

@[simp] theorem editFill_bootSide (s layer first n : Nat) (d : Dev) :
    bootSide (editFill s layer first n d) = bootSide d := by simp [editFill]

@[simp] theorem dropPages_bootSide (s : Nat) (cleared : Bool) (f : PtEntry → Bool) (d : Dev) :
    bootSide (dropPages s cleared f d) = bootSide d := by
  unfold dropPages
  rw [modKv_bootSide]
  refine foldl_bootSide _ (fun e c => ?_) _ d
  split <;> simp

@[simp] theorem editTruncate_bootSide (s n0 : Nat) (d : Dev) :
    bootSide (editTruncate s n0 d) = bootSide d := by simp [editTruncate]

@[simp] theorem editRelease_bootSide (s : Nat) (d : Dev) : bootSide (editRelease s d) = bootSide d := by simp [editRelease]

@[simp] theorem writeTable_bootSide (s : Nat) (old : Tab PtEntry) (d : Dev) :
    bootSide (writeTable s old d) = bootSide d := by simp [writeTable]

theorem applyEdit_bootSide (s : Nat) (x : Edit) (d e : Dev) (h : applyEdit s x d = some e) : bootSide e = bootSide d := by
  cases x with
  | allocate layer p _ =>
    obtain ⟨b, hb, rfl⟩ := Option.map_eq_some_iff.mp h
    simp [editAllocate_bootSide _ _ _ _ _ hb]
  | fill layer first n => rw [← Option.some.inj h]; simp
  | truncate n => rw [← Option.some.inj h]; simp
  | release => rw [← Option.some.inj h]; simp

@[simp] theorem queueEdit_bootSide (s : Nat) (e : Edit) (d : Dev) : bootSide (queueEdit s e d) = bootSide d := by simp [queueEdit]

@[simp] theorem cancelKv_bootSide (p : Nat) (d : Dev) : bootSide (cancelKv p d) = bootSide d := by simp [cancelKv]

/-! ### Partition -/

@[simp] theorem closeSession_bootSide (n : Nat) (d : Dev) : bootSide (closeSession n d) = bootSide d := by simp [closeSession]

@[simp] theorem resetStart_bootSide (p : Nat) (d : Dev) :
    bootSide (resetStart p d) = bootSide d := by simp [resetStart, apply_ite bootSide]

@[simp] theorem stopPart_bootSide (p cause : Nat) (d : Dev) :
    bootSide (stopPart p cause d) = bootSide d := by simp [stopPart, apply_ite bootSide]

@[simp] theorem silenceStream_bootSide (s : Nat) (d : Dev) : bootSide (silenceStream s d) = bootSide d := by simp [silenceStream]

@[simp] theorem muzzleMaster_bootSide (m p : Nat) (d : Dev) :
    bootSide (muzzleMaster m p d) = bootSide d := by simp [muzzleMaster, apply_ite bootSide]

@[simp] theorem discardMuzzled_bootSide (m p cause : Nat) (table : Bool) (d : Dev) :
    bootSide (discardMuzzled m p cause table d) = bootSide d := by simp [discardMuzzled, apply_ite bootSide]

@[simp] theorem muzzle_bootSide (m p cause : Nat) (addr : Option Nat) (table : Bool) (d : Dev) :
    bootSide (muzzle m p cause addr table d) = bootSide d := by simp [muzzle]

@[simp] theorem countDirect_bootSide (p a : Nat) (d : Dev) : bootSide (countDirect p a d) = bootSide d := by
  unfold countDirect
  split <;> simp [apply_ite bootSide]

@[simp] theorem badWrite_bootSide (m p a : Nat) (d : Dev) : bootSide (badWrite m p a d) = bootSide d := by simp [badWrite]

@[simp] theorem dropHeld_bootSide (p : Nat) (d : Dev) : bootSide (dropHeld p d) = bootSide d := by simp [dropHeld]

@[simp] theorem resetBlocks_bootSide (p : Nat) (d : Dev) : bootSide (resetBlocks p d) = bootSide d := by simp [resetBlocks]

@[simp] theorem clearCells_bootSide (p : Nat) (d : Dev) : bootSide (clearCells p d) = bootSide d := by simp [clearCells]

@[simp] theorem resetFinish_bootSide (p : Nat) (d : Dev) : bootSide (resetFinish p d) = bootSide d := by
  have h (e : Dev) (s : Nat) : bootSide ((applyEdit s .release e).getD e) = bootSide e := by
    cases hx : applyEdit s .release e with
    | none => rfl
    | some x => exact applyEdit_bootSide _ _ _ _ hx
  simp [resetFinish, apply_ite bootSide, h]

@[simp] theorem accessViolation_bootSide (m p a : Nat) (d : Dev) : bootSide (accessViolation m p a d) = bootSide d := by
  unfold accessViolation
  split <;> simp

@[simp] theorem resetRequest_bootSide (p : Nat) (byThread : Bool) (d : Dev) :
    bootSide (resetRequest p byThread d) = bootSide d := by simp [resetRequest, apply_ite bootSide]

@[simp] theorem resetComplete_bootSide (p : Nat) (d : Dev) : bootSide (resetComplete p d) = bootSide d := by
  unfold resetComplete
  split <;> simp

@[simp] theorem threadReset_bootSide (issuer target : Nat) (d : Dev) : bootSide (threadReset issuer target d) = bootSide d := by
  unfold threadReset
  split <;> simp

@[simp] theorem directWrite_bootSide (m p s : Nat) (d : Dev) : bootSide (directWrite m p s d) = bootSide d := by
  unfold directWrite
  split <;> simp

@[simp] theorem checkerParity_bootSide (pool inst : Nat) (d : Dev) : bootSide (checkerParity pool inst d) = bootSide d := by
  unfold checkerParity
  split <;> simp

/-! ### Cascade -/

@[simp] theorem acceptReturns_bootSide (t : Nat) (d : Dev) : bootSide (acceptReturns t d) = bootSide d := by simp [acceptReturns]

@[simp] theorem shedTurn_bootSide (q : WReq) (d : Dev) : bootSide (shedTurn q d) = bootSide d := by
  unfold shedTurn
  split <;> simp

@[simp] theorem shed_bootSide (t : Nat) (q : WReq) (d : Dev) : bootSide (shed t q d) = bootSide d := by simp [shed]

@[simp] theorem shedResetting_bootSide (t : Nat) (d : Dev) : bootSide (shedResetting t d) = bootSide d := by simp [shedResetting]

@[simp] theorem windowCopied_bootSide (g : Grant) (d : Dev) : bootSide (windowCopied g d) = bootSide d := by simp [windowCopied]

@[simp] theorem startPerk_bootSide (q : WReq) (d : Dev) : bootSide (startPerk q d) = bootSide d := by simp [startPerk]

@[simp] theorem admitReq_bootSide (t : Nat) (q : WReq) (d : Dev) : bootSide (admitReq t q d) = bootSide d := by
  simp only [admitReq, apply_ite bootSide, startPerk_bootSide, ibi_bootSide, clustersUp_bootSide, ite_self, modTier_bootSide]
  split
  · simp [apply_ite bootSide]
    split
    · simp
    · simp
  · simp
    split <;> simp

@[simp] theorem admitAll_bootSide (t n : Nat) (d : Dev) : bootSide (admitAll t n d) = bootSide d := by
  fun_induction admitAll t n d <;> simp_all

@[simp] theorem arbitrateTier_bootSide (t : Nat) (d : Dev) : bootSide (arbitrateTier t d) = bootSide d := by simp [arbitrateTier]

@[simp] theorem arbitrate_bootSide (d : Dev) : bootSide (arbitrate d) = bootSide d := by simp [arbitrate]

@[simp] theorem holdRequest_bootSide (t : Nat) (q : WReq) (d : Dev) : bootSide (holdRequest t q d) = bootSide d := by
  fun_cases holdRequest t q d <;> simp

@[simp] theorem arrive_bootSide (w : Wake) (turn : Option (Nat × Nat)) (d0 : Dev) :
    bootSide (arrive w turn d0).2 = bootSide d0 := by
  simp only [arrive]
  repeat' split
  all_goals simp

@[simp] theorem wake_bootSide (w : Wake) (d : Dev) : bootSide (wake w d) = bootSide d := by simp [wake]

@[simp] theorem measureLatency_bootSide (o latency : Nat) (d : Dev) : bootSide (measureLatency o latency d) = bootSide d := by
  unfold measureLatency
  split <;> simp [apply_ite bootSide]

/-! ### Audio -/

@[simp] theorem frameLevel_bootSide (energy : Nat) (d : Dev) : bootSide (frameLevel energy d).2 = bootSide d := by
  unfold frameLevel
  split <;> simp

@[simp] theorem endFrame_bootSide (slot : Nat) (d : Dev) : bootSide (endFrame slot d) = bootSide d := by
  simp only [endFrame, apply_ite bootSide]
  repeat' split
  all_goals simp

@[simp] theorem fillGrants_bootSide (slot : Nat) (d : Dev) : bootSide (fillGrants slot d) = bootSide d := by simp [fillGrants]

@[simp] theorem audioSample_bootSide (slot : Nat) (value : Int) (high : List Int) (d : Dev) :
    bootSide (audioSample slot value high d) = bootSide d := by
  unfold audioSample
  split <;> simp

@[simp] theorem inputEvent_bootSide (input : Nat) (d : Dev) : bootSide (inputEvent input d) = bootSide d := by
  unfold inputEvent
  split <;> simp

@[simp] theorem perkInput_bootSide (p : PerkInst) (r : Req) (d : Dev) : bootSide (perkInput p r d).2 = bootSide d := by
  unfold perkInput
  split <;> simp [apply_ite bootSide]

@[simp] theorem perkInject_bootSide (d : Dev) : bootSide (perkInject d).2 = bootSide d := by
  simp only [perkInject]
  repeat' split
  all_goals simp

@[simp] theorem perkFail_bootSide (r : Req) (inj : Bool) (d : Dev) :
    bootSide (perkFail r inj d) = bootSide d := by simp [perkFail]

@[simp] theorem perkStep_bootSide (arrival : Nat) (outs : List Int) (busy latency : Nat) (d : Dev) :
    bootSide (perkStep arrival outs busy latency d) = bootSide d := by
  simp only [perkStep]
  repeat' split
  all_goals simp

/-! ### KvFamily -/

@[simp] theorem walkStart_bootSide (x : DescId) (w : Nat) (d : Dev) : bootSide (walkStart x w d) = bootSide d := by
  simp only [walkStart]
  repeat' split
  all_goals simp

@[simp] theorem walkFail_bootSide (x : DescId) (y : Desc) (s c : Nat) (injected : Bool) (d : Dev) :
    bootSide (walkFail x y s c injected d) = bootSide d := by simp [walkFail]

@[simp] theorem walkReads_bootSide (s c misses : Nat) (d : Dev) : bootSide (walkReads s c misses d) = bootSide d := by
  unfold walkReads
  dsimp only
  split <;> simp

@[simp] theorem entryLost_bootSide (s layer : Nat) (ps : List Nat) (d : Dev) :
    bootSide (entryLost s layer ps d) = bootSide d := by simp [entryLost, apply_ite bootSide]

@[simp] theorem walkEnd_bootSide (x : DescId) (poisoned : Bool) (d : Dev) : bootSide (walkEnd x poisoned d) = bootSide d := by
  simp only [walkEnd]
  repeat' split
  all_goals simp

@[simp] theorem allocate_bootSide (x : DescId) (p : Nat) (d : Dev) : bootSide (allocate x p d) = bootSide d := by
  fun_cases allocate x p d <;> simp

@[simp] theorem fill_bootSide (x : DescId) (d : Dev) : bootSide (fill x d) = bootSide d := by
  unfold fill
  split <;> simp

@[simp] theorem threadEdit_bootSide (p s : Nat) (e : Edit) (d : Dev) :
    bootSide (threadEdit p s e d) = bootSide d := by simp [threadEdit, apply_ite bootSide]

@[simp] theorem editApply_bootSide (s waited : Nat) (d : Dev) : bootSide (editApply s waited d) = bootSide d := by
  unfold editApply
  split
  · split
    next h => simp [applyEdit_bootSide _ _ _ _ h]
    · rfl
  · rfl

/-! ### Sequence -/

@[simp] theorem setMark_bootSide (q s T : Nat) (bidir : Bool) (d : Dev) :
    bootSide (setMark q s T bidir d) = bootSide d := by simp [setMark]

@[simp] theorem lateMark_bootSide (q part : Nat) (d : Dev) : bootSide (lateMark q part d) = bootSide d := by simp [lateMark]

@[simp] theorem takeMark_bootSide (q m : Nat) (d : Dev) : bootSide (takeMark q m d) = bootSide d := by
  unfold takeMark
  split <;> simp [apply_ite bootSide]

@[simp] theorem postMark_bootSide (p q m : Nat) (d : Dev) : bootSide (postMark p q m d) = bootSide d := by
  fun_cases postMark p q m d <;> simp

@[simp] theorem beginWait_bootSide (b : Nat) (d : Dev) : bootSide (beginWait b d) = bootSide d := by
  unfold beginWait
  split <;> simp

@[simp] theorem unready_bootSide (b : Nat) (d : Dev) : bootSide (unready b d) = bootSide d := by simp [unready]

@[simp] theorem swapInDone_bootSide (b hb hc : Nat) (bad : List Nat) (waited : Nat) (d : Dev) :
    bootSide (swapInDone b hb hc bad waited d) = bootSide d := by simp [swapInDone, apply_ite bootSide]

@[simp] theorem swapOutDone_bootSide (b : Nat) (d : Dev) :
    bootSide (swapOutDone b d) = bootSide d := by simp [swapOutDone, apply_ite bootSide]

@[simp] theorem blkIdle_bootSide (b : Nat) (d : Dev) :
    bootSide (blkIdle b d) = bootSide d := by simp [blkIdle, apply_ite bootSide]

@[simp] theorem rehome_bootSide (u : Nat) (d : Dev) : bootSide (rehome u d) = bootSide d := by simp [rehome]

@[simp] theorem freezeMask_bootSide (q : Nat) (o : ScanOp) (chunk : Nat) (d : Dev) :
    bootSide (freezeMask q o chunk d).2 = bootSide d := by
  fun_cases freezeMask q o chunk d <;> simp

@[simp] theorem releaseScan_bootSide (u : Nat) (b : Bytes) (d : Dev) :
    bootSide (releaseScan u b d).2 = bootSide d := by simp [releaseScan, apply_ite bootSide]

@[simp] theorem applySlice_bootSide (b : Bytes) (d : Dev) : bootSide (applySlice b d) = bootSide d := by simp [applySlice]

@[simp] theorem abortSlice_bootSide (b : Bytes) (d : Dev) : bootSide (abortSlice b d) = bootSide d := by simp [abortSlice]

@[simp] theorem noteInputs_bootSide (b : Bytes) (d : Dev) :
    bootSide (noteInputs b d) = bootSide d := by simp [noteInputs, apply_ite bootSide]

/-! ### Streaming -/

@[simp] theorem roundTripOf_bootSide (a n rt : Nat) (d : Dev) :
    bootSide (roundTripOf a n rt d) = bootSide d := by simp [roundTripOf, apply_ite bootSide]

@[simp] theorem bankAppend_bootSide (u : Nat) (b : Bytes) (d : Dev) :
    bootSide (bankAppend u b d) = bootSide d := by simp [bankAppend]

@[simp] theorem bankLoaded_bootSide (u k : Nat) (d : Dev) : bootSide (bankLoaded u k d) = bootSide d := by simp [bankLoaded]

@[simp] theorem popXfer_bootSide (n : Nat) (d : Dev) : bootSide (popXfer n d) = bootSide d := by simp [popXfer]

theorem issueGranule_bootSide (n : Nat) (x : Xfer) (d e : Dev) (h : issueGranule n x d = some e) : bootSide e = bootSide d := by
  obtain ⟨b, hb, rfl⟩ := Option.map_eq_some_iff.mp h
  obtain ⟨r, hr, hb⟩ := Option.bind_eq_some_iff.mp hb
  have h1 : bootSide r = bootSide d := by
    split at hr
    · exact takeTag_bootSide _ _ _ _ _ _ _ hr
    · rw [Option.some.inj hr]
  have h2 : bootSide b = bootSide r := by
    split at hb
    · rw [Option.some.inj hb]
    · exact takeTag_bootSide _ _ _ _ _ _ _ hb
  rw [modMover_bootSide, h2, h1]

@[simp] theorem issueAhead_bootSide (n : Nat) (x : Xfer) (n' : Nat) (d : Dev) : bootSide (issueAhead n x n' d) = bootSide d := by
  fun_induction issueAhead n x n' d with
  | case1 | case2 | case4 => rfl
  | case3 d k h e he ih => rw [ih, issueGranule_bootSide _ _ _ _ he]

@[simp] theorem flyOn_bootSide (n : Nat) (x : Xfer) (d : Dev) : bootSide (flyOn n x d) = bootSide d := by
  unfold flyOn
  split <;> simp

@[simp] theorem completeXfer_bootSide (n : Nat) (x : Xfer) (d : Dev) : bootSide (completeXfer n x d) = bootSide d := by
  unfold completeXfer
  split <;> simp

@[simp] theorem endXfer_bootSide (n : Nat) (x : Xfer) (cause : Nat) (d : Dev) : bootSide (endXfer n x cause d) = bootSide d := by
  unfold endXfer
  split <;> simp

@[simp] theorem moveGranule_bootSide (n : Nat) (x : Xfer) (fault rt held : Nat) (d : Dev) :
    bootSide (moveGranule n x fault rt held d) = bootSide d := by
  unfold moveGranule
  repeat' split
  all_goals simp [apply_ite bootSide]

@[simp] theorem granuleDone_bootSide (n fault rt held : Nat) (d : Dev) :
    bootSide (granuleDone n fault rt held d) = bootSide d := by
  unfold granuleDone
  split
  · rfl
  · split
    · rfl
    · split
      next e he =>
        rw [moveGranule_bootSide]
        split at he
        · exact issueGranule_bootSide _ _ _ _ he
        · rw [Option.some.inj he]
      · rfl

@[simp] theorem windowLoad_bootSide (w : Nat) (d : Dev) : bootSide (windowLoad w d) = bootSide d := by
  unfold windowLoad
  split <;> simp [apply_ite bootSide]

@[simp] theorem endSteps_bootSide (ks : List (Nat × Nat)) (cause part : Nat) (d : Dev) :
    bootSide (endSteps ks cause part d) = bootSide d := by simp [endSteps]

@[simp] theorem endStall_bootSide (w n : Nat) (k : Nat × Nat × Nat) (d : Dev) :
    bootSide (endStall w n k d) = bootSide d := by simp [endStall]

@[simp] theorem endStalls_bootSide (w n : Nat) (l : List (Nat × Nat × Nat)) (d : Dev) :
    bootSide (endStalls w n l d) = bootSide d := by
  unfold endStalls
  split <;> simp

@[simp] theorem windowFailed_bootSide (w : Nat) (d : Dev) : bootSide (windowFailed w d) = bootSide d := by
  unfold windowFailed
  split <;> simp

@[simp] theorem loaderErrors_bootSide (r : WindowRec) (i : Nat) (d : Dev) : bootSide (loaderErrors r i d) = bootSide d := by
  simp only [loaderErrors, apply_ite bootSide]
  repeat' split
  all_goals simp

@[simp] theorem windowPresent_bootSide (w stall : Nat) (d : Dev) : bootSide (windowPresent w stall d) = bootSide d := by
  unfold windowPresent
  split <;> simp [apply_ite bootSide]

@[simp] theorem windowLate_bootSide (w : Nat) (d : Dev) : bootSide (windowLate w d) = bootSide d := by
  unfold windowLate
  split <;> simp [apply_ite bootSide]

@[simp] theorem windowStall_bootSide (x : DescId) (lay : Option (Nat × Nat)) (d : Dev) :
    bootSide (windowStall x lay d) = bootSide d := by
  unfold windowStall
  split <;> simp [apply_ite bootSide]

@[simp] theorem remoteSignal_bootSide (k : Nat) (d : Dev) : bootSide (remoteSignal k d) = bootSide d := by
  unfold remoteSignal
  split <;> simp

@[simp] theorem scrub_bootSide (corrected : Nat) (bad : List Nat) (d : Dev) :
    bootSide (scrub corrected bad d) = bootSide d := by simp [scrub, apply_ite bootSide]

/-! ### Leash -/

@[simp] theorem fillLeashes_bootSide (u : Nat) (x : DescId) (b : Bytes) (d : Dev) :
    bootSide (fillLeashes u x b d) = bootSide d := by simp [fillLeashes]

@[simp] theorem loadFirst_bootSide (u : Nat) (x : DescId) (b : Bytes) (d : Dev) : bootSide (loadFirst u x b d) = bootSide d := by
  unfold loadFirst
  split <;> simp

@[simp] theorem rampUp_bootSide (u : Nat) (x : DescId) (b : Bytes) (d : Dev) :
    bootSide (rampUp u x b d) = bootSide d := by simp [rampUp]

/-! ### Sched -/

@[simp] theorem bindOne_bootSide (g : Nat) (d : Dev) : bootSide (bindOne g d) = bootSide d := by
  fun_cases bindOne g d <;> simp

@[simp] theorem requestBind_bootSide (g : Nat) (d : Dev) : bootSide (requestBind g d) = bootSide d := by
  unfold requestBind
  split <;> simp

@[simp] theorem rebind_bootSide (g : Nat) (d : Dev) : bootSide (rebind g d) = bootSide d := by simp [rebind]

@[simp] theorem stepStart_bootSide (g : Nat) (d : Dev) : bootSide (stepStart g d) = bootSide d := by
  unfold stepStart
  dsimp only
  split
  · split
    · rfl
    · rw [modSched_bootSide]
      refine (foldl_bootSide _ (fun e c => ?_) _ _).trans (by simp)
      split <;> simp
  · rfl

@[simp] theorem instantiate_bootSide (g i : Nat) (d : Dev) : bootSide (instantiate g i d) = bootSide d := by
  unfold instantiate
  split <;> simp [apply_ite bootSide]

@[simp] theorem settlePreempt_bootSide (d : Dev) : bootSide (settlePreempt d) = bootSide d := by simp [settlePreempt]

@[simp] theorem releaseDesc_bootSide (x : DescId) (d : Dev) : bootSide (releaseDesc x d) = bootSide d := by simp [releaseDesc]

@[simp] theorem descReady_bootSide (x : DescId) (d0 : Dev) : bootSide (descReady x d0) = bootSide d0 := by
  simp only [descReady]
  repeat' split
  all_goals simp

@[simp] theorem affinityExpiry_bootSide (x : DescId) (d : Dev) :
    bootSide (affinityExpiry x d) = bootSide d := by simp [affinityExpiry]

@[simp] theorem stageWeights_bootSide (u : Nat) (y : Desc) (d : Dev) : bootSide (stageWeights u y d) = bootSide d := by
  simp only [stageWeights]
  repeat' split
  all_goals simp

@[simp] theorem beginBankLoad_bootSide (u : Nat) (y : Desc) (d : Dev) : bootSide (beginBankLoad u y d) = bootSide d := by
  unfold beginBankLoad
  split <;> simp

@[simp] theorem selectBank_bootSide (u : Nat) (y : Desc) (d : Dev) : bootSide (selectBank u y d) = bootSide d := by
  unfold selectBank
  split <;> simp

@[simp] theorem takeFrame_bootSide (u : Nat) (y : Desc) (d : Dev) : bootSide (takeFrame u y d) = bootSide d := by
  unfold takeFrame
  split <;> simp

@[simp] theorem startTile_bootSide (u : Nat) (y : Desc) (d : Dev) : bootSide (startTile u y d) = bootSide d := by
  simp only [startTile]
  repeat' split
  all_goals simp

@[simp] theorem countPlacement_bootSide (u : Nat) (y : Desc) (d : Dev) :
    bootSide (countPlacement u y d) = bootSide d := by simp [countPlacement, apply_ite bootSide]

@[simp] theorem prepareBank_bootSide (u : Nat) (d : Dev) : bootSide (prepareBank u d) = bootSide d := by
  unfold prepareBank
  split <;> simp

@[simp] theorem measureOthers_bootSide (latency : Nat) (l : List Nat) (d : Dev) :
    bootSide (measureOthers latency l d) = bootSide d := by
  fun_induction measureOthers latency l d with
  | case1 => rfl
  | case2 d o rest c ih => simp [ih, c]

@[simp] theorem measureAll_bootSide (os : List Nat) (latency : Nat) (d : Dev) :
    bootSide (measureAll os latency d) = bootSide d := by
  unfold measureAll
  split <;> simp

@[simp] theorem dispatch_bootSide (u latency : Nat) (d0 : Dev) : bootSide (dispatch u latency d0) = bootSide d0 := by
  simp only [dispatch, apply_ite bootSide]
  repeat' split
  all_goals simp

@[simp] theorem prepay_bootSide (u n : Nat) (d : Dev) : bootSide (prepay u n d) = bootSide d := by
  unfold prepay
  split <;> simp

@[simp] theorem flushCharges_bootSide (c : Nat) (d : Dev) : bootSide (flushCharges c d) = bootSide d := by
  refine foldl_bootSide _ (fun e c => ?_) _ d
  dsimp only
  split <;> simp

@[simp] theorem budgetWindow_bootSide (c : Nat) (d : Dev) : bootSide (budgetWindow c d) = bootSide d := by
  unfold budgetWindow
  split <;> simp

@[simp] theorem prepayAll_bootSide (n : Nat) (l : List Nat) (d : Dev) : bootSide (prepayAll n l d) = bootSide d := by
  fun_induction prepayAll n l d <;> simp_all

@[simp] theorem quotaReached_bootSide (c p charge : Nat) (d : Dev) :
    bootSide (quotaReached c p charge d) = bootSide d := by simp [quotaReached, apply_ite bootSide]

@[simp] theorem backstop_bootSide (watch inst : Nat) (d : Dev) : bootSide (backstop watch inst d) = bootSide d := by
  unfold backstop
  dsimp only
  split <;> simp [apply_ite bootSide]

/-! ### Search -/

@[simp] theorem queryJoin_bootSide (slot : Nat) (q : Query) (d : Dev) : bootSide (queryJoin slot q d) = bootSide d := by
  unfold queryJoin
  split <;> simp [apply_ite bootSide]

@[simp] theorem batchExpiry_bootSide (slot : Nat) (d : Dev) : bootSide (batchExpiry slot d) = bootSide d := by
  unfold batchExpiry
  split <;> simp

@[simp] theorem staleSearch_bootSide (slot : Nat) (d : Dev) : bootSide (staleSearch slot d) = bootSide d := by simp [staleSearch]

@[simp] theorem sweepStart_bootSide (slot : Nat) (d : Dev) : bootSide (sweepStart slot d) = bootSide d := by
  unfold sweepStart
  split <;> simp [apply_ite bootSide]

@[simp] theorem clusterMerge_bootSide (slot cluster : Nat) (d : Dev) : bootSide (clusterMerge slot cluster d) = bootSide d := by
  unfold clusterMerge
  split <;> simp [apply_ite bootSide]

@[simp] theorem flushIdents_bootSide (o : Nat) (d : Dev) : bootSide (flushIdents o d) = bootSide d := by
  unfold flushIdents
  split <;> simp

@[simp] theorem emitIdents_bootSide (o : Nat) (d : Dev) : bootSide (emitIdents o d) = bootSide d := by
  unfold emitIdents
  split <;> simp

@[simp] theorem answer_bootSide (r : CatRec) (snapshot : Nat) (l : List (QEntry × Option KList)) (d : Dev) :
    bootSide (answer r snapshot l d) = bootSide d := by simp [answer]

@[simp] theorem finishAnswered_bootSide (os : List Nat) (d : Dev) :
    bootSide (finishAnswered os d) = bootSide d := by simp [finishAnswered, apply_ite bootSide]

@[simp] theorem deviceMerge_bootSide (slot cycles : Nat) (d : Dev) : bootSide (deviceMerge slot cycles d) = bootSide d := by
  unfold deviceMerge
  split <;> simp [apply_ite bootSide]

@[simp] theorem sweepAbort_bootSide (slot : Nat) (d : Dev) : bootSide (sweepAbort slot d) = bootSide d := by
  unfold sweepAbort
  split <;> simp

@[simp] theorem enrol_bootSide (slot : Nat) (item : Bytes) (os : List Nat) (d : Dev) :
    bootSide (enrol slot item os d) = bootSide d := by
  unfold enrol
  split <;> simp [apply_ite bootSide]

/-! ### Tile -/

@[simp] theorem tileRead_bootSide (u : Nat) (x : DescId) (b : Bytes) (pages : List (Nat × Nat)) (run : TileRun) (d : Dev) :
    bootSide (tileRead u x b pages run d) = bootSide d := by simp [tileRead]

@[simp] theorem countAdvance_bootSide (u : Nat) (x : DescId) (b : Bytes) (run : TileRun) (n : AdvCounts) (d : Dev) :
    bootSide (countAdvance u x b run n d) = bootSide d := by simp [countAdvance]

@[simp] theorem stopTile_bootSide (u cause : Nat) (d : Dev) : bootSide (stopTile u cause d) = bootSide d := by
  simp only [stopTile]
  repeat' split
  all_goals simp

@[simp] theorem nextTest_bootSide (d : Dev) : bootSide (nextTest d) = bootSide d := by
  unfold nextTest
  split <;> simp

@[simp] theorem queueTest_bootSide (u kind : Nat) (d : Dev) : bootSide (queueTest u kind d).2 = bootSide d := by
  unfold queueTest
  split <;> simp

@[simp] theorem coreFault_bootSide (u : Nat) (d : Dev) :
    bootSide (coreFault u d) = bootSide d := by simp [coreFault, apply_ite bootSide]

@[simp] theorem faultTile_bootSide (u code : Nat) (injected : Bool) (d : Dev) :
    bootSide (faultTile u code injected d) = bootSide d := by simp [faultTile]

@[simp] theorem tagFail_bootSide (u kind expected observed : Nat) (injected : Bool) (d : Dev) :
    bootSide (tagFail u kind expected observed injected d) = bootSide d := by simp [tagFail]

theorem injectTile_bootSide (u : Nat) (b : Bytes) (pair : Option (Nat × Nat)) (d : Dev) :
    bootSide (injectTile u b pair d).2.2 = bootSide d ∧ ∀ e, (injectTile u b pair d).1 = some e → bootSide e = bootSide d := by
  unfold injectTile
  dsimp only
  repeat' split
  all_goals simp

@[simp] theorem storeAcc_bootSide (u : Nat) (acc : List AccElem) (d : Dev) : bootSide (storeAcc u acc d) = bootSide d := by
  unfold storeAcc
  split <;> simp

@[simp] theorem advanceEnd_bootSide (u : Nat) (run : TileRun) (d : Dev) : bootSide (advanceEnd u run d) = bootSide d := by
  unfold advanceEnd
  dsimp only
  split
  · rfl
  · split
    · rfl
    · split
      · rfl
      · split
        · simp
        · split
          · simp
          · split
            · simp
            · split
              next e he => rw [(injectTile_bootSide _ _ _ _).2 _ he]; simp
              · simp [(injectTile_bootSide _ _ _ _).1]

@[simp] theorem tileFault_bootSide (u code : Nat) (d : Dev) : bootSide (tileFault u code d) = bootSide d := by
  unfold tileFault
  split <;> simp [apply_ite bootSide]

@[simp] theorem scaleCheck_bootSide (u block kind tag seen : Nat) (poisoned : Bool) (d : Dev) :
    bootSide (scaleCheck u block kind tag seen poisoned d) = bootSide d := by
  fun_cases scaleCheck u block kind tag seen poisoned d <;> simp

@[simp] theorem hardStopTile_bootSide (u : Nat) (d : Dev) : bootSide (hardStopTile u d) = bootSide d := by
  unfold hardStopTile
  split <;> simp [apply_ite bootSide]

@[simp] theorem releaseTile_bootSide (u : Nat) (d : Dev) : bootSide (releaseTile u d) = bootSide d := by
  unfold releaseTile
  split <;> simp [apply_ite bootSide]

/-! ### Commit -/

@[simp] theorem countVals_bootSide (u part : Nat) (rq : Option RqTable) (l : List OutVal) (d : Dev) :
    bootSide (countVals u part rq l d) = bootSide d := by
  unfold countVals
  split <;> simp [apply_ite bootSide]

@[simp] theorem writeOutput_bootSide (u : Nat) (x : DescId) (b : Bytes) (vals : List OutVal) (scales : List
    (Nat × GScale × Bool)) (d : Dev) :
    bootSide (writeOutput u x b vals scales d) = bootSide d := by
  fun_cases writeOutput u x b vals scales d <;> simp

@[simp] theorem scatterCommit_bootSide (u : Nat) (x : DescId) (b : Bytes) (pages : List (Nat × Nat)) (bf16 : Bool) (d : Dev) :
    bootSide (scatterCommit u x b pages bf16 d) = bootSide d := by simp [scatterCommit]

@[simp] theorem commitKind_bootSide (u : Nat) (x : DescId) (b : Bytes) (t : Tile) (out : CommitData) (d : Dev) :
    bootSide (commitKind u x b t out d) = bootSide d := by
  simp only [commitKind]
  repeat' split
  all_goals simp

@[simp] theorem denyTile_bootSide (u : Nat) (t : Tile) (p : Nat) (d : Dev) :
    bootSide (denyTile u t p d) = bootSide d := by simp [denyTile]

@[simp] theorem emitAll_bootSide (y : Desc) (out : CommitData) (d : Dev) : bootSide (emitAll y out d) = bootSide d := by
  unfold emitAll
  dsimp only
  repeat' split
  all_goals simp [apply_ite bootSide]

@[simp] theorem commitTile_bootSide (u : Nat) (t : Tile) (y : Desc) (out : CommitData) (d : Dev) :
    bootSide (commitTile u t y out d) = bootSide d := by
  simp only [commitTile]
  repeat' split
  all_goals simp

@[simp] theorem commitEnd_bootSide (u : Nat) (out : CommitData) (d : Dev) : bootSide (commitEnd u out d) = bootSide d := by
  fun_cases commitEnd u out d <;> simp

/-! ### Camera -/

@[simp] theorem putCsi_bootSide (port vc : Nat) (c : CsiFrame) (d : Dev) :
    bootSide (putCsi port vc c d) = bootSide d := by simp [putCsi]

@[simp] theorem issue_bootSide (ops : List BusOp) (d : Dev) : bootSide (issue ops d) = bootSide d := by simp [issue]

@[simp] theorem freshBus_bootSide (d : Dev) : bootSide (freshBus d) = bootSide d := by simp [freshBus]

@[simp] theorem storeLine_bootSide (a : Nat) (r : CamRec) (l : Bytes × List Nat) (d : Dev) :
    bootSide (storeLine a r l d) = bootSide d := by simp [storeLine]

@[simp] theorem addLines_bootSide (r : CamRec) (ls : List (Bytes × List Nat)) (f : RawFrame) (d : Dev) :
    bootSide (addLines r ls f d).2 = bootSide d := by
  refine foldl_bootSide_snd _ (fun x l => ?_) ls (f, d)
  dsimp only
  split <;> simp

@[simp] theorem header_bootSide (port : Nat) (ecc : Ecc) (d : Dev) : bootSide (header port ecc d).2 = bootSide d := by
  unfold header
  split <;> simp

@[simp] theorem issueBlock_bootSide (n : Nat) (b : SetBlock) (k : Nat) (nacked : Bool) (d : Dev) :
    bootSide (issueBlock n b k nacked d) = bootSide d := by simp [issueBlock]

@[simp] theorem startBlock_bootSide (r : CamRec) (d : Dev) : bootSide (startBlock r d) = bootSide d := by
  unfold startBlock
  dsimp only
  split <;> simp [apply_ite bootSide]

@[simp] theorem returnFrame_bootSide (s : Nat) (pipe1 : Bool) (d : Dev) :
    bootSide (returnFrame s pipe1 d) = bootSide d := by simp [returnFrame, apply_ite bootSide]

@[simp] theorem openFrame_bootSide (r : CamRec) (c : CsiFrame) (d : Dev) :
    bootSide (openFrame r c d) = bootSide d := by simp [openFrame, apply_ite bootSide]

@[simp] theorem closeFrame_bootSide (r : CamRec) (d : Dev) : bootSide (closeFrame r d) = bootSide d := by
  unfold closeFrame
  split <;> simp [apply_ite bootSide]

@[simp] theorem closeCsi_bootSide (port vc : Nat) (d : Dev) : bootSide (closeCsi port vc d) = bootSide d := by
  unfold closeCsi
  split <;> simp [apply_ite bootSide]

@[simp] theorem lineArrives_bootSide (r : CamRec) (c : CsiFrame) (port vc : Nat) (bytes : Bytes) (crcOk : Bool) (d : Dev) :
    bootSide (lineArrives r c port vc bytes crcOk d) = bootSide d := by simp [lineArrives, apply_ite bootSide]

@[simp] theorem longPacket_bootSide (port vc dtype : Nat) (bytes : Bytes) (crcOk : Bool) (d : Dev) :
    bootSide (longPacket port vc dtype bytes crcOk d) = bootSide d := by
  simp only [longPacket, apply_ite bootSide]
  repeat' split
  all_goals simp

@[simp] theorem loseStart_bootSide (port vc : Nat) (d : Dev) : bootSide (loseStart port vc d) = bootSide d := by
  unfold loseStart
  split <;> simp

@[simp] theorem writeReference_bootSide (r : CamRec) (g : RawFrame) (f : IspFrame) (d : Dev) :
    bootSide (writeReference r g f d) = bootSide d := by
  unfold writeReference
  split
  · exact foldl_bootSide _ (fun e l => by split <;> simp) _ d
  · simp

@[simp] theorem clipFrame_bootSide (r : CamRec) (o : TensorOut) (qs : List (Int × Bool)) (d : Dev) :
    bootSide (clipFrame r o qs d) = bootSide d := by
  unfold clipFrame
  split <;> simp

@[simp] theorem writeStats_bootSide (r : CamRec) (o : TensorOut) (g : RawFrame) (f : IspFrame) (a : Nat) (d0 d : Dev) :
    bootSide (writeStats r o g f a d0 d) = bootSide d := by simp [writeStats]

@[simp] theorem passThrough_bootSide (r : CamRec) (o : TensorOut) (lines : List (Bytes × List Nat)) (vs : List Nat)
    (desc : Bytes) (d : Dev) :
    bootSide (passThrough r o lines vs desc d) = bootSide d := by
  unfold passThrough
  split <;> simp [apply_ite bootSide]

@[simp] theorem writeTiles_bootSide (r : CamRec) (o : TensorOut) (g : RawFrame) (f : IspFrame) (base : Nat) (vs bad : List Nat)
    (d : Dev) :
    bootSide (writeTiles r o g f base vs bad d) = bootSide d := by
  simp [writeTiles, apply_ite bootSide]

@[simp] theorem writeFrame_bootSide (r : CamRec) (o : TensorOut) (g : RawFrame) (f : IspFrame) (d : Dev) :
    bootSide (writeFrame r o g f d) = bootSide d := by simp [writeFrame, apply_ite bootSide]

@[simp] theorem ispRead_bootSide (r : CamRec) (g : RawFrame) (f : IspFrame) (d : Dev) :
    bootSide (ispRead r g f d) = bootSide d := by simp [ispRead]

@[simp] theorem finishFrame_bootSide (g : RawFrame) (f : IspFrame) (d : Dev) : bootSide (finishFrame g f d) = bootSide d := by
  unfold finishFrame
  split <;> simp [apply_ite bootSide]

@[simp] theorem lineDone_bootSide (f : IspFrame) (d : Dev) : bootSide (lineDone f d) = bootSide d := by
  unfold lineDone
  split <;> simp [apply_ite bootSide]

@[simp] theorem thumbnail_bootSide (r : CamRec) (fn : Nat) (lines : List Bytes) (crcOk : List Bool) (dropped corrected : Nat)
    (d : Dev) :
    bootSide (thumbnail r fn lines crcOk dropped corrected d) = bootSide d := by simp [thumbnail, apply_ite bootSide]

@[simp] theorem initSensor_bootSide (r : SensorRec) (d : Dev) : bootSide (initSensor r d) = bootSide d := by simp [initSensor]

@[simp] theorem joinSensor_bootSide (r : SensorRec) (ops : List BusOp) (d : Dev) :
    bootSide (joinSensor r ops d) = bootSide d := by simp [joinSensor, apply_ite bootSide]

@[simp] theorem targetFound_bootSide (port pid : Nat) (d : Dev) : bootSide (targetFound port pid d) = bootSide d := by
  unfold targetFound
  split <;> simp [apply_ite bootSide]

@[simp] theorem assignAddresses_bootSide (present : List Nat) (found : List (Fin 2 × Nat)) (d : Dev) :
    bootSide (assignAddresses present found d) = bootSide d := by simp [assignAddresses, apply_ite bootSide]

@[simp] theorem blockEnds_bootSide (n : Nat) (b : SetBlock) (from_ : Nat) (d : Dev) :
    bootSide (blockEnds n b from_ d) = bootSide d := by
  simp only [blockEnds]
  repeat' split
  all_goals simp

@[simp] theorem blockNacked_bootSide (n : Nat) (d : Dev) : bootSide (blockNacked n d) = bootSide d := by simp [blockNacked]

@[simp] theorem transferDone_bootSide (n : Nat) (ack : Bool) (d : Dev) : bootSide (transferDone n ack d) = bootSide d := by
  unfold transferDone
  split <;> simp [apply_ite bootSide]

/-! ### Boot -/

@[simp] theorem spreadBlob_bootSide (id : Nat) (b : Bytes) (d : Dev) :
    bootSide (spreadBlob id b d) = bootSide d := by simp [spreadBlob]

@[simp] theorem readPlan_bootSide (d : Dev) : bootSide (readPlan d) = bootSide d := by
  unfold readPlan
  dsimp only
  split <;> simp

@[simp] theorem readLog_bootSide (d : Dev) : bootSide (readLog d) = bootSide d := by
  unfold readLog
  dsimp only
  split <;> simp [apply_ite bootSide]

@[simp] theorem freshTier_bootSide (t : Nat) (d : Dev) : bootSide (freshTier t d) = bootSide d := by simp [freshTier]

@[simp] theorem startInput_bootSide (d : Dev) : bootSide (startInput d) = bootSide d := by simp [startInput]

@[simp] theorem startSlot_bootSide (a : Nat) (d : Dev) : bootSide (startSlot a d) = bootSide d := by simp [startSlot]

@[simp] theorem startBlocks_bootSide (d : Dev) : bootSide (startBlocks d) = bootSide d := by simp [startBlocks]

/-! ### Power -/

@[simp] theorem crystalStop_bootSide (d : Dev) : bootSide (crystalStop d) = bootSide d := by
  unfold crystalStop
  split <;> simp

@[simp] theorem crystalRestart_bootSide (d : Dev) : bootSide (crystalRestart d) = bootSide d := by
  unfold crystalRestart
  split <;> simp

@[simp] theorem stepUp_bootSide (d : Dev) : bootSide (stepUp d) = bootSide d := by simp [stepUp]

@[simp] theorem stepDownTo_bootSide (n : Nat) (d : Dev) : bootSide (stepDownTo n d) = bootSide d := by simp [stepDownTo]

@[simp] theorem enforceCap_bootSide (d : Dev) : bootSide (enforceCap d) = bootSide d := by
  unfold enforceCap
  split <;> simp [apply_ite bootSide]

@[simp] theorem settleRail_bootSide (d : Dev) : bootSide (settleRail d) = bootSide d := by
  unfold settleRail
  split <;> simp

@[simp] theorem bootRaise_bootSide (d : Dev) : bootSide (bootRaise d) = bootSide d := by
  unfold bootRaise
  split <;> simp

@[simp] theorem changeDone_bootSide (d : Dev) : bootSide (changeDone d) = bootSide d := by
  unfold changeDone
  split <;> simp [apply_ite bootSide]

@[simp] theorem meanPower_bootSide (l : List Nat) (d : Dev) : bootSide (meanPower l d).2 = bootSide d := by
  unfold meanPower
  dsimp only
  split <;> simp

@[simp] theorem capDown_bootSide (inj : Bool) (d : Dev) : bootSide (capDown inj d) = bootSide d := by
  unfold capDown
  split <;> simp

@[simp] theorem governorDown_bootSide (d : Dev) : bootSide (governorDown d) = bootSide d := by
  unfold governorDown
  split <;> simp

@[simp] theorem governorUp_bootSide (d : Dev) : bootSide (governorUp d) = bootSide d := by
  unfold governorUp
  split <;> simp

@[simp] theorem thermalStep_bootSide (mx : Int) (d : Dev) : bootSide (thermalStep mx d) = bootSide d := by
  unfold thermalStep
  split <;> simp

@[simp] theorem thermalRecover_bootSide (mx : Int) (d : Dev) : bootSide (thermalRecover mx d) = bootSide d := by
  unfold thermalRecover
  split <;> simp

@[simp] theorem hardStop_bootSide (n : Nat) (d : Dev) : bootSide (hardStop n d) = bootSide d := by
  unfold hardStop
  split <;> simp

@[simp] theorem hardRelease_bootSide (n : Nat) (d : Dev) : bootSide (hardRelease n d) = bootSide d := by
  unfold hardRelease
  split <;> simp

@[simp] theorem holdEnds_bootSide (n : Nat) (d : Dev) : bootSide (holdEnds n d) = bootSide d := by simp [holdEnds]

@[simp] theorem clusterReset_bootSide (n cause fifos : Nat) (d : Dev) : bootSide (clusterReset n cause fifos d) = bootSide d := by
  unfold clusterReset
  split <;> simp

/-! ### Reliability -/

@[simp] theorem leaveSchedule_bootSide (u : Nat) (d : Dev) : bootSide (leaveSchedule u d) = bootSide d := by
  unfold leaveSchedule
  split <;> simp

@[simp] theorem testPeriod_bootSide (d : Dev) : bootSide (testPeriod d) = bootSide d := by
  simp only [testPeriod, apply_ite bootSide]
  repeat' split
  all_goals simp

@[simp] theorem abortWindow_bootSide (u : Nat) (d : Dev) : bootSide (abortWindow u d) = bootSide d := by
  unfold abortWindow
  split <;> simp

@[simp] theorem bankPeriod_bootSide (d : Dev) : bootSide (bankPeriod d) = bootSide d := by
  fun_cases bankPeriod d <;> simp

@[simp] theorem bankSlice_bootSide (bad : List Nat) (corrected : Nat) (d : Dev) :
    bootSide (bankSlice bad corrected d) = bootSide d := by
  unfold bankSlice
  split <;> simp [apply_ite bootSide]

@[simp] theorem takeReadings_bootSide (l : List Nat) (d : Dev) :
    bootSide (takeReadings l d) = bootSide d := by simp [takeReadings]

/-! ### Window -/

@[simp] theorem noteWindow_bootSide (off : Nat) (d : Dev) : bootSide (noteWindow off d) = bootSide d := by
  unfold noteWindow
  split <;> simp

@[simp] theorem writeResetReq_bootSide (v : Word) (d : Dev) : bootSide (writeResetReq v d) = bootSide d := by
  simp only [writeResetReq, apply_ite bootSide]
  repeat' split
  all_goals simp

/-! ### Operands -/

@[simp] theorem respond_bootSide (status seq op : Nat) (payload : Bytes) (g : Option Guard) (d : Dev) :
    bootSide (respond status seq op payload g d) = bootSide d := by simp [respond]

@[simp] theorem settleReply_bootSide (op : Nat) (f : Frame) (g : Option Guard) (r : Reply) (d : Dev) :
    bootSide (settleReply op f g r d) = bootSide d := by
  unfold settleReply
  split <;> simp

@[simp] theorem finishCur_bootSide (status : Nat) (payload : Bytes) (d : Dev) :
    bootSide (finishCur status payload d) = bootSide d := by
  unfold finishCur
  split <;> simp

@[simp] theorem endSession_bootSide (n : Nat) (d : Dev) : bootSide (endSession n d) = bootSide d := by
  simp only [endSession, closeSession_bootSide, foldl_bootSide, queueEdit_bootSide, shed_bootSide, modTier_bootSide,
    endReqs_bootSide, implies_true]
  exact foldl_bootSide _ (fun e o => by split <;> simp) _ d

@[simp] theorem authFailed_bootSide (part : Option Nat) (detail : Nat × Nat) (d : Dev) :
    bootSide (authFailed part detail d) = bootSide d := by simp [authFailed]

@[simp] theorem frameRefused_bootSide (n : Nat) (d : Dev) :
    bootSide (frameRefused n d) = bootSide d := by simp [frameRefused, apply_ite bootSide]

@[simp] theorem wakeSupervisor_bootSide (op : Nat) (p : Bytes) (d : Dev) : bootSide (wakeSupervisor op p d) = bootSide d := by
  unfold wakeSupervisor
  split <;> simp

/-! ### Kennel -/

@[simp] theorem answerTimeout_bootSide (d : Dev) : bootSide (answerTimeout d) = bootSide d := by
  unfold answerTimeout
  split <;> simp [apply_ite bootSide]

@[simp] theorem forwardOne_bootSide (k : Kennel) (d : Dev) (n : Nat) : bootSide (forwardOne k d n) = bootSide d := by
  unfold forwardOne
  split <;> simp

@[simp] theorem forward_bootSide (k : Kennel) (d : Dev) : bootSide (forward k d) = bootSide d := by
  simp only [forward, apply_ite bootSide]
  repeat' split
  all_goals simp

/-! ### HostCmd -/

@[simp] theorem prerollReady_bootSide (d : Dev) : bootSide (prerollReady d) = bootSide d := by
  fun_cases prerollReady d <;> simp

@[simp] theorem dumpRange_bootSide (n n' n'' : Nat) (d : Dev) : bootSide (dumpRange n n' n'' d) = bootSide d := by
  fun_induction dumpRange n n' n'' d <;> simp_all

@[simp] theorem receiveFrame_bootSide (d : Dev) : bootSide (receiveFrame d) = bootSide d := by simp [receiveFrame]

@[simp] theorem readResponse_bootSide (cnt : Nat) (d : Dev) : bootSide (readResponse cnt d) = bootSide d := by
  fun_cases readResponse cnt d <;> simp

@[simp] theorem reportReady_bootSide (d : Dev) : bootSide (reportReady d) = bootSide d := by
  unfold reportReady
  split <;> simp [apply_ite bootSide]

/-! ### Output -/

@[simp] theorem ccc_bootSide (f : HostPort → HostPort) (d : Dev) : bootSide (ccc f d) = bootSide d := by
  unfold ccc
  split <;> simp

@[simp] theorem directCcc_bootSide (f : HostPort → HostPort) (d : Dev) :
    bootSide (directCcc f d) = bootSide d := by simp [directCcc]

@[simp] theorem directRead_bootSide (b : Bytes) (d : Dev) : bootSide (directRead b d) = bootSide d := by simp [directRead]

@[simp] theorem entdaa_bootSide (a : Nat) (d : Dev) : bootSide (entdaa a d) = bootSide d := by simp [entdaa]

@[simp] theorem setdasa_bootSide (st a : Nat) (d : Dev) : bootSide (setdasa st a d) = bootSide d := by simp [setdasa]

@[simp] theorem hotJoin_bootSide (d : Dev) : bootSide (hotJoin d) = bootSide d := by simp [hotJoin]

@[simp] theorem sendIbi_bootSide (acked : Bool) (d : Dev) : bootSide (sendIbi acked d) = bootSide d := by simp [sendIbi]

@[simp] theorem leave_bootSide (p i : Nat) (r : TxRec) (d : Dev) : bootSide (leave p i r d) = bootSide d := by
  unfold leave
  split <;> simp

@[simp] theorem sendRecord_bootSide (p held : Nat) (d : Dev) : bootSide (sendRecord p held d) = bootSide d := by
  simp only [sendRecord, apply_ite bootSide]
  repeat' split
  all_goals simp

end Sys2Proof.Machine
end

section
/-! PROOFS. A running device keeps the phase, policy and header that it booted with, whatever the device does but boot. -/

namespace Sys2Proof.Machine

/-! ### A running device stays as it booted -/

/-- A device that runs in e ran in d already, with the phase, the boot policy and the header that it has in e. -/
structure Stays (d e : Dev) : Prop where
  ran : e.boot.step = .running →
    d.boot.step = .running ∧ e.boot.phase = d.boot.phase ∧ e.boot.policy = d.boot.policy ∧ e.img.header = d.img.header

theorem Stays.refl (d : Dev) : Stays d d := ⟨fun h => ⟨h, rfl, rfl, rfl⟩⟩

theorem Stays.trans {a b c : Dev} (h : Stays a b) (g : Stays b c) : Stays a c where
  ran hc := by
    obtain ⟨hb, p, q, r⟩ := g.ran hc
    obtain ⟨ha, p', q', r'⟩ := h.ran hb
    exact ⟨ha, p.trans p', q.trans q', r.trans r'⟩

/-- A device that does not run. -/
theorem Stays.of_step {d e : Dev} (h : e.boot.step ≠ .running) : Stays d e := ⟨fun g => absurd g h⟩

theorem boot_of_bootSide {d e : Dev} (h : bootSide e = bootSide d) : e.boot = d.boot := congrArg Prod.fst h

theorem img_of_bootSide {d e : Dev} (h : bootSide e = bootSide d) : e.img = d.img := congrArg Prod.snd h

theorem Stays.of_bootSide {d e : Dev} (h : bootSide e = bootSide d) : Stays d e where
  ran hr := by
    rw [boot_of_bootSide h, img_of_bootSide h]
    exact ⟨boot_of_bootSide h ▸ hr, rfl, rfl, rfl⟩

/-- A write of the flash changes of boot only the command last sent. -/
theorem Writes.stays {d e : Dev} (h : Writes d e) : Stays d e := by
  obtain ⟨_, _, _, _, _, _, rfl⟩ := h
  exact ⟨fun hr => ⟨hr, rfl, rfl, rfl⟩⟩

/-- A boot attempt that has ended does not run. -/
theorem BootEnded.step_ne_running {d e : Dev} (h : BootEnded d e) : e.boot.step ≠ .running := by
  rcases h.ends with ⟨hs, _⟩ | ⟨hs, _⟩ <;> rw [hs] <;> decide

/-! ### Boot ends -/

@[simp] theorem beginBoot_step (d : Dev) : (beginBoot d).boot.step = .sfdp := by simp [beginBoot]

theorem haltDevice_step_ne (d : Dev) : (haltDevice d).boot.step ≠ .running := (haltDevice_ended d).step_ne_running

theorem bootFail_step_ne (c k e sg : Nat) (d : Dev) : (bootFail c k e sg d).boot.step ≠ .running :=
  (bootFail_ended c k e sg d).step_ne_running

theorem deviceReset_step_ne (kind : Nat) (hot : Bool) (d : Dev) : (deviceReset kind hot d).boot.step ≠ .running := by
  unfold deviceReset
  split <;> simp

theorem deviceError_stays (hot sup : Bool) (d : Dev) : Stays d (deviceError hot sup d) := by
  unfold deviceError
  split
  · exact .refl d
  · split
    · dsimp only
      split
      · exact .of_step (deviceReset_step_ne _ _ _)
      · exact .of_step (haltDevice_step_ne _)
    · exact .of_step (bootEnds_ended sup d).step_ne_running

/-! ### Writes to the flash -/

theorem startWrite_writes (log : Bool) (b : Bytes) (d : Dev) : Writes d (startWrite log b d) := ⟨_, _, _, _, _, _, rfl⟩

theorem sendRead_writes (d : Dev) : Writes d (sendRead d) := ⟨_, _, _, _, _, _, rfl⟩

theorem startDueLog_writes (d : Dev) : Writes d (startDueLog d) := by
  unfold startDueLog
  split
  · split
    · exact (startWrite_writes _ _ d).trans (.flash _ _)
    · exact .refl d
  · exact .refl d

theorem startDuePlan_writes (d : Dev) : Writes d (startDuePlan d) := by
  unfold startDuePlan
  split
  · split
    · exact (Writes.flash d _).trans (startWrite_writes _ _ _)
    · exact .refl d
  · exact .refl d

theorem spacingEnds_writes (d : Dev) : Writes d (spacingEnds d) := by
  unfold spacingEnds
  split
  · exact (Writes.flash d _).trans (startDueLog_writes _)
  · exact .refl d

theorem writeEnds_writes (same : Bool) (d : Dev) : Writes d (writeEnds same d) := by
  unfold writeEnds
  split
  · exact .refl d
  · exact (sendRead_writes d).trans <| (endWrite_writes same _).trans <| (startDuePlan_writes _).trans (startDueLog_writes _)

theorem ownerSnapshot_writes (d : Dev) : Writes d (ownerSnapshot d) := by
  unfold ownerSnapshot
  split
  · exact .flash d _
  · exact (startWrite_writes _ _ d).trans (.flash _ _)

theorem planWrite_writes (b : Bytes) (d : Dev) : Writes d (planWrite b d) := by
  unfold planWrite
  split
  · exact .flash d _
  · exact startWrite_writes _ _ d

theorem writePlan_writes (d : Dev) : Writes d (writePlan d) := by
  unfold writePlan
  split
  · exact .refl d
  · exact planWrite_writes _ d

/-! ### What a violation brings about -/

theorem violate_stays (pool kind part inst : Nat) (inj : Bool) (d : Dev) : Stays d (violate pool kind part inst inj d) := by
  unfold violate
  dsimp only
  split
  · exact .of_bootSide (by simp)
  · exact (Stays.of_bootSide (by simp)).trans (deviceError_stays _ _ _)

theorem tripCheck_stays (d : Dev) : Stays d (tripCheck d) := by
  unfold tripCheck
  split
  · exact (violate_stays _ _ _ _ _ d).trans (.of_bootSide (modSched_bootSide _ _))
  · exact .refl d

/-! ### Resets, temperature, tests and the margin plan -/

theorem heldReset_stays (c : Nat) (d : Dev) : Stays d (heldReset c d) := .of_step (by simp [heldReset, fullReset])

theorem brownOut_stays (d : Dev) : Stays d (brownOut d) := by
  unfold brownOut
  dsimp only
  split
  · exact heldReset_stays 1 d
  · exact .of_step (by simp)

theorem porstLow_stays (n : Nat) (d : Dev) : Stays d (porstLow n d) := by
  unfold porstLow
  split
  · exact heldReset_stays 2 d
  · exact .refl d

theorem porstHigh_stays (n : Nat) (l : Option (List Bytes)) (d : Dev) : Stays d (porstHigh n l d) := by
  unfold porstHigh
  split
  · exact .of_step (by simp)
  · exact .refl d

theorem cooldownBoot_stays (mx : Int) (d : Dev) : Stays d (cooldownBoot mx d) := by
  unfold cooldownBoot
  split
  · exact .of_step (by simp)
  · exact .refl d

theorem watchdog_stays (d : Dev) : Stays d (watchdog d) := by
  unfold watchdog
  split
  · exact .of_step (by simp [watchdogReset])
  · exact .refl d

theorem shutdown_stays (inj : Bool) (d : Dev) : Stays d (shutdown inj d) :=
  (Stays.of_bootSide (by simp [apply_ite bootSide])).trans (deviceError_stays _ _ _)

theorem thermalShutdown_stays (mx : Int) (d : Dev) : Stays d (thermalShutdown mx d) := by
  unfold thermalShutdown
  split
  · exact shutdown_stays false d
  · exact .refl d

theorem pllLost_stays (k : Nat) (d : Dev) : Stays d (pllLost k d) := by
  unfold pllLost
  split
  · exact (Stays.of_bootSide (by simp [apply_ite bootSide])).trans (deviceError_stays _ _ _)
  · exact .refl d

theorem injectTemp_stays (mx : Int) (d : Dev) : Stays d (injectTemp mx d) := by
  unfold injectTemp
  dsimp only
  split
  · split
    · exact .of_bootSide (by simp)
    · exact (Stays.of_bootSide (by simp)).trans (shutdown_stays _ _)
  · split
    · exact .of_bootSide (by simp)
    · exact (Stays.of_bootSide (by simp)).trans (shutdown_stays _ _)
  · exact .refl d

theorem governorPeriod_stays (mx : Int) (mw : Nat) (base compute : Int) (d : Dev) : Stays d (governorPeriod mx mw base compute d) := by
  unfold governorPeriod
  split
  · dsimp only
    split
    · exact (Stays.of_bootSide (by simp [apply_ite bootSide])).trans (injectTemp_stays mx _)
    · exact (Stays.of_bootSide (by simp)).trans (injectTemp_stays mx _)
  · exact .refl d

theorem retireCore_stays (u : Nat) (d : Dev) : Stays d (retireCore u d) := by
  unfold retireCore
  dsimp only
  split
  · exact (Stays.of_bootSide (by simp)).trans (planWrite_writes _ _).stays
  · exact (Stays.of_bootSide (by simp)).trans (writePlan_writes _).stays

theorem testDone_stays (pass : Bool) (d : Dev) : Stays d (testDone pass d) := by
  unfold testDone
  split
  · refine Stays.trans ?_ (.of_bootSide (nextTest_bootSide _))
    split
    · exact .of_bootSide (by simp)
    · exact (Stays.of_bootSide (by simp)).trans (retireCore_stays _ _)
  · exact .refl d

theorem replan_stays (first inj : Bool) (d : Dev) : Stays d (replan first inj d) := by
  unfold replan
  extract_lets old g changed low d1 d2 newly d3 d4 d5
  have h4 : bootSide d4 = bootSide d := by simp [d4, d3, d2, d1, apply_ite bootSide]
  have h5 : Stays d d5 := by
    refine (Stays.of_bootSide h4).trans ?_
    unfold d5
    split
    · exact (writePlan_writes d4).stays
    · exact .refl d4
  split
  · exact .of_step (haltDevice_step_ne _)
  · exact h5.trans (.of_bootSide (by simp))

theorem measure_stays (deployed : Bool) (l : List Nat) (d : Dev) : Stays d (measure deployed l d) := by
  have h (first inj : Bool) (e : Dev) (he : bootSide e = bootSide d) : Stays d (replan first inj e) :=
    (Stays.of_bootSide he).trans (replan_stays _ _ e)
  unfold measure
  extract_lets first d1 d2
  have h2 : bootSide d2 = bootSide d := by simp [d2, d1]
  split
  · split
    · dsimp only
      split
      · split <;> exact h _ _ _ (by simp [h2])
      · exact h _ _ _ h2
    · exact h _ _ _ h2
  · exact .refl d

/-! ### The reads of a boot -/

theorem sfdpRead_stays (n : Option Nat) (l : List (Nat × Nat)) (d : Dev) : Stays d (sfdpRead n l d) := by
  unfold sfdpRead
  split
  · split
    · split
      · exact .of_step (bootFail_step_ne _ _ _ _ d)
      · exact .of_step (by simp [modBoot])
    · exact .of_step (bootFail_step_ne _ _ _ _ d)
  · exact .refl d

theorem headerRead_stays (a b : Bytes) (d : Dev) : Stays d (headerRead a b d) := by
  unfold headerRead
  dsimp only
  split
  · split
    · split
      · exact .of_step (by simp [modBoot])
      · exact .of_step (bootFail_step_ne _ _ _ _ _)
    · exact .of_step (bootFail_step_ne _ _ _ _ _)
  · exact .refl d

theorem manifestRead_stays (o : Option Bytes) (n : Nat) (b : Bytes) (d : Dev) : Stays d (manifestRead o n b d) := by
  unfold manifestRead
  dsimp only
  split
  · split
    · exact .of_step (bootFail_step_ne _ _ _ _ _)
    · split
      · exact .of_step (bootFail_step_ne _ _ _ _ _)
      · split
        · exact .of_step (by simp)
        · exact .of_step (bootFail_step_ne _ _ _ _ _)
  · exact .refl d

theorem recordsEnd_step_ne (d : Dev) : (recordsEnd d).boot.step ≠ .running := by
  unfold recordsEnd
  split
  · exact bootFail_step_ne _ _ _ _ _
  · split
    · exact bootFail_step_ne _ _ _ _ _
    · simp [modBoot]

theorem recordRead_stays (life : Nat) (b : Bytes) (d : Dev) : Stays d (recordRead life b d) := by
  unfold recordRead
  dsimp only
  split
  next h =>
    split
    · exact .of_step (bootFail_step_ne _ _ _ _ _)
    · split
      · exact .of_step (recordsEnd_step_ne _)
      · refine .of_step ?_
        simp [sendRead, modBoot, apply_ite Boot.step, h]
  · exact .refl d

theorem trainingDone_stays (p : Bool) (n : Nat) (l : List (List Bool)) (d : Dev) : Stays d (trainingDone p n l d) := by
  unfold trainingDone
  dsimp only
  split
  · split
    · split
      · exact .of_step (bootFail_step_ne _ _ _ _ _)
      · exact .of_step (by simp [modBoot, modPower])
    · exact .of_step (bootFail_step_ne _ _ _ _ _)
  · exact .refl d

end Sys2Proof.Machine
end

section
/-! PROOFS. The lifecycle state and the rollback floor under what follows from a command and under writes of the status window (R43, R377). -/

namespace Sys2Proof.Machine

/-! ### The lifecycle word -/

/-- One more than the last of the first n numbers that satisfies p, or 0. -/
def lastSet (p : Nat → Bool) (n : Nat) : Nat := ((List.range n).filter p).foldl (fun _ i => i + 1) 0

theorem lastSet_succ (p : Nat → Bool) (n : Nat) : lastSet p (n + 1) = if p n then n + 1 else lastSet p n := by
  unfold lastSet
  rw [List.range_succ, List.filter_append, List.foldl_append]
  cases h : p n <;> simp [h]

theorem lastSet_le (p : Nat → Bool) : ∀ n, lastSet p n ≤ n
  | 0 => Nat.le_refl 0
  | n + 1 => by
    have := lastSet_le p n
    rw [lastSet_succ]
    split <;> omega

theorem lastSet_mono {p q : Nat → Bool} (h : ∀ i, p i = true → q i = true) : ∀ n, lastSet p n ≤ lastSet q n
  | 0 => Nat.le_refl 0
  | n + 1 => by
    have ih := lastSet_mono h n
    have hb := lastSet_le p n
    rw [lastSet_succ, lastSet_succ]
    by_cases hp : p n = true
    · rw [if_pos hp, if_pos (h n hp)]
    · rw [if_neg hp]
      split <;> omega

/-- Programming a group keeps the groups that read set. -/
theorem groupSet_set (w : List Byte) (k i : Nat) (h : groupSet (w.getD i 0) = true) :
    groupSet ((w.set k 0xFF).getD i 0) = true := by
  rw [List.getD_eq_getElem?_getD, List.getElem?_set]
  split
  · split
    · decide
    · rename_i hk hl
      subst hk
      rw [List.getD_eq_default _ _ (by omega)] at h
      exact absurd h (by decide)
  · rwa [← List.getD_eq_getElem?_getD]

/-- No programming of the state word takes the lifecycle back (R377, R380). -/
theorem stateOf_set_le (w : List Byte) (k : Nat) : stateOf w ≤ stateOf (w.set k 0xFF) :=
  lastSet_mono (fun i h => groupSet_set w k i h) 5

@[simp] theorem transitionActions_state (tgt : Nat) (o : Otp) : (transitionActions tgt o).state = o.state := by
  unfold transitionActions
  simp only [apply_ite Otp.state, ite_self]

@[simp] theorem transitionActions_floor (tgt : Nat) (o : Otp) : (transitionActions tgt o).floor = o.floor := by
  unfold transitionActions
  simp only [apply_ite Otp.floor, ite_self]

/-- The fuses of p keep the rollback floor of o, and the lifecycle state has not gone back. -/
def OtpOn (o p : Otp) : Prop := p.floor = o.floor ∧ lifecycle o ≤ lifecycle p

theorem OtpOn.refl (o : Otp) : OtpOn o o := ⟨rfl, Nat.le_refl _⟩

theorem OtpOn.trans {a b c : Otp} (h : OtpOn a b) (g : OtpOn b c) : OtpOn a c := ⟨g.1.trans h.1, h.2.trans g.2⟩

theorem completeTransition_on (tgt : Nat) (o : Otp) : OtpOn o (completeTransition tgt o) := by
  refine ⟨by simp [completeTransition, programState, programIntent], ?_⟩
  have h : (completeTransition tgt o).state = o.state.set (tgt - 1) 0xFF := by
    simp [completeTransition, programState, programIntent]
  unfold lifecycle
  rw [h]
  exact stateOf_set_le _ _

/-! ### What a command leaves -/

/-- From s to t a running device stays as it booted, the floor stays, and the lifecycle does not go back. -/
structure Steady (s t : State) : Prop where
  dev : Stays s.dev t.dev
  otp : OtpOn s.otp t.otp

theorem Steady.refl (s : State) : Steady s s := ⟨.refl _, .refl _⟩

theorem Steady.trans {a b c : State} (h : Steady a b) (g : Steady b c) : Steady a c := ⟨h.dev.trans g.dev, h.otp.trans g.otp⟩

theorem Steady.of_dev {s : State} {d : Dev} (h : Stays s.dev d) : Steady s { s with dev := d } := ⟨h, .refl _⟩

theorem Steady.of_bootSide {s t : State} (h : bootSide t.dev = bootSide s.dev) (ho : t.otp = s.otp) : Steady s t :=
  ⟨.of_bootSide h, ho ▸ .refl _⟩

/-! ### What follows from a command -/

theorem bootFail_if_stays {p : Prop} [Decidable p] (c k e sg : Nat) {a d : Dev} (h : Stays a d) :
    Stays a (if p then bootFail c k e sg d else d) := by
  split
  · exact .of_step (bootFail_step_ne c k e sg d)
  · exact h

/-- Step 2 of a boot completes a transition and draws the keys of the boot, or ends it. -/
theorem romStep_steady (s : State) : Steady s (romStep s) where
  dev := bootFail_if_stays _ _ _ _ ⟨fun h => by
    simpa only [drawBytes_dev, and_true] using h⟩
  otp := by
    cases h : interrupted s.otp with
    | none =>
      have ho : (romStep s).otp = s.otp := by simp only [romStep, h]
      exact ho ▸ .refl _
    | some t =>
      have ho : (romStep s).otp = completeTransition t s.otp := by simp only [romStep, h]
      exact ho ▸ completeTransition_on t _

theorem romDone_steady (s : State) : Steady s (romDone s) := by
  unfold romDone
  split
  · exact romStep_steady s
  · exact .refl s

/-- What follows from a command keeps a running device as it booted, and the floor. -/
theorem settle_steady (s : State) : Steady s (settle s) :=
  (Steady.of_dev (tripCheck_stays s.dev)).trans <| (romDone_steady _).trans <|
    .of_bootSide (settlePower_bootSide _) rfl

/-! ### The host's commands -/

theorem latch_steady (off : Nat) (s : State) : Steady s (latch off s) := by
  unfold latch
  dsimp only
  split
  · exact .refl s
  · exact .of_bootSide (bootSide_update s.dev ..) rfl

theorem readWords_steady (l : List Nat) (s : State) : Steady s (readWords l s).2 := by
  fun_induction readWords l s with
  | case1 s => exact .refl s
  | case2 o rest s s1 r ih => exact (latch_steady o s).trans <| (Steady.of_dev (.of_bootSide (by simp [s1]))).trans ih

theorem telemetry_steady (s : State) : Steady s (telemetry s) := by
  unfold telemetry
  dsimp only
  split
  · exact (readWords_steady _ s).trans (.of_dev (.of_bootSide (by simp)))
  · exact .refl s

theorem writeInjCtrl_steady (v : Word) (s : State) : Steady s (writeInjCtrl v s) := by
  unfold writeInjCtrl
  dsimp only
  repeat' split
  all_goals exact .of_bootSide (modErr_bootSide _ _) rfl

/-- A write of a register of the window leaves boot, image and fuses. -/
theorem writeReg_steady (off : Nat) (v : Word) (s t : State) (h : writeReg off v s = some t) : Steady s t := by
  have dev (f : Dev → Dev) (h : some { s with dev := f s.dev } = some t) (hf : bootSide (f s.dev) = bootSide s.dev) : Steady s t :=
    Option.some.inj h ▸ .of_bootSide hf rfl
  have cluster (f : Dev → Dev) (h : (if regPowered s.dev off then some { s with dev := f s.dev } else some s) = some t)
      (hf : bootSide (f s.dev) = bootSide s.dev) : Steady s t := by
    split at h
    · exact dev f h hf
    · exact Option.some.inj h ▸ .refl s
  unfold writeReg at h
  dsimp only at h
  split at h
  · split at h
    · exact dev _ h (by simp)
    · cases h
  · split at h
    · exact cluster _ h (by simp)
    · exact cluster _ h (by simp)
    · split at h
      · cases h
      · exact cluster _ h (by simp)
    · split at h
      · exact cluster _ h (by simp)
      · exact Option.some.inj h ▸ .refl s
    · cases h
  · obtain ⟨g, -, h⟩ := Option.bind_eq_some_iff.mp h
    exact cluster _ h (by simp)
  · split at h
    · exact dev _ h (by simp)
    · cases h
  · split at h
    · exact dev _ h (by simp)
    · split at h
      · exact dev (fun d => { d with kv := { d.kv with editWait := w1c d.kv.editWait v } }) h (by simp)
      · split at h
        · exact dev _ h (by simp [apply_ite bootSide])
        · split at h
          · exact dev _ h (by simp)
          · split at h
            · exact dev _ h (by simp)
            · obtain ⟨g, -, h⟩ := Option.bind_eq_some_iff.mp h
              exact dev _ h (by simp)
  · split at h
    · exact dev _ h (by simp)
    · split at h
      · exact dev _ h (by simp)
      · cases h
  · split at h
    · exact dev _ h (by simp)
    · split at h
      · exact dev _ h (by simp)
      · cases h
  · split at h
    · exact dev _ h (by simp)
    · split at h
      · exact dev _ h (by simp)
      · split at h
        · exact Option.some.inj h ▸ writeInjCtrl_steady v s
        · cases h
  · cases h

/-- What a handler of a frame leaves, when it changes the device alone. -/
theorem sayDev_steady (r : Reply) {d : Dev} {s : State} (h : bootSide d = bootSide s.dev) : Steady s (sayDev r d s).1 :=
  .of_bootSide h rfl

end Sys2Proof.Machine
end

section
/-! PROOFS. The same of every handler of a command frame, of the Kennel and of the lifecycle transition. -/

namespace Sys2Proof.Machine

@[simp] theorem kennelPart_bootSide (s : State) : bootSide (kennelPart s).2 = bootSide s.dev := by
  unfold kennelPart
  dsimp only
  split <;> simp

theorem reportBody_dev (session : Bool) (nonce key : Bytes) (s : State) :
    (reportBody session nonce key s).2 = (kennelPart s).2 := by
  unfold reportBody
  dsimp only

theorem report_dev (session : Bool) (nonce key : Bytes) (s : State) :
    (report session nonce key s).2 = (reportBody session nonce key s).2 := by
  unfold report
  dsimp only

@[simp] theorem report_bootSide (session : Bool) (nonce key : Bytes) (s : State) :
    bootSide (report session nonce key s).2 = bootSide s.dev := by rw [report_dev, reportBody_dev, kennelPart_bootSide]

theorem handleRead_steady (n : Sess) (p : Bytes) (s : State) : Steady s (handleRead n p s).1 := by
  unfold handleRead
  extract_lets off cnt offs may
  split
  · exact .refl s
  · split
    · exact readWords_steady _ s
    · exact .refl s

theorem handleWrite_steady (n : Sess) (p : Bytes) (s : State) : Steady s (handleWrite n p s).1 := by
  unfold handleWrite
  dsimp only
  split
  · exact .refl s
  · split
    · exact .refl s
    · split
      next t h => exact writeReg_steady _ _ s t h
      · exact .refl s

theorem handleAttest_steady (p : Bytes) (s : State) : Steady s (handleAttest p s).1 := by
  unfold handleAttest
  split
  · exact .refl s
  · split
    · exact sayDev_steady _ (report_bootSide ..)
    · exact .refl s

theorem openSession_steady (n : Nat) (p : Bytes) (s : State) : Steady s (openSession n p s).1 :=
  sayDev_steady _ (by simp)

theorem handleOpen_steady (p : Bytes) (s : State) : Steady s (handleOpen p s).1 := by
  unfold handleOpen
  dsimp only
  split
  · exact .refl s
  · split
    · exact .refl s
    · split
      · exact sayDev_steady _ (authFailed_bootSide ..)
      · split
        · exact .refl s
        · exact openSession_steady _ p s

theorem handleClose_steady (n : Sess) (p : Bytes) (s : State) : Steady s (handleClose n p s).1 := by
  unfold handleClose
  split
  · exact .refl s
  · split
    · exact sayDev_steady _ (endSession_bootSide ..)
    · exact .refl s

theorem injectWake_steady (p : Bytes) (s : State) : Steady s (injectWake p s).1 := by
  unfold injectWake
  dsimp only
  split
  · exact .refl s
  · split
    · exact sayDev_steady _ (arrive_bootSide ..)
    · split
      · exact sayDev_steady _ (arrive_bootSide ..)
      · exact .refl s

theorem injectMark_steady (p : Bytes) (s : State) : Steady s (injectMark p s).1 := by
  unfold injectMark
  split
  · split
    · exact sayDev_steady _ (takeMark_bootSide ..)
    · exact .refl s
  · exact .refl s

theorem handleEvent_steady (p : Bytes) (s : State) : Steady s (handleEvent p s).1 := by
  unfold handleEvent
  split
  · exact .refl s
  · split
    · exact injectWake_steady p s
    · split
      · exact injectMark_steady p s
      · exact .refl s

theorem submit_steady (n : Nat) (p : Bytes) (s : State) : Steady s (submit n p s).1 := by
  unfold submit
  dsimp only
  split
  · split
    · exact sayDev_steady _ (arrive_bootSide ..)
    · split
      · exact .refl s
      · exact sayDev_steady _ (by simp)
  · exact sayDev_steady _ (by simp)

theorem handlePrompt_steady (n : Sess) (p : Bytes) (s : State) : Steady s (handlePrompt n p s).1 := by
  unfold handlePrompt
  split
  · exact .refl s
  · dsimp only
    split
    · exact .refl s
    · split
      · exact .refl s
      · exact submit_steady _ p s

theorem handlePreroll_steady (n : Sess) (p : Bytes) (s : State) : Steady s (handlePreroll n p s).1 := by
  unfold handlePreroll
  dsimp only
  split
  · exact .refl s
  · split
    · exact .refl s
    · split
      · exact .refl s
      · split
        · exact sayDev_steady _ (record_bootSide ..)
        · split
          · split <;> exact .refl s
          · exact sayDev_steady _ (record_bootSide ..)

theorem handleKennel_steady (n : Sess) (p : Bytes) (s : State) : Steady s (handleKennel n p s).1 := by
  unfold handleKennel
  split
  · exact .of_bootSide (modHost_bootSide ..) rfl
  · exact .refl s

theorem requestTransition_steady (q : Bytes) (s : State) : Steady s (requestTransition q s).1 := by
  unfold requestTransition
  split
  · exact .refl s
  · split
    · exact ⟨.refl _, rfl, Nat.le_refl _⟩
    · exact sayDev_steady _ (info_bootSide ..)

theorem dumpTensor_steady (q : Bytes) (s : State) : Steady s (dumpTensor q s).1 := by
  unfold dumpTensor
  dsimp only
  split
  · exact .refl s
  · split
    · exact .refl s
    · split
      · exact sayDev_steady _ (by simp)
      · exact .refl s

theorem handleMaintenance_steady (n : Sess) (p : Bytes) (s : State) : Steady s (handleMaintenance n p s).1 := by
  unfold handleMaintenance
  split
  · exact .refl s
  · split
    · exact .refl s
    · split
      · split
        · exact .of_dev (ownerSnapshot_writes s.dev).stays
        · exact .refl s
      · split
        · exact .refl s
        · split
          · exact .refl s
          · exact sayDev_steady _ (queueTest_bootSide ..)
      · exact requestTransition_steady _ s
      · split
        · exact .refl s
        · exact dumpTensor_steady _ s
      · exact .refl s

theorem handle_steady (op : Nat) (n : Sess) (p : Bytes) (s : State) : Steady s (handle op n p s).1 := by
  unfold handle
  split
  · exact handleRead_steady n p s
  · exact handleWrite_steady n p s
  · exact handleAttest_steady p s
  · exact handleOpen_steady p s
  · exact handleClose_steady n p s
  · exact handleEvent_steady p s
  · exact handlePrompt_steady n p s
  · exact handlePreroll_steady n p s
  · exact handleKennel_steady n p s
  · exact handleMaintenance_steady n p s
  · exact .refl s

theorem serve_steady (op : Nat) (f : Frame) (g : Option Guard) (p : Bytes) (s : State) : Steady s (serve op f g p s) :=
  (Steady.of_dev (.of_bootSide (wakeSupervisor_bootSide ..))).trans <| (handle_steady op _ p _).trans <|
    .of_dev (.of_bootSide (settleReply_bootSide ..))

theorem serveProtected_steady (op : Nat) (f : Frame) (s : State) : Steady s (serveProtected op f s) := by
  unfold serveProtected
  dsimp only
  split
  · exact .of_dev (.of_bootSide (respond_bootSide ..))
  · split
    · exact .of_dev (.of_bootSide (by simp))
    · exact (Steady.of_dev (.of_bootSide (modSession_bootSide ..))).trans (serve_steady ..)

theorem hostFrame_steady (op : Nat) (f : Frame) (s : State) : Steady s (hostFrame op f s) := by
  have answer (st : Nat) : Steady s { s with dev := respond st f.seq op [] none (receiveFrame s.dev) } :=
    .of_dev (.of_bootSide (by simp))
  have taken : Steady s { s with dev := receiveFrame s.dev } := .of_dev (.of_bootSide (receiveFrame_bootSide _))
  unfold hostFrame
  dsimp only
  split
  · exact .of_dev (.of_bootSide (modHost_bootSide ..))
  · split
    · exact answer 5
    · split
      · exact .of_dev (.of_bootSide (by simp))
      · split
        · exact answer 4
        · split
          · exact answer 2
          · split
            · exact taken.trans (serve_steady ..)
            · split
              · exact answer 6
              · exact taken.trans (serveProtected_steady ..)

/-! ### The Kennel, the lifecycle -/

theorem Steady.of_kennel (k : Kennel) (s : State) : Steady s { s with kennel := k } := ⟨.refl _, .refl _⟩

theorem deliver_steady (a : Bytes) (s : State) : Steady s (deliver a s) := by
  unfold deliver
  split
  · split
    · exact .of_dev (.of_bootSide (finishCur_bootSide ..))
    · exact .of_kennel _ s
  · exact .of_kennel _ s

theorem stableReached_steady (s : State) : Steady s (stableReached s) := by
  unfold stableReached
  split
  · exact (Steady.of_kennel _ s).trans (deliver_steady _ _)
  · exact .refl s

theorem stableTimeout_steady (s : State) : Steady s (stableTimeout s) := by
  unfold stableTimeout
  split
  · exact (Steady.of_kennel _ s).trans (deliver_steady _ _)
  · exact .refl s

theorem discardAnswer_steady (s : State) : Steady s (discardAnswer s) := .of_bootSide (modHost_bootSide ..) rfl

theorem programDone_steady (s : State) : Steady s (programDone s) := by
  unfold programDone
  split
  · split
    · exact ⟨.of_step (deviceReset_step_ne _ _ _), completeTransition_on _ _⟩
    · exact .refl s
  · exact .refl s

theorem blankToTest_steady (k c p : Bytes) (s : State) : Steady s (blankToTest k c p s) := by
  unfold blankToTest
  split
  · exact ⟨.of_bootSide (by simp), (completeTransition_on 1 _ : OtpOn { s.otp with .. } _)⟩
  · exact .refl s

end Sys2Proof.Machine
end

section
/-! PROOFS. The same of every command but the two that may take boot to the running phase. -/

namespace Sys2Proof.Machine

/-! ### Every command but those two that may reach the running phase -/

/-- Whatever next state a command answers, it is a steady one. -/
def Leaves (s : State) (r : Result) : Prop := ∀ t, r = .next t → Steady s t

theorem wholeStep_leaves {f : State → State} {s : State} (h : Steady s (f s)) : Leaves s (wholeStep f s) := by
  rintro t ⟨⟩
  exact h.trans (settle_steady _)

theorem devStep_leaves {f : Dev → Dev} {s : State} (h : Stays s.dev (f s.dev)) : Leaves s (devStep f s) := by
  rintro t ⟨⟩
  exact (Steady.of_dev h).trans (settle_steady _)

/-- A meaning that touches neither boot nor image. -/
theorem devStep_plain {f : Dev → Dev} {s : State} (h : bootSide (f s.dev) = bootSide s.dev) : Leaves s (devStep f s) :=
  devStep_leaves (.of_bootSide h)

theorem kenStep_leaves (f : Kennel → Kennel) (s : State) : Leaves s (kenStep f s) := by
  rintro t ⟨⟩
  exact .of_kennel _ s

theorem latchRead_leaves (off : Nat) (s : State) : Leaves s (latchRead off s) := by
  refine wholeStep_leaves ?_
  split
  · exact latch_steady off s
  · exact .refl s

theorem unlessWf_leaves {i : Instr} {s : State} {k : Result} (h : Leaves s k) : Leaves s (unlessWf i s k) := by
  unfold unlessWf
  split
  · exact h
  · rintro t ⟨⟩
    exact .refl s

/-- A command that a frame of the host carries. -/
theorem hostStep_leaves (i : Instr) (op : Nat) (f : Frame) (s : State) : Leaves s (unlessWf i s (wholeStep (hostFrame op f) s)) :=
  unlessWf_leaves (wholeStep_leaves (hostFrame_steady op f s))

theorem execBrownOut_leaves (rail : Fin 2) (micros : Nat) (s : State) :
    Leaves s (execBrownOut rail micros s) := by
  unfold execBrownOut
  refine devStep_leaves ?_
  split
  · exact brownOut_stays _
  · exact .refl _

theorem execWakeArrival_leaves (w : Wake) (s : State) :
    Leaves s (execWakeArrival w s) := by
  unfold execWakeArrival
  refine unlessWf_leaves <| devStep_plain ?_
  simp [apply_ite bootSide]

theorem execArbiterCycle_leaves (s : State) :
    Leaves s (execArbiterCycle s) := by
  unfold execArbiterCycle
  refine devStep_plain ?_
  simp [apply_ite bootSide]

theorem execIdleHoldExpiry_leaves (tier : Fin 3) (s : State) :
    Leaves s (execIdleHoldExpiry tier s) := by
  unfold execIdleHoldExpiry
  refine devStep_plain ?_
  simp [apply_ite bootSide]

theorem execPdmLineStuck_leaves (line : Fin 8) (s : State) :
    Leaves s (execPdmLineStuck line s) := by
  unfold execPdmLineStuck
  refine devStep_plain ?_
  simp [apply_ite bootSide]

theorem execPdmLineRecover_leaves (line : Fin 8) (s : State) :
    Leaves s (execPdmLineRecover line s) := by
  unfold execPdmLineRecover
  refine devStep_plain ?_
  simp

theorem execTdmFrameSync_leaves (slots : List Int) (s : State) :
    Leaves s (execTdmFrameSync slots s) := by
  unfold execTdmFrameSync
  refine unlessWf_leaves <| devStep_plain ?_
  simp [apply_ite bootSide]

theorem execTdmLost_leaves (s : State) :
    Leaves s (execTdmLost s) := by
  unfold execTdmLost
  refine devStep_plain ?_
  simp [apply_ite bootSide]

theorem execTdmLock_leaves (s : State) :
    Leaves s (execTdmLock s) := by
  unfold execTdmLock
  refine devStep_plain ?_
  simp [apply_ite bootSide]

theorem execWakeInputEdge_leaves (input : Fin 16) (level : Bool) (s : State) :
    Leaves s (execWakeInputEdge input level s) := by
  unfold execWakeInputEdge
  refine devStep_plain ?_
  dsimp only
  split <;> simp [apply_ite bootSide]

theorem execSensorIbi_leaves (sensor : Fin 32) (payload : Bytes) (s : State) :
    Leaves s (execSensorIbi sensor payload s) := by
  unfold execSensorIbi
  refine unlessWf_leaves <| devStep_plain ?_
  simp [apply_ite bootSide]

theorem execPerkSramUncorrectable_leaves (arrival : Nat) (s : State) :
    Leaves s (execPerkSramUncorrectable arrival s) := by
  unfold execPerkSramUncorrectable
  refine devStep_plain ?_
  split <;> simp [apply_ite bootSide]

theorem execCsi2FrameStart_leaves (port : Fin 4) (vc : Fin 16) (fn : Nat) (ecc : Ecc) (s : State) :
    Leaves s (execCsi2FrameStart port vc fn ecc s) := by
  unfold execCsi2FrameStart
  refine unlessWf_leaves <| devStep_plain ?_
  simp [apply_ite bootSide]

theorem execCsi2LongPacket_leaves (port : Fin 4) (vc : Fin 16) (dtype : Nat) (bytes : Bytes) (crcOk : Bool) (ecc : Ecc) (s : State) :
    Leaves s (execCsi2LongPacket port vc dtype bytes crcOk ecc s) := by
  unfold execCsi2LongPacket
  refine devStep_plain ?_
  simp [apply_ite bootSide]

theorem execCsi2FrameEnd_leaves (port : Fin 4) (vc : Fin 16) (ecc : Ecc) (s : State) :
    Leaves s (execCsi2FrameEnd port vc ecc s) := by
  unfold execCsi2FrameEnd
  refine devStep_plain ?_
  simp [apply_ite bootSide]

theorem execStreamIdle_leaves (stream : Fin 48) (s : State) :
    Leaves s (execStreamIdle stream s) := by
  unfold execStreamIdle
  refine devStep_plain ?_
  split <;> simp [apply_ite bootSide]

theorem execPipe0LineDone_leaves (out : IspFrame) (s : State) :
    Leaves s (execPipe0LineDone out s) := by
  unfold execPipe0LineDone
  refine devStep_plain ?_
  simp [apply_ite bootSide]

theorem execPipe1FrameStart_leaves (s : State) :
    Leaves s (execPipe1FrameStart s) := by
  unfold execPipe1FrameStart
  refine devStep_plain ?_
  split <;> simp [apply_ite bootSide]

theorem execPipe1FrameDone_leaves (out : IspFrame) (s : State) :
    Leaves s (execPipe1FrameDone out s) := by
  unfold execPipe1FrameDone
  refine devStep_plain ?_
  dsimp only
  split <;> simp [apply_ite bootSide]

theorem execThumbnailReceived_leaves (stream : Fin 48) (fn : Nat) (lines : List Bytes) (crcOk : List Bool) (dropped corrected : Nat) (s : State) :
    Leaves s (execThumbnailReceived stream fn lines crcOk dropped corrected s) := by
  unfold execThumbnailReceived
  refine unlessWf_leaves <| devStep_plain ?_
  dsimp only
  split <;> simp [apply_ite bootSide]

theorem execSettingsBlockPost_leaves (sensor : Fin 32) (part : Fin 128) (settingsId : Nat) (entries : List (Nat × Nat)) (s : State) :
    Leaves s (execSettingsBlockPost sensor part settingsId entries s) := by
  unfold execSettingsBlockPost
  refine unlessWf_leaves <| devStep_plain ?_
  dsimp only
  split <;> simp [apply_ite bootSide]

theorem execSettingsTransferDone_leaves (sensor : Fin 32) (ack : Bool) (s : State) :
    Leaves s (execSettingsTransferDone sensor ack s) := by
  unfold execSettingsTransferDone
  refine devStep_plain ?_
  simp

theorem execSensorHotJoin_leaves (port : Fin 2) (pid : Nat) (s : State) :
    Leaves s (execSensorHotJoin port pid s) := by
  unfold execSensorHotJoin
  refine unlessWf_leaves <| devStep_plain ?_
  simp [apply_ite bootSide]

theorem execGetpid_leaves (s : State) :
    Leaves s (execGetpid s) := by
  unfold execGetpid
  refine devStep_plain ?_
  simp

theorem execMailboxHeadAdvance_leaves (s : State) :
    Leaves s (execMailboxHeadAdvance s) := by
  unfold execMailboxHeadAdvance
  refine devStep_plain ?_
  simp [apply_ite bootSide]

/-- Step 7 and the reads of blobs alone may take boot to the running phase (Table 2.15). -/
def reachesRunning : Instr → Bool
  | .imageAcceptance _ _ _ | .blobSegmentReadDone _ _ _ _ _ => true
  | _ => false

theorem exec_leaves (i : Instr) (s : State) (hi : reachesRunning i = false) : Leaves s (exec i s) := by
  cases i with
  | powerOn => exact devStep_leaves (heldReset_stays ..)
  | brownOut rail => exact execBrownOut_leaves rail _ _
  | porstAssert => exact devStep_leaves (porstLow_stays ..)
  | porstRelease => exact devStep_leaves (porstHigh_stays ..)
  | sfdpReadDone => exact devStep_leaves (sfdpRead_stays ..)
  | headerReadDone => exact unlessWf_leaves <| devStep_leaves (headerRead_stays ..)
  | manifestReadDone => exact devStep_leaves (manifestRead_stays ..)
  | recordReadDone => exact devStep_leaves (recordRead_stays ..)
  | dramTrainingDone => exact unlessWf_leaves <| devStep_leaves (trainingDone_stays ..)
  | imageAcceptance => cases hi
  | blobSegmentReadDone => cases hi
  | errlogSpacingExpiry => exact devStep_leaves (spacingEnds_writes ..).stays
  | flashWriteDone => exact devStep_leaves (writeEnds_writes ..).stays
  | wakeArrival => exact execWakeArrival_leaves _ _
  | arbiterCycle => exact execArbiterCycle_leaves _
  | idleHoldExpiry => exact execIdleHoldExpiry_leaves _ _
  | arriveCounterRead => exact latchRead_leaves _ _
  | audioSample => exact devStep_plain (audioSample_bootSide ..)
  | pdmLineStuck => exact execPdmLineStuck_leaves _ _
  | pdmLineRecover => exact execPdmLineRecover_leaves _ _
  | tdmFrameSync => exact execTdmFrameSync_leaves _ _
  | tdmLost => exact execTdmLost_leaves _
  | tdmLock => exact execTdmLock_leaves _
  | wakeInputEdge => exact execWakeInputEdge_leaves _ _ _
  | sensorIbi => exact execSensorIbi_leaves _ _ _
  | perkStep => exact unlessWf_leaves <| devStep_plain (perkStep_bootSide ..)
  | perkSramUncorrectable => exact execPerkSramUncorrectable_leaves _ _
  | snfIndexRead => exact latchRead_leaves _ _
  | csi2FrameStart => exact execCsi2FrameStart_leaves _ _ _ _ _
  | csi2LongPacket => exact execCsi2LongPacket_leaves _ _ _ _ _ _ _
  | csi2FrameEnd => exact execCsi2FrameEnd_leaves _ _ _ _
  | streamIdle => exact execStreamIdle_leaves _ _
  | pipe0LineDone => exact execPipe0LineDone_leaves _ _
  | pipe1FrameStart => exact execPipe1FrameStart_leaves _
  | pipe1FrameDone => exact execPipe1FrameDone_leaves _ _
  | thumbnailReceived => exact execThumbnailReceived_leaves _ _ _ _ _ _ _
  | settingsBlockPost => exact execSettingsBlockPost_leaves _ _ _ _ _
  | settingsTransferDone => exact execSettingsTransferDone_leaves _ _ _
  | sensorHotJoin => exact execSensorHotJoin_leaves _ _ _
  | csiFrameRead => exact latchRead_leaves _ _
  | requestBind => exact devStep_plain (requestBind_bootSide ..)
  | descriptorInstantiate => exact devStep_plain (instantiate_bootSide ..)
  | descriptorReady => exact devStep_plain (descReady_bootSide ..)
  | tileDispatch => exact devStep_plain (dispatch_bootSide ..)
  | affinityWaitExpiry => exact devStep_plain (affinityExpiry_bootSide ..)
  | tileAdvanceEnd => exact devStep_plain (advanceEnd_bootSide ..)
  | tileCommitEnd => exact devStep_plain (commitEnd_bootSide ..)
  | tileFault => exact unlessWf_leaves <| devStep_plain (tileFault_bootSide ..)
  | scaleTagMismatch => exact devStep_plain (scaleCheck_bootSide ..)
  | hardStop => exact devStep_plain (hardStop_bootSide ..)
  | hardStopRelease => exact devStep_plain (hardRelease_bootSide ..)
  | tilesCounterRead => exact latchRead_leaves _ _
  | watchedCountClear => exact hostStep_leaves _ _ _ _
  | queryJoin => exact unlessWf_leaves <| devStep_plain (queryJoin_bootSide ..)
  | batchWaitExpiry => exact devStep_plain (batchExpiry_bootSide ..)
  | sweepStart => exact devStep_plain (sweepStart_bootSide ..)
  | clusterMergeDone => exact devStep_plain (clusterMerge_bootSide ..)
  | deviceMergeDone => exact devStep_plain (deviceMerge_bootSide ..)
  | sweepsCounterRead => exact latchRead_leaves _ _
  | resetMark => exact unlessWf_leaves <| devStep_plain (postMark_bootSide ..)
  | stateSwapInDone => exact devStep_plain (swapInDone_bootSide ..)
  | stateSwapOutDone => exact devStep_plain (swapOutDone_bootSide ..)
  | stateIdleExpiry => exact devStep_plain (blkIdle_bootSide ..)
  | chunkCounterRead => exact latchRead_leaves _ _
  | pageWalkStart => exact devStep_plain (walkStart_bootSide ..)
  | pageWalkEnd => exact devStep_plain (walkEnd_bootSide ..)
  | allocate => exact devStep_plain (allocate_bootSide ..)
  | fill => exact devStep_plain (fill_bootSide ..)
  | truncate => exact devStep_plain (threadEdit_bootSide ..)
  | release => exact devStep_plain (threadEdit_bootSide ..)
  | editApply => exact devStep_plain (editApply_bootSide ..)
  | pageTableDirectWrite => exact unlessWf_leaves <| devStep_plain (directWrite_bootSide ..)
  | attCounterRead => exact latchRead_leaves _ _
  | transferGranuleDone => exact unlessWf_leaves <| devStep_plain (granuleDone_bootSide ..)
  | windowLoadStart => exact devStep_plain (windowLoad_bootSide ..)
  | windowLayerPresent => exact devStep_plain (windowPresent_bootSide ..)
  | windowLayerLate => exact devStep_plain (windowLate_bootSide ..)
  | windowLayerFailed => exact devStep_plain (windowFailed_bootSide ..)
  | remoteBarrierSignal => exact devStep_plain (remoteSignal_bootSide ..)
  | scrubPeriod => exact devStep_plain (scrub_bootSide ..)
  | movCounterRead => exact latchRead_leaves _ _
  | windowCounterRead => exact latchRead_leaves _ _
  | ddrCounterRead => exact latchRead_leaves _ _
  | budgetWindowStart => exact devStep_plain (budgetWindow_bootSide ..)
  | quotaReached => exact devStep_plain (quotaReached_bootSide ..)
  | coreLeaveSchedule => exact devStep_plain (leaveSchedule_bootSide ..)
  | stepStart => exact devStep_plain (stepStart_bootSide ..)
  | accessViolation => exact unlessWf_leaves <| devStep_plain (accessViolation_bootSide ..)
  | prtResetReq => exact hostStep_leaves _ _ _ _
  | partitionResetCommand => exact devStep_plain (threadReset_bootSide ..)
  | partitionResetComplete => exact devStep_plain (resetComplete_bootSide ..)
  | schedCounterRead => exact latchRead_leaves _ _
  | checkerParityFail => exact devStep_plain (checkerParity_bootSide ..)
  | backstopExpiry => exact devStep_plain (backstop_bootSide ..)
  | enec => exact devStep_plain (ccc_bootSide ..)
  | disec => exact devStep_plain (ccc_bootSide ..)
  | rstdaa => exact devStep_plain (ccc_bootSide ..)
  | entdaa => exact devStep_plain (entdaa_bootSide ..)
  | setdasa => exact devStep_plain (setdasa_bootSide ..)
  | getpid => exact execGetpid_leaves _
  | getbcr => exact devStep_plain (directRead_bootSide ..)
  | getdcr => exact devStep_plain (directRead_bootSide ..)
  | getmxds => exact devStep_plain (directRead_bootSide ..)
  | getstatus => exact devStep_plain (directCcc_bootSide ..)
  | rstact => exact devStep_plain (ccc_bootSide ..)
  | unsupportedCcc => exact devStep_plain (ccc_bootSide ..)
  | hotJoinTimer => exact devStep_plain (hotJoin_bootSide ..)
  | ibiSend => exact devStep_plain (sendIbi_bootSide ..)
  | ibiSpacingExpiry => exact devStep_plain (ccc_bootSide ..)
  | statusRead => exact hostStep_leaves _ _ _ _
  | windowWrite => exact hostStep_leaves _ _ _ _
  | badOpcode => exact hostStep_leaves _ _ _ _
  | responseRead => exact devStep_plain (readResponse_bootSide ..)
  | attest => exact hostStep_leaves _ _ _ _
  | sessionOpen => exact hostStep_leaves _ _ _ _
  | sessionClose => exact hostStep_leaves _ _ _ _
  | eventInjectWake => exact hostStep_leaves _ _ _ _
  | eventInjectMark => exact hostStep_leaves _ _ _ _
  | promptSubmit => exact hostStep_leaves _ _ _ _
  | prerollRead => exact hostStep_leaves _ _ _ _
  | prerollResponseReady => exact devStep_plain (prerollReady_bootSide ..)
  | errlogSnapshot => exact hostStep_leaves _ _ _ _
  | selfTestRequest => exact hostStep_leaves _ _ _ _
  | lifecycleTransition => exact hostStep_leaves _ _ _ _
  | lifecycleProgramDone => exact wholeStep_leaves (programDone_steady s)
  | tensorDump => exact hostStep_leaves _ _ _ _
  | recordSend => exact devStep_plain (sendRecord_bootSide ..)
  | telemetryPeriod => exact wholeStep_leaves (telemetry_steady s)
  | i3tCounterRead => exact latchRead_leaves _ _
  | kennelReset => exact kenStep_leaves _ _
  | kennelPowerupRecord => exact kenStep_leaves _ _
  | kennelReading => exact unlessWf_leaves <| kenStep_leaves _ _
  | kennelZero => exact hostStep_leaves _ _ _ _
  | kennelTareTake => exact hostStep_leaves _ _ _ _
  | kennelTareClear => exact hostStep_leaves _ _ _ _
  | kennelReadLatest => exact hostStep_leaves _ _ _ _
  | kennelReadStable => exact hostStep_leaves _ _ _ _
  | kennelStatusBlock => exact hostStep_leaves _ _ _ _
  | kennelCertificate => exact hostStep_leaves _ _ _ _
  | kennelBadRequest => exact hostStep_leaves _ _ _ _
  | kennelStableReached => exact wholeStep_leaves (stableReached_steady s)
  | kennelStableTimeout => exact wholeStep_leaves (stableTimeout_steady s)
  | kennelAnswerTimeout => exact devStep_plain (answerTimeout_bootSide ..)
  | kennelLateAnswer => exact wholeStep_leaves (discardAnswer_steady s)
  | mailboxHeadAdvance => exact execMailboxHeadAdvance_leaves _
  | sealOpen => exact kenStep_leaves _ _
  | sealClose => exact kenStep_leaves _ _
  | calibrationCommit => exact kenStep_leaves _ _
  | kenCounterRead => exact latchRead_leaves _ _
  | crystalStop => exact devStep_plain (crystalStop_bootSide ..)
  | crystalRestart => exact devStep_plain (crystalRestart_bootSide ..)
  | pllLockLost => exact devStep_leaves (pllLost_stays ..)
  | bootPointStepUp => exact devStep_plain (bootRaise_bootSide ..)
  | governorPeriod => exact unlessWf_leaves <| devStep_leaves (governorPeriod_stays ..)
  | governorStepDown => exact devStep_plain (governorDown_bootSide ..)
  | governorStepUp => exact devStep_plain (governorUp_bootSide ..)
  | operatingPointChangeDone => exact devStep_plain (changeDone_bootSide ..)
  | holdLevelExpiry => exact devStep_plain (holdEnds_bootSide ..)
  | thermalCapStep => exact devStep_plain (thermalStep_bootSide ..)
  | thermalCapRecover => exact devStep_plain (thermalRecover_bootSide ..)
  | thermalShutdown => exact devStep_leaves (thermalShutdown_stays ..)
  | cooldownBootStart => exact devStep_leaves (cooldownBoot_stays ..)
  | watchdogExpiry => exact devStep_leaves (watchdog_stays ..)
  | clusterReset => exact unlessWf_leaves <| devStep_plain (clusterReset_bootSide ..)
  | pwrCounterRead => exact latchRead_leaves _ _
  | injArm => exact hostStep_leaves _ _ _ _
  | injDisarm => exact hostStep_leaves _ _ _ _
  | errEntryClear => exact hostStep_leaves _ _ _ _
  | errFirstClear => exact hostStep_leaves _ _ _ _
  | selfTestPeriod => exact devStep_plain (testPeriod_bootSide ..)
  | selfTestDone => exact devStep_leaves (testDone_stays ..)
  | abortWindowExpiry => exact devStep_plain (abortWindow_bootSide ..)
  | bankTestPeriod => exact devStep_plain (bankPeriod_bootSide ..)
  | bankSliceDone => exact devStep_plain (bankSlice_bootSide ..)
  | ageingMeasure => exact unlessWf_leaves <| devStep_leaves (measure_stays ..)
  | blankToTestTransition => exact fun t h => Host.Outcome.next.inj h ▸ blankToTest_steady ..
  | calibrationParameterWrite => exact kenStep_leaves _ _
  | commandResponseReady => exact devStep_plain (reportReady_bootSide ..)
  | stemCounterRead => exact latchRead_leaves _ _

end Sys2Proof.Machine
end

section
/-! PROOFS. Which functions of loading leave the checkers and the injections as they are. -/

namespace Sys2Proof.Machine

/-! ### Checkers that nothing has tripped -/

/-- What an injection has armed, and the violation that waits. -/
def checkSide (d : Dev) : Option (Nat × Nat) × Option (Nat × Nat × Nat × Nat) := (d.err.armed, d.sched.tripped)

@[simp] theorem checkSide_update (d : Dev) (boot : Boot) (img : Image) (flash : Flash) (tiers : Tab Tier) (reqs : List Req)
    (nextOrder : Nat) (audio : Audio) (cam : Camera) (units : Tab Unit_) (clusters : Tab Cluster) (cats : Tab Cat) (seqs : Tab Seq)
    (blks : Tab Blk) (kv : Kv) (mem : Mem) (mov : Moving) (host : HostPort) (power : Power) (age : Age) (latches : Tab (List Word))
    (freeCtr : Nat) : checkSide ⟨boot, img, d.err, flash, tiers, reqs, nextOrder, audio, cam, units, clusters, cats, seqs, blks, kv,
      mem, mov, d.sched, host, power, age, latches, freeCtr⟩ = checkSide d := congrArg₂ Prod.mk rfl rfl

@[simp] theorem foldl_checkSide {α : Type} (f : Dev → α → Dev) (h : ∀ d x, checkSide (f d x) = checkSide d) (l : List α) :
    ∀ d : Dev, checkSide (l.foldl f d) = checkSide d := by
  induction l with
  | nil => intro d; rfl
  | cons x r ih => intro d; rw [List.foldl_cons, ih, h]

/-- Recording a code arms nothing. -/
@[simp] theorem errRecord_armed (c : Nat) (p : Option Nat) (k : Nat × Nat) (a : Option Nat) (i : Bool) (e : Err) :
    (errRecord c p k a i e).armed = e.armed := by
  simp only [errRecord, apply_ite Err.armed, ite_self]
  split <;> rfl

@[simp] theorem recordAt_checkSide (c : Nat) (p : Option Nat) (k : Nat × Nat) (a : Option Nat) (i : Bool) (d : Dev) :
    checkSide (recordAt c p k a i d) = checkSide d := by
  unfold recordAt ibi
  dsimp only
  split <;> simp [checkSide]

@[simp] theorem initCheckers_checkSide (n : Nat) (d : Dev) : checkSide (initCheckers n d) = checkSide d := congrArg₂ Prod.mk rfl rfl

@[simp] theorem modBoot_checkSide (f : Boot → Boot) (d : Dev) : checkSide (modBoot f d) = checkSide d := by simp [modBoot]

@[simp] theorem modMover_checkSide (n : Nat) (f : Mover → Mover) (d : Dev) :
    checkSide (modMover n f d) = checkSide d := by simp [modMover]

@[simp] theorem modDdr_checkSide (f : Ddr → Ddr) (d : Dev) : checkSide (modDdr f d) = checkSide d := by simp [modDdr]

@[simp] theorem modCam_checkSide (f : Camera → Camera) (d : Dev) : checkSide (modCam f d) = checkSide d := by simp [modCam]

@[simp] theorem modSensor_checkSide (s : Nat) (f : Sensor → Sensor) (d : Dev) :
    checkSide (modSensor s f d) = checkSide d := by simp [modSensor]

@[simp] theorem modCat_checkSide (n : Nat) (f : Cat → Cat) (d : Dev) : checkSide (modCat n f d) = checkSide d := by simp [modCat]

@[simp] theorem modBlk_checkSide (n : Nat) (f : Blk → Blk) (d : Dev) : checkSide (modBlk n f d) = checkSide d := by simp [modBlk]

@[simp] theorem modAge_checkSide (f : Age → Age) (d : Dev) : checkSide (modAge f d) = checkSide d := by simp [modAge]

@[simp] theorem modCluster_checkSide (n : Nat) (f : Cluster → Cluster) (d : Dev) :
    checkSide (modCluster n f d) = checkSide d := by simp [modCluster]

@[simp] theorem modPower_checkSide (f : Power → Power) (d : Dev) : checkSide (modPower f d) = checkSide d := by simp [modPower]

@[simp] theorem modSlot_checkSide (a : Nat) (f : AudioSlot → AudioSlot) (d : Dev) :
    checkSide (modSlot a f d) = checkSide d := by simp [modSlot]

@[simp] theorem modTier_checkSide (t : Nat) (f : Tier → Tier) (d : Dev) :
    checkSide (modTier t f d) = checkSide d := by simp [modTier]

@[simp] theorem draw_checkSide (d : Dev) : checkSide (draw d).2 = checkSide d := by simp [draw]

@[simp] theorem record_checkSide (c : Nat) (part : Option Nat) (detail : Nat × Nat) (d : Dev) :
    checkSide (record c part detail d) = checkSide d := by simp [record]

@[simp] theorem info_checkSide (c : Nat) (d : Dev) : checkSide (info c d) = checkSide d := by simp [info]

@[simp] theorem setPhase_checkSide (p : Nat) (d : Dev) : checkSide (setPhase p d) = checkSide d := by
  obtain ⟨i, n, h⟩ := setPhase_frame p d
  rw [h]
  exact congrArg₂ Prod.mk rfl rfl

@[simp] theorem memStore_checkSide (a : Nat) (b : Bytes) (d : Dev) :
    checkSide (memStore a b d) = checkSide d := by simp [memStore]

@[simp] theorem withChecks_checkSide (granules : Nat) (d : Dev) : checkSide (withChecks granules d).2 = checkSide d := by
  unfold withChecks
  split <;> simp

@[simp] theorem countTraffic_checkSide (a granules : Nat) (write : Bool) (d : Dev) :
    checkSide (countTraffic a granules write d) = checkSide d := by
  unfold countTraffic
  split <;> simp

@[simp] theorem countRemote_checkSide (a granules : Nat) (d : Dev) : checkSide (countRemote a granules d) = checkSide d := by
  unfold countRemote
  split <;> simp

@[simp] theorem remoteStore_checkSide (a : Nat) (b : Bytes) (d : Dev) :
    checkSide (remoteStore a b d) = checkSide d := by simp [remoteStore]

@[simp] theorem sendRead_checkSide (d : Dev) : checkSide (sendRead d) = checkSide d := by simp [sendRead]

@[simp] theorem countCorrected_checkSide (n : Nat) (d : Dev) :
    checkSide (countCorrected n d) = checkSide d := by simp [countCorrected]

@[simp] theorem mediumRead_checkSide (e : BlobEntry) (seg : Option Nat) (n : Nat) (first : List (List Nat))
    (again : List (List (List Nat))) (d : Dev) :
    checkSide (mediumRead e seg n first again d) = checkSide d := by
  unfold mediumRead
  split <;> simp

@[simp] theorem noteTags_checkSide (row n : Nat) (d : Dev) :
    checkSide (noteTags row n d) = checkSide d := by simp [noteTags, apply_ite checkSide]

@[simp] theorem issue_checkSide (ops : List BusOp) (d : Dev) : checkSide (issue ops d) = checkSide d := by simp [issue]

@[simp] theorem freshBus_checkSide (d : Dev) : checkSide (freshBus d) = checkSide d := by simp [freshBus]

@[simp] theorem initSensor_checkSide (r : SensorRec) (d : Dev) : checkSide (initSensor r d) = checkSide d := by simp [initSensor]

@[simp] theorem joinSensor_checkSide (r : SensorRec) (ops : List BusOp) (d : Dev) :
    checkSide (joinSensor r ops d) = checkSide d := by simp [joinSensor, apply_ite checkSide]

@[simp] theorem targetFound_checkSide (port pid : Nat) (d : Dev) : checkSide (targetFound port pid d) = checkSide d := by
  unfold targetFound
  split <;> simp [apply_ite checkSide]

@[simp] theorem assignAddresses_checkSide (present : List Nat) (found : List (Fin 2 × Nat)) (d : Dev) :
    checkSide (assignAddresses present found d) = checkSide d := by simp [assignAddresses, apply_ite checkSide]

@[simp] theorem writeBlkHeader_checkSide (b : Nat) (d : Dev) :
    checkSide (writeBlkHeader b d) = checkSide d := by simp [writeBlkHeader]

@[simp] theorem storeElems_checkSide (b first : Nat) (l : List (Word × Bool)) (d : Dev) :
    checkSide (storeElems b first l d) = checkSide d := by simp [storeElems]

@[simp] theorem initBlk_checkSide (b : Nat) (d : Dev) : checkSide (initBlk b d) = checkSide d := by simp [initBlk]

@[simp] theorem writeTable_checkSide (s : Nat) (old : Tab PtEntry) (d : Dev) :
    checkSide (writeTable s old d) = checkSide d := by simp [writeTable]

@[simp] theorem startBlocks_checkSide (d : Dev) : checkSide (startBlocks d) = checkSide d := by simp [startBlocks]

@[simp] theorem startSlot_checkSide (a : Nat) (d : Dev) : checkSide (startSlot a d) = checkSide d := by simp [startSlot]

@[simp] theorem startInput_checkSide (d : Dev) : checkSide (startInput d) = checkSide d := by simp [startInput]

@[simp] theorem freshTier_checkSide (t : Nat) (d : Dev) : checkSide (freshTier t d) = checkSide d := by simp [freshTier]

@[simp] theorem readPlan_checkSide (d : Dev) : checkSide (readPlan d) = checkSide d := by
  unfold readPlan
  dsimp only
  split <;> simp

@[simp] theorem readLog_checkSide (d : Dev) : checkSide (readLog d) = checkSide d := by
  unfold readLog
  dsimp only
  split
  · simp
  · split
    · exact congrArg₂ Prod.mk rfl rfl
    · rfl

@[simp] theorem dropLatches_checkSide (lo n : Nat) (d : Dev) :
    checkSide (dropLatches lo n d) = checkSide d := by simp [dropLatches]

@[simp] theorem clearCluster_checkSide (n : Nat) (d : Dev) : checkSide (clearCluster n d) = checkSide d := by
  unfold clearCluster
  split <;> simp

@[simp] theorem enterCores_checkSide (n : Nat) (d : Dev) : checkSide (enterCores n d) = checkSide d := by
  unfold enterCores
  split <;> simp

@[simp] theorem spreadBlob_checkSide (id : Nat) (b : Bytes) (d : Dev) :
    checkSide (spreadBlob id b d) = checkSide d := by simp [spreadBlob]

@[simp] theorem reachRunning_checkSide (d : Dev) : checkSide (reachRunning d) = checkSide d := by simp [reachRunning]

/-- Nothing is armed and no violation waits. -/
def Calm (d : Dev) : Prop := d.err.armed = none ∧ d.sched.tripped = none

theorem Calm.of_checkSide {d e : Dev} (h : checkSide e = checkSide d) (hd : Calm d) : Calm e :=
  ⟨(congrArg Prod.fst h).trans hd.1, (congrArg Prod.snd h).trans hd.2⟩

theorem foldl_calm {α : Type} (f : Dev → α → Dev) (h : ∀ d x, Calm d → Calm (f d x)) (l : List α) :
    ∀ d : Dev, Calm d → Calm (l.foldl f d) := by
  induction l with
  | nil => exact fun d hd => hd
  | cons x r ih => exact fun d hd => ih _ (h d x hd)

theorem tap_of_calm (pool inst kind part : Nat) {d : Dev} (h : Calm d) : tap pool inst kind part d = d :=
  tap_calm pool inst kind part d h.1

theorem passTags_calm (p row n : Nat) (d : Dev) (h : Calm d) : Calm (passTags p row n d) := by
  unfold passTags
  dsimp only
  split
  · exact h
  · rw [tap_of_calm _ _ _ _ h, tap_of_calm _ _ _ _ h]
    exact .of_checkSide (by simp) h

theorem deviceXfer_calm (n part src dst k : Nat) (d : Dev) (h : Calm d) : Calm (deviceXfer n part src dst k d) := by
  unfold deviceXfer
  extract_lets tags d1 d2
  have passed (a : Nat) (write : Bool) (e : Dev) (he : Calm e) : Calm (tags a write e) := by
    unfold tags
    split
    · exact passTags_calm _ _ _ e he
    · exact he
  have h1 : Calm d1 := passed dst true _ (passed src false d h)
  exact .of_checkSide (by simp [d2]) h1

theorem freeXfer_calm (part src dst k : Nat) (d : Dev) (h : Calm d) : Calm (freeXfer part src dst k d) :=
  deviceXfer_calm _ _ _ _ _ _ (.of_checkSide (draw_checkSide d) h)

theorem copyBacked_calm (back : Bool) (d : Dev) (h : Calm d) : Calm (copyBacked back d) := by
  refine .of_checkSide (modPower_checkSide _ _) (foldl_calm _ (fun e p he => ?_) _ d h)
  split <;> exact freeXfer_calm _ _ _ _ e he

theorem banksUp_calm (d : Dev) (h : Calm d) : Calm (banksUp d) := by
  unfold banksUp
  refine .of_checkSide (checkSide_update _ ..) ?_
  split
  · exact copyBacked_calm true d h
  · exact h

theorem clusterUp_calm (n : Nat) (d : Dev) (h : Calm d) : Calm (clusterUp n d) := by
  unfold clusterUp
  dsimp only
  split
  · exact h
  · refine .of_checkSide (d := if d.power.clusters = 0 then banksUp d else d) (by simp) ?_
    split
    · exact banksUp_calm d h
    · exact h

theorem clustersUp_calm (d : Dev) (h : Calm d) : Calm (clustersUp d) := foldl_calm _ (fun e n he => clusterUp_calm n e he) _ d h

end Sys2Proof.Machine
end

section
/-! PROOFS. Loading up to the running phase, and the rollback floor (R43). Settles O7. -/

namespace Sys2Proof.Machine

/-! ### Loading, up to the running phase -/

/-- The boot attempt is over: the device has halted or begins another. -/
def AttemptOver (d : Dev) : Prop := d.boot.step = .halted ∨ d.boot.step = .sfdp

/-- From d to e the attempt has ended, or boot waits for what it waited for, with no new ROM step and no violation brought about. -/
def LoadsOn (d e : Dev) : Prop :=
  AttemptOver e ∨ e.boot.step = d.boot.step ∧ e.boot.romDue = d.boot.romDue ∧ (Calm d → Calm e)

theorem LoadsOn.refl (d : Dev) : LoadsOn d d := .inr ⟨rfl, rfl, id⟩

theorem LoadsOn.trans {a b c : Dev} (h : LoadsOn a b) (g : LoadsOn b c) : LoadsOn a c := by
  rcases g with g | ⟨gs, gr, gc⟩
  · exact .inl g
  · rcases h with h | ⟨hs, hr, hc⟩
    · exact .inl (by rwa [AttemptOver, gs])
    · exact .inr ⟨gs.trans hs, gr.trans hr, gc ∘ hc⟩

theorem LoadsOn.of_sides {d e : Dev} (h : bootSide e = bootSide d) (g : Calm d → Calm e) : LoadsOn d e :=
  .inr ⟨congrArg Boot.step (boot_of_bootSide h), congrArg Boot.romDue (boot_of_bootSide h), g⟩

/-- A change of boot fields other than the step and the due ROM step. -/
theorem modBoot_loadsOn {f : Boot → Boot} {d : Dev} (hs : (f d.boot).step = d.boot.step) (hr : (f d.boot).romDue = d.boot.romDue) :
    LoadsOn d (modBoot f d) := .inr ⟨hs, hr, .of_checkSide (modBoot_checkSide f d)⟩

theorem setPhase_loadsOn (p : Nat) (d : Dev) : LoadsOn d (setPhase p d) :=
  .inr ⟨by simp, by simp, .of_checkSide (setPhase_checkSide p d)⟩

theorem bootFail_over (c k e sg : Nat) (d : Dev) : AttemptOver (bootFail c k e sg d) := by
  rcases (bootFail_ended c k e sg d).ends with ⟨h, _⟩ | ⟨h, _⟩
  · exact .inl h
  · exact .inr h

theorem withdraw_over (k sg : Nat) (d : Dev) : AttemptOver (withdraw k sg d) := bootFail_over _ _ _ _ _

theorem marginHalt_over (d : Dev) : AttemptOver (marginHalt d) := by
  rcases (haltDevice_ended (deviceSnapshot (info 0x97 d))).ends with ⟨h, _⟩ | ⟨h, _⟩
  · exact .inl h
  · exact .inr h

theorem foldl_loadsOn {α : Type} (f : Dev → α → Dev) (h : ∀ d x, LoadsOn d (f d x)) (l : List α) :
    ∀ d : Dev, LoadsOn d (l.foldl f d) := by
  induction l with
  | nil => exact .refl
  | cons x r ih => exact fun d => (h d x).trans (ih _)

/-- Placing a blob loads on, or withdraws the image (R51). -/
theorem placeBlob_loadsOn (k : Nat) (d : Dev) : LoadsOn d (placeBlob k d) := by
  unfold placeBlob
  split
  · exact .refl d
  · extract_lets e x b bs left
    split
    · exact (modBoot_loadsOn rfl rfl).trans (.of_sides (spreadBlob_bootSide _ _ _) (.of_checkSide (spreadBlob_checkSide _ _ _)))
    · exact .inl (withdraw_over _ _ d)

theorem clustersUp_loadsOn (d : Dev) : LoadsOn d (clustersUp d) := .of_sides (clustersUp_bootSide d) (clustersUp_calm d)

/-- What the blobs placed so far allow: boot loads on, or takes the last step from loading to the running phase. -/
theorem advanceLoad_cases (d : Dev) : LoadsOn d (advanceLoad d) ∨
    ∃ e, LoadsOn d e ∧ e.boot.step = .loading ∧ advanceLoad d = reachRunning e := by
  unfold advanceLoad
  extract_lets placed d1
  have h1 : LoadsOn d d1 := by
    unfold d1
    split
    · split
      · exact .inl (marginHalt_over d)
      · exact (clustersUp_loadsOn d).trans ((modBoot_loadsOn rfl rfl).trans (setPhase_loadsOn 7 _))
    · exact .refl d
  split
  · exact .inl (.refl d)
  · split
    · exact .inl h1
    · rename_i hl
      have hs : d1.boot.step = .loading := by
        simp only [Bool.or_eq_true, bne_iff_ne, ne_eq, not_or, not_not] at hl
        exact hl.1
      split
      · refine .inr ⟨if d1.img.blobs.all (atPoint d1.img) then d1 else setPhase 8 d1, ?_, ?_, rfl⟩
        · split
          · exact h1
          · exact h1.trans (setPhase_loadsOn 8 d1)
        · split
          · exact hs
          · simpa using hs
      · exact .inl (h1.trans (setPhase_loadsOn 8 d1))

/-- If e runs, it has just reached the running phase: phase 9, and nothing follows that did not from d. -/
def Reaches (d e : Dev) : Prop := e.boot.step = .running →
  e.boot.phase = 9 ∧ e.boot.romDue = d.boot.romDue ∧ (Calm d → Calm e)

theorem AttemptOver.reaches {d e : Dev} (h : AttemptOver e) : Reaches d e := by
  intro hr
  rcases h with h | h <;> exact absurd (h.symm.trans hr) (by decide)

theorem advanceLoad_reaches {d e : Dev} (h : LoadsOn d e) (hd : d.boot.step ≠ .running) : Reaches d (advanceLoad e) := by
  intro hr
  rcases advanceLoad_cases e with hc | ⟨g, hg, hl, hc⟩
  · rcases h.trans hc with ho | ⟨hs, -, -⟩
    · exact ho.reaches hr
    · exact absurd (hs.symm.trans hr) hd
  · rcases h.trans hg with ho | ⟨-, hrom, hcalm⟩
    · rcases ho with ho | ho <;> exact absurd (ho.symm.trans hl) (by decide)
    · rw [hc]
      exact ⟨by simp [reachRunning], by simpa [reachRunning, modBoot] using hrom, fun c => .of_checkSide (reachRunning_checkSide g) (hcalm c)⟩

theorem accept_reaches (o : Otp) (ks : List Bytes) (l : List Nat) (t : List (Fin 2 × Nat)) (d : Dev) : Reaches d (accept o ks l t d) := by
  unfold accept
  extract_lets d1 d2 d3 d4 d5 ready
  have h4 : LoadsOn d1 d4 := .of_sides (by simp [d4, d3, d2]) (.of_checkSide (by simp [d4, d3, d2]))
  have h5 : LoadsOn d1 d5 := h4.trans ((modBoot_loadsOn rfl rfl).trans ((setPhase_loadsOn 5 _).trans (setPhase_loadsOn 6 _)))
  have hp : LoadsOn d1 (ready.foldl (fun e k => placeBlob k e) d5) := h5.trans (foldl_loadsOn _ (fun e k => placeBlob_loadsOn k e) _ _)
  intro hr
  obtain ⟨h9, hrom, hcalm⟩ := advanceLoad_reaches hp (by simp [d1, modBoot]) hr
  exact ⟨h9, hrom, fun c => hcalm (.of_checkSide (modBoot_checkSide _ d) c)⟩

theorem acceptance_reaches (o : Otp) (kb : Bytes) (l : List Nat) (t : List (Fin 2 × Nat)) (d : Dev) (hd : d.boot.step ≠ .running) :
    Reaches d (acceptance o kb l t d) := by
  unfold acceptance
  split
  · split
    · split <;> exact (bootFail_over _ _ _ _ d).reaches
    · split
      · exact (bootFail_over _ _ _ _ d).reaches
      · split
        · exact (bootFail_over _ _ _ _ d).reaches
        · exact accept_reaches _ _ _ _ d
  · exact fun hr => absurd hr hd

theorem mediumRead_loadsOn (e : BlobEntry) (seg : Option Nat) (n : Nat) (first : List (List Nat)) (again : List (List (List Nat)))
    (d : Dev) : LoadsOn d (mediumRead e seg n first again d) := by
  refine .inr ⟨?_, ?_, .of_checkSide (mediumRead_checkSide e seg n first again d)⟩ <;>
  · unfold mediumRead
    split <;> rfl

theorem blobRead_reaches (k : Nat) (seg : Option Nat) (b : Bytes) (first : List (List Nat)) (again : List (List (List Nat)))
    (d : Dev) (hd : d.boot.step ≠ .running) : Reaches d (blobRead k seg b first again d) := by
  have same {e : Dev} (h : LoadsOn d e) : Reaches d e := by
    intro hr
    rcases h with h | ⟨hs, -, -⟩
    · exact h.reaches hr
    · exact absurd (hs.symm.trans hr) hd
  unfold blobRead
  extract_lets e x next d1 put
  have h1 : LoadsOn d d1 := mediumRead_loadsOn _ _ _ _ _ d
  have hput (y : BlobState) : LoadsOn d (put y d1) := h1.trans (modBoot_loadsOn rfl rfl)
  split
  · split
    · exact (withdraw_over _ _ _).reaches
    · split
      · split
        · exact same (hput _)
        · exact (withdraw_over _ _ _).reaches
      · split
        · split
          · exact advanceLoad_reaches ((hput _).trans (placeBlob_loadsOn _ _)) hd
          · exact same (hput _)
        · exact (withdraw_over _ _ _).reaches
  · exact same (.refl d)

/-! ### The rollback floor -/

/-- R43 of one step: the floor does not fall; the boot that reaches the running phase with advance_floor = 1 raises it; nothing else
does. -/
def FloorKept (s t : State) : Prop :=
  s.otp.floor ≤ t.otp.floor ∧
    (s.dev.boot.step ≠ .running → t.dev.boot.step = .running → t.dev.boot.phase = 9 ∧
      (t.dev.boot.policy.advanceFloor = 1 → s.otp.floor < t.dev.img.header.securityVersion →
        t.otp.floor = t.dev.img.header.securityVersion)) ∧
    ((s.dev.boot.step = .running ∨ t.dev.boot.step ≠ .running) → s.dev.err.armed = none → t.otp.floor = s.otp.floor)

theorem Steady.floorKept {s t : State} (h : Steady s t) : FloorKept s t :=
  ⟨h.otp.1.ge, fun hs ht => absurd (h.dev.ran ht).1 hs, fun _ _ => h.otp.1⟩

/-- The condition under which boot raises the floor (R43). -/
def Raises (before : Dev) (s : State) : Prop :=
  before.boot.step ≠ .running ∧ s.dev.boot.step = .running ∧ s.dev.boot.policy.advanceFloor = 1 ∧
    s.otp.floor < s.dev.img.header.securityVersion

theorem raiseFloor_of_raises {b : Dev} {s : State} (h : Raises b s) :
    raiseFloor b s = { s with otp := { s.otp with floor := s.dev.img.header.securityVersion } } := by
  obtain ⟨h1, h2, h3, h4⟩ := h
  simp [raiseFloor, h1, h2, h3, h4]

theorem raiseFloor_of_not_raises {b : Dev} {s : State} (h : ¬ Raises b s) : raiseFloor b s = s := by
  unfold raiseFloor
  dsimp only
  refine if_neg fun hc => h ?_
  simpa [Raises, and_assoc] using hc

@[simp] theorem raiseFloor_lifecycle (b : Dev) (s : State) : lifecycle (raiseFloor b s).otp = lifecycle s.otp := by
  by_cases h : Raises b s
  · rw [raiseFloor_of_raises h]; rfl
  · rw [raiseFloor_of_not_raises h]

/-- With no violation and no ROM step due, what follows from a command leaves what boot waits for. -/
theorem settle_step {s : State} (hc : Calm s.dev) (hr : s.dev.boot.romDue = false) : (settle s).dev.boot.step = s.dev.boot.step := by
  obtain ⟨e, a, b, p, ⟨_, _, _, _, _, _, _, rfl⟩, hs⟩ := settle_calm s hc.2 hr
  rw [hs]

/-- A meaning of the boot that may reach the running phase keeps the rules of the floor. -/
theorem bootStep_floorKept {f : Dev → Dev} {s t : State} (hs : Settled s) (h : bootStep f s = .next t)
    (hf : s.dev.boot.step ≠ .running → Reaches s.dev (f s.dev)) : FloorKept s t := by
  obtain ⟨htrip, hrom, -⟩ := hs
  obtain rfl : settle (raiseFloor s.dev { s with dev := f s.dev }) = t := Host.Outcome.next.inj h
  by_cases hr : Raises s.dev { s with dev := f s.dev }
  · have hu := raiseFloor_of_raises hr
    have hsettle := settle_steady (raiseFloor s.dev { s with dev := f s.dev })
    rw [hu] at hsettle ⊢
    obtain ⟨hnot, hrun, -, hlow⟩ := hr
    obtain ⟨h9, hrd, hcalm⟩ := hf hnot hrun
    have hfloor := hsettle.otp.1
    refine ⟨hfloor ▸ hlow.le, fun _ ht => ?_, fun hn ha => ?_⟩
    · obtain ⟨-, hphase, -, hhdr⟩ := hsettle.dev.ran ht
      exact ⟨hphase.trans h9, fun _ _ => hfloor.trans (congrArg ImgHeader.securityVersion hhdr.symm)⟩
    · have hstep := settle_step (s := { s with dev := f s.dev, otp := { s.otp with floor := (f s.dev).img.header.securityVersion } })
        (hcalm ⟨ha, htrip⟩) (hrd.trans hrom)
      rcases hn with hn | hn
      · exact absurd hn hnot
      · exact absurd (hstep.trans hrun) hn
  · rw [raiseFloor_of_not_raises hr]
    have hsettle := settle_steady { s with dev := f s.dev }
    refine ⟨hsettle.otp.1.ge, fun hns ht => ?_, fun _ _ => hsettle.otp.1⟩
    obtain ⟨hrun, hphase, hpol, hhdr⟩ := hsettle.dev.ran ht
    refine ⟨hphase.trans (hf hns hrun).1, fun hadv hlow => absurd ?_ hr⟩
    exact ⟨hns, hrun, hpol ▸ hadv, hhdr ▸ hlow⟩

theorem bootStep_lifecycle {f : Dev → Dev} {s t : State} (h : bootStep f s = .next t) : lifecycle s.otp ≤ lifecycle t.otp := by
  obtain rfl : settle (raiseFloor s.dev { s with dev := f s.dev }) = t := Host.Outcome.next.inj h
  exact (raiseFloor_lifecycle s.dev { s with dev := f s.dev }).ge.trans (settle_steady _).otp.2

theorem unlessWf_next {i : Instr} {s t : State} {k : Result} (h : unlessWf i s k = .next t) : k = .next t ∨ t = s := by
  unfold unlessWf at h
  split at h
  · exact .inl h
  · exact .inr (Host.Outcome.next.inj h).symm

theorem exec_floorKept {i : Instr} {s t : State} (hs : Settled s) (h : exec i s = .next t) : FloorKept s t := by
  by_cases hi : reachesRunning i = false
  · exact (exec_leaves i s hi t h).floorKept
  · cases i with
    | imageAcceptance kb l f =>
      rcases unlessWf_next h with h | rfl
      · exact bootStep_floorKept hs h (acceptance_reaches _ _ _ _ _)
      · exact (Steady.refl _).floorKept
    | blobSegmentReadDone k sg b x y => exact bootStep_floorKept hs h (blobRead_reaches _ _ _ _ _ _)
    | _ => exact absurd rfl hi

theorem exec_lifecycle {i : Instr} {s t : State} (h : exec i s = .next t) : lifecycle s.otp ≤ lifecycle t.otp := by
  by_cases hi : reachesRunning i = false
  · exact (exec_leaves i s hi t h).otp.2
  · cases i with
    | imageAcceptance kb l f =>
      rcases unlessWf_next h with h | rfl
      · exact bootStep_lifecycle h
      · exact Nat.le_refl _
    | blobSegmentReadDone k sg b x y => exact bootStep_lifecycle h
    | _ => exact absurd rfl hi

/-- A step is an idle one, or the command at the front on the state with the queue's rest. -/
theorem step_cases {s t : State} (h : step s = .next t) : t = s ∨ ∃ i rest, exec i { s with pending := rest } = .next t := by
  unfold step at h
  split at h
  · exact .inl (Host.Outcome.next.inj h).symm
  · exact .inr ⟨_, _, h⟩

/-! ### The settlement of the floor -/

/-- A meaning of the device that ends as a failed check does, in a device that goes on booting. -/
theorem devStep_bootFail {f : Dev → Dev} {s : State} {c k e sg : Nat} (d : Dev) (hb : Boots s.otp) (ht : d.sched.tripped = none)
    (h : f s.dev = bootFail c k e sg d) : ∃ t, devStep f s = .next t ∧ BootFailed c k e sg t := by
  obtain ⟨t, hn, _, hfail⟩ := devStep_failed f s
    { d with boot := { d.boot with failCause := c, failKind := k, failEntry := e, failSeg := sg } } hb ht (h ▸ bootFail_ended c k e sg d)
  exact ⟨t, hn, hfail⟩

/-- A manifest below the floor: the check that fails (R43). -/
theorem manifestRead_old {g : Option Bytes} {floor : Nat} {b : Bytes} {d : Dev} (hs : d.boot.step = .manifest)
    (hg : g = some (Config.sha256 d.img.header.signer))
    (hv : Config.ecdsaVerify d.img.header.signer (d.img.header.raw ++ b) d.img.header.signature = true)
    (hl : b.length = d.img.header.manifestLength) (hf : d.img.header.securityVersion < floor) :
    manifestRead g floor b d = bootFail 0xA4 0 noEntry noSeg (sendRead d) := by
  simp [manifestRead, hs, hg, hv, hl, hf]

/-- Settles O7: only boot reaches the running phase, and only a boot that does so raises the floor (R43). -/
theorem theRollbackFloorNeverFalls : Obligations.TheRollbackFloorNeverFalls := by
  refine ⟨rfl, ?_, ?_, ?_⟩
  · exact fun s b hb ht _ hs hg hv hl hf => devStep_bootFail (sendRead s.dev) hb ht (manifestRead_old hs hg hv hl hf)
  · intro s t hs h
    rcases step_cases h with rfl | ⟨i, rest, h⟩
    · exact (Steady.refl t).floorKept
    · exact exec_floorKept (s := { s with pending := rest }) hs h
  · intro s t h
    rcases step_cases h with rfl | ⟨i, rest, h⟩
    · exact Nat.le_refl _
    · exact exec_lifecycle (s := { s with pending := rest }) h

end Sys2Proof.Machine
end

section
/-! PROOFS. The reads of a boot: SFDP, header, manifest, records, DRAM training (Table 2.15). Settles O12. -/

namespace Sys2Proof.Machine

/-! ### A command that something quiet follows -/

/-- The ISP domain does not go down when the power domains are brought to what Table 18.1 asks. -/
def IspStays (d : Dev) : Prop := d.power.isp = false ∨ ispWanted d = true

theorem PowerSettled.ispStays {d : Dev} (h : PowerSettled d) : IspStays d := by
  rcases (powerSettled_iff d).mp h with ⟨_, hi⟩ | ⟨_, _, hi, _⟩
  · exact .inl hi
  · rw [IspStays, hi]
    exact (Bool.eq_false_or_eq_true (ispWanted d)).symm

theorem IspStays.mono {d e : Dev} (h : IspStays d) (hp : e.power.isp = d.power.isp) (hw : ispWanted d = true → ispWanted e = true) :
    IspStays e := h.imp (hp.trans ·) hw

/-- Nothing is due and the ISP domain stays: only the power bits of three domains change. -/
theorem settle_quiet {s : State} (ht : s.dev.sched.tripped = none) (hr : s.dev.boot.romDue = false) (hi : IspStays s.dev) :
    ∃ a b p, settle s = { s with dev := { s.dev with power := { s.dev.power with sup := a, isp := b, perk := p } } } := by
  have h1 : tripCheck s.dev = s.dev := by simp [tripCheck, ht]
  have h2 : romDone s = s := by simp [romDone, hr]
  have h3 : settle s = { s with dev := settlePower s.dev } := by
    unfold settle
    simp only [h1, h2]
  rw [h3]
  by_cases h : s.dev.boot.step = .held
  · exact ⟨s.dev.power.sup, false, s.dev.power.perk, by simp [settlePower, h]⟩
  · obtain ⟨e, _, hd, he⟩ := settlePower_frame s.dev h
    exact ⟨_, _, _, by rw [hd, he hi]⟩

/-- A meaning of the device after which nothing is due: what holds whatever the power bits of the three domains holds of its outcome. -/
theorem devStep_quiet {f : Dev → Dev} {s : State} {P : State → Prop} (ht : (f s.dev).sched.tripped = none)
    (hr : (f s.dev).boot.romDue = false) (hi : IspStays (f s.dev))
    (hP : ∀ a b p, P { s with dev := { f s.dev with power := { (f s.dev).power with sup := a, isp := b, perk := p } } }) :
    ∃ t, devStep f s = .next t ∧ P t := by
  obtain ⟨a, b, p, h⟩ := settle_quiet (s := { s with dev := f s.dev }) ht hr hi
  exact ⟨_, congrArg Host.Outcome.next h, hP a b p⟩

/-! ### The reads of a boot that pass -/

theorem unlessWf_of_wf {i : Instr} {s : State} {k : Result} (h : i.wf = true) : unlessWf i s k = k := if_pos h

@[simp] theorem setPhase_img (p : Nat) (d : Dev) : (setPhase p d).img = d.img := by
  obtain ⟨i, n, h⟩ := setPhase_frame p d; rw [h]

@[simp] theorem setPhase_mem (p : Nat) (d : Dev) : (setPhase p d).mem = d.mem := by
  obtain ⟨i, n, h⟩ := setPhase_frame p d; rw [h]

@[simp] theorem setPhase_power (p : Nat) (d : Dev) : (setPhase p d).power = d.power := by
  obtain ⟨i, n, h⟩ := setPhase_frame p d; rw [h]

@[simp] theorem setPhase_ispWanted (p : Nat) (d : Dev) : ispWanted (setPhase p d) = ispWanted d := by
  obtain ⟨i, n, h⟩ := setPhase_frame p d; rw [h]; rfl

theorem setPhase_ispStays (p : Nat) {d : Dev} (h : IspStays d) : IspStays (setPhase p d) := h.mono (by simp) (by simp)

/-- The SFDP table states a density (R35). -/
theorem sfdpReadDone_passes {s : State} (h : Settled s) (hs : s.dev.boot.step = .sfdp) (n : Nat) (hn : 0 < n) (e : List (Nat × Nat)) :
    Gives (.sfdpReadDone (some n) e) s fun t => SameOutside s t ∧ t.dev.boot.density = some n ∧
      t.dev.boot.erase = e ∧ t.dev.boot.step = .header ∧ t.dev.boot.phase = 1 ∧ t.dev.img = s.dev.img ∧ t.dev.mem = s.dev.mem := by
  obtain ⟨ht, hr, hp⟩ := h
  have hf : sfdpRead (some n) e s.dev =
      setPhase 1 (modBoot (fun b => { b with density := some n, erase := e, step := .header }) s.dev) := by
    simp [sfdpRead, hs, hn.ne']
  refine devStep_quiet ?_ ?_ ?_ fun a b p => ?_ <;> rw [hf]
  · simpa using ht
  · simpa using hr
  · exact setPhase_ispStays 1 hp.ispStays
  · simp [SameOutside, modBoot]

/-! ### An image without cameras -/

theorem dropFrame_mem (n : Nat) (d : Dev) : (dropFrame n d).mem = d.mem := by
  unfold dropFrame
  dsimp only
  rw [record_eq]
  rfl

theorem loseFrames_mem (d : Dev) : (loseFrames d).mem = d.mem := by
  have h (l : List (Nat × Nat)) : ∀ e : Dev, (l.foldl (fun e f => dropFrame f.1 e) e).mem = e.mem := by
    induction l with
    | nil => exact fun _ => rfl
    | cons x r ih => exact fun e => (ih _).trans (dropFrame_mem _ _)
  exact h _ d

/-- With no camera no block is held for a frame, so the power-down of the ISP domain flags no descriptor. -/
theorem ispDown_mem {d : Dev} (h : d.img.cams = []) : (ispDown d).mem = d.mem := by
  have hb : settleBlocks (fun r => r.pipe != 2) d = d := by simp [settleBlocks, h]
  unfold ispDown
  rw [hb]
  exact loseFrames_mem d

theorem settlePower_mem {d : Dev} (h : d.img.cams = []) : (settlePower d).mem = d.mem := by
  have hd (x : Power) : (ispDown { d with power := x }).mem = d.mem := ispDown_mem h
  unfold settlePower
  split
  · rfl
  · extract_lets sup powers d1 wanted powers1 d2 perk
    change d2.mem = d.mem
    unfold d2
    split
    · rfl
    · split
      · exact hd _
      · rfl

theorem settle_mem {s : State} (ht : s.dev.sched.tripped = none) (hr : s.dev.boot.romDue = false) (h : s.dev.img.cams = []) :
    (settle s).dev.mem = s.dev.mem := by
  have h1 : tripCheck s.dev = s.dev := by simp [tripCheck, ht]
  have h2 : romDone s = s := by simp [romDone, hr]
  unfold settle
  simp only [h1, h2]
  exact settlePower_mem h

/-- The header that was read twice alike is the image's from then on, and its read command the one in force (R61). -/
theorem headerReadDone_passes {s : State} (h : Settled s) (hs : s.dev.boot.step = .header) (a : Bytes) (hl : a.length = 256)
    (ha : headerOk a = true) :
    Gives (.headerReadDone a a) s fun t => SameOutside s t ∧ t.dev.boot.step = .manifest ∧
      t.dev.img.header = parseImgHeader a ∧ t.dev.boot.sent = xspiBytes (parseImgHeader a) (parseImgHeader a).readOp ∧
      t.dev.mem = s.dev.mem := by
  obtain ⟨ht, hr, -⟩ := h
  have hf : headerRead a a s.dev = { s.dev with
      img := { header := parseImgHeader a }
      boot := { s.dev.boot with sent := xspiBytes (parseImgHeader a) (parseImgHeader a).readOp, step := .manifest } } := by
    simp [headerRead, hs, ha, modBoot, sendRead]
  have hm := settle_mem (s := { s with dev := headerRead a a s.dev }) (by rw [hf]; exact ht) (by rw [hf]; exact hr) (by rw [hf])
  obtain ⟨e, x, y, z, ⟨_, _, _, _, _, _, _, rfl⟩, hc⟩ :=
    settle_calm { s with dev := headerRead a a s.dev } (by rw [hf]; exact ht) (by rw [hf]; exact hr)
  refine ⟨_, unlessWf_of_wf (by simp [Instr.wf, hl]), ?_, ?_, ?_, ?_, hm.trans (by rw [hf])⟩ <;> rw [hc]
  · exact ⟨rfl, rfl, rfl⟩
  · simp [hf]
  · simp [hf]
  · simp [hf]

/-- A header that is not well formed, or not read alike in the target mode (R61). -/
theorem headerReadDone_fails {s : State} (hb : Boots s.otp) (h : Settled s) (hs : s.dev.boot.step = .header) (a b : Bytes)
    (ha : a.length = 256) (hl : b.length = 256) (hc : a ≠ b ∨ headerOk a = false) :
    Gives (.headerReadDone a b) s (BootFailed 0xA0 0 noEntry noSeg) := by
  have hw : execHeaderReadDone a b s = devStep (headerRead a b) s := unlessWf_of_wf (by simp [Instr.wf, ha, hl])
  unfold Gives
  rw [show exec (.headerReadDone a b) s = _ from hw]
  let d1 := modBoot (fun t => { t with sent := [0x13] }) s.dev
  by_cases hok : headerOk a = true
  · have hne : a ≠ b := hc.resolve_right (by simp [hok])
    exact devStep_bootFail (sendRead { d1 with img := { header := parseImgHeader a } }) hb h.1 (by simp [headerRead, hs, hok, hne, d1])
  · exact devStep_bootFail d1 hb h.1 (by simp [headerRead, hs, hok, d1])

/-! ### The manifest -/

theorem entriesFrom_length (size : Nat) : ∀ (n : Nat) (b : Bytes), (entriesFrom size n b).length = n
  | 0, _ => rfl
  | n + 1, _ => congrArg (· + 1) (entriesFrom_length size n _)

/-- A manifest whose structure holds has as many entries as it counts (R478). -/
theorem manifestOk_length {b : Bytes} (h : manifestOk b = true) : b.length = 0x30 + 48 * (u16 b 2 + u16 b 4) := by
  simp only [manifestOk, Bool.and_eq_true, beq_iff_eq] at h
  exact h.2

theorem withManifest_lengths {b : Bytes} (h : manifestOk b = true) (img : Image) :
    (withManifest b img).recs.length = u16 b 2 ∧ (withManifest b img).blobs.length = u16 b 4 := by
  have hl := manifestOk_length h
  have he : (entries 48 (b.drop 0x30)).length = u16 b 2 + u16 b 4 := by
    rw [entries, entriesFrom_length, List.length_drop, hl]
    omega
  simp [withManifest, he]

/-- The manifest's signer is the one that the lifecycle state accepts, and the signature holds (R41, R42). -/
def Trusted (s : State) (b : Bytes) : Prop :=
  signerHash s.otp = some (Config.sha256 s.dev.img.header.signer) ∧
    Config.ecdsaVerify s.dev.img.header.signer (s.dev.img.header.raw ++ b) s.dev.img.header.signature = true

theorem manifestReadDone_untrusted {s : State} (hb : Boots s.otp) (h : Settled s) (hs : s.dev.boot.step = .manifest) {b : Bytes}
    (hl : b.length = s.dev.img.header.manifestLength) (ht : ¬ Trusted s b) :
    Gives (.manifestReadDone b) s (BootFailed 0xA0 0 noEntry noSeg) := by
  have hc : signerHash s.otp ≠ some (Config.sha256 s.dev.img.header.signer) ∨
      Config.ecdsaVerify s.dev.img.header.signer (s.dev.img.header.raw ++ b) s.dev.img.header.signature = false := by
    rw [Trusted, not_and_or, Bool.not_eq_true] at ht
    exact ht
  refine devStep_bootFail (sendRead s.dev) hb h.1 ?_
  rw [manifestRead, if_pos ⟨hs, hl⟩, if_pos hc]

theorem manifestReadDone_old {s : State} (hb : Boots s.otp) (h : Settled s) (hs : s.dev.boot.step = .manifest) {b : Bytes}
    (hl : b.length = s.dev.img.header.manifestLength) (ht : Trusted s b) (hf : s.dev.img.header.securityVersion < s.otp.floor) :
    Gives (.manifestReadDone b) s (BootFailed 0xA4 0 noEntry noSeg) :=
  devStep_bootFail (sendRead s.dev) hb h.1 (manifestRead_old hs ht.1 ht.2 hl hf)

theorem manifestReadDone_malformed {s : State} (hb : Boots s.otp) (h : Settled s) (hs : s.dev.boot.step = .manifest) {b : Bytes}
    (hl : b.length = s.dev.img.header.manifestLength) (ht : Trusted s b) (hf : s.otp.floor ≤ s.dev.img.header.securityVersion)
    (hm : manifestOk b = false) : Gives (.manifestReadDone b) s (BootFailed 0xA1 0 noEntry noSeg) := by
  refine devStep_bootFail (sendRead s.dev) hb h.1 ?_
  simp [manifestRead, hs, hl, ht.1, ht.2, hf.not_gt, hm]

theorem manifestReadDone_passes {s : State} (h : Settled s) (hs : s.dev.boot.step = .manifest) {b : Bytes}
    (hl : b.length = s.dev.img.header.manifestLength) (ht : Trusted s b) (hf : s.otp.floor ≤ s.dev.img.header.securityVersion)
    (hm : manifestOk b = true) :
    Gives (.manifestReadDone b) s fun t => SameOutside s t ∧
      t.dev.boot.step = .records ∧ t.dev.boot.phase = 3 ∧ t.dev.boot.digest = Config.sha256 (s.dev.img.header.raw ++ b) ∧
      t.dev.img.imageId = u64 b 8 ∧ t.dev.img.chainFinal = slice b 16 32 ∧ t.dev.img.recs.length = u16 b 2 ∧
      t.dev.img.blobs.length = u16 b 4 ∧ t.dev.mem = s.dev.mem := by
  obtain ⟨hv, hr, hp⟩ := h
  let d : Dev := { s.dev with
    img := withManifest b s.dev.img
    boot := { (sendRead s.dev).boot with
      digest := Config.sha256 (s.dev.img.header.raw ++ b), verified := true, step := .records, nextRec := 0, chain := zeros 32 } }
  have hread : manifestRead (signerHash s.otp) s.otp.floor b s.dev = setPhase 3 (setPhase 2 d) := by
    simp [manifestRead, hs, hl, ht.1, ht.2, hf.not_gt, hm, d, sendRead, modBoot]
  refine devStep_quiet ?_ ?_ ?_ fun x y z => ?_ <;> rw [hread]
  · simpa using hv
  · simpa [d, sendRead, modBoot] using hr
  · exact setPhase_ispStays 3 (setPhase_ispStays 2 hp.ispStays)
  · obtain ⟨hrecs, hblobs⟩ := withManifest_lengths hm s.dev.img
    have hid : (withManifest b s.dev.img).imageId = u64 b 8 ∧ (withManifest b s.dev.img).chainFinal = slice b 16 32 := ⟨rfl, rfl⟩
    simp [SameOutside, d, hrecs, hblobs, hid]

/-! ### The records and the training of the DRAM -/

/-- A record keeps the manifest's entries, and every receiver port that stands in the image already. -/
theorem addRecord_frame (ty : Nat) (b : Bytes) (img : Image) :
    (addRecord ty b img).recs = img.recs ∧ ∃ l, (addRecord ty b img).rxPorts = img.rxPorts ++ l := by
  unfold addRecord
  split
  case h_13 => exact ⟨rfl, _, rfl⟩
  all_goals exact ⟨rfl, [], (List.append_nil _).symm⟩

/-- What a record is checked against (R45 to R47). -/
def recordCtx (s : State) : RecCtx :=
  { nand := s.dev.img.header.nandDevices, density := s.dev.boot.density.getD 0, erase := s.dev.boot.erase.map (fun e => e.1),
    life := lifecycle s.otp }

theorem recordReadDone_fails {s : State} (hb : Boots s.otp) (h : Settled s) (hs : s.dev.boot.step = .records) {b : Bytes} {cause : Nat}
    (hc : recordCause (recordCtx s) s.dev.img s.dev.boot.nextRec b = some cause) :
    Gives (.recordReadDone b) s (BootFailed cause 0 s.dev.boot.nextRec noSeg) := by
  refine devStep_bootFail (sendRead s.dev) hb h.1 ?_
  unfold recordRead
  rw [if_pos hs]
  extract_lets d i e c
  split
  case h_1 x hx =>
    obtain rfl : cause = x := Option.some.inj (hc.symm.trans hx)
    rfl
  case h_2 hx => exact absurd (hc.symm.trans hx) (by simp)

/-- A record that is not the last: the chain takes its digest, and the next is awaited (R45). -/
theorem recordReadDone_passes {s : State} (h : Settled s) (hs : s.dev.boot.step = .records) {b : Bytes}
    (hc : recordCause (recordCtx s) s.dev.img s.dev.boot.nextRec b = none) (hn : s.dev.boot.nextRec + 1 < s.dev.img.recs.length) :
    Gives (.recordReadDone b) s fun t => SameOutside s t ∧ t.dev.boot.step = .records ∧ t.dev.boot.nextRec = s.dev.boot.nextRec + 1 ∧
      t.dev.boot.chain = Config.sha256 (s.dev.boot.chain ++ (s.dev.img.recs.getD s.dev.boot.nextRec {}).digest) ∧
      t.dev.boot.accepted = s.dev.boot.accepted ∧ t.dev.mem = s.dev.mem := by
  obtain ⟨hv, hr, hp⟩ := h
  let e := s.dev.img.recs.getD s.dev.boot.nextRec {}
  let img := addRecord e.ty (slice b 8 e.length) s.dev.img
  let bt : Boot := { (sendRead s.dev).boot with nextRec := s.dev.boot.nextRec + 1, chain := Config.sha256 (s.dev.boot.chain ++ e.digest) }
  let bt2 : Boot := if e.ty = 0x0103 then { bt with policyOk := true, policy := img.boot.getD {} } else bt
  obtain ⟨hrecs, l, hports⟩ := addRecord_frame e.ty (slice b 8 e.length) s.dev.img
  have hbt (α : Type) (g : Boot → α) (hg : ∀ x y z, g { x with policyOk := y, policy := z } = g x) : g bt2 = g bt := by
    unfold bt2
    split
    · exact hg _ _ _
    · rfl
  have hread : recordRead (lifecycle s.otp) b s.dev = { s.dev with img := img, boot := bt2 } := by
    have hlast : ¬ s.dev.boot.nextRec + 1 = img.recs.length := by
      rw [hrecs]
      omega
    unfold recordRead
    rw [if_pos hs]
    extract_lets d i e c
    split
    case h_1 x hx => exact absurd (hc.symm.trans hx) (by simp)
    case h_2 hx => exact if_neg hlast
  have hacc : bt2.accepted = s.dev.boot.accepted := hbt _ Boot.accepted fun _ _ _ => rfl
  refine devStep_quiet ?_ ?_ ?_ fun x y z => ?_ <;> rw [hread]
  · exact hv
  · exact (hbt _ Boot.romDue fun _ _ _ => rfl).trans hr
  · refine hp.ispStays.mono rfl fun hw => ?_
    simp only [ispWanted, cameraAlwaysOn, Bool.or_eq_true, Bool.and_eq_true] at hw ⊢
    rw [show img.rxPorts = _ from hports, List.any_append, hacc]
    rcases hw with (hw | ⟨ha, hw⟩) | hw
    · exact .inl (.inl hw)
    · exact .inl (.inr ⟨ha, by simp [hw]⟩)
    · exact .inr hw
  · exact ⟨⟨rfl, rfl, rfl⟩, (hbt _ Boot.step fun _ _ _ => rfl).trans hs, hbt _ Boot.nextRec fun _ _ _ => rfl,
      hbt _ Boot.chain fun _ _ _ => rfl, hacc, rfl⟩

theorem dramTrainingDone_fails {s : State} (hb : Boots s.otp) (h : Settled s) (hs : s.dev.boot.step = .training) (mib : Nat)
    (good : List (List Bool)) : Gives (.dramTrainingDone false mib good) s (BootFailed 0xA5 0 noEntry noSeg) :=
  devStep_bootFail s.dev hb h.1 (by simp [trainingDone, hs])

/-- The device once its DRAM is trained (R49, R473). -/
def trained (mib : Nat) (good : List (List Bool)) (d : Dev) : Dev :=
  modPower (fun p => { p with dram := true })
    (modBoot (fun b => { b with trained := true, mib := mib, goodBlocks := good.map goodOf, step := .acceptance }) d)

theorem trainingDone_passed {mib : Nat} {good : List (List Bool)} {d : Dev} (hs : d.boot.step = .training) :
    trainingDone true mib good d =
      if mib < d.img.dramMin then bootFail 0xA2 0 (firstIdx d.img 0x0102) noSeg (trained mib good d) else trained mib good d := by
  simp [trainingDone, hs, trained]

theorem execDramTrainingDone_eq {mib : Nat} {good : List (List Bool)} {s : State} (h1 : 4096 ≤ mib) (h2 : mib ≤ 32768) :
    exec (.dramTrainingDone true mib good) s = devStep (trainingDone true mib good) s := unlessWf_of_wf (by simp [Instr.wf, h1, h2])

theorem dramTrainingDone_small {s : State} (hb : Boots s.otp) (h : Settled s) (hs : s.dev.boot.step = .training) {mib : Nat}
    {good : List (List Bool)} (h1 : 4096 ≤ mib) (h2 : mib ≤ 32768) (hm : mib < s.dev.img.dramMin) :
    Gives (.dramTrainingDone true mib good) s (BootFailed 0xA2 0 (firstIdx s.dev.img 0x0102) noSeg) := by
  rw [Gives, execDramTrainingDone_eq h1 h2]
  exact devStep_bootFail (trained mib good s.dev) hb h.1 (by rw [trainingDone_passed hs, if_pos hm])

theorem dramTrainingDone_passes {s : State} (h : Settled s) (hs : s.dev.boot.step = .training) {mib : Nat}
    {good : List (List Bool)} (h1 : 4096 ≤ mib) (h2 : mib ≤ 32768) (hm : s.dev.img.dramMin ≤ mib) :
    Gives (.dramTrainingDone true mib good) s fun t => SameOutside s t ∧ t.dev.boot.step = .acceptance ∧
      t.dev.boot.trained = true ∧ t.dev.boot.mib = mib ∧ t.dev.boot.goodBlocks = good.map goodOf ∧ t.dev.power.dram = true ∧
      t.dev.img = s.dev.img ∧ t.dev.mem = s.dev.mem := by
  obtain ⟨hv, hr, hp⟩ := h
  have hf : trainingDone true mib good s.dev = trained mib good s.dev := by rw [trainingDone_passed hs, if_neg hm.not_gt]
  rw [Gives, execDramTrainingDone_eq h1 h2]
  refine devStep_quiet ?_ ?_ ?_ fun x y z => ?_ <;> rw [hf]
  · exact hv
  · exact hr
  · exact hp.ispStays
  · exact ⟨⟨rfl, rfl, rfl⟩, rfl, rfl, rfl, rfl, rfl, rfl, rfl⟩

/-- Settles O12: each read of a boot goes one step on, or ends the attempt with its cause. -/
theorem bootReadsAreChecked : Obligations.BootReadsAreChecked := by
  refine ⟨fun s hb h => ⟨?_, ?_, ?_⟩, fun s hb h => ⟨?_, ?_⟩⟩
  · exact fun hs e => ⟨fun n hn => sfdpReadDone_passes h hs n hn e, devStep_bootFail s.dev hb h.1 (by simp [sfdpRead, hs])⟩
  · intro hs a b ha hl
    refine ⟨?_, headerReadDone_fails hb h hs a b ha hl⟩
    rintro hok rfl
    exact headerReadDone_passes h hs a ha hok
  · exact fun hs b hl => ⟨manifestReadDone_untrusted hb h hs hl, manifestReadDone_old hb h hs hl,
      manifestReadDone_malformed hb h hs hl, manifestReadDone_passes h hs hl⟩
  · exact fun hs b => ⟨fun cause => recordReadDone_fails hb h hs, recordReadDone_passes h hs⟩
  · exact fun hs mib good => ⟨dramTrainingDone_fails hb h hs mib good, dramTrainingDone_small hb h hs, dramTrainingDone_passes h hs⟩

end Sys2Proof.Machine
end

section
/-! PROOFS. The acceptance of an image (R479). Settles O13. -/

namespace Sys2Proof.Machine

/-! ### Acceptance -/

/-- A meaning of the boot that does not reach the running phase is a meaning of the device: the floor stays (R43). -/
theorem bootStep_eq_devStep {f : Dev → Dev} {s : State} (h : (f s.dev).boot.step ≠ .running) : bootStep f s = devStep f s :=
  congrArg (fun x => Host.Outcome.next (settle x)) (raiseFloor_of_not_raises fun hr => h hr.2.1)

theorem bootStep_bootFail {f : Dev → Dev} {s : State} {c k e sg : Nat} (d : Dev) (hb : Boots s.otp) (ht : d.sched.tripped = none)
    (h : f s.dev = bootFail c k e sg d) : ∃ t, bootStep f s = .next t ∧ BootFailed c k e sg t := by
  rw [bootStep_eq_devStep (h ▸ bootFail_step_ne c k e sg d)]
  exact devStep_bootFail d hb ht h

theorem execImageAcceptance_eq {kb : Bytes} {present : List Nat} {found : List (Fin 2 × Nat)} {s : State}
    (h : ∀ x ∈ found, x.2 < 2 ^ 48) :
    exec (.imageAcceptance kb present found) s = bootStep (acceptance s.otp kb present found) s :=
  unlessWf_of_wf (by simpa [Instr.wf] using h)

/-- Boot waits for a blob of step 8: what is placed allows nothing yet. -/
theorem advanceLoad_waits {d : Dev} (hp : d.boot.point = false)
    (h : ∃ b ∈ d.img.blobs, atPoint d.img b = true) (hb : d.boot.blobs = {}) : advanceLoad d = d := by
  have hplaced : d.img.blobs.zipIdx.all (fun y => !atPoint d.img y.1 || (tabGet d.boot.blobs y.2 {}).placed) = false := by
    obtain ⟨b, hb', hat⟩ := h
    obtain ⟨k, hk⟩ := List.mem_iff_getElem?.mp hb'
    rw [List.all_eq_false]
    exact ⟨(b, k), List.mem_zipIdx_iff_getElem?.mpr hk, by rw [hat, hb]; exact Bool.false_ne_true⟩
  unfold advanceLoad
  simp [hplaced, hp]

/-- An accepted image of which no blob has been read yet: boot loads, with Point still to come. -/
theorem accept_loads (o : Otp) (ks : List Bytes) (present : List Nat) (found : List (Fin 2 × Nat)) {d : Dev}
    (hp : d.boot.point = false) (hb : d.boot.blobs = {}) (h : ∃ b ∈ d.img.blobs, atPoint d.img b = true) :
    bootSide (accept o ks present found d) = ({ d.boot with
      accepted := true, unlocked := decide (lifecycle o = 4), keys := ks, unwrapped := ks.length, step := .loading
      sniff := true, phase := 6 }, d.img) ∧ checkSide (accept o ks present found d) = checkSide d := by
  unfold accept
  extract_lets d1 d2 d3 d4 d5 ready
  have h4 : bootSide d4 = bootSide d1 := by simp [d4, d3, d2]
  have hboot : d5.boot = { d1.boot with sniff := true, phase := 6 } := by
    simp [d5, modBoot, boot_of_bootSide h4]
  have himg : d5.img = d.img := ((by simp [d5, modBoot] : d5.img = d4.img).trans (img_of_bootSide h4)).trans rfl
  have hready : ready = [] := by
    simp only [ready, hb]
    exact List.filter_eq_nil_iff.mpr fun _ _ => Bool.false_ne_true
  have hw : advanceLoad d5 = d5 := advanceLoad_waits (by rw [hboot]; exact hp) (by rwa [himg]) (by rw [hboot]; exact hb)
  rw [hready, List.foldl_nil, hw]
  exact ⟨Prod.ext hboot himg, by simp [d5, d4, d3, d2, d1]⟩

/-- Settles O13: the cross-record checks decide whether the image is accepted. -/
theorem acceptanceDecidesTheImage : Obligations.AcceptanceDecidesTheImage := by
  intro s kb present found hb ht hr hs hf
  simp only [Gives, execImageAcceptance_eq hf]
  refine ⟨fun i hc => ?_, fun hc hl he hp hbl hat => ?_⟩
  · refine bootStep_bootFail s.dev hb ht ?_
    unfold acceptance
    rw [if_pos hs, hc]
    dsimp only
    split <;> rfl
  · have hacc : acceptance s.otp kb present found s.dev = accept s.otp [] present found s.dev := by
      simp [acceptance, hs, hc, unlockFails, hl, he]
    obtain ⟨hside, hcheck⟩ := accept_loads s.otp [] present found hp hbl hat
    rw [← hacc] at hside hcheck
    have hboot := congrArg Prod.fst hside
    have himg : (acceptance s.otp kb present found s.dev).img = s.dev.img := congrArg Prod.snd hside
    change (acceptance s.otp kb present found s.dev).boot = _ at hboot
    obtain ⟨e, x, y, z, ⟨_, _, _, _, _, _, _, rfl⟩, hset⟩ := settle_calm { s with dev := acceptance s.otp kb present found s.dev }
      ((congrArg Prod.snd hcheck).trans ht) (by rw [hboot]; exact hr)
    rw [bootStep_eq_devStep (by rw [hboot]; exact BootStep.noConfusion)]
    refine ⟨_, rfl, ?_⟩
    rw [hset]
    simp [SameOutside, hboot, himg, hp, hl]

end Sys2Proof.Machine
end

section
/-! PROOFS. A boot that fails while requests are open, and the reads of blobs (R51). -/

namespace Sys2Proof.Machine

/-! ### A failed boot, whatever checker has tripped -/

/-- A boot attempt has failed as DEV_BOOT_FAIL says, and the device has halted or its next attempt is due. -/
structure FailedWith (c k e sg : Nat) (d : Dev) : Prop where
  cause : d.boot.failCause = c
  kind : d.boot.failKind = k
  entry : d.boot.failEntry = e
  seg : d.boot.failSeg = sg
  accepted : d.boot.accepted = false
  ends : (d.boot.step = .halted ∧ d.boot.phase = 15 ∧ d.boot.romDue = false) ∨
    (d.boot.step = .sfdp ∧ d.boot.phase = 0 ∧ d.boot.romDue = true)

theorem FailedWith.of_boot {c k e sg : Nat} {d r : Dev} (hb : r.boot = d.boot) (h : FailedWith c k e sg d) : FailedWith c k e sg r := by
  obtain ⟨h1, h2, h3, h4, h5, h6⟩ := h
  constructor <;> rwa [hb]

theorem FailedWith.of_bootSide {c k e sg : Nat} {d r : Dev} (hb : bootSide r = bootSide d) (h : FailedWith c k e sg d) :
    FailedWith c k e sg r := h.of_boot (boot_of_bootSide hb)

/-- A halt or a new attempt keeps DEV_BOOT_FAIL. -/
theorem FailedWith.of_ended {c k e sg : Nat} {d r : Dev} (hr : BootEnded d r) (h : FailedWith c k e sg d) : FailedWith c k e sg r :=
  ⟨hr.failCause.trans h.cause, hr.failKind.trans h.kind, hr.failEntry.trans h.entry, hr.failSeg.trans h.seg, hr.accepted, hr.ends⟩

theorem bootFail_failedWith (c k e sg : Nat) (d : Dev) : FailedWith c k e sg (bootFail c k e sg d) :=
  have h := bootFail_ended c k e sg d
  ⟨h.failCause, h.failKind, h.failEntry, h.failSeg, h.accepted, h.ends⟩

theorem deviceReset_ended (kind : Nat) (d : Dev) : BootEnded d (deviceReset kind false d) := by
  obtain ⟨hb, ht⟩ := dropDomains_boot d
  exact beginBoot_ended _ d (.inr ⟨0, congrArg (fun b : Boot => { b with retries := 0 }) hb⟩) ht

/-- An error of DEVICE severity after a failed boot: the device stays halted, or halts, or begins another attempt. -/
theorem deviceError_failedWith {c k e sg : Nat} {d : Dev} (h : FailedWith c k e sg d) : FailedWith c k e sg (deviceError false true d) := by
  have hs : FailedWith c k e sg (deviceSnapshot d) := by
    obtain ⟨_, _, _, _, _, _, hw⟩ := deviceSnapshot_writes d
    rw [hw]
    exact ⟨h.cause, h.kind, h.entry, h.seg, h.accepted, h.ends⟩
  unfold deviceError
  split
  · exact h
  · split
    · extract_lets d1
      split
      · exact .of_ended (deviceReset_ended 8 _) ⟨hs.cause, hs.kind, hs.entry, hs.seg, hs.accepted, hs.ends⟩
      · exact hs.of_ended (haltDevice_ended _)
    · exact h.of_ended (bootEnds_ended true d)

theorem tripCheck_failedWith {c k e sg : Nat} {d : Dev} (h : FailedWith c k e sg d) : FailedWith c k e sg (tripCheck d) := by
  unfold tripCheck
  split
  · refine .of_boot (d := violate _ _ _ _ true d) rfl ?_
    unfold violate
    extract_lets d1 d2
    have h2 : FailedWith c k e sg d2 := h.of_bootSide (by simp [d2, d1])
    split
    · exact h2.of_bootSide (stopPart_bootSide _ _ _)
    · exact deviceError_failedWith h2
  · exact h

theorem tripCheck_tripped (d : Dev) : (tripCheck d).sched.tripped = none := by
  unfold tripCheck
  split
  · rfl
  · assumption

theorem tripCheck_of_none {d : Dev} (h : d.sched.tripped = none) : tripCheck d = d := by simp [tripCheck, h]

theorem settle_tripCheck (s : State) : settle { s with dev := tripCheck s.dev } = settle s := by
  have h : tripCheck (tripCheck s.dev) = tripCheck s.dev := tripCheck_of_none (tripCheck_tripped s.dev)
  unfold settle
  simp only [h]

/-- What follows from the failure of a boot in a device that goes on booting. -/
theorem settle_failed {c k e sg : Nat} {s : State} (hb : Boots s.otp) (h : FailedWith c k e sg s.dev) :
    BootFailed c k e sg (settle s) := by
  rw [← settle_tripCheck]
  obtain ⟨hc, hk, he, hs, ha, hends⟩ := tripCheck_failedWith h
  have ht := tripCheck_tripped s.dev
  rcases hends with ⟨h1, h2, h3⟩ | ⟨h1, h2, h3⟩
  · obtain ⟨x, a, b, p, ⟨_, _, _, _, _, _, _, rfl⟩, hset⟩ := settle_calm { s with dev := tripCheck s.dev } ht h3
    rw [hset]
    exact ⟨hc, hk, he, hs, ha, .inl ⟨h1, h2⟩⟩
  · obtain ⟨salt, _, x, a, b, p, ⟨_, _, _, _, _, _, _, rfl⟩, hset⟩ := settle_boots { s with dev := tripCheck s.dev } hb ht h3
    rw [hset]
    exact ⟨hc, hk, he, hs, ha, .inr ⟨h1, h2⟩⟩

theorem withdraw_bootStep {f : Dev → Dev} {s : State} {k sg : Nat} (d : Dev) (hb : Boots s.otp) (h : f s.dev = withdraw k sg d) :
    ∃ t, bootStep f s = .next t ∧ BootFailed 0xA1 1 k sg t := by
  rw [bootStep_eq_devStep (h ▸ bootFail_step_ne _ _ _ _ _)]
  exact ⟨_, rfl, settle_failed hb (h ▸ bootFail_failedWith _ _ _ _ _)⟩

/-! ### Blobs read from their medium -/

/-- What a read of n bytes of a blob's medium, at an address, leaves in the boot state (R36, R37, R38). -/
def MediumRead (d : Dev) (e : BlobEntry) (first : List (List Nat)) (again : List (List (List Nat))) (p n : Nat) (b : Boot) : Prop :=
  if e.medium = 1 then b.nandPages = nandPagesOf d p n ∧
    b.corrected = satAdd 4294967295 d.boot.corrected
      (((List.range (nandPagesOf d p n).length).map
        (fun i => pageCorrected (chunksOf (d.img.nand.getD {})) (first.getD i []) (again.getD i []))).sum)
  else b.sent = xspiBytes d.img.header d.img.header.readOp

/-- Where the segment table of a blob (no segment) or a segment stands (R51). -/
def blobPlace (e : BlobEntry) : Option Nat → Nat
  | none => e.offset
  | some k => e.offset + ceilDiv (32 * segmentsOf e) 4096 * 4096 + k * 1048576

/-- A read of SPI-NAND touches the pages of its place, and counts the bits corrected in the reads made of each. -/
theorem mediumRead_nand {e : BlobEntry} (h : e.medium = 1) (seg : Option Nat) (n : Nat) (first : List (List Nat))
    (again : List (List (List Nat))) (d : Dev) :
    mediumRead e seg n first again d = { d with boot := { d.boot with
      nandPages := nandPagesOf d (blobPlace e seg) n
      corrected := satAdd 4294967295 d.boot.corrected (((List.range (nandPagesOf d (blobPlace e seg) n).length).map
        (fun i => pageCorrected (chunksOf (d.img.nand.getD {})) (first.getD i []) (again.getD i []))).sum) } } := by
  unfold mediumRead
  rw [if_pos h]
  extract_lets table place
  have hp : place = blobPlace e seg := by cases seg <;> rfl
  clear_value place
  subst hp
  rfl

/-- A read of a medium touches the boot state alone, and there the pages, the bits corrected and the command sent. -/
theorem mediumRead_frame (e : BlobEntry) (seg : Option Nat) (n : Nat) (first : List (List Nat)) (again : List (List (List Nat))) (d : Dev) :
    ∃ pages bits sent, mediumRead e seg n first again d =
        { d with boot := { d.boot with nandPages := pages, corrected := bits, sent := sent } } ∧
      MediumRead d e first again (blobPlace e seg) n { d.boot with nandPages := pages, corrected := bits, sent := sent } := by
  unfold MediumRead
  by_cases h : e.medium = 1
  · refine ⟨_, _, _, mediumRead_nand h seg n first again d, ?_⟩
    rw [if_pos h]
    exact ⟨rfl, rfl⟩
  · refine ⟨d.boot.nandPages, d.boot.corrected, _, by rw [mediumRead, if_neg h]; rfl, ?_⟩
    rw [if_neg h]

/-- A blob that is still read, and fits its medium. -/
structure BlobAwaited (d : Dev) (k : Nat) : Prop where
  step : d.boot.step = .acceptance ∨ d.boot.step = .loading
  listed : k < d.img.blobs.length
  undone : (tabGet d.boot.blobs k {}).done = false
  fits : (d.img.blobs.getD k {}).medium = 1 → (d.img.blobs.getD k {}).offset + blobExtent (d.img.blobs.getD k {}) ≤ nandCapacity d

section
variable {d : Dev} {k : Nat} {b : Bytes} {first : List (List Nat)} {again : List (List (List Nat))}

/-- The device after a read of a blob's medium. -/
def afterRead (d : Dev) (k : Nat) (seg : Option Nat) (b : Bytes) (first : List (List Nat)) (again : List (List (List Nat))) : Dev :=
  mediumRead (d.img.blobs.getD k {}) seg b.length first again d

theorem BlobAwaited.fits_after (h : BlobAwaited d k) (seg : Option Nat) : ¬ ((d.img.blobs.getD k {}).medium = 1 ∧
    nandCapacity (afterRead d k seg b first again) < (d.img.blobs.getD k {}).offset + blobExtent (d.img.blobs.getD k {})) := by
  obtain ⟨_, _, _, hd, -⟩ := mediumRead_frame (d.img.blobs.getD k {}) seg b.length first again d
  rw [afterRead, hd]
  exact fun hc => absurd (h.fits hc.1) hc.2.not_ge

theorem blobRead_table (h : BlobAwaited d k) (ht : (tabGet d.boot.blobs k {}).table = none) :
    blobRead k none b first again d =
      if b.length = 32 * segmentsOf (d.img.blobs.getD k {}) ∧ Config.sha256 b = (d.img.blobs.getD k {}).digest then
        modBoot (fun t => { t with blobs := tabSet t.blobs k { tabGet d.boot.blobs k {} with table := some b } })
          (afterRead d k none b first again)
      else withdraw k noSeg (afterRead d k none b first again) := by
  unfold blobRead
  extract_lets e x next r put
  rw [if_pos ⟨h.step, h.listed, h.undone, by simp [next, x, ht]⟩]
  refine (if_neg (h.fits_after none)).trans ?_
  split
  case h_1 => rfl
  case h_2 t hs => exact absurd (ht.symm.trans hs) (by simp)

/-- What the table of a blob says of its next segment. -/
theorem blobRead_segment (h : BlobAwaited d k) {tb : Bytes} (ht : (tabGet d.boot.blobs k {}).table = some tb) :
    let e := d.img.blobs.getD k {}
    let x := tabGet d.boot.blobs k {}
    let r := afterRead d k (some x.next) b first again
    (Config.sha256 b ≠ slice tb (32 * x.next) 32 → blobRead k (some x.next) b first again d = withdraw k x.next r) ∧
    (b.length = min 1048576 (e.length - x.next * 1048576) → Config.sha256 b = slice tb (32 * x.next) 32 → x.next + 1 < segmentsOf e →
      blobRead k (some x.next) b first again d =
        modBoot (fun t => { t with blobs := tabSet t.blobs k { x with next := x.next + 1, stored := x.stored ++ b, done := false } }) r) := by
  intro e x r
  have hread : blobRead k (some x.next) b first again d =
      if b.length = min 1048576 (e.length - x.next * 1048576) ∧ Config.sha256 b = slice tb (32 * x.next) 32 then
        let y := { x with next := x.next + 1, stored := x.stored ++ b, done := decide (x.next + 1 = segmentsOf e) }
        let d1 := modBoot (fun t => { t with blobs := tabSet t.blobs k y }) r
        if y.done then advanceLoad (placeBlob k d1) else d1
      else withdraw k x.next r := by
    unfold blobRead
    extract_lets next
    rw [if_pos ⟨h.step, h.listed, h.undone, by simp [next, x, ht]⟩]
    refine (if_neg (h.fits_after (some x.next))).trans ?_
    split
    case h_1 hs => exact absurd (ht.symm.trans hs) (by simp)
    case h_2 t hs =>
      obtain rfl : tb = t := Option.some.inj (ht.symm.trans hs)
      rfl
  refine ⟨fun hd => ?_, fun hl hd hn => ?_⟩ <;> rw [hread]
  · exact if_neg fun hc => hd hc.2
  · have hlast : decide (x.next + 1 = segmentsOf e) = false := decide_eq_false hn.ne
    rw [if_pos ⟨hl, hd⟩, hlast]
    rfl

end

section
variable {s : State} {k : Nat} {seg : Option Nat} {b : Bytes} {first : List (List Nat)} {again : List (List (List Nat))}

/-- A read of a blob that withdraws the image (R51). -/
theorem blobSegmentReadDone_withdraws (hb : Boots s.otp) {sg : Nat} {d : Dev}
    (hf : blobRead k seg b first again s.dev = withdraw k sg d) :
    Gives (.blobSegmentReadDone k seg b first again) s (BootFailed 0xA1 1 k sg) := by
  obtain ⟨t, ht, hfail⟩ := withdraw_bootStep (f := blobRead k seg b first again) d hb hf
  exact ⟨t, ht, hfail⟩

/-- A read of a blob that goes on: what the read of the medium leaves, and the state of the blob. -/
theorem blobSegmentReadDone_goesOn (h : Settled s) (ha : BlobAwaited s.dev k) {y : BlobState}
    (hf : blobRead k seg b first again s.dev =
      modBoot (fun t => { t with blobs := tabSet t.blobs k y }) (afterRead s.dev k seg b first again)) :
    Gives (.blobSegmentReadDone k seg b first again) s fun t => SameOutside s t ∧
      MediumRead s.dev (s.dev.img.blobs.getD k {}) first again (blobPlace (s.dev.img.blobs.getD k {}) seg) b.length t.dev.boot ∧
      tabGet t.dev.boot.blobs k {} = y ∧ t.dev.boot.step = s.dev.boot.step ∧ t.dev.mem = s.dev.mem ∧ t.dev.img = s.dev.img := by
  obtain ⟨hv, hr, hp⟩ := h
  obtain ⟨pages, bits, sent, hread, hmed⟩ := mediumRead_frame (s.dev.img.blobs.getD k {}) seg b.length first again s.dev
  rw [afterRead, hread] at hf
  have hstep : (blobRead k seg b first again s.dev).boot.step = s.dev.boot.step := by rw [hf]; rfl
  have hne : (blobRead k seg b first again s.dev).boot.step ≠ .running := by
    rw [hstep]
    rcases ha.step with h | h <;> rw [h] <;> exact BootStep.noConfusion
  have hq := devStep_quiet (f := blobRead k seg b first again) (s := s)
    (P := fun t => SameOutside s t ∧
      MediumRead s.dev (s.dev.img.blobs.getD k {}) first again (blobPlace (s.dev.img.blobs.getD k {}) seg) b.length t.dev.boot ∧
      tabGet t.dev.boot.blobs k {} = y ∧ t.dev.boot.step = s.dev.boot.step ∧ t.dev.mem = s.dev.mem ∧ t.dev.img = s.dev.img)
    (by rw [hf]; exact hv) (by rw [hf]; exact hr) (by rw [hf]; exact hp.ispStays) (fun a c p => ?_)
  · rw [← bootStep_eq_devStep hne] at hq
    exact hq
  · rw [hf]
    exact ⟨⟨rfl, rfl, rfl⟩, hmed, tabGet_tabSet_self _ _ _ _, rfl, rfl, rfl⟩

end

end Sys2Proof.Machine
end

section
/-! PROOFS. Writes of the device-written copies (R64 to R67). Settles O14. -/

namespace Sys2Proof.Machine

/-! ### Device-written copies -/

/-- A write of the configuration flash ends as it stands: nothing follows from it. -/
theorem devStep_flash {f : Dev → Dev} {s : State} (h : Settled s) {b : Bytes} {x : Flash} {e : Err}
    (hf : f s.dev = { s.dev with boot := { s.dev.boot with sent := b }, flash := x, err := e }) :
    devStep f s = .next { s with dev := f s.dev } := by
  obtain ⟨hv, hr, hp⟩ := h
  unfold devStep
  rw [settle_eq]
  refine ⟨by rw [hf]; exact hv, by rw [hf]; exact hr, ?_⟩
  exact powerSettled_congr s.dev _ (by rw [hf]) (by rw [hf]) (by rw [hf]) (by rw [hf]) (by rw [hf]) (by rw [hf]) (by rw [hf]) (by rw [hf]) hp

theorem startDuePlan_none {d : Dev} (h : d.flash.planDue = none) : startDuePlan d = d := by simp [startDuePlan, h]

theorem startDueLog_none {d : Dev} (h : d.flash.logDue = none) : startDueLog d = d := by simp [startDueLog, h]

@[simp] theorem putCopy_planDue (log isA : Bool) (c : Copy) (f : Flash) : (putCopy log isA c f).planDue = f.planDue := by
  cases log <;> cases isA <;> rfl

@[simp] theorem putCopy_logDue (log isA : Bool) (c : Copy) (f : Flash) : (putCopy log isA c f).logDue = f.logDue := by
  cases log <;> cases isA <;> rfl

@[simp] theorem putCopy_log_plans (isA : Bool) (c : Copy) (f : Flash) :
    (putCopy true isA c f).planA = f.planA ∧ (putCopy true isA c f).planB = f.planB := by
  cases isA <;> exact ⟨rfl, rfl⟩

section
variable {s : State} {log isA : Bool} {c : Copy}

/-- The write in progress ends, and none waits: its own end is all that follows (R65). -/
theorem writeEnds_alone {d e : Dev} {same : Bool} (hw : d.flash.writing = some (log, isA, c)) (he : endWrite same (sendRead d) = e)
    (hp : e.flash.planDue = none) (hl : e.flash.logDue = none) : writeEnds same d = e := by
  unfold writeEnds
  rw [if_neg (by simp [hw])]
  dsimp only
  rw [he, startDuePlan_none hp, startDueLog_none hl]

theorem severity_A7 : severity 0xA7 = 0 := by decide

theorem flashWriteDone_same (h : Settled s) (hw : s.dev.flash.writing = some (log, isA, c)) (hp : s.dev.flash.planDue = none)
    (hl : s.dev.flash.logDue = none) :
    exec (.flashWriteDone true) s = .next { s with dev := { s.dev with
      boot := { s.dev.boot with sent := xspiBytes s.dev.img.header s.dev.img.header.readOp }
      flash := { putCopy log isA c s.dev.flash with writing := none } } } := by
  have he : endWrite true (sendRead s.dev) = { s.dev with
      boot := { s.dev.boot with sent := xspiBytes s.dev.img.header s.dev.img.header.readOp }
      flash := { putCopy log isA c s.dev.flash with writing := none }, err := s.dev.err } := by
    simp [endWrite, landWrite, sendRead, modBoot, modFlash, hw]
  have hf := writeEnds_alone hw he (by simpa using hp) (by simpa using hl)
  exact (devStep_flash h hf).trans (by rw [hf])

theorem flashWriteDone_differs (h : Settled s) (hw : s.dev.flash.writing = some (log, isA, c)) (hp : s.dev.flash.planDue = none)
    (hl : s.dev.flash.logDue = none) :
    exec (.flashWriteDone false) s = .next { s with dev := { s.dev with
      boot := { s.dev.boot with sent := xspiBytes s.dev.img.header s.dev.img.header.readOp }
      flash := { s.dev.flash with writing := none }
      err := errRecord 0xA7 none (0, 0) none false s.dev.err } } := by
  have he : endWrite false (sendRead s.dev) = { s.dev with
      boot := { s.dev.boot with sent := xspiBytes s.dev.img.header s.dev.img.header.readOp }
      flash := { s.dev.flash with writing := none }
      err := errRecord 0xA7 none (0, 0) none false s.dev.err } := by
    have hi := recordAt_info 0xA7 none (0, 0) none false (modFlash (fun f => { f with writing := none }) (sendRead s.dev)) severity_A7
    exact hi
  have hf := writeEnds_alone hw he hp hl
  exact (devStep_flash h hf).trans (by rw [hf])

/-- The copy that a snapshot of the error log writes (R65, R67). -/
def LogCopy (payload : Bytes) (f : Flash) : Prop :=
  ∃ isA c, f.writing = some (true, isA, c) ∧ c.kind = 2 ∧ c.payload = payload ∧ c.len = c.payload.length ∧
    c.crc = (crc32 c.payload).toNat

/-- The start of a snapshot's write touches the command sent and the flash, and there the log's copies and the write in progress. -/
theorem startWrite_log (payload : Bytes) (d : Dev) : ∃ b x, startWrite true payload d = { d with
    boot := { d.boot with sent := b }, flash := x } ∧ LogCopy payload x ∧ x.planA = d.flash.planA ∧ x.planB = d.flash.planB ∧
      x.planDue = d.flash.planDue ∧ x.logDue = d.flash.logDue := by
  obtain ⟨ha, hb⟩ := putCopy_log_plans (writeTarget true payload d).1 {} d.flash
  exact ⟨_, _, rfl, ⟨_, _, rfl, rfl, rfl, rfl, rfl⟩, ha, hb, putCopy_planDue _ _ _ _, putCopy_logDue _ _ _ _⟩

theorem errlogSpacingExpiry_idle (h : Settled s) (hs : s.dev.flash.spacing = true) (hl : s.dev.flash.logDue = none) :
    exec .errlogSpacingExpiry s = .next { s with dev := { s.dev with flash := { s.dev.flash with spacing := false } } } := by
  have hf : spacingEnds s.dev = { s.dev with
      boot := { s.dev.boot with sent := s.dev.boot.sent }, flash := { s.dev.flash with spacing := false }, err := s.dev.err } := by
    rw [spacingEnds, if_pos hs]
    exact startDueLog_none hl
  exact (devStep_flash h hf).trans (by rw [hf])

theorem errlogSpacingExpiry_writes {r : Nat} (h : Settled s) (hs : s.dev.flash.spacing = true) (hl : s.dev.flash.logDue = some r)
    (hw : s.dev.flash.writing = none) :
    Gives .errlogSpacingExpiry s fun t => SameOutside s t ∧ t.dev.flash.spacing = true ∧ t.dev.flash.logDue = none ∧
      LogCopy (snapshotBytes r { s.dev with flash := { s.dev.flash with spacing := false } }) t.dev.flash ∧
      t.dev.flash.planA = s.dev.flash.planA ∧ t.dev.flash.planB = s.dev.flash.planB ∧
      t.dev.mem = s.dev.mem ∧ t.dev.err = s.dev.err := by
  let d : Dev := { s.dev with flash := { s.dev.flash with spacing := false } }
  obtain ⟨b, x, hx, hcopy, ha, hb, -, -⟩ := startWrite_log (snapshotBytes r d) d
  have hf : spacingEnds s.dev = { s.dev with
      boot := { s.dev.boot with sent := b }, flash := { x with logDue := none, spacing := true }, err := s.dev.err } := by
    have hdue : startDueLog d = modFlash (fun f => { f with logDue := none, spacing := true }) (startWrite true (snapshotBytes r d) d) := by
      simp [startDueLog, d, hl, hw]
    rw [spacingEnds, if_pos hs]
    refine hdue.trans ?_
    rw [hx]
    rfl
  refine ⟨_, devStep_flash h hf, ?_⟩
  rw [hf]
  exact ⟨⟨rfl, rfl, rfl⟩, rfl, rfl, hcopy, ha, hb, rfl, rfl⟩

end

/-- Settles O14: what is read of a blob is used once its digest matches, and a copy's write ends with its read-back. -/
theorem blobsAreCheckedAndCopiesWritten : Obligations.BlobsAreCheckedAndCopiesWritten := by
  refine ⟨fun s k b first again hb h hstep hk => ?_, fun s h => ⟨?_, ?_, ?_⟩⟩
  · intro e x hdone hfit read
    have ha : BlobAwaited s.dev k := ⟨hstep, hk, hdone, hfit⟩
    refine ⟨fun ht hl hd => ?_, fun ht hd => ?_, fun tb ht hl hd hn => ?_, fun tb ht hd => ?_⟩
    · exact blobSegmentReadDone_goesOn h ha ((blobRead_table ha ht).trans (if_pos ⟨hl, hd⟩))
    · exact blobSegmentReadDone_withdraws hb ((blobRead_table ha ht).trans (if_neg fun hc => hd.elim (· hc.1) (· hc.2)))
    · exact blobSegmentReadDone_goesOn h ha ((blobRead_segment ha ht).2 hl hd hn)
    · exact blobSegmentReadDone_withdraws hb ((blobRead_segment ha ht).1 hd)
  · exact fun log isA c hw hp hl => ⟨flashWriteDone_same h hw hp hl, flashWriteDone_differs h hw hp hl⟩
  · exact errlogSpacingExpiry_idle h
  · exact fun r hs hl hw => errlogSpacingExpiry_writes h hs hl hw

end Sys2Proof.Machine
end

section
/-! PROOFS. A command frame that the port takes, up to its response (R352 to R354, R387). -/

namespace Sys2Proof.Machine

/-! ### A command frame that is taken and answered -/

/-- The state that the answer to a carried frame leaves, before what follows from it. -/
def answeredState (op : Nat) (f : Frame) (n : Option Nat) (p : Bytes) (s : State) : State :=
  let r := handle op n p (servedState op n p s)
  { r.1 with dev := settleReply op f (guardOf n s) r.2 r.1.dev }

/-- A frame that carries a payload reaches the handler of its opcode, in its session or outside one (R353, R354, R357, R387). -/
theorem hostFrame_carries {op : Nat} {f : Frame} {n : Option Nat} {p : Bytes} {s : State} (hop : opcodes.contains op = true)
    (h : Carries op f n p s) : hostFrame op f s = answeredState op f n p s := by
  obtain ⟨⟨hawake, haddr, hcur, -, hlen, hmax, hcrc, harm⟩, hans, hn⟩ := h
  have hrefused : ¬ (!awake s.dev || s.dev.host.addr.isNone || s.dev.host.cur.isSome) = true := by
    simp [hawake, hcur, Option.isNone_eq_false_iff.mpr haddr]
  have hbad : ¬ (f.payload.length ≠ f.len ∨ 4096 < f.len) := by simp [hlen, hmax]
  have hcheck : ¬ crcFails op f (receiveFrame s.dev) = true := by
    have : armedOn (receiveFrame s.dev) 0xA 0 = none := harm
    simp [crcFails, hcrc, this]
  have hanswered : ¬ (!answered (receiveFrame s.dev) op) = true := by
    have : answered (receiveFrame s.dev) op = true := hans
    simp [this]
  unfold hostFrame
  rw [if_neg hrefused]
  extract_lets d answer
  rw [if_neg hbad, if_neg hcheck, if_neg (by rw [hop]; decide), if_neg hanswered]
  cases n with
  | none =>
    obtain ⟨hsess, rfl⟩ := hn
    rw [if_pos hsess]
    rfl
  | some k =>
    obtain ⟨rfl, hk, hne, hopen, hun⟩ := hn
    have hopen' : ¬ (8 ≤ f.session ∨ (getSession d f.session).opened = false) := by
      have : (getSession d f.session).opened = true := hopen
      simp [this, hk]
    have hun' : unprotect op f (getSession d f.session) = some p := hun
    rw [if_neg (by omega), if_neg hne]
    unfold serveProtected
    dsimp only
    rw [if_neg hopen']
    split
    case h_1 hx => exact absurd (hx.symm.trans hun') (by simp)
    case h_2 q hx =>
      obtain rfl : q = p := Option.some.inj (hx.symm.trans hun')
      rfl

/-- What a response touches. -/
theorem respond_frame (st seq op : Nat) (pl : Bytes) (g : Option Guard) (d : Dev) : ∃ i m,
    respond st seq op pl g d = { d with host := { d.host with
      resp := some (responseBytes st seq op pl g, 0), cur := none, ibis := i, ibiMerged := m } } := by
  obtain ⟨i, m, h⟩ := ibi_frame 1 ((g.map (fun g => g.session)).getD 255) seq (seq / 256)
    (modHost (fun h => { h with resp := some (responseBytes st seq op pl g, 0), cur := none }) d)
  exact ⟨i, m, h⟩

/-- Nothing is due in a device, and its ISP domain stays. -/
structure Quiet (d : Dev) : Prop where
  tripped : d.sched.tripped = none
  romDue : d.boot.romDue = false
  isp : IspStays d

theorem Settled.quiet {s : State} (h : Settled s) : Quiet s.dev := ⟨h.1, h.2.1, h.2.2.ispStays⟩

theorem Quiet.mono {d e : Dev} (h : Quiet d) (ht : e.sched.tripped = d.sched.tripped) (hr : e.boot.romDue = d.boot.romDue)
    (hp : e.power.isp = d.power.isp) (hw : ispWanted d = true → ispWanted e = true) : Quiet e :=
  ⟨ht.trans h.tripped, hr.trans h.romDue, h.isp.mono hp hw⟩

/-- What a response and the power domains change of a device. -/
def Replied (d e : Dev) : Prop := ∃ r c i m a b p, e = { d with
  host := { d.host with resp := r, cur := c, ibis := i, ibiMerged := m }
  power := { d.power with sup := a, isp := b, perk := p } }

/-- A handler that answers at once: the response stands, and the device is as the handler left it. -/
theorem wholeStep_answers {op : Nat} {f : Frame} {n : Option Nat} {p : Bytes} {s : State} (hop : opcodes.contains op = true)
    (hc : Carries op f n p s) {h : State} {d : Dev} {st : Nat} {pl : Bytes} (hs : SameOutside s h)
    (hh : handle op n p (servedState op n p s) = ({ h with dev := d }, .now st pl)) (hq : Quiet d) :
    ∃ t, wholeStep (hostFrame op f) s = .next t ∧ SameOutside s t ∧ Answers op f n st pl s t ∧ Replied d t.dev := by
  obtain ⟨i, m, hr⟩ := respond_frame st f.seq op pl (guardOf n s) d
  have hstate : hostFrame op f s = { h with dev := respond st f.seq op pl (guardOf n s) d } := by
    rw [hostFrame_carries hop hc]
    simp only [answeredState, hh, settleReply]
  have hq' : Quiet (respond st f.seq op pl (guardOf n s) d) := by
    rw [hr]
    exact hq.mono rfl rfl rfl id
  obtain ⟨a, b, k, hset⟩ := settle_quiet (s := { h with dev := respond st f.seq op pl (guardOf n s) d }) hq'.tripped hq'.romDue hq'.isp
  refine ⟨_, congrArg (fun x => Host.Outcome.next (settle x)) hstate, ?_⟩
  rw [hset, hr]
  exact ⟨hs, ⟨rfl, rfl⟩, _, _, _, _, _, _, _, rfl⟩

/-- What a carried frame changes before its handler runs: the port, the sessions, the supervisor's power. -/
theorem servedState_frame (op : Nat) (n : Option Nat) (p : Bytes) (s : State) : ∃ a b l x u v,
    servedState op n p s = { s with dev := { s.dev with
      host := { s.dev.host with nack := a, cmds := b, resp := none, respLost := l, sessions := x }
      power := { s.dev.power with sup := u, perk := v } } } ∧
    ∀ k, (tabGet x k {}).part = (getSession s.dev k).part := by
  have hwake (d : Dev) : ∃ u v, wakeSupervisor op p d = { d with power := { d.power with sup := u, perk := v } } := by
    unfold wakeSupervisor
    split <;> exact ⟨_, _, rfl⟩
  cases n with
  | none =>
    obtain ⟨u, v, hw⟩ := hwake (receiveFrame s.dev)
    exact ⟨_, _, _, s.dev.host.sessions, u, v, congrArg (fun d => { s with dev := d }) hw, fun _ => rfl⟩
  | some j =>
    obtain ⟨u, v, hw⟩ := hwake (modSession j (fun y => { y with counter := y.counter + 1, row := 0 }) (receiveFrame s.dev))
    refine ⟨_, _, _, _, u, v, congrArg (fun d => { s with dev := d }) hw, fun k => ?_⟩
    change (tabGet (tabMod s.dev.host.sessions j {} _) k {}).part = _
    by_cases hk : k = j
    · subst hk
      rw [tabGet_tabMod_self]
      rfl
    · rw [tabGet_tabMod_ne _ _ _ _ _ _ hk]
      rfl

/-- The handler of a carried frame runs in a device as quiet as the one before, with its sessions in their partitions. -/
theorem servedState_quiet {op : Nat} {n : Option Nat} {p : Bytes} {s : State} (h : Settled s) : Quiet (servedState op n p s).dev := by
  obtain ⟨_, _, _, _, _, _, hf, -⟩ := servedState_frame op n p s
  rw [hf]
  exact h.quiet.mono rfl rfl rfl id

theorem servedState_sameOutside (op : Nat) (n : Option Nat) (p : Bytes) (s : State) : SameOutside s (servedState op n p s) := ⟨rfl, rfl, rfl⟩

theorem sessPart_servedState (op : Nat) (n : Option Nat) (p : Bytes) (s : State) :
    sessPart n (servedState op n p s).dev = sessPart n s.dev := by
  obtain ⟨_, _, _, _, _, _, hf, hx⟩ := servedState_frame op n p s
  rw [hf]
  cases n with
  | none => rfl
  | some k => exact congrArg some (hx k)

theorem hostSession_iff (n : Option Nat) (s : State) : HostSession n s ↔ sessPart n s.dev = some 0 := by
  cases n <;> simp [HostSession, sessPart]

end Sys2Proof.Machine
end

section
/-! PROOFS. MAINTENANCE: the snapshot of the error log (R67) and self-tests (R449). -/

namespace Sys2Proof.Machine

/-! ### MAINTENANCE -/

/-- The four commands that a MAINTENANCE frame stands for. -/
theorem exec_maintenance {f : Frame} {s : State} (hf : f.wf = true) :
    ∀ c ∈ [Instr.errlogSnapshot f, .selfTestRequest f, .lifecycleTransition f, .tensorDump f],
      exec c s = wholeStep (hostFrame 0x60 f) s := by
  intro c hc
  simp only [List.mem_cons, List.not_mem_nil, or_false] at hc
  rcases hc with rfl | rfl | rfl | rfl <;> exact unlessWf_of_wf hf

section
variable {f : Frame} {n : Option Nat} {p : Bytes} {s : State}

/-- A MAINTENANCE frame whose handler answers at once. -/
theorem maintenance_answers (hc : Carries 0x60 f n p s) {c : Instr}
    (hm : c ∈ [Instr.errlogSnapshot f, .selfTestRequest f, .lifecycleTransition f, .tensorDump f]) (d : Dev) {st : Nat}
    (hh : handleMaintenance n p (servedState 0x60 n p s) = ({ servedState 0x60 n p s with dev := d }, .now st [])) (hq : Quiet d) :
    ∃ t, exec c s = .next t ∧ SameOutside s t ∧ Answers 0x60 f n st [] s t ∧ Replied d t.dev := by
  obtain ⟨⟨_, _, _, hwf, _⟩, _⟩ := id hc
  rw [exec_maintenance hwf c hm]
  exact wholeStep_answers (by decide) hc (servedState_sameOutside 0x60 n p s) hh hq

/-- A MAINTENANCE frame that is denied. -/
theorem maintenance_denied (h : Settled s) (hc : Carries 0x60 f n p s) {c : Instr}
    (hm : c ∈ [Instr.errlogSnapshot f, .selfTestRequest f, .lifecycleTransition f, .tensorDump f])
    (hh : handleMaintenance n p (servedState 0x60 n p s) = say answerDenied (servedState 0x60 n p s)) :
    Gives c s fun t => SameOutside s t ∧ Answers 0x60 f n 6 [] s t ∧ t.dev.flash = s.dev.flash ∧ t.dev.age = s.dev.age ∧
      t.dev.host.tx = s.dev.host.tx ∧ t.dev.mem = s.dev.mem := by
  obtain ⟨t, ht, hs, ha, _, _, _, _, _, _, _, hd⟩ := maintenance_answers hc hm (servedState 0x60 n p s).dev hh (servedState_quiet h)
  obtain ⟨_, _, _, _, _, _, hf, -⟩ := servedState_frame 0x60 n p s
  refine ⟨t, ht, hs, ha, ?_⟩
  rw [hd, hf]
  exact ⟨rfl, rfl, rfl, rfl⟩

theorem handleMaintenance_outside (hn : ¬ HostSession n s) :
    handleMaintenance n p (servedState 0x60 n p s) = say answerDenied (servedState 0x60 n p s) :=
  if_pos fun hp => hn ((hostSession_iff n s).mpr ((sessPart_servedState 0x60 n p s).symm.trans hp))

theorem handleMaintenance_snapshot {t : State} (hn : sessPart n t.dev = some 0) :
    handleMaintenance n (le 2 1) t = sayDev answerOk (ownerSnapshot t.dev) t := by
  unfold handleMaintenance
  rw [if_neg (not_not.mpr hn)]
  rfl

/-- The payload of a self-test's request. -/
def testRequest (u k : Nat) : Bytes := le 2 2 ++ le 1 u ++ le 1 k ++ zeros 2

theorem handleMaintenance_test {t : State} (hn : sessPart n t.dev = some 0) {u k : Nat} (hu : u < 24) (hk : k ≤ 3) :
    handleMaintenance n (testRequest u k) t =
      sayDev (if (queueTest u k t.dev).1 then answerOk else answerDenied) (queueTest u k t.dev).2 t := by
  have h2 : u8 (testRequest u k) 2 = u := by
    simp [testRequest, u8, le, zeros]; omega
  have h3 : u8 (testRequest u k) 3 = k := by
    simp [testRequest, u8, le, zeros]; omega
  have hl : (testRequest u k).length = 6 := rfl
  have hop : u16 (testRequest u k) 0 = 2 := rfl
  unfold handleMaintenance
  rw [if_neg (not_not.mpr hn), if_neg (by omega), hop, h2, h3]
  exact (if_neg (not_not.mpr hl)).trans (if_neg (by omega))

theorem handleMaintenance_dump {t : State} (hn : sessPart n t.dev = some 0) (q : Bytes) :
    handleMaintenance n (le 2 4 ++ q) t = if channelMuzzled n t.dev then say answerDenied t else dumpTensor q t := by
  unfold handleMaintenance
  rw [if_neg (not_not.mpr hn), if_neg (by simp [le]; omega), show u16 (le 2 4 ++ q) 0 = 4 from rfl]
  rfl

/-- The snapshot's reason stands in its third byte (Table 19.3). -/
theorem snapshotBytes_reason (d : Dev) : u8 (snapshotBytes 2 d) 2 = 2 := rfl

/-- A snapshot that the spacing and the flash allow is written at once (R67). -/
theorem errlogSnapshot_writes (h : Settled s) (hc : Carries 0x60 f n (le 2 1) s) (hn : HostSession n s)
    (hs : s.dev.flash.spacing = false) (hw : s.dev.flash.writing = none) :
    Gives (.errlogSnapshot f) s fun t => SameOutside s t ∧ Answers 0x60 f n 0 [] s t ∧ t.dev.flash.spacing = true ∧
      (∃ isA c, t.dev.flash.writing = some (true, isA, c) ∧ c.kind = 2 ∧ c.len = c.payload.length ∧
        c.crc = (crc32 c.payload).toNat ∧ u8 c.payload 2 = 2) ∧
      t.dev.flash.planA = s.dev.flash.planA ∧ t.dev.flash.planB = s.dev.flash.planB ∧ t.dev.mem = s.dev.mem := by
  have hsess := (sessPart_servedState 0x60 n (le 2 1) s).trans ((hostSession_iff n s).mp hn)
  have hq := servedState_quiet (op := 0x60) (n := n) (p := le 2 1) h
  obtain ⟨_, _, _, _, _, _, hf, -⟩ := servedState_frame 0x60 n (le 2 1) s
  have hflash : (servedState 0x60 n (le 2 1) s).dev.flash = s.dev.flash := by rw [hf]
  have hmem : (servedState 0x60 n (le 2 1) s).dev.mem = s.dev.mem := by rw [hf]
  have hh := handleMaintenance_snapshot hsess
  generalize (servedState 0x60 n (le 2 1) s).dev = e at hh hq hflash hmem
  obtain ⟨b, x, hx, ⟨isA, c, hwr, hkind, hpay, hlen, hcrc⟩, ha, hb, -, -⟩ := startWrite_log (snapshotBytes 2 e) e
  have hd : ownerSnapshot e = { e with boot := { e.boot with sent := b }, flash := { x with spacing := true } } := by
    rw [ownerSnapshot, if_neg (by simp [hflash, hs, hw]), hx]
    rfl
  obtain ⟨t, ht, hso, hans, _, _, _, _, _, _, _, hr⟩ :=
    maintenance_answers hc (c := .errlogSnapshot f) (by simp) (ownerSnapshot e) hh (by rw [hd]; exact hq.mono rfl rfl rfl id)
  refine ⟨t, ht, hso, hans, ?_⟩
  rw [hr, hd]
  exact ⟨rfl, ⟨isA, c, hwr, hkind, hlen, hcrc, hpay ▸ snapshotBytes_reason e⟩, ha.trans (by rw [hflash]),
    hb.trans (by rw [hflash]), hmem⟩

/-- A snapshot within the spacing waits for its end (R67). -/
theorem errlogSnapshot_waits (h : Settled s) (hc : Carries 0x60 f n (le 2 1) s) (hn : HostSession n s)
    (hs : s.dev.flash.spacing = true) :
    Gives (.errlogSnapshot f) s fun t => SameOutside s t ∧ Answers 0x60 f n 0 [] s t ∧
      t.dev.flash.logDue = some 2 ∧ t.dev.flash.writing = s.dev.flash.writing ∧ t.dev.mem = s.dev.mem := by
  have hsess := (sessPart_servedState 0x60 n (le 2 1) s).trans ((hostSession_iff n s).mp hn)
  obtain ⟨_, _, _, _, _, _, hf, -⟩ := servedState_frame 0x60 n (le 2 1) s
  have hd : ownerSnapshot (servedState 0x60 n (le 2 1) s).dev =
      modFlash (fun f => { f with logDue := some 2 }) (servedState 0x60 n (le 2 1) s).dev :=
    if_pos (.inl (by rw [hf]; exact hs))
  obtain ⟨t, ht, hso, hans, _, _, _, _, _, _, _, hr⟩ := maintenance_answers hc (c := .errlogSnapshot f) (by simp)
    (ownerSnapshot (servedState 0x60 n (le 2 1) s).dev) (handleMaintenance_snapshot hsess)
    (by rw [hd]; exact (servedState_quiet h).mono rfl rfl rfl id)
  refine ⟨t, ht, hso, hans, ?_⟩
  rw [hr, hd, hf]
  exact ⟨rfl, rfl, rfl⟩

/-! ### Self-tests -/

/-- The test queued last runs next, or waits (R449). -/
theorem nextTest_frame (d : Dev) : ∃ x, nextTest d = { d with age := x } ∧ x.avail = d.age.avail ∧
    ∀ y ∈ d.age.tests, x.testing = some y ∨ y ∈ x.tests := by
  unfold nextTest
  split
  case h_1 y rest _ hl =>
    refine ⟨_, rfl, rfl, fun z hz => ?_⟩
    rw [hl] at hz
    rcases List.mem_cons.mp hz with rfl | hz
    · exact .inl rfl
    · exact .inr hz
  case h_2 => exact ⟨d.age, rfl, rfl, fun _ => .inr⟩

theorem queueTest_denied {u k : Nat} {d : Dev} (h : d.age.retired.getLsbD u = true ∨ lastOfCluster d u = true) :
    queueTest u k d = (false, d) := if_pos (by rcases h with h | h <;> simp [h])

theorem queueTest_frame {u k : Nat} {d : Dev} (hr : d.age.retired.getLsbD u = false) (hl : lastOfCluster d u = false) :
    ∃ x, queueTest u k d = (true, { d with age := x }) ∧ x.avail = d.age.avail ∧ (x.testing = some (u, k) ∨ (u, k) ∈ x.tests) := by
  obtain ⟨x, hx, ha, ht⟩ := nextTest_frame (modAge (fun a => { a with tests := a.tests ++ [(u, k)] }) d)
  refine ⟨x, ?_, ha, ht _ (List.mem_append_right _ (List.mem_singleton.mpr rfl))⟩
  rw [queueTest, if_neg (by simp [hr, hl]), hx]
  rfl

theorem selfTestRequest_queues (h : Settled s) {u k : Nat} (hc : Carries 0x60 f n (testRequest u k) s) (hn : HostSession n s)
    (hu : u < 24) (hk : k ≤ 3)
    (hr : s.dev.age.retired.getLsbD u = false) (hl : lastOfCluster s.dev u = false) :
    Gives (.selfTestRequest f) s fun t => SameOutside s t ∧ Answers 0x60 f n 0 [] s t ∧ t.dev.age.avail = s.dev.age.avail ∧
      t.dev.mem = s.dev.mem ∧ (t.dev.age.testing = some (u, k) ∨ (u, k) ∈ t.dev.age.tests) := by
  have hsess := (sessPart_servedState 0x60 n (testRequest u k) s).trans ((hostSession_iff n s).mp hn)
  obtain ⟨_, _, _, _, _, _, hf, -⟩ := servedState_frame 0x60 n (testRequest u k) s
  obtain ⟨x, hx, ha, ht⟩ := queueTest_frame (k := k) (d := (servedState 0x60 n (testRequest u k) s).dev)
    (by rw [hf]; exact hr) (by rw [hf]; exact hl)
  have hh := handleMaintenance_test hsess hu hk
  rw [hx] at hh
  obtain ⟨t, hn, hso, hans, _, _, _, _, _, _, _, hr⟩ := maintenance_answers hc (c := .selfTestRequest f) (by simp) _ hh
    ((servedState_quiet h).mono rfl rfl rfl id)
  refine ⟨t, hn, hso, hans, ?_⟩
  rw [hr]
  exact ⟨ha.trans (by rw [hf]), (by rw [hf]), ht⟩

theorem selfTestRequest_denied (h : Settled s) {u k : Nat} (hc : Carries 0x60 f n (testRequest u k) s) (hn : HostSession n s)
    (hu : u < 24) (hk : k ≤ 3)
    (hd : s.dev.age.retired.getLsbD u = true ∨ lastOfCluster s.dev u = true) :
    Gives (.selfTestRequest f) s fun t => SameOutside s t ∧ Answers 0x60 f n 6 [] s t ∧ t.dev.age = s.dev.age ∧ t.dev.mem = s.dev.mem := by
  have hsess := (sessPart_servedState 0x60 n (testRequest u k) s).trans ((hostSession_iff n s).mp hn)
  obtain ⟨_, _, _, _, _, _, hf, -⟩ := servedState_frame 0x60 n (testRequest u k) s
  have hh := handleMaintenance_test hsess hu hk
  rw [queueTest_denied (by rw [hf]; exact hd)] at hh
  obtain ⟨t, ht, hso, hans, -, hage, -, hmem⟩ := maintenance_denied h hc (c := .selfTestRequest f) (by simp) hh
  exact ⟨t, ht, hso, hans, hage, hmem⟩

end

end Sys2Proof.Machine
end

section
/-! PROOFS. MAINTENANCE: tensor dumps (R370). Settles O54. -/

namespace Sys2Proof.Machine

/-! ### Tensor dumps (R370) -/

theorem le_four (v : Nat) : le 4 v = [BitVec.ofNat 8 v, BitVec.ofNat 8 (v / 256), BitVec.ofNat 8 (v / 65536), BitVec.ofNat 8 (v / 16777216)] := by
  simp [le, List.range_succ]

/-- A field of four bytes is read as it was written. -/
theorem u32_le {v n : Nat} (h : v < 2 ^ 32) {a : Bytes} (ha : a.length = n) (b : Bytes) : u32 (a ++ (le 4 v ++ b)) n = v := by
  subst ha
  have hb (i : Nat) : (a ++ (le 4 v ++ b)).getD (a.length + i) 0 = (le 4 v ++ b).getD i 0 := by
    rw [List.getD_append_right _ _ _ _ (Nat.le_add_right _ _), Nat.add_sub_cancel_left]
  have h0 : (a ++ (le 4 v ++ b)).getD a.length 0 = (le 4 v ++ b).getD 0 0 := hb 0
  simp only [u32, u16, u8, Nat.add_assoc, hb, h0]
  simp only [le_four, List.cons_append, List.getD_cons_zero, List.getD_cons_succ, BitVec.toNat_ofNat]
  omega

/-- The payload of a dump's request. -/
def dumpRequest (x y z : Nat) : Bytes := le 4 x ++ le 4 y ++ le 4 z

theorem dumpRequest_fields {x y z : Nat} (hx : x < 2 ^ 32) (hy : y < 2 ^ 32) (hz : z < 2 ^ 32) :
    (dumpRequest x y z).length = 12 ∧ u32 (dumpRequest x y z) 0 = x ∧ u32 (dumpRequest x y z) 4 = y ∧ u32 (dumpRequest x y z) 8 = z := by
  have hleft : dumpRequest x y z = le 4 x ++ (le 4 y ++ le 4 z) := List.append_assoc _ _ _
  have hright : dumpRequest x y z = le 4 x ++ le 4 y ++ (le 4 z ++ []) := by rw [List.append_nil, dumpRequest]
  refine ⟨rfl, ?_, ?_, ?_⟩
  · rw [hleft]
    exact u32_le hx (a := []) rfl _
  · rw [hleft]
    exact u32_le hy rfl _
  · rw [hright]
    exact u32_le hz rfl _

theorem countRemote_frame (a n : Nat) (d : Dev) : ∃ x k, countRemote a n d = { d with mov := { d.mov with ddr := x }, freeCtr := k } := by
  unfold countRemote
  split
  · unfold withChecks
    split <;> exact ⟨_, _, rfl⟩
  · exact ⟨_, _, rfl⟩

/-- A range of at most 16 KiB is one record. -/
theorem dumpRange_single (a : Nat) {n : Nat} (h0 : 0 < n) (h : n ≤ 16384) (d : Dev) :
    dumpRange (n / 16384 + 1) a n d = emitLoose 0 (dumpRecord d a n) d := by
  have hrest (k : Nat) (e : Dev) : dumpRange k (a + 16384) (n - 16384) e = e := by
    cases k with
    | zero => rfl
    | succ k => exact if_pos (Nat.sub_eq_zero_of_le h)
  rw [dumpRange, if_neg h0.ne', hrest, Nat.min_eq_left h]

theorem recordHeader_length (kind flags part tier len stream session key arrival seq stall : Nat) :
    (recordHeader kind flags part tier len stream session key arrival seq stall).length = 32 := by
  simp [recordHeader, le, zeros]

/-- A record outside a session carries its body after its header. -/
theorem sealRecord_body (d : Dev) (c : Channel) (keyless : Bool) {hdr : Bytes} (h : hdr.length = 32) (body : Bytes) (seq : Nat) :
    slice (sealRecord d c none keyless hdr body seq) 32 body.length = body := by
  unfold sealRecord slice
  dsimp only
  rw [List.append_assoc, ← h, List.drop_left, List.take_left]

/-- A record of the device that finds room in its queue: it stands at the queue's end, and nothing but the port has changed. -/
theorem emitLoose_queues {part ci : Nat} {c : Channel} {o : OutRec} {d : Dev} (hc : channelOf d.img part o.dtype = some (ci, c))
    (hq : (getTx d c.port).queue.length < 256) (ho : o.dtype ≠ 0x30) : ∃ (x : TxRec) (chans : Tab Chan),
    emitLoose part o d = { d with host := { d.host with
      tx := tabMod d.host.tx c.port {} (fun t => { t with queue := t.queue ++ [x] }), chans := chans } } ∧
    x.chan = ci ∧ x.dtype = o.dtype ∧ slice x.bytes 32 o.body.length = o.body := by
  unfold emitLoose enqueueRecord
  rw [hc]
  dsimp only
  rw [if_neg hq.not_ge, if_neg (fun hb => ho hb.1)]
  exact ⟨_, _, rfl, rfl, rfl, sealRecord_body _ _ false (recordHeader_length _ _ _ _ _ _ _ _ _ _ _) _ _⟩

/-- What a dump answers (R370). -/
theorem dumpTensor_eq {r : Region} {off len : Nat} {t : State} (hx : r.id < 2 ^ 32) (hy : off < 2 ^ 32) (hz : len < 2 ^ 32)
    (hr : region? t.dev.img r.id = some r) : dumpTensor (dumpRequest r.id off len) t =
      if r.kind = 0 ∧ dumpState t.otp t.dev = true ∧ off % 64 = 0 ∧ len % 64 = 0 ∧ off + len ≤ r.pages * 4096 then
        sayDev answerOk (dumpRange (len / 16384 + 1) (r.base + off) len (countRemote (r.base + off) (len / 64) t.dev)) t
      else say answerDenied t := by
  obtain ⟨hl, h0, h4, h8⟩ := dumpRequest_fields hx hy hz
  unfold dumpTensor
  rw [h0, h4, h8, hr]
  exact if_neg (not_not.mpr hl)

/-- A record of another kind at the end of a queue asks for no domain less than before. -/
theorem queued_ispWanted {d e : Dev} {k : Nat} {x : TxRec} {chans : Tab Chan}
    (he : e = { d with host := { d.host with tx := tabMod d.host.tx k {} (fun t => { t with queue := t.queue ++ [x] }), chans := chans } })
    (h : ispWanted d = true) : ispWanted e = true := by
  have hf : forwarding d = true → forwarding e = true := by
    intro hf
    simp only [forwarding, List.any_eq_true] at hf ⊢
    obtain ⟨j, hj, y, hy, hkind⟩ := hf
    refine ⟨j, hj, y, ?_, hkind⟩
    rw [he, getTx]
    by_cases hk : j = k
    · subst hk
      rw [tabGet_tabMod_self]
      exact List.mem_append_left _ hy
    · rw [tabGet_tabMod_ne _ _ _ _ _ _ hk]
      exact hy
  have hc : cameraAlwaysOn e = cameraAlwaysOn d := by rw [he]; rfl
  have hp : e.power = d.power := by rw [he]
  simp only [ispWanted, Bool.or_eq_true] at h ⊢
  rw [hc, hp]
  exact h.imp id hf

section
variable {f : Frame} {n : Option Nat} {s : State} {r : Region} {off len : Nat}

theorem channelMuzzled_iff (n : Option Nat) (d : Dev) : channelMuzzled n d = true ↔ ∃ k, n = some k ∧ isMuzzled d (0x70 + k) = true := by
  cases n <;> simp [channelMuzzled]

/-- A dump that the state and the region permit, of at most 16 KiB, is one record at the end of its queue. -/
theorem dumpTensor_sends (hx : r.id < 2 ^ 32) (hy : off < 2 ^ 32) (hz : len < 2 ^ 32) (hr : region? s.dev.img r.id = some r)
    (hd : r.kind = 0 ∧ dumpState s.otp s.dev = true ∧ off % 64 = 0 ∧ len % 64 = 0 ∧ off + len ≤ r.pages * 4096)
    (h0 : 0 < len) (hmax : len ≤ 16384) {ci : Nat} {c : Channel} (hch : channelOf s.dev.img 0 0x32 = some (ci, c))
    (hq : (getTx s.dev c.port).queue.length < 256) : ∃ (d e : Dev) (x : TxRec) (chans : Tab Chan) (mv : Ddr) (fc : Nat),
    dumpTensor (dumpRequest r.id off len) s = sayDev answerOk e s ∧
    d = { s.dev with mov := { s.dev.mov with ddr := mv }, freeCtr := fc } ∧
    e = { d with host := { d.host with tx := tabMod d.host.tx c.port {} (fun t => { t with queue := t.queue ++ [x] }), chans := chans } } ∧
    x.chan = ci ∧ x.dtype = 0x32 ∧ slice x.bytes 32 len = memRead s.dev.mem (r.base + off) len := by
  obtain ⟨mv, fc, hcount⟩ := countRemote_frame (r.base + off) (len / 64) s.dev
  obtain ⟨x, chans, hemit, hchan, hty, hbytes⟩ := emitLoose_queues (part := 0) (ci := ci) (c := c)
    (o := dumpRecord { s.dev with mov := { s.dev.mov with ddr := mv }, freeCtr := fc } (r.base + off) len)
    (d := { s.dev with mov := { s.dev.mov with ddr := mv }, freeCtr := fc }) hch hq (by decide : (0x32 : Nat) ≠ 0x30)
  refine ⟨_, _, x, chans, mv, fc, ?_, rfl, hemit, hchan, hty, ?_⟩
  · rw [dumpTensor_eq hx hy hz hr, if_pos hd, hcount, dumpRange_single _ h0 hmax]
  · have hlen (d : Dev) : (dumpRecord d (r.base + off) len).body.length = len := by simp [dumpRecord, memRead]
    rw [hlen] at hbytes
    exact hbytes

theorem tensorDump_sends (h : Settled s) (hc : Carries 0x60 f n (le 2 4 ++ dumpRequest r.id off len) s) (hn : HostSession n s)
    (hx : r.id < 2 ^ 32) (hy : off < 2 ^ 32) (hz : len < 2 ^ 32) (hr : region? s.dev.img r.id = some r)
    (hm : ∀ k, n = some k → isMuzzled s.dev (0x70 + k) = false)
    (hd : r.kind = 0 ∧ dumpState s.otp s.dev = true ∧ off % 64 = 0 ∧ len % 64 = 0 ∧ off + len ≤ r.pages * 4096)
    (h0 : 0 < len) (hmax : len ≤ 16384) {ci : Nat} {c : Channel}
    (hch : channelOf s.dev.img 0 0x32 = some (ci, c)) (hq : (getTx s.dev c.port).queue.length < 256) :
    Gives (.tensorDump f) s fun t => SameOutside s t ∧ Answers 0x60 f n 0 [] s t ∧ t.dev.mem = s.dev.mem ∧
      ∃ x : TxRec, (getTx t.dev c.port).queue = (getTx s.dev c.port).queue ++ [x] ∧ x.chan = ci ∧ x.dtype = 0x32 ∧
        slice x.bytes 32 len = memRead s.dev.mem (r.base + off) len := by
  have hsess := (sessPart_servedState 0x60 n (le 2 4 ++ dumpRequest r.id off len) s).trans ((hostSession_iff n s).mp hn)
  have hh := handleMaintenance_dump hsess (dumpRequest r.id off len)
  have hquiet := servedState_quiet (op := 0x60) (n := n) (p := le 2 4 ++ dumpRequest r.id off len) h
  have hans {d : Dev} {st : Nat} := maintenance_answers hc (c := .tensorDump f) (by simp) d (st := st)
  obtain ⟨_, _, _, _, _, _, hf, -⟩ := servedState_frame 0x60 n (le 2 4 ++ dumpRequest r.id off len) s
  generalize servedState 0x60 n (le 2 4 ++ dumpRequest r.id off len) s = g at hh hquiet hans hf
  have hmuz : ¬ channelMuzzled n g.dev = true := by
    have hs : channelMuzzled n g.dev = channelMuzzled n s.dev := by rw [hf]; rfl
    rw [hs, channelMuzzled_iff]
    rintro ⟨k, hnk, hb⟩
    exact absurd hb (by simp [hm k hnk])
  obtain ⟨d, e, x, chans, mv, fc, hdump, hde, he, hchan, hty, hbytes⟩ := dumpTensor_sends (s := g) hx hy hz (by rw [hf]; exact hr)
    (by rw [hf]; exact hd) h0 hmax (by rw [hf]; exact hch) (by rw [hf]; exact hq)
  rw [if_neg hmuz, hdump] at hh
  have hqd : Quiet d := by
    rw [hde]
    exact hquiet.mono rfl rfl rfl id
  obtain ⟨t, ht, hso, ha, _, _, _, _, _, _, _, hrep⟩ :=
    hans hh (hqd.mono (by rw [he]) (by rw [he]) (by rw [he]) (queued_ispWanted he))
  have hmem : g.dev.mem = s.dev.mem := by rw [hf]
  have htx : (getTx d c.port).queue = (getTx s.dev c.port).queue := by rw [hde, hf]; rfl
  refine ⟨t, ht, hso, ha, ?_, x, ?_, hchan, hty, hmem ▸ hbytes⟩
  · rw [hrep, he, hde, ← hmem]
  · rw [hrep, he, ← htx]
    exact congrArg TxPort.queue (tabGet_tabMod_self _ _ _ _ _)

/-- A dump of what is not a tensor, outside its region, in a state or over a channel that permits none. -/
theorem tensorDump_denied (h : Settled s) (hc : Carries 0x60 f n (le 2 4 ++ dumpRequest r.id off len) s) (hn : HostSession n s)
    (hx : r.id < 2 ^ 32) (hy : off < 2 ^ 32) (hz : len < 2 ^ 32) (hr : region? s.dev.img r.id = some r)
    (hd : r.kind ≠ 0 ∨ dumpState s.otp s.dev = false ∨ r.pages * 4096 < off + len ∨
      (∃ k, n = some k ∧ isMuzzled s.dev (0x70 + k) = true)) :
    Gives (.tensorDump f) s fun t => SameOutside s t ∧ Answers 0x60 f n 6 [] s t ∧ t.dev.host.tx = s.dev.host.tx ∧
      t.dev.mem = s.dev.mem := by
  have hsess := (sessPart_servedState 0x60 n (le 2 4 ++ dumpRequest r.id off len) s).trans ((hostSession_iff n s).mp hn)
  have hh := handleMaintenance_dump hsess (dumpRequest r.id off len)
  obtain ⟨_, _, _, _, _, _, hf, -⟩ := servedState_frame 0x60 n (le 2 4 ++ dumpRequest r.id off len) s
  have hden : handleMaintenance n (le 2 4 ++ dumpRequest r.id off len) (servedState 0x60 n (le 2 4 ++ dumpRequest r.id off len) s) =
      say answerDenied (servedState 0x60 n (le 2 4 ++ dumpRequest r.id off len) s) := by
    rw [hh]
    split
    · rfl
    · rename_i hmuz
      rw [dumpTensor_eq hx hy hz (by rw [hf]; exact hr)]
      refine if_neg ?_
      rintro ⟨hkind, hstate, -, -, hin⟩
      rw [hf] at hstate hmuz
      rcases hd with hd | hd | hd | hd
      · exact hd hkind
      · exact absurd (hd.symm.trans hstate) (by decide)
      · exact hd.not_ge hin
      · exact hmuz ((channelMuzzled_iff n s.dev).mpr hd)
  obtain ⟨t, ht, hso, ha, -, -, htx, hmem⟩ := maintenance_denied h hc (c := .tensorDump f) (by simp) hden
  exact ⟨t, ht, hso, ha, htx, hmem⟩

end

/-- Settles O54: only a session of partition 0 gets a snapshot, a self-test or a dump. -/
theorem maintenanceSnapshotsTestsAndDumps : Obligations.MaintenanceSnapshotsTestsAndDumps := by
  intro s f n p h hc
  refine ⟨fun hn c hm => maintenance_denied h hc hm (handleMaintenance_outside hn), ?_, ?_, ?_⟩
  · rintro hn rfl
    exact ⟨errlogSnapshot_writes h hc hn, errlogSnapshot_waits h hc hn⟩
  · rintro u k hn rfl hu hk
    exact ⟨selfTestRequest_queues h hc hn hu hk, selfTestRequest_denied h hc hn hu hk⟩
  · rintro r off len hn rfl hx hy hz hr
    refine ⟨fun hk hm hd ho hl hin h0 hmax ci c hch hq => ?_, tensorDump_denied h hc hn hx hy hz hr⟩
    exact tensorDump_sends h hc hn hx hy hz hr hm ⟨hk, hd, ho, hl, hin⟩ h0 hmax hch hq

end Sys2Proof.Machine
end

section
/-! PROOFS. The ledger of the wake arbiter: which functions of the device leave every tier's arrivals as accounted for as they were
(R81). -/

namespace Sys2Proof.Machine

/-- What the arrivals of a tier exceed its admitted, coalesced, shed, queued and pending requests by (R81), modulo 2³². -/
def unaccounted (x : Tier) : Word := x.arrive - (x.admits + x.coalesce + x.shed + w32 (waitingOf x).length)

/-- What stays unaccounted at each tier of a device. -/
def ledger (d : Dev) : Nat → Word := fun n => unaccounted (getTier d n)

@[simp] theorem ledger_update (d : Dev) (boot : Boot) (img : Image) (err : Err) (flash : Flash) (reqs : List Req) (nextOrder : Nat)
    (audio : Audio) (cam : Camera) (units : Tab Unit_) (clusters : Tab Cluster) (cats : Tab Cat) (seqs : Tab Seq) (blks : Tab Blk)
    (kv : Kv) (mem : Mem) (mov : Moving) (sched : Sched) (host : HostPort) (power : Power) (age : Age) (latches : Tab (List Word))
    (freeCtr : Nat) : ledger ⟨boot, img, err, flash, d.tiers, reqs, nextOrder, audio, cam, units, clusters, cats, seqs, blks, kv,
      mem, mov, sched, host, power, age, latches, freeCtr⟩ = ledger d := funext fun _ => rfl

@[simp] theorem unaccounted_update (x : Tier) (held : Tab Nat) (sharedHeld : Nat) (returned : List (Nat × Bool)) (next : Nat)
    (highest : Tab Nat) (latMax late clamp unrouted : Word) (idle : Bool) :
    unaccounted ⟨held, sharedHeld, returned, x.queues, x.pending, next, highest, x.arrive, x.admits, x.coalesce, x.shed, latMax, late,
      clamp, unrouted, idle⟩ = unaccounted x := congrArg₂ HSub.hSub rfl rfl

theorem w32_add (m n : Nat) : w32 (m + n) = w32 m + w32 n := by simp [w32, BitVec.ofNat_add]

/-- A change of one tier moves the ledger by what it moves that tier. -/
theorem modTier_ledger_eq (t : Nat) (f : Tier → Tier) (d : Dev) :
    ledger (modTier t f d) = ledger d + Pi.single t (unaccounted (f (getTier d t)) - unaccounted (getTier d t)) := by
  funext n
  by_cases h : n = t
  · subst h; simp [ledger, getTier]
  · simp [ledger, getTier, tabGet_tabMod_ne _ _ _ _ _ _ h, h]

/-- A change of one tier that leaves its arrivals as accounted for as they were. -/
@[simp] theorem modTier_ledger (t : Nat) (f : Tier → Tier) (d : Dev) (h : unaccounted (f (getTier d t)) = unaccounted (getTier d t)) :
    ledger (modTier t f d) = ledger d := by
  rw [modTier_ledger_eq, h, sub_self, Pi.single_zero, add_zero]

/-- n requests at tier t. -/
def requestsAt (t n : Nat) : Nat → Word := Pi.single t (w32 n)

theorem requestsAt_zero (t : Nat) : requestsAt t 0 = 0 := Pi.single_zero t

theorem requestsAt_add (t m n : Nat) : requestsAt t (m + n) = requestsAt t m + requestsAt t n := by
  rw [requestsAt, w32_add, Pi.single_add, requestsAt, requestsAt]

/-- A change of one tier after which n requests more are accounted for. -/
theorem modTier_ledger_sub {t : Nat} {f : Tier → Tier} {d : Dev} {n : Nat}
    (h : unaccounted (f (getTier d t)) = unaccounted (getTier d t) - w32 n) : ledger (modTier t f d) = ledger d - requestsAt t n := by
  rw [modTier_ledger_eq, h, sub_sub_cancel_left, Pi.single_neg, ← sub_eq_add_neg, requestsAt]

/-- A change of one tier after which n requests fewer are accounted for. -/
theorem modTier_ledger_add {t : Nat} {f : Tier → Tier} {d : Dev} {n : Nat}
    (h : unaccounted (f (getTier d t)) = unaccounted (getTier d t) + w32 n) : ledger (modTier t f d) = ledger d + requestsAt t n := by
  rw [modTier_ledger_eq, h, add_sub_cancel_left, requestsAt]

@[simp] theorem foldl_ledger {α : Type} (f : Dev → α → Dev) (h : ∀ d x, ledger (f d x) = ledger d) (l : List α) :
    ∀ d : Dev, ledger (l.foldl f d) = ledger d := by
  induction l with
  | nil => intro d; rfl
  | cons x r ih => intro d; rw [List.foldl_cons, ih, h]

/-- The same of a fold that carries a value beside the device. -/
theorem foldl_ledger_snd {α β : Type} (f : β × Dev → α → β × Dev) (h : ∀ x a, ledger (f x a).2 = ledger x.2) (l : List α) :
    ∀ x, ledger (l.foldl f x).2 = ledger x.2 := by
  induction l with
  | nil => intro x; rfl
  | cons a r ih => intro x; rw [List.foldl_cons, ih, h]

/-! ### Flags -/

@[simp] theorem ibi_ledger (b x y z : Nat) (d : Dev) : ledger (ibi b x y z d) = ledger d := by simp [ibi]

@[simp] theorem recordAt_ledger (c : Nat) (part : Option Nat) (detail : Nat × Nat) (addr : Option Nat) (inj : Bool) (d : Dev) :
    ledger (recordAt c part detail addr inj d) = ledger d := by simp [recordAt, apply_ite ledger]

@[simp] theorem record_ledger (c : Nat) (part : Option Nat) (detail : Nat × Nat) (d : Dev) :
    ledger (record c part detail d) = ledger d := by simp [record]

@[simp] theorem info_ledger (c : Nat) (d : Dev) : ledger (info c d) = ledger d := by simp [info]

@[simp] theorem infoN_ledger (c n : Nat) (d : Dev) : ledger (infoN c n d) = ledger d := by
  fun_induction infoN c n d <;> simp_all

/-! ### Ops -/

@[simp] theorem modUnit_ledger (u : Nat) (f : Unit_ → Unit_) (d : Dev) :
    ledger (modUnit u f d) = ledger d := by simp [modUnit]

@[simp] theorem modCluster_ledger (n : Nat) (f : Cluster → Cluster) (d : Dev) :
    ledger (modCluster n f d) = ledger d := by simp [modCluster]

@[simp] theorem modCat_ledger (n : Nat) (f : Cat → Cat) (d : Dev) : ledger (modCat n f d) = ledger d := by simp [modCat]

@[simp] theorem modSeq_ledger (n : Nat) (f : Seq → Seq) (d : Dev) : ledger (modSeq n f d) = ledger d := by simp [modSeq]

@[simp] theorem modBlk_ledger (n : Nat) (f : Blk → Blk) (d : Dev) : ledger (modBlk n f d) = ledger d := by simp [modBlk]

@[simp] theorem modKv_ledger (n : Nat) (f : KvSeq → KvSeq) (d : Dev) : ledger (modKv n f d) = ledger d := by simp [modKv]

@[simp] theorem modPart_ledger (p : Nat) (f : Part → Part) (d : Dev) :
    ledger (modPart p f d) = ledger d := by simp [modPart]

@[simp] theorem modSched_ledger (f : Sched → Sched) (d : Dev) : ledger (modSched f d) = ledger d := by simp [modSched]

@[simp] theorem modInst_ledger (g i : Nat) (f : GInst → GInst) (d : Dev) :
    ledger (modInst g i f d) = ledger d := by simp [modInst]

@[simp] theorem modStep_ledger (g : Nat) (f : StepG → StepG) (d : Dev) :
    ledger (modStep g f d) = ledger d := by simp [modStep]

@[simp] theorem modStream_ledger (s : Nat) (f : CamStream → CamStream) (d : Dev) :
    ledger (modStream s f d) = ledger d := by simp [modStream]

@[simp] theorem modSensor_ledger (s : Nat) (f : Sensor → Sensor) (d : Dev) :
    ledger (modSensor s f d) = ledger d := by simp [modSensor]

@[simp] theorem modCamPort_ledger (p : Nat) (f : CamPort → CamPort) (d : Dev) :
    ledger (modCamPort p f d) = ledger d := by simp [modCamPort]

@[simp] theorem modSlot_ledger (a : Nat) (f : AudioSlot → AudioSlot) (d : Dev) :
    ledger (modSlot a f d) = ledger d := by simp [modSlot]

@[simp] theorem modMover_ledger (n : Nat) (f : Mover → Mover) (d : Dev) :
    ledger (modMover n f d) = ledger d := by simp [modMover]

@[simp] theorem settleLoads_ledger (d : Dev) : ledger (settleLoads d) = ledger d := by simp [settleLoads]

@[simp] theorem noteLevels_ledger (d : Dev) : ledger (noteLevels d) = ledger d := by simp [noteLevels]

@[simp] theorem modWin_ledger (w : Nat) (f : Win → Win) (d : Dev) : ledger (modWin w f d) = ledger d := by simp [modWin]

@[simp] theorem modDdr_ledger (f : Ddr → Ddr) (d : Dev) : ledger (modDdr f d) = ledger d := by simp [modDdr]

@[simp] theorem modHost_ledger (f : HostPort → HostPort) (d : Dev) : ledger (modHost f d) = ledger d := by simp [modHost]

@[simp] theorem modTx_ledger (p : Nat) (f : TxPort → TxPort) (d : Dev) : ledger (modTx p f d) = ledger d := by simp [modTx]

@[simp] theorem modSession_ledger (n : Nat) (f : Session → Session) (d : Dev) :
    ledger (modSession n f d) = ledger d := by simp [modSession]

@[simp] theorem modPower_ledger (f : Power → Power) (d : Dev) : ledger (modPower f d) = ledger d := by simp [modPower]

@[simp] theorem modCam_ledger (f : Camera → Camera) (d : Dev) : ledger (modCam f d) = ledger d := by simp [modCam]

@[simp] theorem modAge_ledger (f : Age → Age) (d : Dev) : ledger (modAge f d) = ledger d := by simp [modAge]

@[simp] theorem modErr_ledger (f : Err → Err) (d : Dev) : ledger (modErr f d) = ledger d := by simp [modErr]

@[simp] theorem draw_ledger (d : Dev) : ledger (draw d).2 = ledger d := by simp [draw]

@[simp] theorem drawBytes_ledger (n : Nat) (d : Dev) : ledger (drawBytes n d).2 = ledger d := by
  fun_induction drawBytes n d with
  | case1 => rfl
  | case2 n d r ih => simp [r, ih]

@[simp] theorem memStore_ledger (a : Nat) (b : Bytes) (d : Dev) : ledger (memStore a b d) = ledger d := by simp [memStore]

@[simp] theorem poisonRange_ledger (a n : Nat) (d : Dev) : ledger (poisonRange a n d) = ledger d := by simp [poisonRange]

@[simp] theorem modDesc_ledger (i : DescId) (f : Desc → Desc) (d : Dev) :
    ledger (modDesc i f d) = ledger d := by simp [modDesc]

@[simp] theorem signalCell_ledger (k : Nat) (d : Dev) : ledger (signalCell k d) = ledger d := by simp [signalCell]

@[simp] theorem signalOwn_ledger (x : DescId) (b : Bytes) (d : Dev) :
    ledger (signalOwn x b d) = ledger d := by simp [signalOwn, apply_ite ledger]

@[simp] theorem fired_ledger (d : Dev) : ledger (fired d) = ledger d := by
  unfold fired
  split <;> simp

@[simp] theorem recordOn_ledger (cls inst c : Nat) (part : Option Nat) (detail : Nat × Nat) (d : Dev) :
    ledger (recordOn cls inst c part detail d) = ledger d := by
  unfold recordOn
  split <;> simp

@[simp] theorem checkerLost_ledger (pool inst : Nat) (inj : Bool) (d : Dev) :
    ledger (checkerLost pool inst inj d) = ledger d := by simp [checkerLost]

@[simp] theorem tap_ledger (pool inst kind part : Nat) (d : Dev) : ledger (tap pool inst kind part d) = ledger d := by
  fun_cases tap pool inst kind part d <;> simp

/-! ### Places -/

@[simp] theorem poisonDest_ledger (x : DescId) (pages : List (Nat × Nat)) (d : Dev) :
    ledger (poisonDest x pages d) = ledger d := by simp [poisonDest, apply_ite ledger]

@[simp] theorem writeBlkHeader_ledger (b : Nat) (d : Dev) :
    ledger (writeBlkHeader b d) = ledger d := by simp [writeBlkHeader]

@[simp] theorem noteSlices_ledger (b pos : Nat) (ss : List Nat) (d : Dev) :
    ledger (noteSlices b pos ss d) = ledger d := by simp [noteSlices, apply_ite ledger]

@[simp] theorem settleChunks_ledger (b : Nat) (d : Dev) :
    ledger (settleChunks b d) = ledger d := by simp [settleChunks, apply_ite ledger]

@[simp] theorem skipScans_ledger (g i : Nat) (d : Dev) : ledger (skipScans g i d) = ledger d := by simp [skipScans]

@[simp] theorem noteTags_ledger (row n : Nat) (d : Dev) :
    ledger (noteTags row n d) = ledger d := by simp [noteTags, apply_ite ledger]

theorem takeTag_ledger (master p n a : Nat) (write : Bool) (d e : Dev) (h : takeTag master p n a write d = some e) :
    ledger e = ledger d := by
  unfold takeTag at h
  split at h
  · rw [Option.some.inj h]
  · split at h
    · rw [Option.some.inj h]
    · obtain ⟨_, _, rfl⟩ := Option.map_eq_some_iff.mp h
      simp

@[simp] theorem returnTags_ledger (master : Nat) (keep : Tag → Bool) (d : Dev) :
    ledger (returnTags master keep d) = ledger d := by simp [returnTags]

@[simp] theorem keepXfers_ledger (keep : Xfer → Bool) (n : Nat) (d : Dev) :
    ledger (keepXfers keep n d) = ledger d := by simp [keepXfers]

@[simp] theorem passTags_ledger (p row granules : Nat) (d : Dev) : ledger (passTags p row granules d) = ledger d := by
  unfold passTags
  split <;> simp

@[simp] theorem withChecks_ledger (granules : Nat) (d : Dev) : ledger (withChecks granules d).2 = ledger d := by
  unfold withChecks
  split <;> simp

@[simp] theorem countTraffic_ledger (a granules : Nat) (write : Bool) (d : Dev) :
    ledger (countTraffic a granules write d) = ledger d := by
  unfold countTraffic
  split <;> simp

@[simp] theorem countRemote_ledger (a granules : Nat) (d : Dev) : ledger (countRemote a granules d) = ledger d := by
  unfold countRemote
  split <;> simp

@[simp] theorem remoteStore_ledger (a : Nat) (b : Bytes) (d : Dev) :
    ledger (remoteStore a b d) = ledger d := by simp [remoteStore]

@[simp] theorem touchGranules_ledger (gs : List Nat) (write : Bool) (d : Dev) :
    ledger (touchGranules gs write d) = ledger d := by simp [touchGranules]

@[simp] theorem readErrors_ledger (part : Option Nat) (detail : Nat × Nat) (read uncorrectable corrected : List Nat) (d : Dev) :
    ledger (readErrors part detail read uncorrectable corrected d) = ledger d := by simp [readErrors, apply_ite ledger]

@[simp] theorem deviceXfer_ledger (n part src dst granules : Nat) (d : Dev) :
    ledger (deviceXfer n part src dst granules d) = ledger d := by
  simp only [deviceXfer]
  repeat' split
  all_goals simp

/-! ### Requests -/

@[simp] theorem modReq_ledger (o : Nat) (f : Req → Req) (d : Dev) : ledger (modReq o f d) = ledger d := by simp [modReq]

@[simp] theorem enqueueRecord_ledger (part : Nat) (o : OutRec) (m : RecMeta) (waits : Bool) (d : Dev) :
    ledger (enqueueRecord part o m waits d).2 = ledger d := by
  simp only [enqueueRecord]
  repeat' split
  all_goals simp

@[simp] theorem emitLoose_ledger (part : Nat) (o : OutRec) (d : Dev) :
    ledger (emitLoose part o d) = ledger d := by simp [emitLoose]

@[simp] theorem sendRecs_ledger (r : Req) (l : List OutRec) (d : Dev) : ledger (sendRecs r l d).2 = ledger d := by
  fun_induction sendRecs r l d with
  | case1 d => rfl
  | case2 d o rest e he ih => rw [ih]; split <;> simp [e]
  | case3 d o rest e he => simp

@[simp] theorem creditBack_ledger (r : Req) (d : Dev) : ledger (creditBack r d) = ledger d := by simp [creditBack]

@[simp] theorem pumpReqs_ledger (l : List Req) (l' : List (Nat × Nat × Nat)) (d : Dev) :
    ledger (pumpReqs l l' d).2 = ledger d := by
  fun_induction pumpReqs l l' d with
  | case1 => rfl
  | case2 _ _ _ _ _ _ ih => rw [ih, creditBack_ledger]
  | case3 _ _ _ _ _ _ _ ih => exact ih
  | case4 _ _ _ _ _ _ _ ih => exact ih
  | case5 _ _ _ _ _ _ _ _ ih => rw [ih, creditBack_ledger, sendRecs_ledger]
  | case6 _ _ _ _ _ _ _ _ _ ih => exact ih.trans (sendRecs_ledger _ _ _)

@[simp] theorem freeFrames_ledger (g i : Nat) (d : Dev) : ledger (freeFrames g i d) = ledger d := by simp [freeFrames]

@[simp] theorem sweepInsts_ledger (d : Dev) : ledger (sweepInsts d) = ledger d := by simp [sweepInsts]

@[simp] theorem pump_ledger (d : Dev) : ledger (pump d) = ledger d := by simp [pump]

@[simp] theorem composeRec_ledger (o : Nat) (x : OutRec) (d : Dev) :
    ledger (composeRec o x d) = ledger d := by simp [composeRec]

@[simp] theorem dropWalk_ledger (x : DescId) (d : Dev) : ledger (dropWalk x d) = ledger d := by simp [dropWalk]

@[simp] theorem freeStrand_ledger (x : DescId) (strand : Nat) (d : Dev) :
    ledger (freeStrand x strand d) = ledger d := by simp [freeStrand]

@[simp] theorem retire_ledger (x : DescId) (d : Dev) : ledger (retire x d) = ledger d := by
  unfold retire
  split <;> simp [apply_ite ledger]

@[simp] theorem cancelInst_ledger (g i : Nat) (d00 : Dev) : ledger (cancelInst g i d00).1 = ledger d00 := by
  unfold cancelInst
  split <;> simp

@[simp] theorem emptySlot_ledger (o : Nat) (d : Dev) : ledger (emptySlot o d) = ledger d := by simp [emptySlot]

@[simp] theorem dropEdits_ledger (o : Nat) (d : Dev) : ledger (dropEdits o d) = ledger d := by simp [dropEdits]

@[simp] theorem endOne_ledger (r : Req) (cause : Nat) (orphaned : Bool) (d : Dev) :
    ledger (endOne r cause orphaned d).1 = ledger d := by
  simp only [endOne]
  repeat' split
  all_goals simp

@[simp] theorem endMany_ledger (n : Nat) (l : List (Nat × Nat × Bool)) (d : Dev) : ledger (endMany n l d) = ledger d := by
  fun_induction endMany n l d with
  | case1 => rfl
  | case2 => rfl
  | case3 _ _ _ _ _ _ _ ih => exact ih
  | case4 d n o c b rest r hr e ih => rw [ih]; simp [e]

@[simp] theorem endReqs_ledger (os : List Nat) (cause : Nat) (d : Dev) :
    ledger (endReqs os cause d) = ledger d := by simp [endReqs]

@[simp] theorem finishReq_ledger (o : Nat) (d : Dev) : ledger (finishReq o d) = ledger d := by
  simp only [finishReq]
  repeat' split
  all_goals simp

@[simp] theorem truncateBack_ledger (o : Nat) (d : Dev) : ledger (truncateBack o d) = ledger d := by
  unfold truncateBack
  split <;> simp

@[simp] theorem endBoth_ledger (own orphans : List Nat) (cause : Nat) (d : Dev) :
    ledger (endBoth own orphans cause d) = ledger d := by simp [endBoth]

@[simp] theorem failDesc_ledger (x : DescId) (cause : Nat) (d : Dev) : ledger (failDesc x cause d) = ledger d := by
  unfold failDesc
  repeat' split
  all_goals simp [apply_ite ledger]

@[simp] theorem discardDesc_ledger (x : DescId) (cause : Option Nat) (d : Dev) :
    ledger (discardDesc x cause d) = ledger d := by
  unfold discardDesc
  split <;> simp

@[simp] theorem chargeTile_ledger (u p n : Nat) (d : Dev) :
    ledger (chargeTile u p n d) = ledger d := by simp [chargeTile, apply_ite ledger]

@[simp] theorem lostWork_ledger (u : Nat) (t : Tile) (d : Dev) : ledger (lostWork u t d).2 = ledger d := by
  simp only [lostWork]
  repeat' split
  all_goals simp

@[simp] theorem endWait_ledger (u cycles : Nat) (d : Dev) : ledger (endWait u cycles d) = ledger d := by
  unfold endWait
  split <;> simp

@[simp] theorem chargeLost_ledger (u : Nat) (t : Tile) (d : Dev) :
    ledger (chargeLost u t d) = ledger d := by simp [chargeLost]

@[simp] theorem endWork_ledger (u : Nat) (t : Tile) (d : Dev) : ledger (endWork u t d) = ledger d := by simp [endWork]

@[simp] theorem clearTile_ledger (u : Nat) (d : Dev) : ledger (clearTile u d) = ledger d := by simp [clearTile]

@[simp] theorem abortTile_ledger (u cause : Nat) (d : Dev) : ledger (abortTile u cause d) = ledger d := by
  unfold abortTile
  split <;> simp [apply_ite ledger]

@[simp] theorem discardTile_ledger (u : Nat) (cause : Option Nat) (d : Dev) :
    ledger (discardTile u cause d) = ledger d := by
  unfold discardTile
  split <;> simp [apply_ite ledger]

@[simp] theorem discardPart_ledger (p : Nat) (cause : Option Nat) (d : Dev) :
    ledger (discardPart p cause d) = ledger d := by simp [discardPart, apply_ite ledger]

/-! ### Reset -/

@[simp] theorem dropFrame_ledger (s : Nat) (d : Dev) : ledger (dropFrame s d) = ledger d := by simp [dropFrame]

@[simp] theorem markMissed_ledger (stream number : Nat) (d : Dev) :
    ledger (markMissed stream number d) = ledger d := by simp [markMissed]

@[simp] theorem flagMissed_ledger (stream number : Nat) (d : Dev) : ledger (flagMissed stream number d) = ledger d := by
  unfold flagMissed
  split <;> simp [apply_ite ledger]

@[simp] theorem markFrame_ledger (r : CamRec) (m : Nat) (d : Dev) : ledger (markFrame r m d) = ledger d := by
  unfold markFrame
  split <;> simp

@[simp] theorem missBlock_ledger (r : CamRec) (m : Nat) (d : Dev) :
    ledger (missBlock r m d) = ledger d := by simp [missBlock]

@[simp] theorem applyBlock_ledger (n id from_ m : Nat) (d : Dev) : ledger (applyBlock n id from_ m d) = ledger d := by
  unfold applyBlock
  split <;> simp [apply_ite ledger]

@[simp] theorem settleHeld_ledger (r : CamRec) (d : Dev) : ledger (settleHeld r d) = ledger d := by
  unfold settleHeld
  split <;> simp

@[simp] theorem settleBlocks_ledger (p : CamRec → Bool) (d : Dev) :
    ledger (settleBlocks p d) = ledger d := by simp [settleBlocks]

@[simp] theorem loseFrames_ledger (d : Dev) : ledger (loseFrames d) = ledger d := by simp [loseFrames]

@[simp] theorem ispDown_ledger (d : Dev) : ledger (ispDown d) = ledger d := by simp [ispDown]

/-! ### Domains -/

@[simp] theorem freeXfer_ledger (part src dst granules : Nat) (d : Dev) :
    ledger (freeXfer part src dst granules d) = ledger d := by simp [freeXfer]

@[simp] theorem storeElems_ledger (b first : Nat) (l : List (Word × Bool)) (d : Dev) :
    ledger (storeElems b first l d) = ledger d := by simp [storeElems]

@[simp] theorem poisonElems_ledger (b : Nat) (ns : List Nat) (d : Dev) :
    ledger (poisonElems b ns d) = ledger d := by simp [poisonElems]

@[simp] theorem poisonBlk_ledger (b : Nat) (d : Dev) : ledger (poisonBlk b d) = ledger d := by simp [poisonBlk]

@[simp] theorem moveBlk_ledger (n b place : Nat) (d : Dev) : ledger (moveBlk n b place d) = ledger d := by simp [moveBlk]

@[simp] theorem initBlk_ledger (b : Nat) (d : Dev) : ledger (initBlk b d) = ledger d := by simp [initBlk]

@[simp] theorem spillOut_ledger (d : Dev) : ledger (spillOut d) = ledger d := by simp [spillOut]

@[simp] theorem copyBacked_ledger (back : Bool) (d : Dev) : ledger (copyBacked back d) = ledger d := by
  unfold copyBacked
  split <;> simp

@[simp] theorem banksDown_ledger (d0 : Dev) : ledger (banksDown d0) = ledger d0 := by simp [banksDown]

@[simp] theorem banksUp_ledger (d : Dev) : ledger (banksUp d) = ledger d := by
  unfold banksUp
  split <;> simp

@[simp] theorem dropLatches_ledger (lo n : Nat) (d : Dev) : ledger (dropLatches lo n d) = ledger d := by simp [dropLatches]

@[simp] theorem clearCluster_ledger (n : Nat) (d : Dev) : ledger (clearCluster n d) = ledger d := by
  unfold clearCluster
  split <;> simp

@[simp] theorem enterCores_ledger (n : Nat) (d : Dev) : ledger (enterCores n d) = ledger d := by
  unfold enterCores
  split <;> simp

@[simp] theorem initCheckers_ledger (n : Nat) (d : Dev) : ledger (initCheckers n d) = ledger d := by simp [initCheckers]

@[simp] theorem clusterUp_ledger (n : Nat) (d : Dev) :
    ledger (clusterUp n d) = ledger d := by simp [clusterUp, apply_ite ledger]

@[simp] theorem clustersUp_ledger (d : Dev) : ledger (clustersUp d) = ledger d := by simp [clustersUp]

@[simp] theorem swapOut_ledger (b : Nat) (d : Dev) : ledger (swapOut b d) = ledger d := by simp [swapOut]

@[simp] theorem swapAllOut_ledger (d : Dev) : ledger (swapAllOut d) = ledger d := by simp [swapAllOut]

@[simp] theorem clustersDown_ledger (d : Dev) : ledger (clustersDown d) = ledger d := by simp [clustersDown]

@[simp] theorem settlePower_ledger (d : Dev) :
    ledger (settlePower d) = ledger d := by simp [settlePower, apply_ite ledger]

/-! ### KvOps -/

@[simp] theorem bumpEdit_ledger (s : Nat) (d : Dev) : ledger (bumpEdit s d) = ledger d := by simp [bumpEdit]

@[simp] theorem returnPage_ledger (pool k part : Nat) (d : Dev) :
    ledger (returnPage pool k part d) = ledger d := by simp [returnPage]

@[simp] theorem clearPage_ledger (addr n : Nat) (d : Dev) : ledger (clearPage addr n d) = ledger d := by simp [clearPage]

@[simp] theorem putEntry_ledger (s layer p addr : Nat) (d : Dev) :
    ledger (putEntry s layer p addr d) = ledger d := by simp [putEntry]

theorem editAllocate_ledger (s layer p : Nat) (d e : Dev) (h : editAllocate s layer p d = some e) :
    ledger e = ledger d := by
  unfold editAllocate at h
  dsimp only at h
  split at h
  · rw [← Option.some.inj h]; simp
  · split at h
    · rw [← Option.some.inj h]; simp
    · exact absurd h (by simp)

@[simp] theorem editFill_ledger (s layer first n : Nat) (d : Dev) :
    ledger (editFill s layer first n d) = ledger d := by simp [editFill]

@[simp] theorem dropPages_ledger (s : Nat) (cleared : Bool) (f : PtEntry → Bool) (d : Dev) :
    ledger (dropPages s cleared f d) = ledger d := by
  unfold dropPages
  rw [modKv_ledger]
  refine foldl_ledger _ (fun e c => ?_) _ d
  split <;> simp

@[simp] theorem editTruncate_ledger (s n0 : Nat) (d : Dev) :
    ledger (editTruncate s n0 d) = ledger d := by simp [editTruncate]

@[simp] theorem editRelease_ledger (s : Nat) (d : Dev) : ledger (editRelease s d) = ledger d := by simp [editRelease]

@[simp] theorem writeTable_ledger (s : Nat) (old : Tab PtEntry) (d : Dev) :
    ledger (writeTable s old d) = ledger d := by simp [writeTable]

theorem applyEdit_ledger (s : Nat) (x : Edit) (d e : Dev) (h : applyEdit s x d = some e) : ledger e = ledger d := by
  cases x with
  | allocate layer p _ =>
    obtain ⟨b, hb, rfl⟩ := Option.map_eq_some_iff.mp h
    simp [editAllocate_ledger _ _ _ _ _ hb]
  | fill layer first n => rw [← Option.some.inj h]; simp
  | truncate n => rw [← Option.some.inj h]; simp
  | release => rw [← Option.some.inj h]; simp

@[simp] theorem queueEdit_ledger (s : Nat) (e : Edit) (d : Dev) : ledger (queueEdit s e d) = ledger d := by simp [queueEdit]

@[simp] theorem cancelKv_ledger (p : Nat) (d : Dev) : ledger (cancelKv p d) = ledger d := by simp [cancelKv]

/-! ### Partition -/

@[simp] theorem closeSession_ledger (n : Nat) (d : Dev) : ledger (closeSession n d) = ledger d := by simp [closeSession]

@[simp] theorem resetStart_ledger (p : Nat) (d : Dev) :
    ledger (resetStart p d) = ledger d := by simp [resetStart, apply_ite ledger]

@[simp] theorem stopPart_ledger (p cause : Nat) (d : Dev) :
    ledger (stopPart p cause d) = ledger d := by simp [stopPart, apply_ite ledger]

@[simp] theorem silenceStream_ledger (s : Nat) (d : Dev) : ledger (silenceStream s d) = ledger d := by simp [silenceStream]

@[simp] theorem muzzleMaster_ledger (m p : Nat) (d : Dev) :
    ledger (muzzleMaster m p d) = ledger d := by simp [muzzleMaster, apply_ite ledger]

@[simp] theorem discardMuzzled_ledger (m p cause : Nat) (table : Bool) (d : Dev) :
    ledger (discardMuzzled m p cause table d) = ledger d := by simp [discardMuzzled, apply_ite ledger]

@[simp] theorem muzzle_ledger (m p cause : Nat) (addr : Option Nat) (table : Bool) (d : Dev) :
    ledger (muzzle m p cause addr table d) = ledger d := by simp [muzzle]

@[simp] theorem countDirect_ledger (p a : Nat) (d : Dev) : ledger (countDirect p a d) = ledger d := by
  unfold countDirect
  split <;> simp [apply_ite ledger]

@[simp] theorem badWrite_ledger (m p a : Nat) (d : Dev) : ledger (badWrite m p a d) = ledger d := by simp [badWrite]

@[simp] theorem dropHeld_ledger (p : Nat) (d : Dev) : ledger (dropHeld p d) = ledger d := by simp [dropHeld]

@[simp] theorem resetBlocks_ledger (p : Nat) (d : Dev) : ledger (resetBlocks p d) = ledger d := by simp [resetBlocks]

@[simp] theorem clearCells_ledger (p : Nat) (d : Dev) : ledger (clearCells p d) = ledger d := by simp [clearCells]

@[simp] theorem resetFinish_ledger (p : Nat) (d : Dev) : ledger (resetFinish p d) = ledger d := by
  have h (e : Dev) (s : Nat) : ledger ((applyEdit s .release e).getD e) = ledger e := by
    cases hx : applyEdit s .release e with
    | none => rfl
    | some x => exact applyEdit_ledger _ _ _ _ hx
  simp [resetFinish, apply_ite ledger, h]

@[simp] theorem accessViolation_ledger (m p a : Nat) (d : Dev) : ledger (accessViolation m p a d) = ledger d := by
  unfold accessViolation
  split <;> simp

@[simp] theorem resetRequest_ledger (p : Nat) (byThread : Bool) (d : Dev) :
    ledger (resetRequest p byThread d) = ledger d := by simp [resetRequest, apply_ite ledger]

@[simp] theorem resetComplete_ledger (p : Nat) (d : Dev) : ledger (resetComplete p d) = ledger d := by
  unfold resetComplete
  split <;> simp

@[simp] theorem threadReset_ledger (issuer target : Nat) (d : Dev) : ledger (threadReset issuer target d) = ledger d := by
  unfold threadReset
  split <;> simp

@[simp] theorem directWrite_ledger (m p s : Nat) (d : Dev) : ledger (directWrite m p s d) = ledger d := by
  unfold directWrite
  split <;> simp

@[simp] theorem checkerParity_ledger (pool inst : Nat) (d : Dev) : ledger (checkerParity pool inst d) = ledger d := by
  unfold checkerParity
  split <;> simp

end Sys2Proof.Machine
end

section
/-! PROOFS. The ledger of the wake arbiter under its own operations: each request that arrives is accounted for once (R72 to R76, R81). -/

namespace Sys2Proof.Machine

/-! ### Cascade -/

theorem w32_zero : w32 0 = 0 := rfl

theorem w32_one : w32 1 = 1 := rfl

@[simp] theorem replaceFirst_length {α : Type} (p : α → Bool) (v : α) (l : List α) : (replaceFirst p v l).length = l.length := by
  induction l with
  | nil => rfl
  | cons x r ih =>
    unfold replaceFirst
    split <;> simp [ih]

theorem waitingOf_length (x : Tier) :
    (waitingOf x).length = ((List.range 4).map (fun p => (tabGet x.queues p []).length)).sum + x.pending.length := by
  simp [waitingOf, List.length_flatMap]

/-- One queue is replaced by another list. -/
theorem waitingOf_length_tabSet (x : Tier) (p : Nat) (l : List WReq) (hp : p < 4) :
    (waitingOf { x with queues := tabSet x.queues p l }).length + (tabGet x.queues p []).length = (waitingOf x).length + l.length := by
  have hr : List.range 4 = [0, 1, 2, 3] := rfl
  simp only [waitingOf_length, hr, List.map_cons, List.map_nil, List.sum_cons, List.sum_nil]
  interval_cases p <;> simp [tabGet_tabSet_ne] <;> omega

theorem waitingOf_keepWaiting (f : WReq → Bool) (x : Tier) : waitingOf (keepWaiting f x) = (waitingOf x).filter f := by
  have h (p : Nat) : tabGet (tabMap x.queues (fun _ l => l.filter f)) p [] = (tabGet x.queues p []).filter f :=
    tabGet_tabMap _ _ _ _ rfl
  simp [waitingOf, keepWaiting, h, List.filter_flatMap]

/-- What is kept and what is not are together what waited. -/
theorem unaccounted_keepWaiting (f : WReq → Bool) (x : Tier) :
    unaccounted (keepWaiting (fun q => !f q) x) = unaccounted x + w32 ((waitingOf x).filter f).length := by
  have h := (waitingOf x).length_eq_length_filter_add f
  unfold unaccounted
  rw [waitingOf_keepWaiting, h, w32_add]
  simp only [keepWaiting]
  ring

theorem prio_of_mem_candidates {q : WReq} {x : Tier} (h : q ∈ candidates x) (hp : q ∉ x.pending) :
    ∃ p, p < 4 ∧ (tabGet x.queues p []).head? = some q := by
  simp only [candidates, List.mem_append, List.mem_filterMap, List.mem_range] at h
  exact h.resolve_right hp

/-- Taking a candidate leaves one request fewer waiting. -/
theorem waitingOf_takeWaiting_length {q : WReq} {x : Tier} (h : q ∈ candidates x) :
    (waitingOf (takeWaiting q x)).length + 1 = (waitingOf x).length := by
  unfold takeWaiting
  split
  next hp =>
    have := List.length_pos_of_mem hp
    simp only [waitingOf_length, List.length_erase_of_mem hp]
    omega
  next hp =>
    split
    next p hf =>
      have hr : p < 4 := List.mem_range.mp (List.mem_of_find?_eq_some hf)
      have hq : (tabGet x.queues p []).head? = some q := by simpa using List.find?_some hf
      have hl : 0 < (tabGet x.queues p []).length := List.length_pos_of_mem (List.mem_of_head? hq)
      have ht := waitingOf_length_tabSet x p (tabGet x.queues p []).tail hr
      simp only [tabMod, List.length_tail] at ht ⊢
      omega
    next hf =>
      obtain ⟨p, hr, hq⟩ := prio_of_mem_candidates h hp
      exact absurd (List.find?_eq_none.mp hf p (List.mem_range.mpr hr)) (by simp [hq])

theorem unaccounted_takeWaiting {q : WReq} {x : Tier} (h : q ∈ candidates x) :
    unaccounted (takeWaiting q x) = unaccounted x + w32 1 := by
  have hl := waitingOf_takeWaiting_length h
  have ha : (takeWaiting q x).arrive = x.arrive ∧ (takeWaiting q x).admits = x.admits ∧
      (takeWaiting q x).coalesce = x.coalesce ∧ (takeWaiting q x).shed = x.shed := by
    unfold takeWaiting
    split
    · exact ⟨rfl, rfl, rfl, rfl⟩
    · split <;> exact ⟨rfl, rfl, rfl, rfl⟩
  obtain ⟨h1, h2, h3, h4⟩ := ha
  unfold unaccounted
  rw [h1, h2, h3, h4, ← hl, w32_add]
  ring

/-- The best candidate is one of the tier's candidates, and eligible. -/
theorem bestCandidate_mem {d : Dev} {t : Nat} {q : WReq} (h : bestCandidate d t = some q) :
    q ∈ (candidates (getTier d t)).filter (fun q => eligible d t q.part) := by
  have best (l : List WReq) : ∀ b : Option WReq, l.foldl (fun b q => match b with
      | some x => if before q x && x != q then some q else some x
      | none => some q) b = some q → b = some q ∨ q ∈ l := by
    induction l with
    | nil => exact fun b hb => .inl hb
    | cons y r ih =>
      intro b hb
      rcases ih _ hb with hy | hy
      · cases b with
        | none => exact .inr (by simp_all)
        | some x =>
          dsimp only at hy
          split at hy
          · exact .inr (by simp_all)
          · exact .inl hy
      · exact .inr (List.mem_cons_of_mem y hy)
  exact (best _ none h).resolve_left (by simp)

/-- A returned credit goes back to the floor or to the shared remainder. -/
def takeBack (x : Tier) (c : Nat × Bool) : Tier :=
  if c.2 then { x with sharedHeld := x.sharedHeld - 1 } else { x with held := tabMod x.held c.1 0 (fun n => n - 1) }

theorem acceptReturns_eq (t : Nat) (d : Dev) : acceptReturns t d = modTier t (fun x => x.returned.foldl takeBack { x with returned := [] })
    ((getTier d t).returned.foldl (fun e c => tap 0 t 1 c.1 e) d) := rfl

theorem unaccounted_takeBack (l : List (Nat × Bool)) : ∀ x : Tier, unaccounted (l.foldl takeBack x) = unaccounted x := by
  induction l with
  | nil => exact fun _ => rfl
  | cons c r ih =>
    intro x
    rw [List.foldl_cons, ih, takeBack]
    split <;> simp

@[simp] theorem acceptReturns_ledger (t : Nat) (d : Dev) : ledger (acceptReturns t d) = ledger d := by
  rw [acceptReturns_eq, modTier_ledger]
  · simp
  · exact (unaccounted_takeBack _ _).trans (by simp)

@[simp] theorem shedTurn_ledger (q : WReq) (d : Dev) : ledger (shedTurn q d) = ledger d := by
  unfold shedTurn
  split <;> simp

theorem unaccounted_shed (x : Tier) : unaccounted { x with shed := x.shed + 1 } = unaccounted x - w32 1 := by
  simp only [unaccounted, waitingOf, w32_one]
  ring

theorem countShed_ledger (t : Nat) (d : Dev) :
    ledger (modTier t (fun x => { x with shed := x.shed + 1 }) d) = ledger d - requestsAt t 1 := modTier_ledger_sub (unaccounted_shed _)

/-- A request that is shed is accounted for. -/
@[simp] theorem shed_ledger (t : Nat) (q : WReq) (d : Dev) : ledger (shed t q d) = ledger d - requestsAt t 1 := by
  rw [shed, shedTurn_ledger, record_ledger, countShed_ledger]

theorem foldl_shed_ledger (t : Nat) (l : List WReq) :
    ∀ d : Dev, ledger (l.foldl (fun e q => shed t q e) d) = ledger d - requestsAt t l.length := by
  induction l with
  | nil => intro d; simp [requestsAt_zero]
  | cons q r ih =>
    intro d
    rw [List.foldl_cons, ih, shed_ledger, List.length_cons, requestsAt_add]
    abel

/-- The requests that satisfy a test stop waiting and are shed. -/
theorem shedWaiting_ledger (t : Nat) (f : WReq → Bool) (d : Dev) :
    ledger (((waitingOf (getTier d t)).filter f).foldl (fun e q => shed t q e) (modTier t (keepWaiting (fun q => !f q)) d)) =
      ledger d := by
  have h : ledger (modTier t (keepWaiting (fun q => !f q)) d) = ledger d + requestsAt t ((waitingOf (getTier d t)).filter f).length :=
    modTier_ledger_add (unaccounted_keepWaiting f _)
  rw [foldl_shed_ledger, h, add_sub_cancel_right]

@[simp] theorem shedResetting_ledger (t : Nat) (d : Dev) : ledger (shedResetting t d) = ledger d := shedWaiting_ledger t _ d

@[simp] theorem windowCopied_ledger (g : Grant) (d : Dev) : ledger (windowCopied g d) = ledger d := by simp [windowCopied]

@[simp] theorem startPerk_ledger (q : WReq) (d : Dev) : ledger (startPerk q d) = ledger d := by simp [startPerk]

/-- A tier that has admitted a request of a partition, by a shared credit or by one of its floor. -/
def withCredit (shared : Bool) (p : Nat) (x : Tier) : Tier :=
  let y := { x with admits := x.admits + 1, idle := false }
  if shared then { y with sharedHeld := y.sharedHeld + 1 } else { y with held := tabMod y.held p 0 (fun n => n + 1) }

/-- The credit of a request is taken (R73). -/
def takeCredit (t : Nat) (q : WReq) (d : Dev) : Dev :=
  let e := tap 0 t 0 q.part d
  modTier t (withCredit (floorFree e t q.part == 0) q.part) e

/-- A turn takes its prompt with it (R359). -/
def takePrompt (q : WReq) (d : Dev) : Dev :=
  match q.turn with
  | some (n, _) => modSession n (fun s => { s with key := (s.key + 1) % 4294967296, prompt := [] }) d
  | none => d

/-- An admitted request enters the lanes, d being the device that has taken its credit (R84 to R86, R343). -/
def enterReq (t : Nat) (q : WReq) (shared : Bool) (g : Option (Grant × Nat)) (d : Dev) : Dev :=
  let zf := (g.map (fun x => x.2)).getD 0
  let key := match q.turn with | some (n, _) => (getSession d n).key | none => 0
  let words := match q.turn with | some (n, _) => (getSession d n).prompt | none => []
  let e := takePrompt q d
  let r : Req := { tier := t, q := q, shared := shared, order := e.nextOrder, sessKey := key, grant := g.map (fun x => x.1)
                   zeroFilled := zf, prompt := words, descriptor := wakeDescriptor e.img q zf ((g.map (fun x => x.1.start)).getD 0) }
  { e with reqs := e.reqs ++ [r], nextOrder := e.nextOrder + 1 }

/-- The window of a grant is copied as far as it is there, and its first samples may be clamped (R85). -/
def copyGrant (t : Nat) (g : Option (Grant × Nat)) (d : Dev) : Dev :=
  let e := match g with | some x => if x.1.full then windowCopied x.1 d else d | none => d
  if (g.map (fun x => x.2)).getD 0 = 0 then e else modTier t (fun x => { x with clamp := x.clamp + 1 }) e

/-- What an admitted request wakes. -/
def wakeTier (t : Nat) (q : WReq) (d : Dev) : Dev :=
  if t = 1 then startPerk q d
  else
    let e := clustersUp d
    if bit (policyOf e.img q.part).ibiMask 2 then ibi 3 t q.w.stream q.part e else e

theorem admitReq_eq (t : Nat) (q : WReq) (d : Dev) :
    let e := takeCredit t q d
    let g := if t = 1 then none else grantOf e t q
    admitReq t q d = wakeTier t q (copyGrant t g (enterReq t q (floorFree (tap 0 t 0 q.part d) t q.part == 0) g e)) := rfl

theorem unaccounted_withCredit (shared : Bool) (p : Nat) (x : Tier) : unaccounted (withCredit shared p x) = unaccounted x - w32 1 := by
  unfold withCredit
  split <;> simp only [unaccounted, waitingOf, w32_one] <;> ring

theorem takeCredit_ledger (t : Nat) (q : WReq) (d : Dev) : ledger (takeCredit t q d) = ledger d - requestsAt t 1 := by
  rw [takeCredit, ← tap_ledger 0 t 0 q.part d]
  exact modTier_ledger_sub (unaccounted_withCredit ..)

@[simp] theorem takePrompt_ledger (q : WReq) (d : Dev) : ledger (takePrompt q d) = ledger d := by
  unfold takePrompt
  split <;> simp

@[simp] theorem enterReq_ledger (t : Nat) (q : WReq) (shared : Bool) (g : Option (Grant × Nat)) (d : Dev) :
    ledger (enterReq t q shared g d) = ledger d := by simp [enterReq]

@[simp] theorem copyGrant_ledger (t : Nat) (g : Option (Grant × Nat)) (d : Dev) : ledger (copyGrant t g d) = ledger d := by
  cases g <;> simp [copyGrant, apply_ite ledger]

@[simp] theorem wakeTier_ledger (t : Nat) (q : WReq) (d : Dev) : ledger (wakeTier t q d) = ledger d := by
  simp [wakeTier, apply_ite ledger]

/-- An admitted request is accounted for. -/
@[simp] theorem admitReq_ledger (t : Nat) (q : WReq) (d : Dev) : ledger (admitReq t q d) = ledger d - requestsAt t 1 := by
  rw [admitReq_eq, wakeTier_ledger, copyGrant_ledger, enterReq_ledger, takeCredit_ledger]

@[simp] theorem admitAll_ledger (t n : Nat) (d : Dev) : ledger (admitAll t n d) = ledger d := by
  fun_induction admitAll t n d with
  | case1 => rfl
  | case2 => rfl
  | case3 n d q hq ih =>
    have hc := (List.mem_filter.mp (bestCandidate_mem hq)).1
    have hw : ledger (modTier t (takeWaiting q) d) = ledger d + requestsAt t 1 := modTier_ledger_add (unaccounted_takeWaiting hc)
    rw [ih, admitReq_ledger, hw, add_sub_cancel_right]

@[simp] theorem arbitrateTier_ledger (t : Nat) (d : Dev) : ledger (arbitrateTier t d) = ledger d := by simp [arbitrateTier]

@[simp] theorem arbitrate_ledger (d : Dev) : ledger (arbitrate d) = ledger d := by simp [arbitrate]

/-- A request that is held, one that it coalesces with or one that it sheds is accounted for (R74). -/
theorem holdRequest_ledger (t : Nat) (q : WReq) (d : Dev) (hq : q.prio < 4) :
    ledger (holdRequest t q d) = ledger d - requestsAt t 1 := by
  unfold holdRequest
  extract_lets x rec_ depth l
  have queued (l' : List WReq) (n : Nat) (h : l'.length = l.length + n) :
      ledger (modTier t (fun y => { y with queues := tabSet y.queues q.prio l' }) d) = ledger d - requestsAt t n := by
    refine modTier_ledger_sub ?_
    have hw := waitingOf_length_tabSet x q.prio l' hq
    have hn : (waitingOf { x with queues := tabSet x.queues q.prio l' }).length = (waitingOf x).length + n := by
      change _ + l.length = _ at hw
      omega
    unfold unaccounted
    rw [hn, w32_add]
    ring
  split
  · split
    next hf =>
      refine modTier_ledger_sub ?_
      simp only [unaccounted, waitingOf, List.length_append, List.length_singleton, w32_add]
      ring
    next old hf =>
      rw [record_ledger]
      refine modTier_ledger_sub ?_
      simp only [unaccounted, waitingOf, List.length_append, replaceFirst_length, w32_one]
      ring
  · split
    · exact shed_ledger t q d
    next hd =>
      split
      · exact queued _ 1 (by simp)
      next hl =>
        cases hn : l with
        | nil => exact absurd (hn ▸ hl) (by simp only [List.length_nil]; omega)
        | cons old rest => exact (shed_ledger ..).trans (by rw [queued _ 0 (by simp [hn]), requestsAt_zero, sub_zero])

/-- The wakes of a device lane (R342). -/
def onLane (w : Wake) : Bool := w.target != 1 && w.source != 3 && w.stream != 255

/-- An arrival is counted. -/
def countArrival (t : Nat) (d : Dev) : Dev :=
  modTier t (fun y => { y with next := (y.next + 1) % 4294967296, arrive := y.arrive + 1, idle := false }) d

/-- The highest onset of a device lane is that of the wake. -/
def noteOnset (w : Wake) (d : Dev) : Dev :=
  if onLane w then modTier w.target (fun y => { y with highest := tabSet y.highest w.stream w.onset }) d else d

/-- The routed request of an arrival. -/
def requestOf (w : Wake) (turn : Option (Nat × Nat)) (r : Route) (x : Tier) : WReq :=
  { w := w, part := r.part, prio := r.prio % 4, graph := r.graph, arrival := x.next, turn := turn }

/-- What becomes of a request that has been counted, top being the highest onset of its lane (R73, R74, R342). -/
def placeArrival (q : WReq) (top : Nat) (d : Dev) : Dev :=
  let t := q.w.target
  if (getPart d q.part).resetting then shed t q d
  else if onLane q.w ∧ q.w.onset < top then shed t q (modSched (fun c => { c with stale := c.stale + 1 }) d)
  else
    let e := noteOnset q.w d
    if eligible e t q.part then admitReq t q e else holdRequest t q e

theorem arrive_of_route {w : Wake} (turn : Option (Nat × Nat)) {d : Dev} {r : Route} (hl : live d = true)
    (hr : routeOf d.img w.target w.stream w.cls = some r) :
    let x := getTier (arbitrate d) w.target
    arrive w turn d = (some x.next, placeArrival (requestOf w turn r x) (tabGet x.highest w.stream 0)
      (countArrival w.target (arbitrate d))) := by
  simp only [arrive, hl, hr]
  rfl

theorem arrive_of_unrouted {w : Wake} (turn : Option (Nat × Nat)) {d : Dev} (hl : live d = true)
    (hr : routeOf d.img w.target w.stream w.cls = none) :
    arrive w turn d = (none, info 0x56 (modTier w.target (fun x => { x with unrouted := x.unrouted + 1 }) d)) := by
  simp [arrive, hl, hr]

theorem arrive_of_dead (w : Wake) (turn : Option (Nat × Nat)) {d : Dev} (hl : live d = false) : arrive w turn d = (none, d) := by
  simp [arrive, hl]

@[simp] theorem noteOnset_ledger (w : Wake) (d : Dev) : ledger (noteOnset w d) = ledger d := by
  simp [noteOnset, apply_ite ledger]

theorem countArrival_ledger (t : Nat) (d : Dev) : ledger (countArrival t d) = ledger d + requestsAt t 1 := by
  refine modTier_ledger_add ?_
  simp only [unaccounted, waitingOf, w32_one]
  ring

theorem placeArrival_ledger (q : WReq) (top : Nat) (d : Dev) (hq : q.prio < 4) :
    ledger (placeArrival q top d) = ledger d - requestsAt q.w.target 1 := by
  unfold placeArrival
  extract_lets t e
  split
  · exact shed_ledger ..
  · split
    · rw [shed_ledger, modSched_ledger]
    · rw [← noteOnset_ledger q.w d]
      split
      · exact admitReq_ledger ..
      · exact holdRequest_ledger _ _ _ hq

/-- A request that arrives is counted once, and its fate once. -/
@[simp] theorem arrive_ledger (w : Wake) (turn : Option (Nat × Nat)) (d : Dev) : ledger (arrive w turn d).2 = ledger d := by
  cases hl : live d with
  | false => rw [arrive_of_dead w turn hl]
  | true =>
    cases hr : routeOf d.img w.target w.stream w.cls with
    | none => rw [arrive_of_unrouted turn hl hr]; simp
    | some r =>
      rw [arrive_of_route turn hl hr, placeArrival_ledger _ _ _ (Nat.mod_lt _ (by decide)), countArrival_ledger, requestOf,
        add_sub_cancel_right, arbitrate_ledger]

@[simp] theorem wake_ledger (w : Wake) (d : Dev) : ledger (wake w d) = ledger d := by simp [wake]

end Sys2Proof.Machine
end

section
/-! PROOFS. The ledger of the wake arbiter under the rest of the device, which changes no count of R81. -/

namespace Sys2Proof.Machine

@[simp] theorem measureLatency_ledger (o latency : Nat) (d : Dev) : ledger (measureLatency o latency d) = ledger d := by
  unfold measureLatency
  split <;> simp [apply_ite ledger]

/-! ### Audio -/

@[simp] theorem frameLevel_ledger (energy : Nat) (d : Dev) : ledger (frameLevel energy d).2 = ledger d := by
  unfold frameLevel
  split <;> simp

@[simp] theorem endFrame_ledger (slot : Nat) (d : Dev) : ledger (endFrame slot d) = ledger d := by
  simp only [endFrame, apply_ite ledger]
  repeat' split
  all_goals simp

@[simp] theorem fillGrants_ledger (slot : Nat) (d : Dev) : ledger (fillGrants slot d) = ledger d := by simp [fillGrants]

@[simp] theorem audioSample_ledger (slot : Nat) (value : Int) (high : List Int) (d : Dev) :
    ledger (audioSample slot value high d) = ledger d := by
  unfold audioSample
  split <;> simp

@[simp] theorem inputEvent_ledger (input : Nat) (d : Dev) : ledger (inputEvent input d) = ledger d := by
  unfold inputEvent
  split <;> simp

@[simp] theorem perkInput_ledger (p : PerkInst) (r : Req) (d : Dev) : ledger (perkInput p r d).2 = ledger d := by
  unfold perkInput
  split <;> simp [apply_ite ledger]

@[simp] theorem perkInject_ledger (d : Dev) : ledger (perkInject d).2 = ledger d := by
  simp only [perkInject]
  repeat' split
  all_goals simp

@[simp] theorem perkFail_ledger (r : Req) (inj : Bool) (d : Dev) :
    ledger (perkFail r inj d) = ledger d := by simp [perkFail]

@[simp] theorem perkStep_ledger (arrival : Nat) (outs : List Int) (busy latency : Nat) (d : Dev) :
    ledger (perkStep arrival outs busy latency d) = ledger d := by
  simp only [perkStep]
  repeat' split
  all_goals simp

/-! ### KvFamily -/

@[simp] theorem walkStart_ledger (x : DescId) (w : Nat) (d : Dev) : ledger (walkStart x w d) = ledger d := by
  simp only [walkStart]
  repeat' split
  all_goals simp

@[simp] theorem walkFail_ledger (x : DescId) (y : Desc) (s c : Nat) (injected : Bool) (d : Dev) :
    ledger (walkFail x y s c injected d) = ledger d := by simp [walkFail]

@[simp] theorem walkReads_ledger (s c misses : Nat) (d : Dev) : ledger (walkReads s c misses d) = ledger d := by
  unfold walkReads
  dsimp only
  split <;> simp

@[simp] theorem entryLost_ledger (s layer : Nat) (ps : List Nat) (d : Dev) :
    ledger (entryLost s layer ps d) = ledger d := by simp [entryLost, apply_ite ledger]

@[simp] theorem walkEnd_ledger (x : DescId) (poisoned : Bool) (d : Dev) : ledger (walkEnd x poisoned d) = ledger d := by
  simp only [walkEnd]
  repeat' split
  all_goals simp

@[simp] theorem allocate_ledger (x : DescId) (p : Nat) (d : Dev) : ledger (allocate x p d) = ledger d := by
  fun_cases allocate x p d <;> simp

@[simp] theorem fill_ledger (x : DescId) (d : Dev) : ledger (fill x d) = ledger d := by
  unfold fill
  split <;> simp

@[simp] theorem threadEdit_ledger (p s : Nat) (e : Edit) (d : Dev) :
    ledger (threadEdit p s e d) = ledger d := by simp [threadEdit, apply_ite ledger]

@[simp] theorem editApply_ledger (s waited : Nat) (d : Dev) : ledger (editApply s waited d) = ledger d := by
  unfold editApply
  split
  · split
    next h => simp [applyEdit_ledger _ _ _ _ h]
    · rfl
  · rfl

/-! ### Sequence -/

@[simp] theorem setMark_ledger (q s T : Nat) (bidir : Bool) (d : Dev) :
    ledger (setMark q s T bidir d) = ledger d := by simp [setMark]

@[simp] theorem lateMark_ledger (q part : Nat) (d : Dev) : ledger (lateMark q part d) = ledger d := by simp [lateMark]

@[simp] theorem takeMark_ledger (q m : Nat) (d : Dev) : ledger (takeMark q m d) = ledger d := by
  unfold takeMark
  split <;> simp [apply_ite ledger]

@[simp] theorem postMark_ledger (p q m : Nat) (d : Dev) : ledger (postMark p q m d) = ledger d := by
  fun_cases postMark p q m d <;> simp

@[simp] theorem beginWait_ledger (b : Nat) (d : Dev) : ledger (beginWait b d) = ledger d := by
  unfold beginWait
  split <;> simp

@[simp] theorem unready_ledger (b : Nat) (d : Dev) : ledger (unready b d) = ledger d := by simp [unready]

@[simp] theorem swapInDone_ledger (b hb hc : Nat) (bad : List Nat) (waited : Nat) (d : Dev) :
    ledger (swapInDone b hb hc bad waited d) = ledger d := by simp [swapInDone, apply_ite ledger]

@[simp] theorem swapOutDone_ledger (b : Nat) (d : Dev) :
    ledger (swapOutDone b d) = ledger d := by simp [swapOutDone, apply_ite ledger]

@[simp] theorem blkIdle_ledger (b : Nat) (d : Dev) :
    ledger (blkIdle b d) = ledger d := by simp [blkIdle, apply_ite ledger]

@[simp] theorem rehome_ledger (u : Nat) (d : Dev) : ledger (rehome u d) = ledger d := by simp [rehome]

@[simp] theorem freezeMask_ledger (q : Nat) (o : ScanOp) (chunk : Nat) (d : Dev) :
    ledger (freezeMask q o chunk d).2 = ledger d := by
  fun_cases freezeMask q o chunk d <;> simp

@[simp] theorem releaseScan_ledger (u : Nat) (b : Bytes) (d : Dev) :
    ledger (releaseScan u b d).2 = ledger d := by simp [releaseScan, apply_ite ledger]

@[simp] theorem applySlice_ledger (b : Bytes) (d : Dev) : ledger (applySlice b d) = ledger d := by simp [applySlice]

@[simp] theorem abortSlice_ledger (b : Bytes) (d : Dev) : ledger (abortSlice b d) = ledger d := by simp [abortSlice]

@[simp] theorem noteInputs_ledger (b : Bytes) (d : Dev) :
    ledger (noteInputs b d) = ledger d := by simp [noteInputs, apply_ite ledger]

/-! ### Streaming -/

@[simp] theorem roundTripOf_ledger (a n rt : Nat) (d : Dev) :
    ledger (roundTripOf a n rt d) = ledger d := by simp [roundTripOf, apply_ite ledger]

@[simp] theorem bankAppend_ledger (u : Nat) (b : Bytes) (d : Dev) :
    ledger (bankAppend u b d) = ledger d := by simp [bankAppend]

@[simp] theorem bankLoaded_ledger (u k : Nat) (d : Dev) : ledger (bankLoaded u k d) = ledger d := by simp [bankLoaded]

@[simp] theorem popXfer_ledger (n : Nat) (d : Dev) : ledger (popXfer n d) = ledger d := by simp [popXfer]

theorem issueGranule_ledger (n : Nat) (x : Xfer) (d e : Dev) (h : issueGranule n x d = some e) : ledger e = ledger d := by
  obtain ⟨b, hb, rfl⟩ := Option.map_eq_some_iff.mp h
  obtain ⟨r, hr, hb⟩ := Option.bind_eq_some_iff.mp hb
  have h1 : ledger r = ledger d := by
    split at hr
    · exact takeTag_ledger _ _ _ _ _ _ _ hr
    · rw [Option.some.inj hr]
  have h2 : ledger b = ledger r := by
    split at hb
    · rw [Option.some.inj hb]
    · exact takeTag_ledger _ _ _ _ _ _ _ hb
  rw [modMover_ledger, h2, h1]

@[simp] theorem issueAhead_ledger (n : Nat) (x : Xfer) (n' : Nat) (d : Dev) : ledger (issueAhead n x n' d) = ledger d := by
  fun_induction issueAhead n x n' d with
  | case1 | case2 | case4 => rfl
  | case3 d k h e he ih => rw [ih, issueGranule_ledger _ _ _ _ he]

@[simp] theorem flyOn_ledger (n : Nat) (x : Xfer) (d : Dev) : ledger (flyOn n x d) = ledger d := by
  unfold flyOn
  split <;> simp

@[simp] theorem completeXfer_ledger (n : Nat) (x : Xfer) (d : Dev) : ledger (completeXfer n x d) = ledger d := by
  unfold completeXfer
  split <;> simp

@[simp] theorem endXfer_ledger (n : Nat) (x : Xfer) (cause : Nat) (d : Dev) : ledger (endXfer n x cause d) = ledger d := by
  unfold endXfer
  split <;> simp

@[simp] theorem moveGranule_ledger (n : Nat) (x : Xfer) (fault rt held : Nat) (d : Dev) :
    ledger (moveGranule n x fault rt held d) = ledger d := by
  unfold moveGranule
  repeat' split
  all_goals simp [apply_ite ledger]

@[simp] theorem granuleDone_ledger (n fault rt held : Nat) (d : Dev) :
    ledger (granuleDone n fault rt held d) = ledger d := by
  unfold granuleDone
  split
  · rfl
  · split
    · rfl
    · split
      next e he =>
        rw [moveGranule_ledger]
        split at he
        · exact issueGranule_ledger _ _ _ _ he
        · rw [Option.some.inj he]
      · rfl

@[simp] theorem windowLoad_ledger (w : Nat) (d : Dev) : ledger (windowLoad w d) = ledger d := by
  unfold windowLoad
  split <;> simp [apply_ite ledger]

@[simp] theorem endSteps_ledger (ks : List (Nat × Nat)) (cause part : Nat) (d : Dev) :
    ledger (endSteps ks cause part d) = ledger d := by simp [endSteps]

@[simp] theorem endStall_ledger (w n : Nat) (k : Nat × Nat × Nat) (d : Dev) :
    ledger (endStall w n k d) = ledger d := by simp [endStall]

@[simp] theorem endStalls_ledger (w n : Nat) (l : List (Nat × Nat × Nat)) (d : Dev) :
    ledger (endStalls w n l d) = ledger d := by
  unfold endStalls
  split <;> simp

@[simp] theorem windowFailed_ledger (w : Nat) (d : Dev) : ledger (windowFailed w d) = ledger d := by
  unfold windowFailed
  split <;> simp

@[simp] theorem loaderErrors_ledger (r : WindowRec) (i : Nat) (d : Dev) : ledger (loaderErrors r i d) = ledger d := by
  simp only [loaderErrors, apply_ite ledger]
  repeat' split
  all_goals simp

@[simp] theorem windowPresent_ledger (w stall : Nat) (d : Dev) : ledger (windowPresent w stall d) = ledger d := by
  unfold windowPresent
  split <;> simp [apply_ite ledger]

@[simp] theorem windowLate_ledger (w : Nat) (d : Dev) : ledger (windowLate w d) = ledger d := by
  unfold windowLate
  split <;> simp [apply_ite ledger]

@[simp] theorem windowStall_ledger (x : DescId) (lay : Option (Nat × Nat)) (d : Dev) :
    ledger (windowStall x lay d) = ledger d := by
  unfold windowStall
  split <;> simp [apply_ite ledger]

@[simp] theorem remoteSignal_ledger (k : Nat) (d : Dev) : ledger (remoteSignal k d) = ledger d := by
  unfold remoteSignal
  split <;> simp

@[simp] theorem scrub_ledger (corrected : Nat) (bad : List Nat) (d : Dev) :
    ledger (scrub corrected bad d) = ledger d := by simp [scrub, apply_ite ledger]

/-! ### Leash -/

@[simp] theorem fillLeashes_ledger (u : Nat) (x : DescId) (b : Bytes) (d : Dev) :
    ledger (fillLeashes u x b d) = ledger d := by simp [fillLeashes]

@[simp] theorem loadFirst_ledger (u : Nat) (x : DescId) (b : Bytes) (d : Dev) : ledger (loadFirst u x b d) = ledger d := by
  unfold loadFirst
  split <;> simp

@[simp] theorem rampUp_ledger (u : Nat) (x : DescId) (b : Bytes) (d : Dev) :
    ledger (rampUp u x b d) = ledger d := by simp [rampUp]

/-! ### Sched -/

@[simp] theorem bindOne_ledger (g : Nat) (d : Dev) : ledger (bindOne g d) = ledger d := by
  fun_cases bindOne g d <;> simp

@[simp] theorem requestBind_ledger (g : Nat) (d : Dev) : ledger (requestBind g d) = ledger d := by
  unfold requestBind
  split <;> simp

@[simp] theorem rebind_ledger (g : Nat) (d : Dev) : ledger (rebind g d) = ledger d := by simp [rebind]

@[simp] theorem stepStart_ledger (g : Nat) (d : Dev) : ledger (stepStart g d) = ledger d := by
  unfold stepStart
  dsimp only
  split
  · split
    · rfl
    · rw [modSched_ledger]
      refine (foldl_ledger _ (fun e c => ?_) _ _).trans (by simp)
      split <;> simp
  · rfl

@[simp] theorem instantiate_ledger (g i : Nat) (d : Dev) : ledger (instantiate g i d) = ledger d := by
  unfold instantiate
  split <;> simp [apply_ite ledger]

@[simp] theorem settlePreempt_ledger (d : Dev) : ledger (settlePreempt d) = ledger d := by simp [settlePreempt]

@[simp] theorem releaseDesc_ledger (x : DescId) (d : Dev) : ledger (releaseDesc x d) = ledger d := by simp [releaseDesc]

@[simp] theorem descReady_ledger (x : DescId) (d0 : Dev) : ledger (descReady x d0) = ledger d0 := by
  simp only [descReady]
  repeat' split
  all_goals simp

@[simp] theorem affinityExpiry_ledger (x : DescId) (d : Dev) :
    ledger (affinityExpiry x d) = ledger d := by simp [affinityExpiry]

@[simp] theorem stageWeights_ledger (u : Nat) (y : Desc) (d : Dev) : ledger (stageWeights u y d) = ledger d := by
  simp only [stageWeights]
  repeat' split
  all_goals simp

@[simp] theorem beginBankLoad_ledger (u : Nat) (y : Desc) (d : Dev) : ledger (beginBankLoad u y d) = ledger d := by
  unfold beginBankLoad
  split <;> simp

@[simp] theorem selectBank_ledger (u : Nat) (y : Desc) (d : Dev) : ledger (selectBank u y d) = ledger d := by
  unfold selectBank
  split <;> simp

@[simp] theorem takeFrame_ledger (u : Nat) (y : Desc) (d : Dev) : ledger (takeFrame u y d) = ledger d := by
  unfold takeFrame
  split <;> simp

@[simp] theorem startTile_ledger (u : Nat) (y : Desc) (d : Dev) : ledger (startTile u y d) = ledger d := by
  simp only [startTile]
  repeat' split
  all_goals simp

@[simp] theorem countPlacement_ledger (u : Nat) (y : Desc) (d : Dev) :
    ledger (countPlacement u y d) = ledger d := by simp [countPlacement, apply_ite ledger]

@[simp] theorem prepareBank_ledger (u : Nat) (d : Dev) : ledger (prepareBank u d) = ledger d := by
  unfold prepareBank
  split <;> simp

@[simp] theorem measureOthers_ledger (latency : Nat) (l : List Nat) (d : Dev) :
    ledger (measureOthers latency l d) = ledger d := by
  fun_induction measureOthers latency l d with
  | case1 => rfl
  | case2 d o rest c ih => simp [ih, c]

@[simp] theorem measureAll_ledger (os : List Nat) (latency : Nat) (d : Dev) :
    ledger (measureAll os latency d) = ledger d := by
  unfold measureAll
  split <;> simp

@[simp] theorem dispatch_ledger (u latency : Nat) (d0 : Dev) : ledger (dispatch u latency d0) = ledger d0 := by
  simp only [dispatch, apply_ite ledger]
  repeat' split
  all_goals simp

@[simp] theorem prepay_ledger (u n : Nat) (d : Dev) : ledger (prepay u n d) = ledger d := by
  unfold prepay
  split <;> simp

@[simp] theorem flushCharges_ledger (c : Nat) (d : Dev) : ledger (flushCharges c d) = ledger d := by
  refine foldl_ledger _ (fun e c => ?_) _ d
  dsimp only
  split <;> simp

@[simp] theorem budgetWindow_ledger (c : Nat) (d : Dev) : ledger (budgetWindow c d) = ledger d := by
  unfold budgetWindow
  split <;> simp

@[simp] theorem prepayAll_ledger (n : Nat) (l : List Nat) (d : Dev) : ledger (prepayAll n l d) = ledger d := by
  fun_induction prepayAll n l d <;> simp_all

@[simp] theorem quotaReached_ledger (c p charge : Nat) (d : Dev) :
    ledger (quotaReached c p charge d) = ledger d := by simp [quotaReached, apply_ite ledger]

@[simp] theorem backstop_ledger (watch inst : Nat) (d : Dev) : ledger (backstop watch inst d) = ledger d := by
  unfold backstop
  dsimp only
  split <;> simp [apply_ite ledger]

/-! ### Search -/

@[simp] theorem queryJoin_ledger (slot : Nat) (q : Query) (d : Dev) : ledger (queryJoin slot q d) = ledger d := by
  unfold queryJoin
  split <;> simp [apply_ite ledger]

@[simp] theorem batchExpiry_ledger (slot : Nat) (d : Dev) : ledger (batchExpiry slot d) = ledger d := by
  unfold batchExpiry
  split <;> simp

@[simp] theorem staleSearch_ledger (slot : Nat) (d : Dev) : ledger (staleSearch slot d) = ledger d := by simp [staleSearch]

@[simp] theorem sweepStart_ledger (slot : Nat) (d : Dev) : ledger (sweepStart slot d) = ledger d := by
  unfold sweepStart
  split <;> simp [apply_ite ledger]

@[simp] theorem clusterMerge_ledger (slot cluster : Nat) (d : Dev) : ledger (clusterMerge slot cluster d) = ledger d := by
  unfold clusterMerge
  split <;> simp [apply_ite ledger]

@[simp] theorem flushIdents_ledger (o : Nat) (d : Dev) : ledger (flushIdents o d) = ledger d := by
  unfold flushIdents
  split <;> simp

@[simp] theorem emitIdents_ledger (o : Nat) (d : Dev) : ledger (emitIdents o d) = ledger d := by
  unfold emitIdents
  split <;> simp

@[simp] theorem answer_ledger (r : CatRec) (snapshot : Nat) (l : List (QEntry × Option KList)) (d : Dev) :
    ledger (answer r snapshot l d) = ledger d := by simp [answer]

@[simp] theorem finishAnswered_ledger (os : List Nat) (d : Dev) :
    ledger (finishAnswered os d) = ledger d := by simp [finishAnswered, apply_ite ledger]

@[simp] theorem deviceMerge_ledger (slot cycles : Nat) (d : Dev) : ledger (deviceMerge slot cycles d) = ledger d := by
  unfold deviceMerge
  split <;> simp [apply_ite ledger]

@[simp] theorem sweepAbort_ledger (slot : Nat) (d : Dev) : ledger (sweepAbort slot d) = ledger d := by
  unfold sweepAbort
  split <;> simp

@[simp] theorem enrol_ledger (slot : Nat) (item : Bytes) (os : List Nat) (d : Dev) :
    ledger (enrol slot item os d) = ledger d := by
  unfold enrol
  split <;> simp [apply_ite ledger]

/-! ### Tile -/

@[simp] theorem tileRead_ledger (u : Nat) (x : DescId) (b : Bytes) (pages : List (Nat × Nat)) (run : TileRun) (d : Dev) :
    ledger (tileRead u x b pages run d) = ledger d := by simp [tileRead]

@[simp] theorem countAdvance_ledger (u : Nat) (x : DescId) (b : Bytes) (run : TileRun) (n : AdvCounts) (d : Dev) :
    ledger (countAdvance u x b run n d) = ledger d := by simp [countAdvance]

@[simp] theorem stopTile_ledger (u cause : Nat) (d : Dev) : ledger (stopTile u cause d) = ledger d := by
  simp only [stopTile]
  repeat' split
  all_goals simp

@[simp] theorem nextTest_ledger (d : Dev) : ledger (nextTest d) = ledger d := by
  unfold nextTest
  split <;> simp

@[simp] theorem queueTest_ledger (u kind : Nat) (d : Dev) : ledger (queueTest u kind d).2 = ledger d := by
  unfold queueTest
  split <;> simp

@[simp] theorem coreFault_ledger (u : Nat) (d : Dev) :
    ledger (coreFault u d) = ledger d := by simp [coreFault, apply_ite ledger]

@[simp] theorem faultTile_ledger (u code : Nat) (injected : Bool) (d : Dev) :
    ledger (faultTile u code injected d) = ledger d := by simp [faultTile]

@[simp] theorem tagFail_ledger (u kind expected observed : Nat) (injected : Bool) (d : Dev) :
    ledger (tagFail u kind expected observed injected d) = ledger d := by simp [tagFail]

theorem injectTile_ledger (u : Nat) (b : Bytes) (pair : Option (Nat × Nat)) (d : Dev) :
    ledger (injectTile u b pair d).2.2 = ledger d ∧ ∀ e, (injectTile u b pair d).1 = some e → ledger e = ledger d := by
  unfold injectTile
  dsimp only
  repeat' split
  all_goals simp

@[simp] theorem storeAcc_ledger (u : Nat) (acc : List AccElem) (d : Dev) : ledger (storeAcc u acc d) = ledger d := by
  unfold storeAcc
  split <;> simp

@[simp] theorem advanceEnd_ledger (u : Nat) (run : TileRun) (d : Dev) : ledger (advanceEnd u run d) = ledger d := by
  unfold advanceEnd
  dsimp only
  split
  · rfl
  · split
    · rfl
    · split
      · rfl
      · split
        · simp
        · split
          · simp
          · split
            · simp
            · split
              next e he => rw [(injectTile_ledger _ _ _ _).2 _ he]; simp
              · simp [(injectTile_ledger _ _ _ _).1]

@[simp] theorem tileFault_ledger (u code : Nat) (d : Dev) : ledger (tileFault u code d) = ledger d := by
  unfold tileFault
  split <;> simp [apply_ite ledger]

@[simp] theorem scaleCheck_ledger (u block kind tag seen : Nat) (poisoned : Bool) (d : Dev) :
    ledger (scaleCheck u block kind tag seen poisoned d) = ledger d := by
  fun_cases scaleCheck u block kind tag seen poisoned d <;> simp

@[simp] theorem hardStopTile_ledger (u : Nat) (d : Dev) : ledger (hardStopTile u d) = ledger d := by
  unfold hardStopTile
  split <;> simp [apply_ite ledger]

@[simp] theorem releaseTile_ledger (u : Nat) (d : Dev) : ledger (releaseTile u d) = ledger d := by
  unfold releaseTile
  split <;> simp [apply_ite ledger]

/-! ### Commit -/

@[simp] theorem countVals_ledger (u part : Nat) (rq : Option RqTable) (l : List OutVal) (d : Dev) :
    ledger (countVals u part rq l d) = ledger d := by
  unfold countVals
  split <;> simp [apply_ite ledger]

@[simp] theorem writeOutput_ledger (u : Nat) (x : DescId) (b : Bytes) (vals : List OutVal) (scales : List
    (Nat × GScale × Bool)) (d : Dev) :
    ledger (writeOutput u x b vals scales d) = ledger d := by
  fun_cases writeOutput u x b vals scales d <;> simp

@[simp] theorem scatterCommit_ledger (u : Nat) (x : DescId) (b : Bytes) (pages : List (Nat × Nat)) (bf16 : Bool) (d : Dev) :
    ledger (scatterCommit u x b pages bf16 d) = ledger d := by simp [scatterCommit]

@[simp] theorem commitKind_ledger (u : Nat) (x : DescId) (b : Bytes) (t : Tile) (out : CommitData) (d : Dev) :
    ledger (commitKind u x b t out d) = ledger d := by
  simp only [commitKind]
  repeat' split
  all_goals simp

@[simp] theorem denyTile_ledger (u : Nat) (t : Tile) (p : Nat) (d : Dev) :
    ledger (denyTile u t p d) = ledger d := by simp [denyTile]

@[simp] theorem emitAll_ledger (y : Desc) (out : CommitData) (d : Dev) : ledger (emitAll y out d) = ledger d := by
  unfold emitAll
  dsimp only
  repeat' split
  all_goals simp [apply_ite ledger]

@[simp] theorem commitTile_ledger (u : Nat) (t : Tile) (y : Desc) (out : CommitData) (d : Dev) :
    ledger (commitTile u t y out d) = ledger d := by
  simp only [commitTile]
  repeat' split
  all_goals simp

@[simp] theorem commitEnd_ledger (u : Nat) (out : CommitData) (d : Dev) : ledger (commitEnd u out d) = ledger d := by
  fun_cases commitEnd u out d <;> simp

/-! ### Camera -/

@[simp] theorem putCsi_ledger (port vc : Nat) (c : CsiFrame) (d : Dev) :
    ledger (putCsi port vc c d) = ledger d := by simp [putCsi]

@[simp] theorem issue_ledger (ops : List BusOp) (d : Dev) : ledger (issue ops d) = ledger d := by simp [issue]

@[simp] theorem freshBus_ledger (d : Dev) : ledger (freshBus d) = ledger d := by simp [freshBus]

@[simp] theorem storeLine_ledger (a : Nat) (r : CamRec) (l : Bytes × List Nat) (d : Dev) :
    ledger (storeLine a r l d) = ledger d := by simp [storeLine]

@[simp] theorem addLines_ledger (r : CamRec) (ls : List (Bytes × List Nat)) (f : RawFrame) (d : Dev) :
    ledger (addLines r ls f d).2 = ledger d := by
  refine foldl_ledger_snd _ (fun x l => ?_) ls (f, d)
  dsimp only
  split <;> simp

@[simp] theorem header_ledger (port : Nat) (ecc : Ecc) (d : Dev) : ledger (header port ecc d).2 = ledger d := by
  unfold header
  split <;> simp

@[simp] theorem issueBlock_ledger (n : Nat) (b : SetBlock) (k : Nat) (nacked : Bool) (d : Dev) :
    ledger (issueBlock n b k nacked d) = ledger d := by simp [issueBlock]

@[simp] theorem startBlock_ledger (r : CamRec) (d : Dev) : ledger (startBlock r d) = ledger d := by
  unfold startBlock
  dsimp only
  split <;> simp [apply_ite ledger]

@[simp] theorem returnFrame_ledger (s : Nat) (pipe1 : Bool) (d : Dev) :
    ledger (returnFrame s pipe1 d) = ledger d := by simp [returnFrame, apply_ite ledger]

@[simp] theorem openFrame_ledger (r : CamRec) (c : CsiFrame) (d : Dev) :
    ledger (openFrame r c d) = ledger d := by simp [openFrame, apply_ite ledger]

@[simp] theorem closeFrame_ledger (r : CamRec) (d : Dev) : ledger (closeFrame r d) = ledger d := by
  unfold closeFrame
  split <;> simp [apply_ite ledger]

@[simp] theorem closeCsi_ledger (port vc : Nat) (d : Dev) : ledger (closeCsi port vc d) = ledger d := by
  unfold closeCsi
  split <;> simp [apply_ite ledger]

@[simp] theorem lineArrives_ledger (r : CamRec) (c : CsiFrame) (port vc : Nat) (bytes : Bytes) (crcOk : Bool) (d : Dev) :
    ledger (lineArrives r c port vc bytes crcOk d) = ledger d := by simp [lineArrives, apply_ite ledger]

@[simp] theorem longPacket_ledger (port vc dtype : Nat) (bytes : Bytes) (crcOk : Bool) (d : Dev) :
    ledger (longPacket port vc dtype bytes crcOk d) = ledger d := by
  simp only [longPacket, apply_ite ledger]
  repeat' split
  all_goals simp

@[simp] theorem loseStart_ledger (port vc : Nat) (d : Dev) : ledger (loseStart port vc d) = ledger d := by
  unfold loseStart
  split <;> simp

@[simp] theorem writeReference_ledger (r : CamRec) (g : RawFrame) (f : IspFrame) (d : Dev) :
    ledger (writeReference r g f d) = ledger d := by
  unfold writeReference
  split
  · exact foldl_ledger _ (fun e l => by split <;> simp) _ d
  · simp

@[simp] theorem clipFrame_ledger (r : CamRec) (o : TensorOut) (qs : List (Int × Bool)) (d : Dev) :
    ledger (clipFrame r o qs d) = ledger d := by
  unfold clipFrame
  split <;> simp

@[simp] theorem writeStats_ledger (r : CamRec) (o : TensorOut) (g : RawFrame) (f : IspFrame) (a : Nat) (d0 d : Dev) :
    ledger (writeStats r o g f a d0 d) = ledger d := by simp [writeStats]

@[simp] theorem passThrough_ledger (r : CamRec) (o : TensorOut) (lines : List (Bytes × List Nat)) (vs : List Nat)
    (desc : Bytes) (d : Dev) :
    ledger (passThrough r o lines vs desc d) = ledger d := by
  unfold passThrough
  split <;> simp [apply_ite ledger]

@[simp] theorem writeTiles_ledger (r : CamRec) (o : TensorOut) (g : RawFrame) (f : IspFrame) (base : Nat) (vs bad : List Nat)
    (d : Dev) :
    ledger (writeTiles r o g f base vs bad d) = ledger d := by
  simp [writeTiles, apply_ite ledger]

@[simp] theorem writeFrame_ledger (r : CamRec) (o : TensorOut) (g : RawFrame) (f : IspFrame) (d : Dev) :
    ledger (writeFrame r o g f d) = ledger d := by simp [writeFrame, apply_ite ledger]

@[simp] theorem ispRead_ledger (r : CamRec) (g : RawFrame) (f : IspFrame) (d : Dev) :
    ledger (ispRead r g f d) = ledger d := by simp [ispRead]

@[simp] theorem finishFrame_ledger (g : RawFrame) (f : IspFrame) (d : Dev) : ledger (finishFrame g f d) = ledger d := by
  unfold finishFrame
  split <;> simp [apply_ite ledger]

@[simp] theorem lineDone_ledger (f : IspFrame) (d : Dev) : ledger (lineDone f d) = ledger d := by
  unfold lineDone
  split <;> simp [apply_ite ledger]

@[simp] theorem thumbnail_ledger (r : CamRec) (fn : Nat) (lines : List Bytes) (crcOk : List Bool) (dropped corrected : Nat)
    (d : Dev) :
    ledger (thumbnail r fn lines crcOk dropped corrected d) = ledger d := by simp [thumbnail, apply_ite ledger]

@[simp] theorem initSensor_ledger (r : SensorRec) (d : Dev) : ledger (initSensor r d) = ledger d := by simp [initSensor]

@[simp] theorem joinSensor_ledger (r : SensorRec) (ops : List BusOp) (d : Dev) :
    ledger (joinSensor r ops d) = ledger d := by simp [joinSensor, apply_ite ledger]

@[simp] theorem targetFound_ledger (port pid : Nat) (d : Dev) : ledger (targetFound port pid d) = ledger d := by
  unfold targetFound
  split <;> simp [apply_ite ledger]

@[simp] theorem assignAddresses_ledger (present : List Nat) (found : List (Fin 2 × Nat)) (d : Dev) :
    ledger (assignAddresses present found d) = ledger d := by simp [assignAddresses, apply_ite ledger]

@[simp] theorem blockEnds_ledger (n : Nat) (b : SetBlock) (from_ : Nat) (d : Dev) :
    ledger (blockEnds n b from_ d) = ledger d := by
  simp only [blockEnds]
  repeat' split
  all_goals simp

@[simp] theorem blockNacked_ledger (n : Nat) (d : Dev) : ledger (blockNacked n d) = ledger d := by simp [blockNacked]

@[simp] theorem transferDone_ledger (n : Nat) (ack : Bool) (d : Dev) : ledger (transferDone n ack d) = ledger d := by
  unfold transferDone
  split <;> simp [apply_ite ledger]

/-! ### Boot -/

@[simp] theorem spreadBlob_ledger (id : Nat) (b : Bytes) (d : Dev) :
    ledger (spreadBlob id b d) = ledger d := by simp [spreadBlob]

@[simp] theorem readPlan_ledger (d : Dev) : ledger (readPlan d) = ledger d := by
  unfold readPlan
  dsimp only
  split <;> simp

@[simp] theorem readLog_ledger (d : Dev) : ledger (readLog d) = ledger d := by
  unfold readLog
  dsimp only
  split <;> simp [apply_ite ledger]

/-- What waits when the arbiter starts afresh is shed. -/
@[simp] theorem freshTier_ledger (t : Nat) (d : Dev) : ledger (freshTier t d) = ledger d := by
  have h : ledger (modTier t (fun x => { x with
      queues := {}, pending := [], held := {}, sharedHeld := 0, returned := [], highest := {}, idle := false }) d) =
      ledger d + requestsAt t (waitingOf (getTier d t)).length := by
    refine modTier_ledger_add ?_
    have hn : waitingOf { getTier d t with
        queues := {}, pending := [], held := {}, sharedHeld := 0, returned := [], highest := {}, idle := false } = [] := rfl
    unfold unaccounted
    rw [hn]
    simp only [List.length_nil, w32_zero]
    ring
  have shed (l : List WReq) : ∀ e : Dev, ledger (l.foldl (fun e q => record 0x54 (some q.part) (6, t)
      (modTier t (fun x => { x with shed := x.shed + 1 }) e)) e) = ledger e - requestsAt t l.length := by
    induction l with
    | nil => intro e; simp [requestsAt_zero]
    | cons q r ih =>
      intro e
      rw [List.foldl_cons, ih, record_ledger, countShed_ledger, List.length_cons, requestsAt_add]
      abel
  rw [freshTier, shed, h, add_sub_cancel_right]

@[simp] theorem startInput_ledger (d : Dev) : ledger (startInput d) = ledger d := by simp [startInput]

@[simp] theorem startSlot_ledger (a : Nat) (d : Dev) : ledger (startSlot a d) = ledger d := by simp [startSlot]

@[simp] theorem startBlocks_ledger (d : Dev) : ledger (startBlocks d) = ledger d := by simp [startBlocks]

/-! ### Power -/

@[simp] theorem crystalStop_ledger (d : Dev) : ledger (crystalStop d) = ledger d := by
  unfold crystalStop
  split <;> simp

@[simp] theorem crystalRestart_ledger (d : Dev) : ledger (crystalRestart d) = ledger d := by
  unfold crystalRestart
  split <;> simp

@[simp] theorem stepUp_ledger (d : Dev) : ledger (stepUp d) = ledger d := by simp [stepUp]

@[simp] theorem stepDownTo_ledger (n : Nat) (d : Dev) : ledger (stepDownTo n d) = ledger d := by simp [stepDownTo]

@[simp] theorem enforceCap_ledger (d : Dev) : ledger (enforceCap d) = ledger d := by
  unfold enforceCap
  split <;> simp [apply_ite ledger]

@[simp] theorem settleRail_ledger (d : Dev) : ledger (settleRail d) = ledger d := by
  unfold settleRail
  split <;> simp

@[simp] theorem bootRaise_ledger (d : Dev) : ledger (bootRaise d) = ledger d := by
  unfold bootRaise
  split <;> simp

@[simp] theorem changeDone_ledger (d : Dev) : ledger (changeDone d) = ledger d := by
  unfold changeDone
  split <;> simp [apply_ite ledger]

@[simp] theorem meanPower_ledger (l : List Nat) (d : Dev) : ledger (meanPower l d).2 = ledger d := by
  unfold meanPower
  dsimp only
  split <;> simp

@[simp] theorem capDown_ledger (inj : Bool) (d : Dev) : ledger (capDown inj d) = ledger d := by
  unfold capDown
  split <;> simp

@[simp] theorem governorDown_ledger (d : Dev) : ledger (governorDown d) = ledger d := by
  unfold governorDown
  split <;> simp

@[simp] theorem governorUp_ledger (d : Dev) : ledger (governorUp d) = ledger d := by
  unfold governorUp
  split <;> simp

@[simp] theorem thermalStep_ledger (mx : Int) (d : Dev) : ledger (thermalStep mx d) = ledger d := by
  unfold thermalStep
  split <;> simp

@[simp] theorem thermalRecover_ledger (mx : Int) (d : Dev) : ledger (thermalRecover mx d) = ledger d := by
  unfold thermalRecover
  split <;> simp

@[simp] theorem hardStop_ledger (n : Nat) (d : Dev) : ledger (hardStop n d) = ledger d := by
  unfold hardStop
  split <;> simp

@[simp] theorem hardRelease_ledger (n : Nat) (d : Dev) : ledger (hardRelease n d) = ledger d := by
  unfold hardRelease
  split <;> simp

@[simp] theorem holdEnds_ledger (n : Nat) (d : Dev) : ledger (holdEnds n d) = ledger d := by simp [holdEnds]

@[simp] theorem clusterReset_ledger (n cause fifos : Nat) (d : Dev) : ledger (clusterReset n cause fifos d) = ledger d := by
  unfold clusterReset
  split <;> simp

/-! ### Reliability -/

@[simp] theorem leaveSchedule_ledger (u : Nat) (d : Dev) : ledger (leaveSchedule u d) = ledger d := by
  unfold leaveSchedule
  split <;> simp

@[simp] theorem testPeriod_ledger (d : Dev) : ledger (testPeriod d) = ledger d := by
  simp only [testPeriod, apply_ite ledger]
  repeat' split
  all_goals simp

@[simp] theorem abortWindow_ledger (u : Nat) (d : Dev) : ledger (abortWindow u d) = ledger d := by
  unfold abortWindow
  split <;> simp

@[simp] theorem bankPeriod_ledger (d : Dev) : ledger (bankPeriod d) = ledger d := by
  fun_cases bankPeriod d <;> simp

@[simp] theorem bankSlice_ledger (bad : List Nat) (corrected : Nat) (d : Dev) :
    ledger (bankSlice bad corrected d) = ledger d := by
  unfold bankSlice
  split <;> simp [apply_ite ledger]

@[simp] theorem takeReadings_ledger (l : List Nat) (d : Dev) :
    ledger (takeReadings l d) = ledger d := by simp [takeReadings]

/-! ### Window -/

@[simp] theorem noteWindow_ledger (off : Nat) (d : Dev) : ledger (noteWindow off d) = ledger d := by
  unfold noteWindow
  split <;> simp

@[simp] theorem writeResetReq_ledger (v : Word) (d : Dev) : ledger (writeResetReq v d) = ledger d := by
  simp only [writeResetReq, apply_ite ledger]
  repeat' split
  all_goals simp

/-! ### Operands -/

@[simp] theorem respond_ledger (status seq op : Nat) (payload : Bytes) (g : Option Guard) (d : Dev) :
    ledger (respond status seq op payload g d) = ledger d := by simp [respond]

@[simp] theorem settleReply_ledger (op : Nat) (f : Frame) (g : Option Guard) (r : Reply) (d : Dev) :
    ledger (settleReply op f g r d) = ledger d := by
  unfold settleReply
  split <;> simp

@[simp] theorem finishCur_ledger (status : Nat) (payload : Bytes) (d : Dev) :
    ledger (finishCur status payload d) = ledger d := by
  unfold finishCur
  split <;> simp

@[simp] theorem endSession_ledger (n : Nat) (d : Dev) : ledger (endSession n d) = ledger d := by
  unfold endSession
  extract_lets os d1 d2 d3
  have h1 : ledger d1 = ledger d := (endReqs_ledger ..).trans (foldl_ledger _ (fun e o => by split <;> simp) _ d)
  have h2 : ledger d2 = ledger d1 := foldl_ledger _ (fun e t => shedWaiting_ledger t (ofSession n) e) _ d1
  have h3 : ledger d3 = ledger d2 := foldl_ledger _ (fun e q => queueEdit_ledger q .release e) _ d2
  rw [closeSession_ledger, h3, h2, h1]

@[simp] theorem authFailed_ledger (part : Option Nat) (detail : Nat × Nat) (d : Dev) :
    ledger (authFailed part detail d) = ledger d := by simp [authFailed]

@[simp] theorem frameRefused_ledger (n : Nat) (d : Dev) :
    ledger (frameRefused n d) = ledger d := by simp [frameRefused, apply_ite ledger]

@[simp] theorem wakeSupervisor_ledger (op : Nat) (p : Bytes) (d : Dev) : ledger (wakeSupervisor op p d) = ledger d := by
  unfold wakeSupervisor
  split <;> simp

/-! ### Kennel -/

@[simp] theorem answerTimeout_ledger (d : Dev) : ledger (answerTimeout d) = ledger d := by
  unfold answerTimeout
  split <;> simp [apply_ite ledger]

@[simp] theorem forwardOne_ledger (k : Kennel) (d : Dev) (n : Nat) : ledger (forwardOne k d n) = ledger d := by
  unfold forwardOne
  split <;> simp

@[simp] theorem forward_ledger (k : Kennel) (d : Dev) : ledger (forward k d) = ledger d := by
  simp only [forward, apply_ite ledger]
  repeat' split
  all_goals simp

/-! ### HostCmd -/

@[simp] theorem prerollReady_ledger (d : Dev) : ledger (prerollReady d) = ledger d := by
  fun_cases prerollReady d <;> simp

@[simp] theorem dumpRange_ledger (n n' n'' : Nat) (d : Dev) : ledger (dumpRange n n' n'' d) = ledger d := by
  fun_induction dumpRange n n' n'' d <;> simp_all

@[simp] theorem receiveFrame_ledger (d : Dev) : ledger (receiveFrame d) = ledger d := by simp [receiveFrame]

@[simp] theorem readResponse_ledger (cnt : Nat) (d : Dev) : ledger (readResponse cnt d) = ledger d := by
  fun_cases readResponse cnt d <;> simp

@[simp] theorem reportReady_ledger (d : Dev) : ledger (reportReady d) = ledger d := by
  unfold reportReady
  split <;> simp [apply_ite ledger]

/-! ### Output -/

@[simp] theorem ccc_ledger (f : HostPort → HostPort) (d : Dev) : ledger (ccc f d) = ledger d := by
  unfold ccc
  split <;> simp

@[simp] theorem directCcc_ledger (f : HostPort → HostPort) (d : Dev) :
    ledger (directCcc f d) = ledger d := by simp [directCcc]

@[simp] theorem directRead_ledger (b : Bytes) (d : Dev) : ledger (directRead b d) = ledger d := by simp [directRead]

@[simp] theorem entdaa_ledger (a : Nat) (d : Dev) : ledger (entdaa a d) = ledger d := by simp [entdaa]

@[simp] theorem setdasa_ledger (st a : Nat) (d : Dev) : ledger (setdasa st a d) = ledger d := by simp [setdasa]

@[simp] theorem hotJoin_ledger (d : Dev) : ledger (hotJoin d) = ledger d := by simp [hotJoin]

@[simp] theorem sendIbi_ledger (acked : Bool) (d : Dev) : ledger (sendIbi acked d) = ledger d := by simp [sendIbi]

@[simp] theorem leave_ledger (p i : Nat) (r : TxRec) (d : Dev) : ledger (leave p i r d) = ledger d := by
  unfold leave
  split <;> simp

@[simp] theorem sendRecord_ledger (p held : Nat) (d : Dev) : ledger (sendRecord p held d) = ledger d := by
  simp only [sendRecord, apply_ite ledger]
  repeat' split
  all_goals simp

end Sys2Proof.Machine
end

section
/-! PROOFS. The ledger of the wake arbiter under boot, resets and what follows from a command: it stays, or every tier starts at nothing (R81). -/

namespace Sys2Proof.Machine

/-! ### Boot and the flash -/

@[simp] theorem modBoot_ledger (f : Boot → Boot) (d : Dev) : ledger (modBoot f d) = ledger d := by simp [modBoot]

@[simp] theorem modFlash_ledger (f : Flash → Flash) (d : Dev) : ledger (modFlash f d) = ledger d := by simp [modFlash]

@[simp] theorem setPhase_ledger (p : Nat) (d : Dev) : ledger (setPhase p d) = ledger d := by simp [setPhase, apply_ite ledger]

/-- A write of the flash leaves the tiers. -/
theorem Writes.ledger {d e : Dev} (h : Writes d e) : ledger e = ledger d := by
  obtain ⟨_, _, _, _, _, _, rfl⟩ := h
  rfl

@[simp] theorem deviceSnapshot_ledger (d : Dev) : ledger (deviceSnapshot d) = ledger d := (deviceSnapshot_writes d).ledger

@[simp] theorem planWrite_ledger (b : Bytes) (d : Dev) : ledger (planWrite b d) = ledger d := (planWrite_writes b d).ledger

@[simp] theorem writePlan_ledger (d : Dev) : ledger (writePlan d) = ledger d := (writePlan_writes d).ledger

@[simp] theorem sendRead_ledger (d : Dev) : ledger (sendRead d) = ledger d := (sendRead_writes d).ledger

/-! ### Resets that leave the always-on domain -/

/-- The domains that drop take the credits with them; what waits keeps waiting. -/
@[simp] theorem dropDomains_ledger (d : Dev) : ledger (dropDomains d) = ledger d := by
  have h (e : Dev) : ledger { e with tiers := tabMap e.tiers (fun _ t =>
      { t with held := {}, sharedHeld := 0, returned := [], idle := false }) } = ledger e := by
    funext n
    unfold ledger getTier
    rw [tabGet_tabMap _ _ _ _ rfl, unaccounted_update]
  unfold dropDomains
  extract_lets e
  have he : ledger e = ledger d := by simp [e, apply_ite ledger]
  exact (h e).trans he

@[simp] theorem beginBoot_ledger (d : Dev) : ledger (beginBoot d) = ledger d := by simp [beginBoot]

@[simp] theorem haltDevice_ledger (d : Dev) : ledger (haltDevice d) = ledger d := by simp [haltDevice]

@[simp] theorem deviceReset_ledger (kind : Nat) (hot : Bool) (d : Dev) : ledger (deviceReset kind hot d) = ledger d := by
  simp [deviceReset, apply_ite ledger]

@[simp] theorem bootEnds_ledger (sup : Bool) (d : Dev) : ledger (bootEnds sup d) = ledger d := by
  simp [bootEnds, apply_ite ledger]

@[simp] theorem bootFail_ledger (c k e sg : Nat) (d : Dev) : ledger (bootFail c k e sg d) = ledger d := by simp [bootFail]

@[simp] theorem deviceError_ledger (hot sup : Bool) (d : Dev) : ledger (deviceError hot sup d) = ledger d := by
  simp [deviceError, apply_ite ledger]

@[simp] theorem violate_ledger (pool kind part inst : Nat) (inj : Bool) (d : Dev) :
    ledger (violate pool kind part inst inj d) = ledger d := by simp [violate, apply_ite ledger]

@[simp] theorem tripCheck_ledger (d : Dev) : ledger (tripCheck d) = ledger d := by
  unfold tripCheck
  split <;> simp

@[simp] theorem shutdown_ledger (inj : Bool) (d : Dev) : ledger (shutdown inj d) = ledger d := by
  simp [shutdown, apply_ite ledger]

@[simp] theorem thermalShutdown_ledger (mx : Int) (d : Dev) : ledger (thermalShutdown mx d) = ledger d := by
  simp [thermalShutdown, apply_ite ledger]

@[simp] theorem cooldownBoot_ledger (mx : Int) (d : Dev) : ledger (cooldownBoot mx d) = ledger d := by
  simp [cooldownBoot, apply_ite ledger]

@[simp] theorem pllLost_ledger (k : Nat) (d : Dev) : ledger (pllLost k d) = ledger d := by simp [pllLost, apply_ite ledger]

@[simp] theorem injectTemp_ledger (mx : Int) (d : Dev) : ledger (injectTemp mx d) = ledger d := by
  unfold injectTemp
  dsimp only
  split <;> simp [apply_ite ledger]

@[simp] theorem governorPeriod_ledger (mx : Int) (mw : Nat) (base compute : Int) (d : Dev) :
    ledger (governorPeriod mx mw base compute d) = ledger d := by
  simp [governorPeriod, apply_ite ledger]

/-! ### Tests and the margin plan -/

@[simp] theorem retireCore_ledger (u : Nat) (d : Dev) : ledger (retireCore u d) = ledger d := by
  simp [retireCore, apply_ite ledger]

@[simp] theorem testDone_ledger (pass : Bool) (d : Dev) : ledger (testDone pass d) = ledger d := by
  unfold testDone
  split <;> simp [apply_ite ledger]

@[simp] theorem replan_ledger (first inj : Bool) (d : Dev) : ledger (replan first inj d) = ledger d := by
  simp [replan, apply_ite ledger]

@[simp] theorem measure_ledger (deployed : Bool) (l : List Nat) (d : Dev) : ledger (measure deployed l d) = ledger d := by
  unfold measure
  split
  · dsimp only
    split <;> simp [apply_ite ledger]
  · rfl

/-! ### The reads of a boot -/

@[simp] theorem sfdpRead_ledger (n : Option Nat) (l : List (Nat × Nat)) (d : Dev) : ledger (sfdpRead n l d) = ledger d := by
  unfold sfdpRead
  split
  · split <;> simp [apply_ite ledger]
  · rfl

@[simp] theorem headerRead_ledger (a b : Bytes) (d : Dev) : ledger (headerRead a b d) = ledger d := by
  simp [headerRead, apply_ite ledger]

@[simp] theorem manifestRead_ledger (o : Option Bytes) (n : Nat) (b : Bytes) (d : Dev) :
    ledger (manifestRead o n b d) = ledger d := by simp [manifestRead, apply_ite ledger]

@[simp] theorem recordsEnd_ledger (d : Dev) : ledger (recordsEnd d) = ledger d := by simp [recordsEnd, apply_ite ledger]

@[simp] theorem recordRead_ledger (life : Nat) (b : Bytes) (d : Dev) : ledger (recordRead life b d) = ledger d := by
  unfold recordRead
  split
  · dsimp only
    split <;> simp [apply_ite ledger]
  · rfl

@[simp] theorem trainingDone_ledger (p : Bool) (n : Nat) (l : List (List Bool)) (d : Dev) :
    ledger (trainingDone p n l d) = ledger d := by simp [trainingDone, apply_ite ledger]

/-! ### Loading -/

@[simp] theorem withdraw_ledger (k sg : Nat) (d : Dev) : ledger (withdraw k sg d) = ledger d := by simp [withdraw]

@[simp] theorem placeBlob_ledger (k : Nat) (d : Dev) : ledger (placeBlob k d) = ledger d := by
  simp [placeBlob, apply_ite ledger]

@[simp] theorem marginHalt_ledger (d : Dev) : ledger (marginHalt d) = ledger d := by simp [marginHalt]

@[simp] theorem reachRunning_ledger (d : Dev) : ledger (reachRunning d) = ledger d := by simp [reachRunning]

@[simp] theorem advanceLoad_ledger (d : Dev) : ledger (advanceLoad d) = ledger d := by
  simp [advanceLoad, apply_ite ledger]

@[simp] theorem mediumRead_ledger (e : BlobEntry) (seg : Option Nat) (n : Nat) (first : List (List Nat)) (again : List (List (List Nat)))
    (d : Dev) : ledger (mediumRead e seg n first again d) = ledger d := by
  simp [mediumRead, countCorrected, apply_ite ledger]

@[simp] theorem blobRead_ledger (k : Nat) (seg : Option Nat) (b : Bytes) (first : List (List Nat)) (again : List (List (List Nat)))
    (d : Dev) : ledger (blobRead k seg b first again d) = ledger d := by
  unfold blobRead
  extract_lets e x next d1 put
  have h1 : ledger d1 = ledger d := mediumRead_ledger ..
  have hput (y : BlobState) : ledger (put y d1) = ledger d := by simp [put, h1]
  split
  · split
    · simp [h1]
    · split
      · simp [apply_ite ledger, hput, h1]
      · rename_i n y d2 _ _ _ tab _
        have h2 : ledger d2 = ledger d := hput y
        simp [apply_ite ledger, h2, h1]
  · rfl

@[simp] theorem accept_ledger (o : Otp) (ks : List Bytes) (l : List Nat) (t : List (Fin 2 × Nat)) (d : Dev) :
    ledger (accept o ks l t d) = ledger d := by simp [accept]

@[simp] theorem acceptance_ledger (o : Otp) (kb : Bytes) (l : List Nat) (t : List (Fin 2 × Nat)) (d : Dev) :
    ledger (acceptance o kb l t d) = ledger d := by
  unfold acceptance
  split
  · split
    · simp [apply_ite ledger]
    · split
      · simp
      · split <;> simp
  · rfl

/-! ### Resets of every domain -/

/-- A reset of every domain but the Kennel starts the arbiter with nothing that arrived. -/
@[simp] theorem fullReset_ledger (d : Dev) : ledger (fullReset d) = 0 :=
  funext fun _ => show unaccounted {} = 0 by decide

/-- From d to e the ledger stays, or starts at nothing. -/
def Balances (d e : Dev) : Prop := ledger e = ledger d ∨ ledger e = 0

theorem heldReset_balances (c : Nat) (d : Dev) : Balances d (heldReset c d) := .inr (by simp [heldReset])

theorem brownOut_balances (d : Dev) : Balances d (brownOut d) := by
  unfold brownOut
  dsimp only
  split
  · exact heldReset_balances 1 d
  · exact .inr (by simp [heldReset])

theorem porstLow_balances (n : Nat) (d : Dev) : Balances d (porstLow n d) := by
  unfold porstLow
  split
  · exact heldReset_balances 2 d
  · exact .inl rfl

theorem porstHigh_balances (n : Nat) (l : Option (List Bytes)) (d : Dev) : Balances d (porstHigh n l d) :=
  .inl (by simp [porstHigh, apply_ite ledger])

theorem watchdog_balances (d : Dev) : Balances d (watchdog d) := by
  unfold watchdog
  split
  · exact .inr (by simp [watchdogReset])
  · exact .inl rfl

end Sys2Proof.Machine
end

section
/-! PROOFS. The ledger of the wake arbiter under the commands of the host and the Kennel (R81). -/

namespace Sys2Proof.Machine

/-! ### What follows from a command -/

@[simp] theorem romStep_ledger (s : State) : ledger (romStep s).dev = ledger s.dev := by
  simp [romStep, drawBytes_dev, apply_ite ledger]

@[simp] theorem romDone_ledger (s : State) : ledger (romDone s).dev = ledger s.dev := by
  unfold romDone
  split <;> simp

@[simp] theorem settle_ledger (s : State) : ledger (settle s).dev = ledger s.dev := by simp [settle]

/-! ### The status window -/

@[simp] theorem latch_ledger (off : Nat) (s : State) : ledger (latch off s).dev = ledger s.dev := by
  unfold latch
  dsimp only
  split <;> simp

@[simp] theorem readWords_ledger (l : List Nat) (s : State) : ledger (readWords l s).2.dev = ledger s.dev := by
  fun_induction readWords l s with
  | case1 s => rfl
  | case2 o rest s s1 r ih => simp [r, ih, s1]

@[simp] theorem telemetry_ledger (s : State) : ledger (telemetry s).dev = ledger s.dev := by
  unfold telemetry
  dsimp only
  split <;> simp

@[simp] theorem writeInjCtrl_ledger (v : Word) (s : State) : ledger (writeInjCtrl v s).dev = ledger s.dev := by
  unfold writeInjCtrl
  dsimp only
  repeat' split
  all_goals simp

/-- A write of a register of the window clears no count of R81. -/
theorem writeReg_ledger (off : Nat) (v : Word) (s t : State) (h : writeReg off v s = some t) : ledger t.dev = ledger s.dev := by
  have dev (f : Dev → Dev) (h : some { s with dev := f s.dev } = some t) (hf : ledger (f s.dev) = ledger s.dev) :
      ledger t.dev = ledger s.dev := Option.some.inj h ▸ hf
  have cluster (f : Dev → Dev) (h : (if regPowered s.dev off then some { s with dev := f s.dev } else some s) = some t)
      (hf : ledger (f s.dev) = ledger s.dev) : ledger t.dev = ledger s.dev := by
    split at h
    · exact dev f h hf
    · rw [Option.some.inj h]
  unfold writeReg at h
  dsimp only at h
  split at h
  · split at h
    · exact dev _ h (by simp)
    · cases h
  · split at h
    · exact cluster _ h (by simp)
    · exact cluster _ h (by simp)
    · split at h
      · cases h
      · exact cluster _ h (by simp)
    · split at h
      · exact cluster _ h (by simp)
      · rw [Option.some.inj h]
    · cases h
  · obtain ⟨g, -, h⟩ := Option.bind_eq_some_iff.mp h
    exact cluster _ h (by simp)
  · split at h
    · exact dev _ h (by simp)
    · cases h
  · split at h
    · exact dev _ h (by simp)
    · split at h
      · exact dev (fun d => { d with kv := { d.kv with editWait := w1c d.kv.editWait v } }) h (by simp)
      · split at h
        · exact dev _ h (by simp [apply_ite ledger])
        · split at h
          · exact dev _ h (by simp)
          · split at h
            · exact dev _ h (by simp)
            · obtain ⟨g, -, h⟩ := Option.bind_eq_some_iff.mp h
              exact dev _ h (by simp)
  · split at h
    · exact dev _ h (by simp)
    · split at h
      · exact dev _ h (by simp)
      · cases h
  · split at h
    · exact dev _ h (by simp)
    · split at h
      · exact dev _ h (by simp)
      · cases h
  · split at h
    · exact dev _ h (by simp)
    · split at h
      · exact dev _ h (by simp)
      · split at h
        · exact Option.some.inj h ▸ writeInjCtrl_ledger v s
        · cases h
  · cases h

/-! ### The handlers of a frame -/

/-- The ledger that a handler leaves. -/
def ledgerLeft (x : State × Reply) : Nat → Word := ledger x.1.dev

@[simp] theorem ledgerLeft_mk (s : State) (r : Reply) : ledgerLeft (s, r) = ledger s.dev := congrArg ledger rfl

@[simp] theorem ledgerLeft_say (r : Reply) (s : State) : ledgerLeft (say r s) = ledger s.dev := ledgerLeft_mk s r

@[simp] theorem ledgerLeft_sayDev (r : Reply) (d : Dev) (s : State) : ledgerLeft (sayDev r d s) = ledger d := ledgerLeft_mk _ r

theorem ledgerLeft_handleRead (n : Sess) (p : Bytes) (s : State) : ledgerLeft (handleRead n p s) = ledger s.dev := by
  simp [handleRead, apply_ite ledgerLeft]

theorem ledgerLeft_handleWrite (n : Sess) (p : Bytes) (s : State) : ledgerLeft (handleWrite n p s) = ledger s.dev := by
  simp only [handleWrite, apply_ite ledgerLeft, ledgerLeft_say, ite_eq_left_iff]
  intro _ _
  split
  next t h => exact writeReg_ledger _ _ s t h
  · rfl

@[simp] theorem report_ledger (session : Bool) (nonce key : Bytes) (s : State) :
    ledger (report session nonce key s).2 = ledger s.dev := by
  rw [report_dev, reportBody_dev, kennelPart]
  split <;> simp

theorem ledgerLeft_handleAttest (p : Bytes) (s : State) : ledgerLeft (handleAttest p s) = ledger s.dev := by
  simp [handleAttest, apply_ite ledgerLeft]

theorem ledgerLeft_handleOpen (p : Bytes) (s : State) : ledgerLeft (handleOpen p s) = ledger s.dev := by
  have opens (n : Nat) : ledgerLeft (openSession n p s) = ledger s.dev := by simp [openSession]
  unfold handleOpen
  dsimp only
  split
  · simp
  · split
    · simp
    · split
      · simp
      · split <;> simp [opens]

theorem ledgerLeft_handleClose (n : Sess) (p : Bytes) (s : State) : ledgerLeft (handleClose n p s) = ledger s.dev := by
  unfold handleClose
  split <;> simp [apply_ite ledgerLeft]

theorem ledgerLeft_handleEvent (p : Bytes) (s : State) : ledgerLeft (handleEvent p s) = ledger s.dev := by
  have hw : ledgerLeft (injectWake p s) = ledger s.dev := by
    unfold injectWake
    dsimp only
    split
    · simp
    · split <;> simp [apply_ite ledgerLeft]
  have hm : ledgerLeft (injectMark p s) = ledger s.dev := by
    unfold injectMark
    split <;> simp [apply_ite ledgerLeft]
  simp [handleEvent, apply_ite ledgerLeft, hw, hm]

theorem ledgerLeft_handlePrompt (n : Sess) (p : Bytes) (s : State) : ledgerLeft (handlePrompt n p s) = ledger s.dev := by
  have h (k : Nat) : ledgerLeft (submit k p s) = ledger s.dev := by
    unfold submit
    dsimp only
    split
    · split <;> simp [apply_ite ledgerLeft]
    · simp
  unfold handlePrompt
  split <;> simp [apply_ite ledgerLeft, h]

theorem ledgerLeft_handlePreroll (n : Sess) (p : Bytes) (s : State) : ledgerLeft (handlePreroll n p s) = ledger s.dev := by
  unfold handlePreroll
  dsimp only
  split
  · simp
  · split
    · simp
    · split
      · simp
      · split
        · simp
        · split
          · split <;> simp
          · simp

theorem ledgerLeft_handleKennel (n : Sess) (p : Bytes) (s : State) : ledgerLeft (handleKennel n p s) = ledger s.dev := by
  simp [handleKennel, apply_ite ledgerLeft]

theorem ledgerLeft_handleMaintenance (n : Sess) (p : Bytes) (s : State) : ledgerLeft (handleMaintenance n p s) = ledger s.dev := by
  have hs : ledger (ownerSnapshot s.dev) = ledger s.dev := (ownerSnapshot_writes s.dev).ledger
  have ht (q : Bytes) : ledgerLeft (requestTransition q s) = ledger s.dev := by simp [requestTransition, apply_ite ledgerLeft]
  have hd (q : Bytes) : ledgerLeft (dumpTensor q s) = ledger s.dev := by
    unfold dumpTensor
    dsimp only
    split
    · simp
    · split <;> simp [apply_ite ledgerLeft]
  unfold handleMaintenance
  split
  · simp
  · split
    · simp
    · split <;> simp [apply_ite ledgerLeft, hs, ht, hd]

theorem ledgerLeft_handle (op : Nat) (n : Sess) (p : Bytes) (s : State) : ledgerLeft (handle op n p s) = ledger s.dev := by
  unfold handle
  split
  · exact ledgerLeft_handleRead n p s
  · exact ledgerLeft_handleWrite n p s
  · exact ledgerLeft_handleAttest p s
  · exact ledgerLeft_handleOpen p s
  · exact ledgerLeft_handleClose n p s
  · exact ledgerLeft_handleEvent p s
  · exact ledgerLeft_handlePrompt n p s
  · exact ledgerLeft_handlePreroll n p s
  · exact ledgerLeft_handleKennel n p s
  · exact ledgerLeft_handleMaintenance n p s
  · rfl

@[simp] theorem serve_ledger (op : Nat) (f : Frame) (g : Option Guard) (p : Bytes) (s : State) :
    ledger (serve op f g p s).dev = ledger s.dev := by
  unfold serve
  extract_lets r
  have h : ledger r.1.dev = ledger s.dev := (ledgerLeft_handle ..).trans (wakeSupervisor_ledger ..)
  simp [h]

@[simp] theorem serveProtected_ledger (op : Nat) (f : Frame) (s : State) : ledger (serveProtected op f s).dev = ledger s.dev := by
  unfold serveProtected
  dsimp only
  split
  · simp
  · split <;> simp

@[simp] theorem hostFrame_ledger (op : Nat) (f : Frame) (s : State) : ledger (hostFrame op f s).dev = ledger s.dev := by
  unfold hostFrame
  dsimp only
  repeat' split
  all_goals simp

/-! ### The Kennel, the lifecycle -/

@[simp] theorem deliver_ledger (a : Bytes) (s : State) : ledger (deliver a s).dev = ledger s.dev := by
  unfold deliver
  split
  · split <;> simp
  · rfl

@[simp] theorem stableReached_ledger (s : State) : ledger (stableReached s).dev = ledger s.dev := by
  unfold stableReached
  split <;> simp

@[simp] theorem stableTimeout_ledger (s : State) : ledger (stableTimeout s).dev = ledger s.dev := by
  unfold stableTimeout
  split <;> simp

@[simp] theorem discardAnswer_ledger (s : State) : ledger (discardAnswer s).dev = ledger s.dev := by simp [discardAnswer]

@[simp] theorem programDone_ledger (s : State) : ledger (programDone s).dev = ledger s.dev := by
  unfold programDone
  split
  · split <;> simp
  · rfl

@[simp] theorem blankToTest_ledger (k c p : Bytes) (s : State) : ledger (blankToTest k c p s).dev = ledger s.dev := by
  unfold blankToTest
  split <;> simp

end Sys2Proof.Machine
end

section
/-! PROOFS. The identity of R81 over every command. Settles O6. -/

namespace Sys2Proof.Machine

/-! ### Every command -/

/-- Whatever next state a command answers balances with the state before it. -/
def Accounts (s : State) (r : Result) : Prop := ∀ t, r = .next t → Balances s.dev t.dev

theorem accounts_next {s t : State} (h : ledger t.dev = ledger s.dev) : Accounts s (.next t) := by
  rintro u ⟨⟩
  exact .inl h

theorem wholeStep_accounts {f : State → State} {s : State} (h : ledger (f s).dev = ledger s.dev) : Accounts s (wholeStep f s) :=
  accounts_next ((settle_ledger _).trans h)

theorem devStep_accounts {f : Dev → Dev} {s : State} (h : ledger (f s.dev) = ledger s.dev) : Accounts s (devStep f s) :=
  accounts_next ((settle_ledger _).trans h)

/-- A meaning of the device that may reset the arbiter. -/
theorem devStep_balances {f : Dev → Dev} {s : State} (h : Balances s.dev (f s.dev)) : Accounts s (devStep f s) := by
  rintro t ⟨⟩
  rwa [Balances, settle_ledger]

theorem unlessWf_accounts {i : Instr} {s : State} {k : Result} (h : Accounts s k) : Accounts s (unlessWf i s k) := by
  unfold unlessWf
  split
  · exact h
  · exact accounts_next rfl

theorem latchRead_accounts (off : Nat) (s : State) : Accounts s (latchRead off s) :=
  wholeStep_accounts (by split <;> simp)

theorem bootStep_accounts {f : Dev → Dev} {s : State} (h : ledger (f s.dev) = ledger s.dev) : Accounts s (bootStep f s) :=
  wholeStep_accounts (by unfold raiseFloor; dsimp only; split <;> exact h)

/-- A command that a frame of the host carries. -/
theorem hostStep_accounts (i : Instr) (op : Nat) (f : Frame) (s : State) : Accounts s (unlessWf i s (wholeStep (hostFrame op f) s)) :=
  unlessWf_accounts (wholeStep_accounts (hostFrame_ledger op f s))

theorem exec_accounts (i : Instr) (s : State) : Accounts s (exec i s) := by
  cases i with
  | powerOn => exact devStep_balances (heldReset_balances ..)
  | brownOut _ micros =>
    refine devStep_balances ?_
    split
    · exact brownOut_balances _
    · exact .inl rfl
  | porstAssert => exact devStep_balances (porstLow_balances ..)
  | porstRelease => exact devStep_balances (porstHigh_balances ..)
  | watchdogExpiry => exact devStep_balances (watchdog_balances ..)
  | imageAcceptance => exact unlessWf_accounts <| bootStep_accounts (acceptance_ledger ..)
  | blobSegmentReadDone => exact bootStep_accounts (blobRead_ledger ..)
  | arriveCounterRead | snfIndexRead | csiFrameRead | tilesCounterRead | sweepsCounterRead | chunkCounterRead | attCounterRead
  | movCounterRead | windowCounterRead | ddrCounterRead | schedCounterRead | i3tCounterRead | kenCounterRead | pwrCounterRead
  | stemCounterRead => exact latchRead_accounts _ s
  | watchedCountClear | prtResetReq | statusRead | windowWrite | badOpcode | attest | sessionOpen | sessionClose | eventInjectWake
  | eventInjectMark | promptSubmit | prerollRead | errlogSnapshot | selfTestRequest | lifecycleTransition | tensorDump | kennelZero
  | kennelTareTake | kennelTareClear | kennelReadLatest | kennelReadStable | kennelStatusBlock | kennelCertificate
  | kennelBadRequest | injArm | injDisarm | errEntryClear | errFirstClear => exact hostStep_accounts _ _ _ s
  | kennelReset | kennelPowerupRecord | sealOpen | sealClose | calibrationCommit | calibrationParameterWrite =>
    exact accounts_next rfl
  | kennelReading => exact unlessWf_accounts <| accounts_next rfl
  | lifecycleProgramDone => exact wholeStep_accounts (programDone_ledger s)
  | telemetryPeriod => exact wholeStep_accounts (telemetry_ledger s)
  | kennelStableReached => exact wholeStep_accounts (stableReached_ledger s)
  | kennelStableTimeout => exact wholeStep_accounts (stableTimeout_ledger s)
  | kennelLateAnswer => exact wholeStep_accounts (discardAnswer_ledger s)
  | blankToTestTransition => exact accounts_next (blankToTest_ledger ..)
  | errlogSpacingExpiry => exact devStep_accounts (spacingEnds_writes _).ledger
  | flashWriteDone => exact devStep_accounts (writeEnds_writes ..).ledger
  | manifestReadDone | recordReadDone | arbiterCycle | audioSample | pdmLineStuck
  | tdmLock | csi2LongPacket | csi2FrameEnd | pipe0LineDone | requestBind | descriptorInstantiate
  | descriptorReady | tileDispatch | affinityWaitExpiry | tileAdvanceEnd | tileCommitEnd | scaleTagMismatch | hardStop
  | hardStopRelease | batchWaitExpiry | sweepStart | clusterMergeDone | deviceMergeDone | stateSwapInDone | stateSwapOutDone
  | stateIdleExpiry | pageWalkStart | pageWalkEnd | allocate | fill | truncate | release | editApply | windowLoadStart
  | windowLayerPresent | windowLayerLate | windowLayerFailed | remoteBarrierSignal | scrubPeriod | budgetWindowStart
  | quotaReached | coreLeaveSchedule | stepStart | partitionResetCommand | partitionResetComplete | checkerParityFail
  | backstopExpiry | enec | disec | rstdaa | entdaa | setdasa | getbcr | getdcr | getmxds | getstatus | rstact
  | unsupportedCcc | hotJoinTimer | ibiSend | ibiSpacingExpiry | responseRead | prerollResponseReady | recordSend
  | kennelAnswerTimeout | mailboxHeadAdvance | crystalStop | crystalRestart | pllLockLost | bootPointStepUp
  | governorStepDown | governorStepUp | operatingPointChangeDone | holdLevelExpiry | thermalCapStep | thermalCapRecover
  | thermalShutdown | cooldownBootStart | selfTestPeriod | selfTestDone | abortWindowExpiry | bankTestPeriod | bankSliceDone
  | commandResponseReady =>
    exact devStep_accounts (by simp [apply_ite ledger])
  | dramTrainingDone | wakeArrival | tdmFrameSync | sensorIbi | perkStep | csi2FrameStart | sensorHotJoin | tileFault
  | queryJoin | resetMark | pageTableDirectWrite | transferGranuleDone | accessViolation | governorPeriod | clusterReset
  | ageingMeasure =>
    exact unlessWf_accounts <| devStep_accounts (by simp [apply_ite ledger])
  | idleHoldExpiry | pdmLineRecover | tdmLost | settingsTransferDone | getpid =>
    simp only [exec, execIdleHoldExpiry, execPdmLineRecover, execTdmLost, execSettingsTransferDone, execGetpid]
    exact devStep_accounts (by simp [apply_ite ledger])
  | wakeInputEdge | perkSramUncorrectable | streamIdle | pipe1FrameStart | pipe1FrameDone =>
    simp only [exec, execWakeInputEdge, execPerkSramUncorrectable, execStreamIdle, execPipe1FrameStart, execPipe1FrameDone]
    exact devStep_accounts (by split <;> simp [apply_ite ledger])
  | sfdpReadDone => exact devStep_accounts (sfdpRead_ledger ..)
  | headerReadDone => exact unlessWf_accounts <| devStep_accounts (headerRead_ledger ..)
  | thumbnailReceived | settingsBlockPost =>
    exact unlessWf_accounts <| devStep_accounts (by dsimp only; split <;> simp [apply_ite ledger])

/-- Every step balances. -/
theorem step_balances {s t : State} (h : step s = .next t) : Balances s.dev t.dev := by
  unfold step at h
  split at h
  · cases h
    exact .inl rfl
  · have hb := exec_accounts _ _ t h
    exact hb

/-! ### The settlement of R81 -/

/-- A tier with nothing unaccounted satisfies the identity of R81. -/
theorem unaccounted_eq_zero_iff (x : Tier) : unaccounted x = 0 ↔
    x.arrive = x.admits + x.coalesce + x.shed +
      BitVec.ofNat 32 ((List.range 4).map (fun p => (tabGet x.queues p []).length)).sum + BitVec.ofNat 32 x.pending.length := by
  rw [unaccounted, waitingOf_length, w32_add, sub_eq_zero, ← add_assoc]
  rfl

/-- Settles O6: no step changes what the arrivals of a tier exceed its other counts by, but for a reset of every domain, which leaves
nothing. -/
theorem arrivalsAreAccountedFor : Obligations.ArrivalsAreAccountedFor := by
  unfold Obligations.ArrivalsAreAccountedFor
  simp only [← unaccounted_eq_zero_iff]
  refine ⟨fun n _ _ => show unaccounted {} = 0 by decide, fun s t hs ht n h1 h3 => ?_⟩
  rcases step_balances ht with h | h
  · exact (congrFun h n).trans (hs n h1 h3)
  · exact congrFun h n

end Sys2Proof.Machine
end

section
/-! PROOFS. The registers of the status window at the offsets that the latch registers name. -/

namespace Sys2Proof.Machine

/-! ### Arrays of register groups -/

/-- Word r of entry i lies where the stride puts it. -/
theorem grp_at {base stride count words o : Nat} (i r : Nat) (h : o = base + stride * i + 4 * r) (hi : i < count) (hr : r < words)
    (hw : 4 * words ≤ stride) (h4 : stride % 4 = 0) : grp base stride count words o = some (i, r) := by
  have hs : stride * i + stride ≤ stride * count := by
    rw [← Nat.mul_succ]
    exact Nat.mul_le_mul_left _ hi
  have he : o - base = stride * i + 4 * r := by omega
  have hd : (stride * i + 4 * r) / stride = i := by
    rw [Nat.mul_add_div (by omega), Nat.div_eq_of_lt (by omega), Nat.add_zero]
  have hm : (stride * i + 4 * r) % stride = 4 * r := by
    rw [Nat.mul_add_mod, Nat.mod_eq_of_lt (by omega)]
  have h0 : (stride * i + 4 * r) % 4 = 0 := by
    rw [Nat.add_mod, Nat.mul_mod, h4]
    simp
  unfold grp
  rw [he, hd, hm, h0, Nat.mul_div_cancel_left r (by decide), if_pos (by omega)]

/-- Outside an array lies none of its words. -/
theorem grp_outside {base stride count words o : Nat} (h : o < base ∨ base + stride * count ≤ o) : grp base stride count words o = none := by
  unfold grp
  rw [if_neg (by omega)]

/-- Past the words of an entry lies none. -/
theorem grp_gap {base stride count words o : Nat} (i r : Nat) (h : o = base + stride * i + 4 * r) (hr : words ≤ r)
    (hs : 4 * r < stride) : grp base stride count words o = none := by
  have hm : (stride * i + 4 * r) % stride = 4 * r := by rw [Nat.mul_add_mod, Nat.mod_eq_of_lt hs]
  have he : o - base = stride * i + 4 * r := by omega
  unfold grp
  rw [he, hm, Nat.mul_div_cancel_left r (by decide), if_neg (by omega)]

theorem arr_at {base stride count words o : Nat} (i r : Nat) (f : Nat → List Word) (h : o = base + stride * i + 4 * r) (hi : i < count)
    (hr : r < words) (hw : 4 * words ≤ stride) (h4 : stride % 4 = 0) : arr base stride count words o f = (f i)[r]? := by
  rw [arr, grp_at i r h hi hr hw h4, Option.bind_some]

theorem arr_outside {base stride count words o : Nat} (f : Nat → List Word) (h : o < base ∨ base + stride * count ≤ o) :
    arr base stride count words o f = none := by
  rw [arr, grp_outside h, Option.bind_none]

theorem arr_gap {base stride count words o : Nat} (i r : Nat) (f : Nat → List Word) (h : o = base + stride * i + 4 * r) (hr : words ≤ r)
    (hs : 4 * r < stride) : arr base stride count words o f = none := by
  rw [arr, grp_gap i r h hr hs, Option.bind_none]

/-! ### The registers of a cluster -/

theorem blockOf_eq {off b : Nat} (h : off / 65536 = b) (hb : b < 18) (h7 : b ≠ 7) : blockOf off = some b := by
  rw [blockOf, h, if_pos ⟨hb, h7⟩]

theorem liveReg_ten (s : State) (k : Nat) {n i : Nat} (hn : n < 4) (hi : i < 0x4000) :
    liveReg s k (0x60000 + n * 0x4000 + i) = tenReg s.dev n i := by
  have hb : blockOf (0x60000 + n * 0x4000 + i) = some 6 := blockOf_eq (by omega) (by decide) (by decide)
  have ho : (0x60000 + n * 0x4000 + i) % 65536 = n * 0x4000 + i := by omega
  have hq : (n * 0x4000 + i) / 0x4000 = n := by omega
  have hr : (n * 0x4000 + i) % 0x4000 = i := by omega
  simp only [liveReg, hb, ho, hq, hr]

/-- The registers of a cluster behind those of the cluster itself and of its stem engine. -/
theorem tenReg_arrays (d : Dev) (n : Nat) {o : Nat} (h : 0x100 ≤ o) (h' : o ≠ 0x3600) : tenReg d n o =
    (orWord (arr 0x100 0x40 6 12 o (fun c => coreWords d (6 * n + c))) <|
    orWord (arr 0x1000 0x100 6 7 o (fun c => quantWords (getUnit d (6 * n + c)))) <|
    orWord ((grp 0x1040 0x100 6 32 o).bind (fun g => (watchWords (getUnit d (6 * n + g.1)) (g.2 / 2))[g.2 % 2]?)) <|
    orWord (arr 0x2000 0x10 6 3 o (fun c => let x := getUnit d (6 * n + c); [x.offered, x.kPoisoned, x.kLists])) <|
    orWord (arr 0x3000 0x20 8 6 o (fun j => if n = 0 then catWords d j else List.replicate 6 0)) <|
    orWord (arr 0x3400 0x20 6 7 o (fun c => let x := getUnit d (6 * n + c)
      [x.passes, x.skipped, x.lbMiss, x.poolTiles, x.zcGranules, x.zcBlocks, x.zcBad])) <|
    orWord (arr 0x3800 0x20 6 6 o (fun c => let x := getUnit d (6 * n + c)
      [x.scTiles, x.scFlags, x.swapIn, x.swapOut, x.scWait, x.scPoisoned])) <|
    orWord (arr 0x3A00 0x10 64 4 o (fun q => if n = 0 then seqWords d q else List.replicate 4 0)) <|
    arr 0x3E00 0x40 1 9 o (fun _ => attWords d n)) := by
  unfold tenReg
  rw [if_neg (by omega), if_neg (by omega), if_neg (by omega), if_neg (by omega), if_neg h']

theorem orWord_none_left (b : Option Word) : orWord none b = b := rfl

theorem orWord_none_right (a : Option Word) : orWord a none = a := by cases a <;> rfl

theorem tenReg_core (d : Dev) (n : Nat) {m r : Nat} (hm : m < 6) (hr : r < 12) :
    tenReg d n (0x100 + 0x40 * m + 4 * r) = (coreWords d (6 * n + m))[r]? := by
  rw [tenReg_arrays d n (by omega) (by omega), arr_at m r _ rfl hm hr (by decide) rfl]
  simp (disch := omega) only [arr_outside, grp_outside, Option.bind_none, orWord_none_right]

theorem tenReg_quant (d : Dev) (n : Nat) {m r : Nat} (hm : m < 6) (hr : r < 7) :
    tenReg d n (0x1000 + 0x100 * m + 4 * r) = (quantWords (getUnit d (6 * n + m)))[r]? := by
  have hg : grp 0x1040 0x100 6 32 (0x1000 + 0x100 * m + 4 * r) = none := by
    unfold grp
    rw [if_neg (by omega)]
  rw [tenReg_arrays d n (by omega) (by omega), arr_at (base := 0x1000) m r _ rfl hm hr (by decide) rfl, hg]
  simp (disch := omega) only [arr_outside, Option.bind_none, orWord_none_left, orWord_none_right]

theorem tenReg_watch (d : Dev) (n : Nat) {m r : Nat} (hm : m < 6) (hr : r < 32) :
    tenReg d n (0x1040 + 0x100 * m + 4 * r) = (watchWords (getUnit d (6 * n + m)) (r / 2))[r % 2]? := by
  have hq : arr 0x1000 0x100 6 7 (0x1040 + 0x100 * m + 4 * r) (fun c => quantWords (getUnit d (6 * n + c))) = none :=
    arr_gap m (r + 16) _ (by omega) (by omega) (by omega)
  rw [tenReg_arrays d n (by omega) (by omega), hq, grp_at m r rfl hm hr (by decide) rfl]
  simp (disch := omega) only [arr_outside, Option.bind_some, orWord_none_left, orWord_none_right]

theorem tenReg_search (d : Dev) (n : Nat) {m r : Nat} (hm : m < 6) (hr : r < 3) : tenReg d n (0x2000 + 0x10 * m + 4 * r) =
    [(getUnit d (6 * n + m)).offered, (getUnit d (6 * n + m)).kPoisoned, (getUnit d (6 * n + m)).kLists][r]? := by
  rw [tenReg_arrays d n (by omega) (by omega), arr_at (base := 0x2000) m r _ rfl hm hr (by decide) rfl]
  simp (disch := omega) only [arr_outside, grp_outside, Option.bind_none, orWord_none_left, orWord_none_right]

theorem tenReg_conv (d : Dev) (n : Nat) {m r : Nat} (hm : m < 6) (hr : r < 7) : tenReg d n (0x3400 + 0x20 * m + 4 * r) =
    [(getUnit d (6 * n + m)).passes, (getUnit d (6 * n + m)).skipped, (getUnit d (6 * n + m)).lbMiss, (getUnit d (6 * n + m)).poolTiles,
      (getUnit d (6 * n + m)).zcGranules, (getUnit d (6 * n + m)).zcBlocks, (getUnit d (6 * n + m)).zcBad][r]? := by
  rw [tenReg_arrays d n (by omega) (by omega), arr_at (base := 0x3400) m r _ rfl hm hr (by decide) rfl]
  simp (disch := omega) only [arr_outside, grp_outside, Option.bind_none, orWord_none_left, orWord_none_right]

theorem tenReg_scan (d : Dev) (n : Nat) {m r : Nat} (hm : m < 6) (hr : r < 6) : tenReg d n (0x3800 + 0x20 * m + 4 * r) =
    [(getUnit d (6 * n + m)).scTiles, (getUnit d (6 * n + m)).scFlags, (getUnit d (6 * n + m)).swapIn, (getUnit d (6 * n + m)).swapOut,
      (getUnit d (6 * n + m)).scWait, (getUnit d (6 * n + m)).scPoisoned][r]? := by
  rw [tenReg_arrays d n (by omega) (by omega), arr_at (base := 0x3800) m r _ rfl hm hr (by decide) rfl]
  simp (disch := omega) only [arr_outside, grp_outside, Option.bind_none, orWord_none_left, orWord_none_right]

theorem tenReg_seq (d : Dev) {q r : Nat} (hq : q < 64) (hr : r < 4) : tenReg d 0 (0x3A00 + 0x10 * q + 4 * r) = (seqWords d q)[r]? := by
  rw [tenReg_arrays d 0 (by omega) (by omega), arr_at (base := 0x3A00) q r _ rfl hq hr (by decide) rfl]
  simp (disch := omega) only [arr_outside, grp_outside, Option.bind_none, orWord_none_left, orWord_none_right, if_true]

end Sys2Proof.Machine
end

section
/-! PROOFS. Reads of the latch registers (R83, R111, R137, R158, R206, R226, R248, R275, R303, R328, R369, R410, R433). Settles O10. -/

namespace Sys2Proof.Machine

/-! ### A latched group -/

/-- The words of a run of registers. -/
theorem map_run {s : State} {k a n : Nat} {ws : List Word} (hl : ws.length = n) (h : ∀ i, i < n → liveReg s k (a + 4 * i) = ws[i]?) :
    (run a n).map (fun o => (liveReg s k o).getD 0) = ws := by
  subst hl
  refine List.ext_getElem (by simp [run]) fun i h1 h2 => ?_
  simp [run, h i h2, List.getElem?_eq_getElem h2]

/-- A read of a latch register in a domain that is powered latches its group, and nothing follows from it. -/
theorem latchRead_eq {s : State} {off : Nat} {g : List Nat} {ws : List Word} (hs : Settled s) (ha : awake s.dev = true)
    (hp : regPowered s.dev off = true) (hg : latchGroup off = g) (h0 : g ≠ [])
    (hw : g.map (fun o => (liveReg s s.dev.freeCtr o).getD 0) = ws) : latchRead off s = .next (withLatch s off ws) := by
  have hl : latch off s = withLatch s off ws := by
    unfold latch withLatch
    simp only [hg, hw, hp, List.isEmpty_iff, h0, Bool.not_true, Bool.or_false]
    rfl
  have ht : Settled (withLatch s off ws) := by
    obtain ⟨h1, h2, h3⟩ := hs
    exact ⟨h1, h2, powerSettled_congr s.dev _ rfl rfl rfl rfl rfl rfl rfl rfl h3⟩
  rw [latchRead, wholeStep, if_pos ha, hl, settle_eq _ ht]

/-! ### The groups of Tables 3.4 to 17.10 -/

theorem arriveRead_eq {s : State} (hs : Settled s) (ha : awake s.dev = true) (t : Fin 3) : exec (.arriveCounterRead t) s =
    .next (withLatch s (0xA8004 + t.val * 0x40)
      ((tierWords s.dev (t.val + 1)).take 1 ++ (tierWords s.dev (t.val + 1)).drop 2)) := by
  fin_cases t <;> exact latchRead_eq hs ha rfl rfl (by decide) rfl

theorem snfRead_eq {s : State} (hs : Settled s) (ha : awake s.dev = true) (a : Fin 8) : exec (.snfIndexRead a) s =
    .next (withLatch s (0x20100 + a.val * 0x20) [w32 ((getSlot s.dev a.val).index / 4294967296 % 65536)]) := by
  fin_cases a <;> exact latchRead_eq hs ha rfl rfl (by decide) rfl

theorem csiRead_eq {s : State} (hs : Settled s) (ha : awake s.dev = true) (n : Fin 48) : exec (.csiFrameRead n) s =
    .next (withLatch s (0x41004 + n.val * 0x20) (((streamWords s.dev n.val).drop 2).take 1)) := by
  have hb (i : Nat) (hi : i < 0x1000) : blockOf (0x41004 + i) = some 4 := blockOf_eq (by omega) (by decide) (by decide)
  have ho (i : Nat) (hi : i < 0x1000) : (0x41004 + i) % 65536 = 0x1004 + i := by omega
  have hi : n.val * 0x20 + 4 < 0x1000 := by omega
  have hf : grp 0x1004 0x20 48 1 (0x1004 + n.val * 0x20) = some (n.val, 0) :=
    grp_at n.val 0 (by omega) n.isLt (by decide) (by decide) rfl
  have hg : latchGroup (0x41004 + n.val * 0x20) = [0x41004 + n.val * 0x20 + 4] := by
    simp only [latchGroup, hb _ (Nat.lt_of_succ_lt (show n.val * 0x20 + 1 < _ by omega)), ho _ (show n.val * 0x20 < _ by omega), hf,
      Option.isSome_some, if_true]
  have hl : liveReg s s.dev.freeCtr (0x41004 + n.val * 0x20 + 4) = (streamWords s.dev n.val)[2]? := by
    simp only [liveReg, Nat.add_assoc, hb _ hi, ho _ hi]
    rw [arr_at (base := 0x1000) n.val 2 _ (by omega) n.isLt (by decide) (by decide) rfl]
    simp (disch := omega) only [arr_outside, orWord_none_left, orWord_none_right]
  have hw : [(streamWords s.dev n.val)[2]?.getD 0] = ((streamWords s.dev n.val).drop 2).take 1 := by
    unfold streamWords
    dsimp only
    split <;> rfl
  exact latchRead_eq hs ha (by simp [regPowered, domainOf, hb _ (show n.val * 0x20 < _ by omega)]) hg (by simp)
    (by rw [List.map_singleton, hl, hw])

/-- The group of a core's counters (Tables 6.8, 7.11, 8.5, 9.7, 10.6). -/
theorem latchGroup_core {n m : Nat} (hn : n < 4) (hm : m < 6) : latchGroup (0x60108 + n * 0x4000 + m * 0x40) =
    run (0x60108 + n * 0x4000 + m * 0x40 + 4) 8 ++ run (0x60000 + n * 0x4000 + 0x1000 + m * 0x100) 5 ++
      run (0x60000 + n * 0x4000 + 0x1040 + m * 0x100) 32 ++ run (0x60000 + n * 0x4000 + 0x2000 + m * 0x10) 3 ++
      run (0x60000 + n * 0x4000 + 0x3400 + m * 0x20) 7 ++ run (0x60000 + n * 0x4000 + 0x3800 + m * 0x20) 6 := by
  have hb : blockOf (0x60108 + n * 0x4000 + m * 0x40) = some 6 := blockOf_eq (by omega) (by decide) (by decide)
  have ho : (0x60108 + n * 0x4000 + m * 0x40) % 65536 = n * 0x4000 + (0x108 + m * 0x40) := by omega
  have hs : 0x60108 + n * 0x4000 + m * 0x40 - (n * 0x4000 + (0x108 + m * 0x40)) = 0x60000 := by omega
  have hq : (n * 0x4000 + (0x108 + m * 0x40)) / 0x4000 = n := by omega
  have hr : (n * 0x4000 + (0x108 + m * 0x40)) % 0x4000 = 0x108 + m * 0x40 := by omega
  have hg : grp 0x108 0x40 6 1 (0x108 + m * 0x40) = some (m, 0) := grp_at m 0 (by omega) hm (by decide) (by decide) rfl
  simp only [latchGroup, hb, ho, hs, hq, hr, hg]

/-- The words of a run of registers of a cluster. -/
theorem map_run_ten {s : State} {k n a c : Nat} {ws : List Word} (i : Nat) (hn : n < 4) (hl : ws.length = c)
    (ha : a = 0x60000 + n * 0x4000 + i) (hi : i + 4 * c ≤ 0x4000) (h : ∀ r, r < c → tenReg s.dev n (i + 4 * r) = ws[r]?) :
    (run a c).map (fun o => (liveReg s k o).getD 0) = ws :=
  map_run hl fun r hr => by rw [ha, Nat.add_assoc, liveReg_ten s _ hn (by omega), h r hr]

theorem watch_words (x : Unit_) {r : Nat} (hr : r < 32) : (watchWords x (r / 2))[r % 2]? =
    ((List.range 16).flatMap (fun w => [(tabGet x.watch w {}).sumsq, (tabGet x.watch w {}).count]))[r]? := by
  interval_cases r <;> rfl

/-- The words that a read of a core's first counter latches. -/
theorem coreRead_eq {s : State} (hs : Settled s) (ha : awake s.dev = true) {n m : Nat} (hn : n < 4) (hm : m < 6)
    (hp : s.dev.power.clusters.getLsbD n = true) (x : Unit_) (hx : x = getUnit s.dev (6 * n + m)) :
    latchRead (0x60108 + n * 0x4000 + m * 0x40) s = .next (withLatch s (0x60108 + n * 0x4000 + m * 0x40)
      ([x.adv, x.bubble, x.throttle, x.replays, x.abort, x.discard, x.gated, x.commit,
        x.clipped, x.converted, x.accSat, x.nonfinite, x.tagErr] ++
        (List.range 16).flatMap (fun w => [(tabGet x.watch w {}).sumsq, (tabGet x.watch w {}).count]) ++
        [x.offered, x.kPoisoned, x.kLists, x.passes, x.skipped, x.lbMiss, x.poolTiles, x.zcGranules, x.zcBlocks, x.zcBad,
         x.scTiles, x.scFlags, x.swapIn, x.swapOut, x.scWait, x.scPoisoned])) := by
  have hd : regPowered s.dev (0x60108 + n * 0x4000 + m * 0x40) = true := by
    have hb : blockOf (0x60108 + n * 0x4000 + m * 0x40) = some 6 := blockOf_eq (by omega) (by decide) (by decide)
    have hq : (0x60108 + n * 0x4000 + m * 0x40) % 65536 / 0x4000 = n := by omega
    have hr : (0x60108 + n * 0x4000 + m * 0x40) % 65536 % 0x4000 ≠ 0 := by omega
    simp only [regPowered, domainOf, hb, hr, if_false, hq, Option.all_some, hp]
  have core : (run (0x60108 + n * 0x4000 + m * 0x40 + 4) 8).map (fun o => (liveReg s s.dev.freeCtr o).getD 0) =
      [x.adv, x.bubble, x.throttle, x.replays, x.abort, x.discard, x.gated, x.commit] := by
    refine map_run_ten (0x10C + 0x40 * m) hn rfl (by omega) (by omega) fun r hr => ?_
    rw [show 0x10C + 0x40 * m + 4 * r = 0x100 + 0x40 * m + 4 * (r + 3) by omega, tenReg_core _ _ hm (by omega), hx]
    interval_cases r <;> rfl
  have quant : (run (0x60000 + n * 0x4000 + 0x1000 + m * 0x100) 5).map (fun o => (liveReg s s.dev.freeCtr o).getD 0) =
      [x.clipped, x.converted, x.accSat, x.nonfinite, x.tagErr] := by
    refine map_run_ten (0x1000 + 0x100 * m) hn rfl (by omega) (by omega) fun r hr => ?_
    rw [tenReg_quant _ _ hm (by omega), ← hx]
    interval_cases r <;> rfl
  have watch : (run (0x60000 + n * 0x4000 + 0x1040 + m * 0x100) 32).map (fun o => (liveReg s s.dev.freeCtr o).getD 0) =
      (List.range 16).flatMap (fun w => [(tabGet x.watch w {}).sumsq, (tabGet x.watch w {}).count]) :=
    map_run_ten (0x1040 + 0x100 * m) hn rfl (by omega) (by omega) fun r hr => by
      rw [tenReg_watch _ _ hm hr, ← hx, watch_words x hr]
  have search : (run (0x60000 + n * 0x4000 + 0x2000 + m * 0x10) 3).map (fun o => (liveReg s s.dev.freeCtr o).getD 0) =
      [x.offered, x.kPoisoned, x.kLists] :=
    map_run_ten (0x2000 + 0x10 * m) hn rfl (by omega) (by omega) fun r hr => hx ▸ tenReg_search _ _ hm hr
  have conv : (run (0x60000 + n * 0x4000 + 0x3400 + m * 0x20) 7).map (fun o => (liveReg s s.dev.freeCtr o).getD 0) =
      [x.passes, x.skipped, x.lbMiss, x.poolTiles, x.zcGranules, x.zcBlocks, x.zcBad] :=
    map_run_ten (0x3400 + 0x20 * m) hn rfl (by omega) (by omega) fun r hr => hx ▸ tenReg_conv _ _ hm hr
  have scan : (run (0x60000 + n * 0x4000 + 0x3800 + m * 0x20) 6).map (fun o => (liveReg s s.dev.freeCtr o).getD 0) =
      [x.scTiles, x.scFlags, x.swapIn, x.swapOut, x.scWait, x.scPoisoned] :=
    map_run_ten (0x3800 + 0x20 * m) hn rfl (by omega) (by omega) fun r hr => hx ▸ tenReg_scan _ _ hm hr
  refine latchRead_eq hs ha hd (latchGroup_core hn hm) (by simp [run, List.range_succ]) ?_
  simp only [List.map_append, core, quant, watch, search, conv, scan, List.append_assoc, List.cons_append, List.nil_append]

theorem chunkRead_eq {s : State} (hs : Settled s) (ha : awake s.dev = true) (hp : s.dev.power.clusters.getLsbD 0 = true) (q : Fin 64) :
    exec (.chunkCounterRead q) s = .next (withLatch s (0x63A04 + q.val * 0x10)
      [w32 ((getSeq s.dev q.val).chunks / 4294967296 % 65536)]) := by
  have hb : blockOf (0x63A04 + q.val * 0x10) = some 6 := blockOf_eq (by omega) (by decide) (by decide)
  have ho : (0x63A04 + q.val * 0x10) % 65536 = 0x3A04 + q.val * 0x10 := by omega
  have hq : (0x3A04 + q.val * 0x10) / 0x4000 = 0 := by omega
  have hr : (0x3A04 + q.val * 0x10) % 0x4000 = 0x3A04 + q.val * 0x10 := by omega
  have hc : grp 0x108 0x40 6 1 (0x3A04 + q.val * 0x10) = none := grp_outside (by omega)
  have hj : grp 0x3008 0x20 8 1 (0x3A04 + q.val * 0x10) = none := grp_outside (by omega)
  have hf : grp 0x3A04 0x10 64 1 (0x3A04 + q.val * 0x10) = some (q.val, 0) := grp_at _ 0 (by omega) q.isLt (by decide) (by decide) rfl
  have h1 : 0x3A04 + q.val * 0x10 ≠ 0x10 := by omega
  have h2 : 0x3A04 + q.val * 0x10 ≠ 0x3E00 := by omega
  have hg : latchGroup (0x63A04 + q.val * 0x10) = [0x63A04 + q.val * 0x10 + 4] := by
    simp [latchGroup, hb, ho, hq, hr, hc, hj, hf, h1, h2]
  have hl : liveReg s s.dev.freeCtr (0x63A04 + q.val * 0x10 + 4) = (seqWords s.dev q.val)[2]? := by
    rw [← tenReg_seq s.dev q.isLt (by decide), ← liveReg_ten s s.dev.freeCtr (by decide) (by omega)]
    congr 1
    omega
  refine latchRead_eq hs ha ?_ hg (by simp) ?_
  · simp [regPowered, domainOf, hb, ho, hr, hq, hp]
  · rw [List.map_singleton, hl]
    rfl

theorem sweepsRead_eq {s : State} (hs : Settled s) (ha : awake s.dev = true) (hp : s.dev.power.clusters.getLsbD 0 = true) (j : Fin 8) :
    exec (.sweepsCounterRead j) s = .next (withLatch s (0x63008 + j.val * 0x20)
      [(getCat s.dev j.val).queries, (getCat s.dev j.val).blocked]) := by
  fin_cases j <;> exact latchRead_eq hs ha (by simp [regPowered, domainOf, blockOf, hp]) rfl (by decide) rfl

theorem windowRead_eq {s : State} (hs : Settled s) (ha : awake s.dev = true) (w : Fin 4)
    (hp : ∀ r ∈ s.dev.img.windows, r.window = w.val → s.dev.power.clusters.getLsbD r.home = true) :
    exec (.windowCounterRead w) s = .next (withLatch s (0x81004 + w.val * 0x20)
      [(getWin s.dev w.val).stall, (getWin s.dev w.val).late, (getWin s.dev w.val).failed]) := by
  have hd : regPowered s.dev (0x81004 + w.val * 0x20) = true := by
    have hb : blockOf (0x81004 + w.val * 0x20) = some 8 := blockOf_eq (by omega) (by decide) (by decide)
    have ho : (0x81004 + w.val * 0x20) % 65536 = 0x1004 + w.val * 0x20 := by omega
    have hw : (0x1004 + w.val * 0x20 - 0x1000) / 0x20 = w.val := by omega
    have h1 : ¬ 0x1004 + w.val * 0x20 < 0x100 := by omega
    have h2 : 0x1000 ≤ 0x1004 + w.val * 0x20 ∧ 0x1004 + w.val * 0x20 < 0x1080 := by omega
    simp only [regPowered, domainOf, hb, ho, hw, h1, h2, if_false, if_true, and_self, Option.all_map]
    cases hf : s.dev.img.windows.find? (fun r => r.window == w.val) with
    | none => rfl
    | some r => exact hp r (List.mem_of_find?_eq_some hf) (by simpa using List.find?_some hf)
  fin_cases w <;> exact latchRead_eq hs ha hd rfl (by decide) rfl

/-- The counters of a cluster's stem engine, of its attention and of its mover. -/
theorem clusterReads_eq {s : State} (hs : Settled s) (ha : awake s.dev = true) (n : Fin 4) (hp : s.dev.power.clusters.getLsbD n.val = true) :
    exec (.stemCounterRead n) s = .next (withLatch s (0x60010 + n.val * 0x4000) [(getUnit s.dev (24 + n.val)).skipped]) ∧
    exec (.attCounterRead n) s = .next (withLatch s (0x63E00 + n.val * 0x4000)
      [(getCluster s.dev n.val).attScatter, (getCluster s.dev n.val).attMasked, (getCluster s.dev n.val).attPoisoned,
       (getCluster s.dev n.val).walks, (getCluster s.dev n.val).hits, (getCluster s.dev n.val).misses,
       (getCluster s.dev n.val).failed]) ∧
    exec (.movCounterRead n) s = .next (withLatch s (0x80004 + n.val * 0x40)
      [w32 ((getMover s.dev n.val).granules / 16), (getMover s.dev n.val).poisoned, (getMover s.dev n.val).corrected]) := by
  fin_cases n <;>
    exact ⟨latchRead_eq hs ha (by simpa [regPowered, domainOf, blockOf] using hp) rfl (by decide) rfl,
      latchRead_eq hs ha (by simpa [regPowered, domainOf, blockOf] using hp) rfl (by decide) rfl,
      latchRead_eq hs ha (by simpa [regPowered, domainOf, blockOf] using hp) rfl (by decide) rfl⟩

/-- Settles O10: each latch register's group is the run of registers that its table names. -/
theorem latchReadsLatchTheirGroups : Obligations.LatchReadsLatchTheirGroups := by
  unfold Obligations.LatchReadsLatchTheirGroups
  refine ⟨fun s hs ha => ⟨arriveRead_eq hs ha, snfRead_eq hs ha, csiRead_eq hs ha, ?_, ?_, ?_, ?_, ?_⟩,
    fun s hs ha => ⟨fun c hc x hx => ?_, fun n hn => clusterReads_eq hs ha n hn,
      fun h0 => ⟨sweepsRead_eq hs ha h0, chunkRead_eq hs ha h0⟩, fun w hw => windowRead_eq hs ha w hw⟩⟩
  · exact latchRead_eq hs ha rfl rfl (by decide) rfl
  · exact latchRead_eq hs ha rfl rfl (by decide) rfl
  · exact latchRead_eq hs ha rfl rfl (by decide) rfl
  · exact latchRead_eq hs ha rfl rfl (by decide) rfl
  · exact latchRead_eq hs ha rfl rfl (by decide) rfl
  · have hu : x = getUnit s.dev (6 * (c.val / 6) + c.val % 6) := by rw [Nat.div_add_mod]; exact hx
    exact coreRead_eq hs ha (by omega) (by omega) hc x hu

end Sys2Proof.Machine
end

section
/-! PROOFS. PREROLL_READ and the response that waits for samples (R86, R360). Settles O53. -/

namespace Sys2Proof.Machine

/-! ### What PREROLL_READ answers -/

/-- Recording a code changes the error record as errRecord says and otherwise at most the queue of interrupts. -/
theorem record_frame (c : Nat) (p : Option Nat) (k : Nat × Nat) (d : Dev) : ∃ i m, record c p k d =
    { d with err := errRecord c p k none false d.err, host := { d.host with ibis := i, ibiMerged := m } } := by
  unfold record recordAt
  extract_lets d1 sv tell
  split
  · exact ibi_frame 2 c (p.getD 255) sv d1
  · exact ⟨_, _, rfl⟩

/-- The window of the grant that a PREROLL_READ names, as the session may read it (R86). -/
def mayReadGrant (n : Option Nat) (r : Req) (g : Grant) (first : Int) (cnt : Nat) (d : Dev) : Prop :=
  sessPart n d = some r.q.part ∧ (prePolicy d.img r.q.part).any (fun x => bit x.flags 2) = true ∧ inWindow g first cnt = true

/-- PREROLL_READ of a request's grant over a channel that is not muzzled, in the window and before the end. -/
theorem handlePreroll_reads {n : Option Nat} {p : Bytes} {s : State} {r : Req} {g : Grant} (hl : p.length = 18) (h1 : 1 ≤ u16 p 16)
    (h2 : u16 p 16 ≤ 2048) (hm : channelMuzzled n s.dev = false) (hr : namedRequest (u8 p 0) (u32 p 4) s.dev = some r)
    (hg : r.grant = some g) (he : r.ended = none) (hw : mayReadGrant n r g (signed 64 (u64 p 8)) (u16 p 16) s.dev) :
    handlePreroll n p s = (match grantSamples g (signed 64 (u64 p 8)) (u16 p 16) with
      | some b => say (.now 0 b) s
      | none => say (.later (.preroll r.tier r.q.arrival (signed 64 (u64 p 8)) (u16 p 16)) []) s) := by
  unfold handlePreroll
  dsimp only
  rw [if_neg (by omega), if_neg (by simp [hm]), hr]
  simp only [he, Option.isNone_none, if_true, hg]
  exact if_pos hw

/-- PREROLL_READ over a muzzled channel is denied without a record. -/
theorem handlePreroll_muzzled {n : Option Nat} {p : Bytes} {s : State} (hl : p.length = 18) (h1 : 1 ≤ u16 p 16)
    (h2 : u16 p 16 ≤ 2048) (hm : channelMuzzled n s.dev = true) : handlePreroll n p s = say answerDenied s := by
  unfold handlePreroll
  dsimp only
  rw [if_neg (by omega), if_pos hm]

/-- PREROLL_READ of another's request, outside the window or after the end is denied and recorded with 0x45. -/
theorem handlePreroll_refused {n : Option Nat} {p : Bytes} {s : State} {r : Req} {g : Grant} (hl : p.length = 18) (h1 : 1 ≤ u16 p 16)
    (h2 : u16 p 16 ≤ 2048) (hm : channelMuzzled n s.dev = false) (hr : namedRequest (u8 p 0) (u32 p 4) s.dev = some r)
    (hg : r.grant = some g) (hw : r.ended ≠ none ∨ ¬ mayReadGrant n r g (signed 64 (u64 p 8)) (u16 p 16) s.dev) :
    handlePreroll n p s = sayDev answerDenied (record 0x45 (some r.q.part) (6, r.tier) s.dev) s := by
  unfold handlePreroll
  dsimp only
  rw [if_neg (by omega), if_neg (by simp [hm]), hr]
  dsimp only
  by_cases he : r.ended = none
  · simp only [he, Option.isNone_none, if_true, hg]
    exact if_neg (hw.resolve_left (not_not.mpr he))
  · have : r.ended.isNone = false := by simpa [Option.isSome_iff_ne_none] using he
    simp [this]

section
variable {f : Frame} {n : Option Nat} {p : Bytes} {s : State} {r : Req} {g : Grant}

theorem exec_prerollRead (hc : Carries 0x40 f n p s) : exec (.prerollRead f) s = wholeStep (hostFrame 0x40 f) s := by
  obtain ⟨⟨_, _, _, hwf, _⟩, _⟩ := hc
  exact unlessWf_of_wf hwf

/-- What the handler of a carried frame finds as it was before the frame. -/
theorem servedState_keeps (op : Nat) : (servedState op n p s).dev.reqs = s.dev.reqs ∧ (servedState op n p s).dev.err = s.dev.err ∧
    (servedState op n p s).dev.mem = s.dev.mem := by
  obtain ⟨_, _, _, _, _, _, hf, -⟩ := servedState_frame op n p s
  rw [hf]
  exact ⟨rfl, rfl, rfl⟩

theorem channelMuzzled_servedState (op : Nat) : channelMuzzled n (servedState op n p s).dev = channelMuzzled n s.dev := by
  obtain ⟨_, _, _, _, _, _, hf, -⟩ := servedState_frame op n p s
  rw [hf]
  rfl

theorem namedRequest_servedState (op tier arrival : Nat) :
    namedRequest tier arrival (servedState op n p s).dev = namedRequest tier arrival s.dev := by
  obtain ⟨_, _, _, _, _, _, hf, -⟩ := servedState_frame op n p s
  rw [hf]
  rfl

theorem mayReadGrant_servedState (op : Nat) (first : Int) (cnt : Nat) :
    mayReadGrant n r g first cnt (servedState op n p s).dev ↔ mayReadGrant n r g first cnt s.dev := by
  have himg : (servedState op n p s).dev.img = s.dev.img := by
    obtain ⟨_, _, _, _, _, _, hf, -⟩ := servedState_frame op n p s
    rw [hf]
  unfold mayReadGrant
  rw [sessPart_servedState, himg]

/-- A handler that answers later: the command waits in the port, and the device is otherwise as the handler left it. -/
theorem wholeStep_waits {op : Nat} {aw : Awaits} {pl : Bytes} (hop : opcodes.contains op = true) (h : Settled s) (hc : Carries op f n p s)
    (hh : handle op n p (servedState op n p s) = (servedState op n p s, .later aw pl)) :
    ∃ t, wholeStep (hostFrame op f) s = .next t ∧ SameOutside s t ∧ t.dev.host.resp = none ∧
      (∃ c, t.dev.host.cur = some c ∧ c.awaits = aw ∧ c.frame = f) ∧ t.dev.mem = s.dev.mem := by
  obtain ⟨_, _, _, _, _, _, hf, -⟩ := servedState_frame op n p s
  have hq := servedState_quiet (op := op) (n := n) (p := p) h
  have hstate : hostFrame op f s =
      { servedState op n p s with dev := settleReply op f (guardOf n s) (.later aw pl) (servedState op n p s).dev } := by
    rw [hostFrame_carries hop hc]
    simp only [answeredState, hh]
  obtain ⟨a, b, k, hset⟩ := settle_quiet (s := { servedState op n p s with
    dev := settleReply op f (guardOf n s) (.later aw pl) (servedState op n p s).dev }) hq.tripped hq.romDue hq.isp
  refine ⟨_, congrArg (fun x => Host.Outcome.next (settle x)) hstate, ?_⟩
  rw [hset, hf]
  exact ⟨⟨rfl, rfl, rfl⟩, rfl, ⟨_, rfl, rfl, rfl⟩, rfl⟩

/-- A PREROLL_READ that its handler denies. -/
theorem prerollRead_denied (h : Settled s) (hc : Carries 0x40 f n p s) (d : Dev)
    (hh : handlePreroll n p (servedState 0x40 n p s) = sayDev answerDenied d (servedState 0x40 n p s)) {e : Err} {i : List Ibi} {m : Word}
    (hd : d = { (servedState 0x40 n p s).dev with err := e, host := { (servedState 0x40 n p s).dev.host with ibis := i, ibiMerged := m } }) :
    Gives (.prerollRead f) s fun t => SameOutside s t ∧ Answers 0x40 f n 6 [] s t ∧
      t.dev.mem = s.dev.mem ∧ t.dev.reqs = s.dev.reqs ∧ t.dev.err = e := by
  have hq : Quiet d := by
    rw [hd]
    exact (servedState_quiet h).mono rfl rfl rfl id
  obtain ⟨t, ht, hs, ha, _, _, _, _, _, _, _, hrep⟩ := wholeStep_answers (by decide) hc (servedState_sameOutside 0x40 n p s) hh hq
  obtain ⟨hreqs, -, hmem⟩ := servedState_keeps (n := n) (p := p) (s := s) 0x40
  refine ⟨t, (exec_prerollRead hc).trans ht, hs, ha, ?_⟩
  rw [hrep, hd]
  exact ⟨hmem, hreqs, rfl⟩

end

/-! ### The response that waits -/

/-- A command in progress that completes: its response stands under its session's key, and the device is otherwise as before. -/
theorem finishCur_frame {d : Dev} {c : InProgress} (hc : d.host.cur = some c) (st : Nat) (b : Bytes) : ∃ i m,
    finishCur st b d = { d with host := { d.host with
      resp := some (responseBytes st c.frame.seq c.opcode b (c.prot.map (fun p => ⟨p.1, p.2, rspKey (getSession d p.1)⟩)), 0)
      cur := none, ibis := i, ibiMerged := m } } := by
  simp only [finishCur, hc]
  exact respond_frame _ _ _ _ _ _

section
variable {s : State} {c : InProgress} {tier arrival cnt : Nat} {first : Int}

/-- The samples that a read in progress waits for are there. -/
theorem prerollReady_answers {r : Req} {g : Grant} {b : Bytes} (hc : s.dev.host.cur = some c) (ha : c.awaits = .preroll tier arrival first cnt)
    (hr : openRequest tier arrival s.dev = some r) (hg : r.grant = some g) (hb : grantSamples g first cnt = some b) :
    prerollReady s.dev = finishCur 0 b s.dev := by
  simp [prerollReady, hc, ha, hr, hg, hb]

/-- The request of a read in progress has gone. -/
theorem prerollReady_gone (hc : s.dev.host.cur = some c) (ha : c.awaits = .preroll tier arrival first cnt)
    (hr : openRequest tier arrival s.dev = none) : prerollReady s.dev = finishCur 6 [] (record 0x45 none (6, tier) s.dev) := by
  simp [prerollReady, hc, ha, hr]

end

/-- Settles O53: copied samples are answered, others awaited, and what is outside the grant is denied. -/
theorem prerollReadsAnswerCopiedSamples : Obligations.PrerollReadsAnswerCopiedSamples := by
  intro s h
  constructor
  · intro f n p r g hc hl h1 h2 hr hg cnt first mine
    have hsess : sessPart n s.dev = n.map (fun k => (getSession s.dev k).part) := rfl
    have hr' := (namedRequest_servedState (n := n) (p := p) (s := s) 0x40 (u8 p 0) (u32 p 4)).trans hr
    have hmuz := channelMuzzled_servedState (n := n) (p := p) (s := s) 0x40
    have hmay := mayReadGrant_servedState (n := n) (p := p) (s := s) (r := r) (g := g) 0x40 first cnt
    have hfree (hk : ∀ k, n = some k → isMuzzled s.dev (0x70 + k) = false) : channelMuzzled n (servedState 0x40 n p s).dev = false := by
      rw [hmuz, Bool.eq_false_iff, ne_eq, channelMuzzled_iff]
      rintro ⟨k, hn, hb⟩
      exact absurd (hk k hn) (by simp [hb])
    refine ⟨fun hmine hwin hend hk => ?_, fun hden => ?_⟩
    · have hh := handlePreroll_reads hl h1 h2 (hfree hk) hr' hg hend (hmay.mpr ⟨hsess.trans hmine.1, hmine.2, hwin⟩)
      constructor
      · intro b hb
        rw [show grantSamples g (signed 64 (u64 p 8)) (u16 p 16) = some b from hb] at hh
        obtain ⟨t, ht, hs, ha, _, _, _, _, _, _, _, hrep⟩ :=
          wholeStep_answers (by decide) hc (servedState_sameOutside 0x40 n p s) hh (servedState_quiet h)
        refine ⟨t, (exec_prerollRead hc).trans ht, hs, ha, ?_⟩
        rw [hrep]
        exact servedState_keeps 0x40
      · intro hb
        rw [show grantSamples g (signed 64 (u64 p 8)) (u16 p 16) = none from hb] at hh
        obtain ⟨t, ht, hres⟩ := wholeStep_waits (by decide) h hc hh
        exact ⟨t, (exec_prerollRead hc).trans ht, hres⟩
    · by_cases hm : channelMuzzled n s.dev = true
      · obtain ⟨k, hn, hb⟩ := (channelMuzzled_iff n s.dev).mp hm
        obtain ⟨t, ht, hs, ha, hmem, hreq, -⟩ :=
          prerollRead_denied h hc _ (handlePreroll_muzzled hl h1 h2 (hmuz.trans hm)) rfl
        exact ⟨t, ht, hs, ha, hmem, hreq, fun hk => absurd (hk k hn) (by simp [hb])⟩
      · have hout : r.ended ≠ none ∨ ¬ mayReadGrant n r g first cnt s.dev := by
          rcases hden with hd | hd | hd | hd
          · exact .inr fun hw => hd ⟨hsess.symm.trans hw.1, hw.2.1⟩
          · exact .inr fun hw => absurd (hd.symm.trans hw.2.2) (by decide)
          · exact .inl hd
          · exact absurd ((channelMuzzled_iff n s.dev).mpr hd) hm
        have hh := handlePreroll_refused hl h1 h2 (hmuz.trans (by simpa using hm)) hr' hg (hout.imp_right (mt hmay.mp))
        obtain ⟨i, m, hrec⟩ := record_frame 0x45 (some r.q.part) (6, r.tier) (servedState 0x40 n p s).dev
        obtain ⟨t, ht, hs, ha, hmem, hreq, herr⟩ := prerollRead_denied h hc _ hh hrec
        refine ⟨t, ht, hs, ha, hmem, hreq, fun _ => ?_⟩
        rw [herr, (servedState_keeps 0x40).2.1]
  · intro c tier arrival first cnt hc ha answer
    have hquiet := h.quiet
    refine ⟨fun r g b hr hg hb => ?_, fun hr => ?_⟩
    · obtain ⟨i, m, hd⟩ := finishCur_frame hc 0 b
      have hready := (prerollReady_answers hc ha hr hg hb).trans hd
      refine devStep_quiet (f := prerollReady) (by rw [hready]; exact hquiet.tripped) (by rw [hready]; exact hquiet.romDue)
        (by rw [hready]; exact hquiet.isp) fun _ _ _ => ?_
      rw [hready]
      exact ⟨⟨rfl, rfl, rfl⟩, ⟨rfl, rfl⟩, rfl, rfl⟩
    · obtain ⟨i, m, hrec⟩ := record_frame 0x45 none (6, tier) s.dev
      obtain ⟨j, l, hd⟩ := finishCur_frame (d := record 0x45 none (6, tier) s.dev) (c := c) (by rw [hrec]; exact hc) 6 []
      have hready := (prerollReady_gone hc ha hr).trans hd
      rw [hrec] at hready
      refine devStep_quiet (f := prerollReady) (by rw [hready]; exact hquiet.tripped) (by rw [hready]; exact hquiet.romDue)
        (by rw [hready]; exact hquiet.isp) fun _ _ _ => ?_
      rw [hready]
      exact ⟨⟨rfl, rfl, rfl⟩, ⟨rfl, rfl⟩, rfl⟩

end Sys2Proof.Machine
end

section
/-! PROOFS. What the transfers of the device's own and the power-up and power-down of its cluster domains touch (R88, R239, R278, R284,
R412). -/

namespace Sys2Proof.Machine

/-! ### Transfers of the device's own -/

/-- What copies, moves of state blocks and the power of the banks may change of a device: memory, blocks, counters of cores, movers and
DRAM, and the bits of the banks. -/
def BankWork (d e : Dev) : Prop := ∃ us bl m mv k bn bk, e = { d with
  units := us, blks := bl, mem := m, mov := mv, freeCtr := k, power := { d.power with banks := bn, backed := bk } }

theorem BankWork.refl (d : Dev) : BankWork d d := ⟨_, _, _, _, _, _, _, rfl⟩

theorem BankWork.trans {a b c : Dev} (h : BankWork a b) (g : BankWork b c) : BankWork a c := by
  obtain ⟨_, _, _, _, _, _, _, rfl⟩ := h
  obtain ⟨_, _, _, _, _, _, _, rfl⟩ := g
  exact ⟨_, _, _, _, _, _, _, rfl⟩

theorem BankWork.armed {d e : Dev} (h : BankWork d e) (hd : d.err.armed = none) : e.err.armed = none := by
  obtain ⟨_, _, _, _, _, _, _, rfl⟩ := h
  exact hd

theorem foldl_bankWork {α : Type} (f : Dev → α → Dev) (h : ∀ d x, d.err.armed = none → BankWork d (f d x)) (l : List α) :
    ∀ d : Dev, d.err.armed = none → BankWork d (l.foldl f d) := by
  induction l with
  | nil => exact fun d _ => .refl d
  | cons x r ih => exact fun d hd => (h d x hd).trans (ih _ ((h d x hd).armed hd))

theorem noteTags_bankWork (row n : Nat) (d : Dev) : BankWork d (noteTags row n d) := by
  unfold noteTags
  split
  · exact ⟨_, _, _, _, _, _, _, rfl⟩
  · split <;> exact ⟨_, _, _, _, _, _, _, rfl⟩

theorem countTraffic_bankWork (a granules : Nat) (write : Bool) (d : Dev) : BankWork d (countTraffic a granules write d) := by
  unfold countTraffic withChecks
  split
  · split <;> exact ⟨_, _, _, _, _, _, _, rfl⟩
  · exact .refl d

theorem passTags_bankWork (p row n : Nat) (d : Dev) (h : d.err.armed = none) : BankWork d (passTags p row n d) := by
  unfold passTags
  dsimp only
  split
  · exact .refl d
  · rw [tap_calm _ _ _ _ d h, tap_calm _ _ _ _ d h]
    exact BankWork.trans ⟨_, _, _, _, d.freeCtr + 1, _, _, rfl⟩ (noteTags_bankWork _ _ _)

theorem deviceXfer_bankWork (n part src dst k : Nat) (d : Dev) (h : d.err.armed = none) : BankWork d (deviceXfer n part src dst k d) := by
  unfold deviceXfer
  extract_lets tags d1 d2
  have passed (a : Nat) (write : Bool) (e : Dev) (he : e.err.armed = none) : BankWork e (tags a write e) := by
    unfold tags
    split
    · exact passTags_bankWork _ _ _ e he
    · exact .refl e
  have h0 : BankWork d (tags src false d) := passed src false d h
  have h1 : BankWork d d1 := h0.trans (passed dst true _ (h0.armed h))
  have h2 : BankWork d d2 := h1.trans ((countTraffic_bankWork _ _ _ _).trans (countTraffic_bankWork _ _ _ _))
  exact h2.trans ⟨_, _, _, _, _, _, _, rfl⟩

theorem moveBlk_bankWork (n b place : Nat) (d : Dev) (h : d.err.armed = none) : BankWork d (moveBlk n b place d) :=
  (deviceXfer_bankWork _ _ _ _ _ d h).trans ⟨_, _, _, _, _, _, _, rfl⟩

/-- A transfer by a mover that a draw names. -/
theorem freeXfer_bankWork (part src dst k : Nat) (d : Dev) (h : d.err.armed = none) : BankWork d (freeXfer part src dst k d) :=
  BankWork.trans (b := (draw d).2) ⟨_, _, _, _, _, _, _, rfl⟩ (deviceXfer_bankWork _ _ _ _ _ _ h)

theorem copyBacked_bankWork (back : Bool) (d : Dev) (h : d.err.armed = none) : BankWork d (copyBacked back d) := by
  refine (foldl_bankWork _ (fun e p he => ?_) _ d h).trans ⟨_, _, _, _, _, _, _, rfl⟩
  split <;> exact freeXfer_bankWork _ _ _ _ e he

theorem spillOut_bankWork (d : Dev) (h : d.err.armed = none) : BankWork d (spillOut d) :=
  foldl_bankWork _ (fun _ _ he => BankWork.trans (b := (draw _).2) ⟨_, _, _, _, _, _, _, rfl⟩ (moveBlk_bankWork _ _ _ _ he)) _ d h

theorem swapAllOut_bankWork (d : Dev) (h : d.err.armed = none) : BankWork d (swapAllOut d) :=
  foldl_bankWork _ (fun e _ he => (moveBlk_bankWork _ _ _ e he).trans ⟨_, _, _, _, _, _, _, rfl⟩) _ d h

theorem banksUp_bankWork (d : Dev) (h : d.err.armed = none) : BankWork d (banksUp d) := by
  unfold banksUp
  dsimp only
  split
  · exact (copyBacked_bankWork true d h).trans ⟨_, _, _, _, _, _, _, rfl⟩
  · exact ⟨_, _, _, _, _, _, _, rfl⟩

/-- The banks go down with every bit of theirs. -/
theorem banksDown_frame (d : Dev) (h : d.err.armed = none) :
    ∃ e, BankWork d e ∧ banksDown d = { e with power := { e.power with banks := 0 } } := by
  unfold banksDown
  extract_lets e keep m2 lostSlot
  exact ⟨_, ((copyBacked_bankWork false d h).trans (spillOut_bankWork _ ((copyBacked_bankWork false d h).armed h))).trans
    (c := { e with mem := m2, mov := { e.mov with wins := tabMap e.mov.wins (fun w x =>
      { x with slots := ⟨x.slots.cells.filter (fun s => !lostSlot w s.1)⟩ }) } }) ⟨_, _, _, _, _, _, _, rfl⟩, rfl⟩

/-! ### The cluster domains -/

/-- What the power-up of cluster domains may change of a device. -/
def ClusterWork (d e : Dev) : Prop := ∃ us cl ca se bl m mv lo pw a l k, e = { d with
  units := us, clusters := cl, cats := ca, seqs := se, blks := bl, mem := m, mov := mv, sched := { d.sched with lost := lo }
  power := pw, age := a, latches := l, freeCtr := k } ∧ pw.isp = d.power.isp ∧
    ∀ n, d.power.clusters.getLsbD n = true → pw.clusters.getLsbD n = true

theorem ClusterWork.refl (d : Dev) : ClusterWork d d := ⟨_, _, _, _, _, _, _, _, _, _, _, _, rfl, rfl, fun _ => id⟩

theorem ClusterWork.trans {a b c : Dev} (h : ClusterWork a b) (g : ClusterWork b c) : ClusterWork a c := by
  obtain ⟨_, _, _, _, _, _, _, _, _, _, _, _, rfl, hi, hc⟩ := h
  obtain ⟨_, _, _, _, _, _, _, _, _, _, _, _, rfl, gi, gc⟩ := g
  exact ⟨_, _, _, _, _, _, _, _, _, _, _, _, rfl, gi.trans hi, fun n hn => gc n (hc n hn)⟩

theorem ClusterWork.armed {d e : Dev} (h : ClusterWork d e) (hd : d.err.armed = none) : e.err.armed = none := by
  obtain ⟨_, _, _, _, _, _, _, _, _, _, _, _, rfl, -, -⟩ := h
  exact hd

theorem ClusterWork.keepsOn {d e : Dev} (h : ClusterWork d e) {n : Nat} (hn : d.power.clusters.getLsbD n = true) :
    e.power.clusters.getLsbD n = true := by
  obtain ⟨_, _, _, _, _, _, _, _, _, _, _, _, rfl, -, hc⟩ := h
  exact hc n hn

theorem BankWork.clusterWork {d e : Dev} (h : BankWork d e) : ClusterWork d e := by
  obtain ⟨_, _, _, _, _, _, _, rfl⟩ := h
  exact ⟨_, _, _, _, _, _, _, _, _, _, _, _, rfl, rfl, fun _ => id⟩

theorem clearCluster_clusterWork (n : Nat) (d : Dev) : ClusterWork d (clearCluster n d) := by
  unfold clearCluster
  extract_lets us mov d1 d2 wins
  have h2 : ClusterWork d d2 := by
    unfold d2
    split <;> exact ⟨_, _, _, _, _, _, _, _, _, _, _, _, rfl, rfl, fun _ => id⟩
  have drop (lo k : Nat) (e : Dev) : ClusterWork e (dropLatches lo k e) :=
    ⟨_, _, _, _, _, _, _, _, _, _, _, _, rfl, rfl, fun _ => id⟩
  have drops (l : List Nat) : ∀ e, ClusterWork e (l.foldl (fun e w => dropLatches (0x81000 + w * 0x20) 0x20 e) e) := by
    induction l with
    | nil => exact .refl
    | cons w r ih => exact fun e => (drop _ _ e).trans (ih _)
  exact h2.trans ((drop _ _ d2).trans ((drop _ _ _).trans (drops wins _)))

theorem enterCores_clusterWork (n : Nat) (d : Dev) : ClusterWork d (enterCores n d) := by
  unfold enterCores
  split
  · exact .refl d
  · exact ⟨_, _, _, _, _, _, _, _, _, _, _, _, rfl, rfl, fun _ => id⟩

/-- The power-up of a cluster domain, which is on afterwards. -/
theorem clusterUp_clusterWork (n : Nat) (d : Dev) (h : d.err.armed = none) (hn : n < 4) :
    ClusterWork d (clusterUp n d) ∧ (clusterUp n d).power.clusters.getLsbD n = true := by
  unfold clusterUp
  extract_lets d1 d2 d3
  split
  next hon => exact ⟨.refl d, hon⟩
  next hoff =>
    have h1 : ClusterWork d d1 := by
      unfold d1
      split
      · exact (banksUp_bankWork d h).clusterWork
      · exact .refl d
    have h2 : ClusterWork d d3 := (h1.trans (clearCluster_clusterWork n d1)).trans
      ⟨_, _, _, _, _, _, _, _, _, _, _, _, rfl, rfl, fun _ => id⟩
    have hup : ClusterWork d3 (modPower (fun p => { p with clusters := p.clusters ||| BitVec.ofNat 4 (2 ^ n), dram := true, sup := true }) d3) :=
      ⟨_, _, _, _, _, _, _, _, _, _, _, _, rfl, rfl, fun k hk => by simp [hk]⟩
    refine ⟨(h2.trans hup).trans (enterCores_clusterWork n _), (enterCores_clusterWork n _).keepsOn ?_⟩
    change (d3.power.clusters ||| BitVec.ofNat 4 (2 ^ n)).getLsbD n = true
    rw [BitVec.getLsbD_or, BitVec.getLsbD_ofNat, Nat.testBit_two_pow_self]
    simp [hn]

/-- The power-up of all cluster domains leaves some on. -/
theorem clustersUp_clusterWork (d : Dev) (h : d.err.armed = none) : ClusterWork d (clustersUp d) ∧ (clustersUp d).power.clusters ≠ 0 := by
  have rest (l : List Nat) : ∀ e : Dev, e.err.armed = none → (∀ n ∈ l, n < 4) →
      ClusterWork e (l.foldl (fun e n => clusterUp n e) e) := by
    induction l with
    | nil => exact fun e _ _ => .refl e
    | cons n r ih =>
      intro e he hl
      have hn := (clusterUp_clusterWork n e he (hl n List.mem_cons_self)).1
      exact hn.trans (ih _ (hn.armed he) fun k hk => hl k (List.mem_cons_of_mem n hk))
  obtain ⟨h0, hon⟩ := clusterUp_clusterWork 0 d h (by decide)
  have h1 : ClusterWork (clusterUp 0 d) (clustersUp d) := rest [1, 2, 3] _ (h0.armed h) (by decide)
  refine ⟨h0.trans h1, fun hz => ?_⟩
  have := h1.keepsOn hon
  simp [hz] at this

/-- The power-down of the cluster domains, of the DRAM and of the banks: no core holds a tile any more. -/
theorem clustersDown_frame (d : Dev) (h : d.err.armed = none) : ∃ us cl bl m mv k pw, clustersDown d = { d with
    units := us, clusters := cl, blks := bl, mem := m, mov := mv, freeCtr := k, power := pw } ∧
    pw = { d.power with clusters := 0, dram := false, banks := 0, backed := pw.backed } ∧ ∀ u, (tabGet us u {}).tile = none := by
  have h1 := swapAllOut_bankWork d h
  obtain ⟨e, h2, hd⟩ := banksDown_frame (swapAllOut d) (h1.armed h)
  obtain ⟨us, _, _, _, _, _, _, rfl⟩ := h1.trans h2
  unfold clustersDown
  rw [hd]
  exact ⟨_, _, _, _, _, _, _, rfl, rfl, fun u => congrArg Unit_.tile
    (tabGet_tabMap us (fun _ u => { u with tile := none, cache := [], frames := [] }) u {} rfl)⟩

end Sys2Proof.Machine
end

section
/-! PROOFS. An arbiter cycle, and the hold of idle tiers (R73, R76, R88). Settles O16. -/

namespace Sys2Proof.Machine

/-! ### The outcome of a command after which nothing is due -/

/-- What holds of a quiet device whatever the power bits of three domains holds of the outcome. -/
theorem gives_of_quiet {i : Instr} {s : State} {d : Dev} {P : State → Prop} (hx : exec i s = .next (settle { s with dev := d })) (hq : Quiet d)
    (hP : ∀ a b p, P { s with dev := { d with power := { d.power with sup := a, isp := b, perk := p } } }) : Gives i s P := by
  obtain ⟨a, b, p, he⟩ := settle_quiet (s := { s with dev := d }) hq.tripped hq.romDue hq.isp
  exact ⟨_, hx.trans (congrArg Host.Outcome.next he), hP a b p⟩

/-- Where nothing is due, what holds of a device whatever three power bits and the camera's work holds of the outcome. -/
theorem gives_of_camWork {i : Instr} {s : State} {d : Dev} {P : State → Prop} (hx : exec i s = .next (settle { s with dev := d }))
    (ht : d.sched.tripped = none) (hr : d.boot.romDue = false)
    (hP : ∀ e a b p, CamWork d e → P { s with dev := { e with power := { d.power with sup := a, isp := b, perk := p } } }) :
    Gives i s P := by
  have h1 : tripCheck d = d := by simp [tripCheck, ht]
  have h2 : romDone { s with dev := d } = { s with dev := d } := by simp [romDone, hr]
  have h3 : settle { s with dev := d } = { s with dev := settlePower d } := by
    unfold settle
    simp only [h1, h2]
  rw [h3] at hx
  by_cases h : d.boot.step = .held
  · exact ⟨_, hx, by simpa [settlePower, h] using hP d d.power.sup false d.power.perk (.refl _)⟩
  · obtain ⟨e, hw, hd, -⟩ := settlePower_frame d h
    rw [hd] at hx
    exact ⟨_, hx, hP e _ _ _ hw⟩

/-! ### What an arbiter cycle may do to a tier -/

theorem getTier_modTier_self (t : Nat) (f : Tier → Tier) (d : Dev) : getTier (modTier t f d) t = f (getTier d t) :=
  tabGet_tabMod_self _ _ _ _ _

theorem getTier_modTier_ne {t n : Nat} (h : n ≠ t) (f : Tier → Tier) (d : Dev) : getTier (modTier t f d) n = getTier d n :=
  tabGet_tabMod_ne _ _ _ _ _ _ h

/-- A tier in which nothing arrives: no credit is returned to it, and no request begins to wait. -/
structure TierWork (x y : Tier) : Prop where
  arrive : y.arrive = x.arrive
  returned : x.returned = [] → y.returned = []
  waiting : ∀ q ∈ waitingOf y, q ∈ waitingOf x

theorem TierWork.refl (x : Tier) : TierWork x x := ⟨rfl, id, fun _ => id⟩

theorem TierWork.trans {x y z : Tier} (h : TierWork x y) (g : TierWork y z) : TierWork x z :=
  ⟨g.arrive.trans h.arrive, g.returned ∘ h.returned, fun q hq => h.waiting q (g.waiting q hq)⟩

/-- A tier whose waiting requests and credits on their way back stay. -/
theorem TierWork.of_same {x y : Tier} (ha : y.arrive = x.arrive) (hr : y.returned = x.returned) (hq : y.queues = x.queues)
    (hp : y.pending = x.pending) : TierWork x y :=
  ⟨ha, hr.trans, fun q h => by rwa [waitingOf, hq, hp] at h⟩

theorem mem_waitingOf {q : WReq} {x : Tier} : q ∈ waitingOf x ↔ (∃ p, p < 4 ∧ q ∈ tabGet x.queues p []) ∨ q ∈ x.pending := by
  simp [waitingOf]

theorem takeWaiting_tierWork (q : WReq) (x : Tier) : TierWork x (takeWaiting q x) := by
  unfold takeWaiting
  split
  · refine ⟨rfl, id, fun r hr => ?_⟩
    rw [mem_waitingOf] at hr ⊢
    exact hr.imp_right List.mem_of_mem_erase
  · split
    next p hp =>
      refine ⟨rfl, id, fun r hr => ?_⟩
      rw [mem_waitingOf] at hr ⊢
      refine hr.imp_left ?_
      rintro ⟨k, hk, hm⟩
      refine ⟨k, hk, ?_⟩
      by_cases he : k = p
      · subst he
        rw [tabGet_tabMod_self] at hm
        exact List.mem_of_mem_tail hm
      · rwa [tabGet_tabMod_ne _ _ _ _ _ _ he] at hm
    · exact .refl x

theorem keepWaiting_tierWork (f : WReq → Bool) (x : Tier) : TierWork x (keepWaiting f x) :=
  ⟨rfl, id, fun q hq => by rw [waitingOf_keepWaiting] at hq; exact (List.mem_filter.mp hq).1⟩

theorem withCredit_tierWork (shared : Bool) (p : Nat) (x : Tier) : TierWork x (withCredit shared p x) := by
  unfold withCredit
  split <;> exact .of_same rfl rfl rfl rfl

/-- The credits taken back leave everything of the tier but the credits held. -/
theorem foldl_takeBack_frame (l : List (Nat × Bool)) : ∀ x : Tier, ∃ h n, l.foldl takeBack x = { x with held := h, sharedHeld := n } ∧
    n = x.sharedHeld - (l.filter (fun c => c.2)).length ∧
    ∀ p, tabGet h p 0 = tabGet x.held p 0 - (l.filter (fun c => !c.2 && c.1 == p)).length := by
  induction l with
  | nil => exact fun x => ⟨x.held, x.sharedHeld, rfl, rfl, fun _ => rfl⟩
  | cons c r ih =>
    intro x
    obtain ⟨h, n, he, hn, hh⟩ := ih (takeBack x c)
    refine ⟨h, n, ?_, ?_, fun p => ?_⟩
    · rw [List.foldl_cons, he, takeBack]
      split <;> rfl
    · rw [hn, takeBack]
      cases hc : c.2 <;> simp [hc]; omega
    · rw [hh, takeBack]
      cases hc : c.2 with
      | true => simp [hc]
      | false =>
        by_cases hp : c.1 = p
        · simp [hc, hp]; omega
        · simp [hc, hp, tabGet_tabMod_ne _ _ _ _ _ _ (Ne.symm hp)]

theorem takeBacks_tierWork (x : Tier) : TierWork x (x.returned.foldl takeBack { x with returned := [] }) ∧
    (x.returned.foldl takeBack { x with returned := [] }).returned = [] := by
  obtain ⟨h, n, he, -, -⟩ := foldl_takeBack_frame x.returned { x with returned := [] }
  rw [he]
  exact ⟨⟨rfl, fun _ => rfl, fun q hq => hq⟩, rfl⟩

/-! ### What an arbiter cycle may do to the device -/

/-- From d to e the arbiter has worked: what the domains ask for, and what it decides by, has not gone. -/
structure ArbiterWork (d e : Dev) : Prop where
  boot : e.boot = d.boot
  parts : e.sched.parts = d.sched.parts
  armed : e.err.armed = d.err.armed
  tripped : e.sched.tripped = d.sched.tripped
  isp : e.power.isp = d.power.isp
  wanted : ispWanted d = true → ispWanted e = true
  tiers : ∀ n, TierWork (getTier d n) (getTier e n)

theorem ArbiterWork.refl (d : Dev) : ArbiterWork d d := ⟨rfl, rfl, rfl, rfl, rfl, id, fun _ => .refl _⟩

theorem ArbiterWork.trans {a b c : Dev} (h : ArbiterWork a b) (g : ArbiterWork b c) : ArbiterWork a c :=
  ⟨g.boot.trans h.boot, g.parts.trans h.parts, g.armed.trans h.armed, g.tripped.trans h.tripped, g.isp.trans h.isp, g.wanted ∘ h.wanted,
    fun n => (h.tiers n).trans (g.tiers n)⟩

theorem ArbiterWork.quiet {d e : Dev} (h : ArbiterWork d e) (hd : Quiet d) : Quiet e :=
  hd.mono h.tripped (congrArg Boot.romDue h.boot) h.isp h.wanted

theorem modTier_arbiterWork (t : Nat) {f : Tier → Tier} (h : ∀ x, TierWork x (f x)) (d : Dev) : ArbiterWork d (modTier t f d) := by
  refine ⟨rfl, rfl, rfl, rfl, rfl, id, fun n => ?_⟩
  by_cases hn : n = t
  · subst hn
    rw [getTier_modTier_self]
    exact h _
  · rw [getTier_modTier_ne hn]
    exact .refl _

theorem record_arbiterWork (c : Nat) (p : Option Nat) (k : Nat × Nat) (d : Dev) : ArbiterWork d (record c p k d) := by
  obtain ⟨i, m, h⟩ := record_frame c p k d
  rw [h]
  exact ⟨rfl, rfl, errRecord_armed .., rfl, rfl, id, fun _ => .refl _⟩

theorem ibi_arbiterWork (b x y z : Nat) (d : Dev) : ArbiterWork d (ibi b x y z d) := by
  obtain ⟨i, m, h⟩ := ibi_frame b x y z d
  rw [h]
  exact ⟨rfl, rfl, rfl, rfl, rfl, id, fun _ => .refl _⟩

theorem modSession_arbiterWork (n : Nat) (f : Session → Session) (d : Dev) : ArbiterWork d (modSession n f d) :=
  ⟨rfl, rfl, rfl, rfl, rfl, id, fun _ => .refl _⟩

theorem shedTurn_arbiterWork (q : WReq) (d : Dev) : ArbiterWork d (shedTurn q d) := by
  unfold shedTurn
  split
  · exact (modSession_arbiterWork _ _ d).trans (ibi_arbiterWork _ _ _ _ _)
  · exact .refl d

theorem shed_arbiterWork (t : Nat) (q : WReq) (d : Dev) : ArbiterWork d (shed t q d) :=
  (modTier_arbiterWork t (f := fun x => { x with shed := x.shed + 1 }) (fun _ => .of_same rfl rfl rfl rfl) d).trans
    ((record_arbiterWork _ _ _ _).trans (shedTurn_arbiterWork _ _))

theorem foldl_shed_arbiterWork (t : Nat) (l : List WReq) : ∀ d : Dev, ArbiterWork d (l.foldl (fun e q => shed t q e) d) := by
  induction l with
  | nil => exact .refl
  | cons q r ih => exact fun d => (shed_arbiterWork t q d).trans (ih _)

/-- Nothing of a partition whose reset is in progress waits after stage 2 (R76). -/
theorem shedResetting_arbiterWork (t : Nat) (d : Dev) : ArbiterWork d (shedResetting t d) ∧
    ∀ q ∈ waitingOf (getTier (shedResetting t d) t), (getPart d q.part).resetting = false := by
  unfold shedResetting
  extract_lets hit
  have hshed := foldl_shed_arbiterWork t ((waitingOf (getTier d t)).filter hit) (modTier t (keepWaiting (fun q => !hit q)) d)
  refine ⟨(modTier_arbiterWork t (keepWaiting_tierWork _) d).trans hshed, fun q hq => ?_⟩
  have hk := (hshed.tiers t).waiting q hq
  rw [getTier_modTier_self, waitingOf_keepWaiting] at hk
  simpa [hit] using (List.mem_filter.mp hk).2

theorem foldl_tap_calm (t kind : Nat) (l : List (Nat × Bool)) {d : Dev} (h : d.err.armed = none) :
    l.foldl (fun e c => tap 0 t kind c.1 e) d = d := by
  induction l with
  | nil => rfl
  | cons c r ih => rw [List.foldl_cons, tap_calm _ _ _ _ d h, ih]

theorem acceptReturns_calm (t : Nat) {d : Dev} (h : d.err.armed = none) :
    acceptReturns t d = modTier t (fun x => x.returned.foldl takeBack { x with returned := [] }) d := by
  rw [acceptReturns_eq, foldl_tap_calm t 1 _ h]

theorem acceptReturns_arbiterWork (t : Nat) {d : Dev} (h : d.err.armed = none) : ArbiterWork d (acceptReturns t d) ∧
    (getTier (acceptReturns t d) t).returned = [] := by
  rw [acceptReturns_calm t h, getTier_modTier_self]
  exact ⟨modTier_arbiterWork t (fun x => (takeBacks_tierWork x).1) d, (takeBacks_tierWork _).2⟩

/-! ### Admissions -/

theorem ClusterWork.arbiterWork {d e : Dev} (h : ClusterWork d e) (hw : ispWanted d = true → ispWanted e = true) : ArbiterWork d e := by
  obtain ⟨_, _, _, _, _, _, _, _, _, _, _, _, rfl, hi, -⟩ := h
  exact ⟨rfl, rfl, rfl, rfl, hi, hw, fun _ => .refl _⟩

theorem clustersUp_arbiterWork (d : Dev) (h : d.err.armed = none) : ArbiterWork d (clustersUp d) := by
  obtain ⟨hw, hc⟩ := clustersUp_clusterWork d h
  have hon : ((clustersUp d).power.clusters != 0) = true := bne_iff_ne.mpr hc
  exact hw.arbiterWork fun _ => by simp only [ispWanted, hon, Bool.true_or]

theorem windowCopied_arbiterWork (g : Grant) (d : Dev) : ArbiterWork d (windowCopied g d) :=
  ⟨rfl, rfl, rfl, rfl, rfl, id, fun _ => .refl _⟩

theorem takeCredit_calm (t : Nat) (q : WReq) {d : Dev} (h : d.err.armed = none) :
    takeCredit t q d = modTier t (withCredit (floorFree d t q.part == 0) q.part) d := by
  unfold takeCredit
  rw [tap_calm _ _ _ _ d h]

theorem takeCredit_arbiterWork (t : Nat) (q : WReq) {d : Dev} (h : d.err.armed = none) : ArbiterWork d (takeCredit t q d) := by
  rw [takeCredit_calm t q h]
  exact modTier_arbiterWork t (withCredit_tierWork _ _) d

theorem enterReq_arbiterWork (t : Nat) (q : WReq) (shared : Bool) (g : Option (Grant × Nat)) (d : Dev) :
    ArbiterWork d (enterReq t q shared g d) := by
  have hp : ArbiterWork d (takePrompt q d) := by
    unfold takePrompt
    split
    · exact modSession_arbiterWork _ _ d
    · exact .refl d
  exact hp.trans ⟨rfl, rfl, rfl, rfl, rfl, id, fun _ => .refl _⟩

theorem copyGrant_arbiterWork (t : Nat) (g : Option (Grant × Nat)) (d : Dev) : ArbiterWork d (copyGrant t g d) := by
  unfold copyGrant
  extract_lets e
  have he : ArbiterWork d e := by
    unfold e
    split
    · split
      · exact windowCopied_arbiterWork _ d
      · exact .refl d
    · exact .refl d
  split
  · exact he
  · exact he.trans (modTier_arbiterWork t (f := fun x => { x with clamp := x.clamp + 1 }) (fun _ => .of_same rfl rfl rfl rfl) e)

theorem wakeTier_arbiterWork (t : Nat) (q : WReq) (d : Dev) (h : d.err.armed = none) : ArbiterWork d (wakeTier t q d) := by
  unfold wakeTier
  extract_lets e
  split
  · exact ⟨rfl, rfl, rfl, rfl, rfl, id, fun _ => .refl _⟩
  · split
    · exact (clustersUp_arbiterWork d h).trans (ibi_arbiterWork _ _ _ _ e)
    · exact clustersUp_arbiterWork d h

theorem admitReq_arbiterWork (t : Nat) (q : WReq) (d : Dev) (h : d.err.armed = none) : ArbiterWork d (admitReq t q d) := by
  have h1 := takeCredit_arbiterWork t q h
  have h2 (g : Option (Grant × Nat)) (shared : Bool) := (h1.trans (enterReq_arbiterWork t q shared g _)).trans (copyGrant_arbiterWork t g _)
  rw [admitReq_eq]
  exact (h2 _ _).trans (wakeTier_arbiterWork t q _ ((h2 _ _).armed.trans h))

theorem admitAll_arbiterWork (t n : Nat) (d : Dev) (h : d.err.armed = none) : ArbiterWork d (admitAll t n d) := by
  fun_induction admitAll t n d with
  | case1 => exact .refl _
  | case2 => exact .refl _
  | case3 n d q hq ih =>
    have h1 := (modTier_arbiterWork t (takeWaiting_tierWork q) d).trans (admitReq_arbiterWork t q _ h)
    exact h1.trans (ih (h1.armed.trans h))

/-- A cycle of the arbiter for a tier: its credits are back, and nothing of a partition in reset waits. -/
theorem arbitrateTier_arbiterWork (t : Nat) {d : Dev} (h : d.err.armed = none) : ArbiterWork d (arbitrateTier t d) ∧
    (getTier (arbitrateTier t d) t).returned = [] ∧
    ∀ q ∈ waitingOf (getTier (arbitrateTier t d) t), (getPart d q.part).resetting = false := by
  obtain ⟨h1, hr⟩ := acceptReturns_arbiterWork t h
  obtain ⟨h2, hw⟩ := shedResetting_arbiterWork t (acceptReturns t d)
  have h3 := admitAll_arbiterWork t (waitingOf (getTier (shedResetting t (acceptReturns t d)) t)).length _ ((h1.trans h2).armed.trans h)
  refine ⟨(h1.trans h2).trans h3, (h3.tiers t).returned ((h2.tiers t).returned hr), fun q hq => ?_⟩
  have := hw q ((h3.tiers t).waiting q hq)
  rwa [getPart, h1.parts] at this

/-- What a cycle leaves of a tier stays so for the tiers that come after it. -/
theorem ArbiterWork.keeps {d e : Dev} (h : ArbiterWork d e) {t : Nat} {P : WReq → Prop}
    (hd : (getTier d t).returned = [] ∧ ∀ q ∈ waitingOf (getTier d t), P q) :
    (getTier e t).returned = [] ∧ ∀ q ∈ waitingOf (getTier e t), P q :=
  ⟨(h.tiers t).returned hd.1, fun q hq => hd.2 q ((h.tiers t).waiting q hq)⟩

theorem arbitrate_arbiterWork {d : Dev} (h : d.err.armed = none) : ArbiterWork d (arbitrate d) ∧ ∀ n, 1 ≤ n → n ≤ 3 →
    (getTier (arbitrate d) n).returned = [] ∧ ∀ q ∈ waitingOf (getTier (arbitrate d) n), (getPart d q.part).resetting = false := by
  obtain ⟨h1, c1⟩ := arbitrateTier_arbiterWork 1 h
  obtain ⟨h2, c2⟩ := arbitrateTier_arbiterWork 2 (h1.armed.trans h)
  obtain ⟨h3, c3⟩ := arbitrateTier_arbiterWork 3 ((h1.trans h2).armed.trans h)
  have hp1 (p : Nat) : getPart (arbitrateTier 1 d) p = getPart d p := by rw [getPart, h1.parts, getPart]
  have hp2 (p : Nat) : getPart (arbitrateTier 2 (arbitrateTier 1 d)) p = getPart d p := by rw [getPart, (h1.trans h2).parts, getPart]
  simp only [hp1] at c2
  simp only [hp2] at c3
  refine ⟨(h1.trans h2).trans h3, fun n hn hn' => ?_⟩
  interval_cases n
  · exact (h2.trans h3).keeps c1
  · exact h3.keeps c2
  · exact c3

/-! ### A cycle with nothing to admit -/

/-- A tier in which nothing waits, after a cycle: its credits are back. -/
def restTier (d : Dev) (x : Tier) : Tier :=
  keepWaiting (fun q => !(getPart d q.part).resetting) (x.returned.foldl takeBack { x with returned := [] })

/-- What rests of a tier: credits are back, and nothing else has changed but the lists of what waits. -/
theorem restTier_frame (d : Dev) (x : Tier) : ∃ h n qs ps, restTier d x = { x with
    held := h, sharedHeld := n, returned := [], queues := qs, pending := ps } ∧
    n = x.sharedHeld - (x.returned.filter (fun c => c.2)).length ∧
    ∀ p, tabGet h p 0 = tabGet x.held p 0 - (x.returned.filter (fun c => !c.2 && c.1 == p)).length := by
  obtain ⟨h, n, he, hn, hh⟩ := foldl_takeBack_frame x.returned { x with returned := [] }
  rw [restTier, he]
  exact ⟨h, n, _, _, rfl, hn, hh⟩

theorem waitingOf_restTier {d : Dev} {x : Tier} (h : waitingOf x = []) : waitingOf (restTier d x) = [] := by
  obtain ⟨k, n, he, -, -⟩ := foldl_takeBack_frame x.returned { x with returned := [] }
  have hx : waitingOf (x.returned.foldl takeBack { x with returned := [] }) = [] := by
    rw [he]
    exact h
  rw [restTier, waitingOf_keepWaiting, hx, List.filter_nil]

theorem arbitrateTier_rests (t : Nat) {d : Dev} (h : d.err.armed = none) (hw : waitingOf (getTier d t) = []) :
    ∃ ti, arbitrateTier t d = { d with tiers := ti } ∧ tabGet ti t {} = restTier d (getTier d t) ∧
      ∀ n, n ≠ t → tabGet ti n {} = getTier d n := by
  have hacc := acceptReturns_calm t h
  have hget : getTier (acceptReturns t d) t = (getTier d t).returned.foldl takeBack { getTier d t with returned := [] } := by
    rw [hacc, getTier_modTier_self]
  have hnone : waitingOf (getTier (acceptReturns t d) t) = [] := by
    obtain ⟨k, n, he, -, -⟩ := foldl_takeBack_frame (getTier d t).returned { getTier d t with returned := [] }
    rw [hget, he]
    exact hw
  have hshed : shedResetting t (acceptReturns t d) =
      modTier t (keepWaiting (fun q => !(getPart (acceptReturns t d) q.part).resetting)) (acceptReturns t d) := by
    simp only [shedResetting, hnone, List.filter_nil, List.foldl_nil]
  have hparts (p : Nat) : getPart (acceptReturns t d) p = getPart d p := by rw [hacc]; rfl
  simp only [hparts] at hshed
  have hrest : getTier (shedResetting t (acceptReturns t d)) t = restTier d (getTier d t) := by
    rw [hshed, getTier_modTier_self, hget, restTier]
  have hall : arbitrateTier t d = shedResetting t (acceptReturns t d) := by
    simp only [arbitrateTier, hrest, waitingOf_restTier hw, List.length_nil, admitAll]
  have hother (n : Nat) (hn : n ≠ t) : getTier (arbitrateTier t d) n = getTier d n := by
    rw [hall, hshed, getTier_modTier_ne hn, hacc, getTier_modTier_ne hn]
  refine ⟨(arbitrateTier t d).tiers, ?_, (congrArg (getTier · t) hall).trans hrest, hother⟩
  rw [hall, hshed, hacc]
  rfl

/-- A cycle in which nothing waits takes the credits back and does nothing else. -/
theorem arbitrate_rests {d : Dev} (h : d.err.armed = none) (hw : ∀ n, 1 ≤ n → n ≤ 3 → waitingOf (getTier d n) = []) :
    ∃ ti, arbitrate d = { d with tiers := ti } ∧ ∀ n, 1 ≤ n → n ≤ 3 → tabGet ti n {} = restTier d (getTier d n) := by
  obtain ⟨t1, e1, g1, o1⟩ := arbitrateTier_rests 1 h (hw 1 (by decide) (by decide))
  obtain ⟨t2, e2, g2, o2⟩ := arbitrateTier_rests (d := { d with tiers := t1 }) 2 h
    ((congrArg waitingOf (o1 2 (by decide))).trans (hw 2 (by decide) (by decide)))
  obtain ⟨t3, e3, g3, o3⟩ := arbitrateTier_rests (d := { d with tiers := t2 }) 3 h
    ((congrArg waitingOf ((o2 3 (by decide)).trans (o1 3 (by decide)))).trans (hw 3 (by decide) (by decide)))
  refine ⟨t3, ?_, fun n hn hn' => ?_⟩
  · rw [arbitrate, e1, e2, e3]
  · interval_cases n
    · exact (o3 1 (by decide)).trans ((o2 1 (by decide)).trans g1)
    · exact (o3 2 (by decide)).trans (g2.trans (congrArg (restTier d) (o1 2 (by decide))))
    · exact g3.trans (congrArg (restTier d) ((o2 3 (by decide)).trans (o1 3 (by decide))))

section
variable {s : State}

theorem arbiterCycle_live (hl : live s.dev = true) : exec .arbiterCycle s = .next (settle { s with dev := arbitrate s.dev }) := by
  have hx : exec .arbiterCycle s = .next (settle { s with dev := if live s.dev then arbitrate s.dev else s.dev }) := rfl
  rw [hx, if_pos hl]

end

/-! ### The hold of idle tiers -/

/-- idle_hold cycles of an idle tier are noted. -/
def noteHold (t : Nat) (d : Dev) : Dev := modTier t (fun x => { x with idle := true }) d

/-- The cluster domains may go: the device runs, and T2 and T3 have both been idle for their hold. -/
def bothHeld (d : Dev) : Bool :=
  d.power.clusters != 0 && d.boot.step == .running && (getTier d 2).idle && (getTier d 3).idle && tierIdle d 2 && tierIdle d 3

theorem noteHold_tier (t n : Nat) (d : Dev) : ∃ i, getTier (noteHold t d) n = { getTier d n with idle := i } ∧
    i = if n = t then true else (getTier d n).idle := by
  by_cases hn : n = t
  · subst hn
    exact ⟨true, getTier_modTier_self .., (if_pos rfl).symm⟩
  · exact ⟨(getTier d n).idle, getTier_modTier_ne hn .., (if_neg hn).symm⟩

theorem noteHold_idle (t : Nat) (d : Dev) : (getTier (noteHold t d) t).idle = true := by rw [noteHold, getTier_modTier_self]

theorem tierIdle_noteHold (t n : Nat) (d : Dev) : tierIdle (noteHold t d) n = tierIdle d n := by
  obtain ⟨i, hi, -⟩ := noteHold_tier t n d
  unfold tierIdle creditsHeld
  rw [hi]
  rfl

/-- What the hold of an idle tier does. -/
def afterHold (t : Nat) (d : Dev) : Dev := if bothHeld (noteHold t d) then clustersDown (noteHold t d) else noteHold t d

section
variable {s : State} {n : Fin 3}

theorem idleHoldExpiry_idle (hl : live s.dev = true) (hi : tierIdle s.dev (n.val + 1) = true) :
    exec (.idleHoldExpiry n) s = .next (settle { s with dev := afterHold (n.val + 1) s.dev }) := by
  have hx : exec (.idleHoldExpiry n) s = .next (settle { s with
    dev := if !live s.dev || !tierIdle s.dev (n.val + 1) then s.dev else afterHold (n.val + 1) s.dev }) := rfl
  rw [hx, if_neg (by simp [hl, hi])]

/-- The hold of a tier while T2 or T3 has not been idle for its own. -/
theorem idleHoldExpiry_notes (h : Settled s) (hl : live s.dev = true) (hi : tierIdle s.dev (n.val + 1) = true)
    (hb : bothHeld (noteHold (n.val + 1) s.dev) = false) {P : State → Prop}
    (hP : ∀ a b p, P { s with dev := { noteHold (n.val + 1) s.dev with power := { s.dev.power with sup := a, isp := b, perk := p } } }) :
    Gives (.idleHoldExpiry n) s P := by
  have hx := idleHoldExpiry_idle hl hi
  rw [afterHold, if_neg (by simp [hb])] at hx
  exact gives_of_quiet hx (h.quiet.mono rfl rfl rfl id) hP

/-- The hold of a tier with which both T2 and T3 have been idle for theirs. -/
theorem idleHoldExpiry_clustersDown (h : Settled s) (hl : live s.dev = true) (ha : s.dev.err.armed = none)
    (hi : tierIdle s.dev (n.val + 1) = true) (hb : bothHeld (noteHold (n.val + 1) s.dev) = true) :
    Gives (.idleHoldExpiry n) s fun t => SameOutside s t ∧ t.dev.tiers = (noteHold (n.val + 1) s.dev).tiers ∧ t.dev.reqs = s.dev.reqs ∧
      t.dev.power.clusters = 0 ∧ t.dev.power.dram = false ∧ t.dev.power.banks = 0 ∧ ∀ u, (getUnit t.dev u).tile = none := by
  obtain ⟨us, _, _, _, _, _, pw, hd, hp, hu⟩ := clustersDown_frame (noteHold (n.val + 1) s.dev) ha
  have hx := idleHoldExpiry_idle hl hi
  rw [afterHold, if_pos hb, hd] at hx
  refine gives_of_camWork hx h.1 h.2.1 fun e _ _ _ hw => ?_
  obtain ⟨_, _, _, _, _, _, _, rfl⟩ := hw
  dsimp only
  rw [hp]
  exact ⟨⟨rfl, rfl, rfl⟩, rfl, rfl, rfl, rfl, rfl, hu⟩

end

theorem bothHeld_of_not_idle {d : Dev} {t : Nat} (ht : t = 2 ∨ t = 3) (h : (getTier d t).idle = false) : bothHeld d = false := by
  rcases ht with rfl | rfl <;> simp [bothHeld, h]

/-- The tier that powers the clusters besides T2 or T3 itself. -/
def otherTier (n : Nat) : Nat := if n = 1 then 3 else 2

theorem noteHold_other {n : Fin 3} (d : Dev) : getTier (noteHold (n.val + 1) d) (otherTier n.val) = getTier d (otherTier n.val) := by
  refine getTier_modTier_ne ?_ _ d
  unfold otherTier
  split <;> omega

/-- T2 and T3 have both been idle for their hold once one has and the other's is noted. -/
theorem bothHeld_noteHold {n : Fin 3} {d : Dev} (hn : 1 ≤ n.val) (hs : d.boot.step = .running) (h2 : tierIdle d 2 = true)
    (h3 : tierIdle d 3 = true) (ho : (getTier d (otherTier n.val)).idle = true) (hc : d.power.clusters ≠ 0) :
    bothHeld (noteHold (n.val + 1) d) = true := by
  have hself := noteHold_idle (n.val + 1) d
  have hother := (congrArg Tier.idle (noteHold_other d)).trans ho
  have hidle : (getTier (noteHold (n.val + 1) d) 2).idle = true ∧ (getTier (noteHold (n.val + 1) d) 3).idle = true := by
    rcases (by omega : n.val = 1 ∨ n.val = 2) with h | h <;> rw [h] at hself hother ⊢
    · exact ⟨hself, hother⟩
    · exact ⟨hother, hself⟩
  have hs' : (noteHold (n.val + 1) d).boot.step = .running := hs
  have hc' : ((noteHold (n.val + 1) d).power.clusters != 0) = true := bne_iff_ne.mpr hc
  simp only [bothHeld, tierIdle_noteHold, hs', hc', h2, h3, hidle.1, hidle.2, BEq.rfl, Bool.and_self]

/-- Settles O16: a cycle takes the returned credits in, and the clusters go once T2 and T3 have been idle for their hold. -/
theorem arbiterCyclesAndIdleTiers : Obligations.ArbiterCyclesAndIdleTiers := by
  refine ⟨fun s h hl ha => ⟨?_, fun hw => ?_⟩, fun s n h hl ha hi => ⟨fun hn => ?_, fun hn hs h2 h3 ho hc => ?_, fun hn ho => ?_⟩⟩
  · obtain ⟨hwork, hrest⟩ := arbitrate_arbiterWork ha
    have hx := arbiterCycle_live hl
    generalize arbitrate s.dev = e at hwork hrest hx
    refine gives_of_quiet hx (hwork.quiet h.quiet) fun _ _ _ => ⟨⟨rfl, rfl, rfl⟩, fun n hn hn' => ?_⟩
    obtain ⟨hr, hq⟩ := hrest n hn hn'
    refine ⟨hr, (hwork.tiers n).arrive, fun q hm => ?_⟩
    have hp : getPart e q.part = getPart s.dev q.part := by rw [getPart, hwork.parts, getPart]
    exact (congrArg Part.resetting hp).trans (hq q hm)
  · obtain ⟨ti, he, ht⟩ := arbitrate_rests ha hw
    have hx := arbiterCycle_live hl
    rw [he] at hx
    refine gives_of_quiet hx (h.quiet.mono rfl rfl rfl id) fun _ _ _ => ⟨rfl, rfl, fun n hn hn' => ?_⟩
    obtain ⟨_, _, _, _, hf, hshared, hheld⟩ := restTier_frame s.dev (getTier s.dev n)
    change (tabGet ti n {}).admits = _ ∧ (tabGet ti n {}).shed = _ ∧ (tabGet ti n {}).sharedHeld = _ ∧
      ∀ p, tabGet (tabGet ti n {}).held p 0 = _
    rw [ht n hn hn', hf]
    exact ⟨rfl, rfl, hshared, hheld⟩
  · cases hb : bothHeld (noteHold (n.val + 1) s.dev) with
    | true =>
      obtain ⟨t, ht, hs, htiers, hreqs, -⟩ := idleHoldExpiry_clustersDown h hl ha hi hb
      have h1 : n.val + 1 = 1 := by omega
      rw [h1] at htiers hb
      refine ⟨t, ht, hs, (congrArg (fun ti => (tabGet ti 1 {}).idle) htiers).trans (noteHold_idle 1 s.dev), hreqs, fun h2 => ?_⟩
      have hnot : bothHeld (noteHold 1 s.dev) = false :=
        bothHeld_of_not_idle (.inl rfl) ((congrArg Tier.idle (getTier_modTier_ne (by decide) _ _)).trans h2)
      exact absurd (hb.symm.trans hnot) (by decide)
    | false =>
      refine idleHoldExpiry_notes h hl hi hb fun _ _ _ => ⟨⟨rfl, rfl, rfl⟩, ?_, rfl, fun _ => ⟨rfl, rfl⟩⟩
      rw [hn]
      exact noteHold_idle 1 s.dev
  · obtain ⟨t, ht, hso, -, hreqs, hdown⟩ := idleHoldExpiry_clustersDown h hl ha hi (bothHeld_noteHold hn hs h2 h3 ho hc)
    obtain ⟨hcl, hdr, hbk, hu⟩ := hdown
    exact ⟨t, ht, hso, hcl, hdr, hbk, hreqs, hu⟩
  · have hother : otherTier n.val = 2 ∨ otherTier n.val = 3 := by
      unfold otherTier
      split <;> simp
    have hb := bothHeld_of_not_idle hother ((congrArg Tier.idle (noteHold_other s.dev)).trans ho)
    exact idleHoldExpiry_notes h hl hi hb fun _ _ _ => ⟨⟨rfl, rfl, rfl⟩, noteHold_idle _ s.dev, rfl, rfl⟩

end Sys2Proof.Machine
end

section
/-! PROOFS. Routing and admission of wakes (R68, R69, R72 to R76, R86, R342). Settles O15. -/

namespace Sys2Proof.Machine

/-! ### Routes -/

/-- The route of a key is the exact entry, failing that the entry of any class. -/
theorem routeOf_some {img : Image} {target stream cls : Nat} {r : Route} (h : routeOf img target stream cls = some r) :
    r ∈ img.routes ∧ r.target = target ∧ r.stream = stream ∧
      (r.cls = cls ∨ (r.cls = 255 ∧ ∀ x ∈ img.routes, ¬ (x.target = target ∧ x.stream = stream ∧ x.cls = cls))) := by
  unfold routeOf at h
  split at h
  next y hy =>
    obtain rfl : y = r := Option.some.inj h
    have hk : (y.target = target ∧ y.stream = stream) ∧ y.cls = cls := by simpa using List.find?_some hy
    exact ⟨List.mem_of_find?_eq_some hy, hk.1.1, hk.1.2, .inl hk.2⟩
  next hy =>
    have hk : (r.target = target ∧ r.stream = stream) ∧ r.cls = 255 := by simpa using List.find?_some h
    have hx : ∀ x ∈ img.routes, ¬ (x.target = target ∧ x.stream = stream ∧ x.cls = cls) := by
      simpa [and_assoc] using List.find?_eq_none.mp hy
    exact ⟨List.mem_of_find?_eq_some h, hk.1.1, hk.1.2, .inr ⟨hk.2, hx⟩⟩

/-- A key has no route where the table holds neither its entry nor that of any class. -/
theorem routeOf_eq_none_iff {img : Image} {target stream cls : Nat} : routeOf img target stream cls = none ↔
    ∀ x ∈ img.routes, ¬ (x.target = target ∧ x.stream = stream ∧ (x.cls = cls ∨ x.cls = 255)) := by
  constructor
  · intro h x hx hk
    unfold routeOf at h
    split at h
    · exact absurd h (by simp)
    next hy =>
      have h1 := List.find?_eq_none.mp hy x hx
      have h2 := List.find?_eq_none.mp h x hx
      obtain ⟨ht, hs, hc⟩ := hk
      rcases hc with hc | hc
      · exact h1 (by simp [ht, hs, hc])
      · exact h2 (by simp [ht, hs, hc])
  · intro h
    by_contra hn
    obtain ⟨r, hr⟩ := Option.ne_none_iff_exists'.mp hn
    obtain ⟨hm, ht, hs, hc⟩ := routeOf_some hr
    exact h r hm ⟨ht, hs, hc.imp_right And.left⟩

/-! ### The request that arrives -/

/-- Scoring a wake changes its score alone. -/
theorem scored_eq (w : Wake) : scored w = { w with score := (scored w).score } := by
  unfold scored
  split <;> rfl

@[simp] theorem scored_target (w : Wake) : (scored w).target = w.target := by rw [scored_eq]

@[simp] theorem scored_stream (w : Wake) : (scored w).stream = w.stream := by rw [scored_eq]

@[simp] theorem scored_cls (w : Wake) : (scored w).cls = w.cls := by rw [scored_eq]

theorem exec_wakeArrival {s : State} {w : Wake} (hw : w.wf = true) : exec (.wakeArrival w) s =
    .next (settle { s with dev := if mayWake w.source w.target then wake (scored w) s.dev else s.dev }) :=
  unlessWf_of_wf (i := .wakeArrival w) hw

/-- A command that leaves a settled device ends there. -/
theorem exec_of_settled {i : Instr} {s : State} {d : Dev} (hx : exec i s = .next (settle { s with dev := d }))
    (h : Settled { s with dev := d }) : exec i s = .next { s with dev := d } := hx.trans (congrArg Host.Outcome.next (settle_eq _ h))

/-- Of the tiers the power domains depend on what T1's credits on their way back and its hold are; on the error record they do not. -/
theorem powerSettled_tiers {d : Dev} {ti : Tab Tier} (er : Err) (hr : (tabGet ti 1 {}).returned = (getTier d 1).returned)
    (hi : (tabGet ti 1 {}).idle = (getTier d 1).idle) (h : PowerSettled d) : PowerSettled { d with tiers := ti, err := er } := by
  have hperk : perkAfter (supWanted d) { d with tiers := ti, err := er } = perkAfter (supWanted d) d := by
    have hr' : (getTier { d with tiers := ti, err := er } 1).returned = (getTier d 1).returned := hr
    have hi' : (getTier { d with tiers := ti, err := er } 1).idle = (getTier d 1).idle := hi
    unfold perkAfter creditsHeld
    rw [hr', hi']
  rw [powerSettled_iff] at h ⊢
  have hsup : supWanted { d with tiers := ti, err := er } = supWanted d := rfl
  rw [hsup, hperk]
  exact h

/-- A change of one tier keeps a fact of another that does not tell it from what it was. -/
theorem tabGet_tabMod_of_same {α : Type} (g : Tier → α) {t n : Nat} {f : Tier → Tier} (h : ∀ x, g (f x) = g x) (ti : Tab Tier) :
    g (tabGet (tabMod ti t {} f) n {}) = g (tabGet ti n {}) := by
  by_cases hn : n = t
  · rw [hn, tabGet_tabMod_self]
    exact h _
  · rw [tabGet_tabMod_ne _ _ _ _ _ _ hn]

/-- A request without a route is counted and recorded. -/
theorem wake_unrouted {w : Wake} {d : Dev} (hl : live d = true) (hr : routeOf d.img w.target w.stream w.cls = none) :
    wake w d = { d with tiers := tabMod d.tiers w.target {} (fun x => { x with unrouted := x.unrouted + 1 })
                        err := errRecord 0x56 none (0, 0) none false d.err } := by
  rw [wake, arrive_of_unrouted none hl hr]
  exact recordAt_info 0x56 none (0, 0) none false _ rfl

theorem wakeArrival_unrouted {s : State} {w : Wake} (h : Settled s) (hl : live s.dev = true) (hw : w.wf = true)
    (hm : mayWake w.source w.target = true) (hr : routeOf s.dev.img w.target w.stream w.cls = none) :
    exec (.wakeArrival w) s = .next { s with dev := { s.dev with
      tiers := tabMod s.dev.tiers w.target {} (fun x => { x with unrouted := x.unrouted + 1 })
      err := errRecord 0x56 none (0, 0) none false s.dev.err } } := by
  have hx := exec_wakeArrival (s := s) hw
  rw [if_pos hm, wake_unrouted hl (by simpa using hr), scored_target] at hx
  have hset := powerSettled_tiers (errRecord 0x56 none (0, 0) none false s.dev.err)
    (tabGet_tabMod_of_same Tier.returned (t := w.target) (f := fun x => { x with unrouted := x.unrouted + 1 }) (fun _ => rfl) s.dev.tiers)
    (tabGet_tabMod_of_same Tier.idle (t := w.target) (f := fun x => { x with unrouted := x.unrouted + 1 }) (fun _ => rfl) s.dev.tiers) h.2.2
  generalize errRecord 0x56 none (0, 0) none false s.dev.err = er at hx hset ⊢
  exact exec_of_settled hx ⟨h.1, h.2.1, hset⟩

theorem onLane_iff (w : Wake) : onLane w = true ↔ w.target ≠ 1 ∧ w.source ≠ 3 ∧ w.stream ≠ 255 := by
  simp [onLane, and_assoc]

/-- A tier with no credit to take back and nothing waiting, after a cycle. -/
theorem restTier_calm {d : Dev} {x : Tier} (hr : x.returned = []) (hw : waitingOf x = []) :
    ∃ qs, restTier d x = { x with queues := qs, pending := [] } := by
  obtain ⟨-, hp⟩ : _ ∧ x.pending = [] := by simpa [waitingOf] using hw
  have hx : { x with returned := [] } = x := by rw [← hr]
  rw [restTier, hr, List.foldl_nil, hx, keepWaiting, hp, List.filter_nil]
  exact ⟨_, by rw [hr]⟩

/-- The tier of an arrival when the arbiter comes to it, qs being its empty queues. -/
def arrivedTier (qs : Tab (List WReq)) (x : Tier) : Tier :=
  { x with queues := qs, pending := [], next := (x.next + 1) % 4294967296, arrive := x.arrive + 1, idle := false }

/-- An arrival at an arbiter that has nothing else to do. -/
theorem wake_calm {w : Wake} {d : Dev} {r : Route} (hl : live d = true) (ha : d.err.armed = none) (h1 : 1 ≤ w.target) (h3 : w.target ≤ 3)
    (hr : routeOf d.img w.target w.stream w.cls = some r)
    (hrest : ∀ t, 1 ≤ t → t ≤ 3 → (getTier d t).returned = [] ∧ waitingOf (getTier d t) = []) :
    ∃ ti qs, wake w d = placeArrival (requestOf w none r (getTier d w.target)) (tabGet (getTier d w.target).highest w.stream 0)
      { d with tiers := ti } ∧ tabGet ti w.target {} = arrivedTier qs (getTier d w.target) := by
  obtain ⟨ti, he, hti⟩ := arbitrate_rests ha fun n hn hn' => (hrest n hn hn').2
  obtain ⟨qs, hq⟩ := restTier_calm (d := d) (hrest _ h1 h3).1 (hrest _ h1 h3).2
  have hx : getTier (arbitrate d) w.target = { getTier d w.target with queues := qs, pending := [] } := by
    rw [he]
    exact (hti _ h1 h3).trans hq
  have hy : wake w d = _ := congrArg Prod.snd (arrive_of_route none hl hr)
  refine ⟨(countArrival w.target (arbitrate d)).tiers, qs, ?_, ?_⟩
  · rw [hy, hx, he]
    rfl
  · exact (getTier_modTier_self _ _ _).trans (by rw [hx]; rfl)

/-! ### Shed, admitted, pended -/

/-- A request without a turn that is shed is counted, and its shedding recorded. -/
theorem shed_frame (t : Nat) {q : WReq} (h : q.turn = none) (d : Dev) : ∃ er i m, shed t q d = { d with
    tiers := tabMod d.tiers t {} (fun x => { x with shed := x.shed + 1 }), err := er, host := { d.host with ibis := i, ibiMerged := m } } := by
  obtain ⟨i, m, hr⟩ := record_frame 0x54 (some q.part) (6, t) (modTier t (fun x => { x with shed := x.shed + 1 }) d)
  rw [shed, hr, shedTurn, h]
  exact ⟨_, _, _, rfl⟩

/-- The copy of a grant's window touches a mover, the free values, and the tier's count of clamped grants. -/
theorem copyGrant_frame (t : Nat) (g : Option (Grant × Nat)) (d : Dev) : ∃ ti mv k c, copyGrant t g d =
    { d with tiers := ti, mov := mv, freeCtr := k } ∧ tabGet ti t {} = { getTier d t with clamp := c } := by
  unfold copyGrant
  extract_lets e
  have he : ∃ mv k, e = { d with mov := mv, freeCtr := k } := by
    unfold e
    split
    · split <;> exact ⟨_, _, rfl⟩
    · exact ⟨_, _, rfl⟩
  obtain ⟨mv, k, he⟩ := he
  rw [he]
  split
  · exact ⟨_, _, _, _, rfl, rfl⟩
  · exact ⟨_, _, _, _, rfl, tabGet_tabMod_self _ _ _ _ _⟩

/-- What wakes for an admitted request leaves the tiers and the requests. -/
theorem wakeTier_keeps (t : Nat) (q : WReq) (d : Dev) (h : d.err.armed = none) : (wakeTier t q d).tiers = d.tiers ∧
    (wakeTier t q d).reqs = d.reqs ∧ (wakeTier t q d).nextOrder = d.nextOrder := by
  unfold wakeTier
  extract_lets e
  split
  · exact ⟨rfl, rfl, rfl⟩
  · have he : e.tiers = d.tiers ∧ e.reqs = d.reqs ∧ e.nextOrder = d.nextOrder := by
      obtain ⟨_, _, _, _, _, _, _, _, _, _, _, _, hw, -, -⟩ := (clustersUp_clusterWork d h).1
      rw [show e = _ from hw]
      exact ⟨rfl, rfl, rfl⟩
    split
    · obtain ⟨i, m, hi⟩ := ibi_frame 3 t q.w.stream q.part e
      rw [hi]
      exact he
    · exact he

theorem le_length (n v : Nat) : (le n v).length = n := by simp [le]

/-- The wake descriptor begins with the 16 bytes of the request (Table 3.6). -/
theorem wakeDescriptor_begins (img : Image) (q : WReq) (zf : Nat) (start : Int) :
    slice (wakeDescriptor img q zf start) 0 16 = wakeBytes img q := by
  have hl : (wakeBytes img q).length = 16 := by simp [wakeBytes, le_length]
  simp only [slice, wakeDescriptor, List.drop_zero, List.append_assoc]
  exact List.take_left' hl

/-- A request without a turn that a floor credit admits. -/
theorem admitReq_floor {t : Nat} {q : WReq} {d : Dev} (ha : d.err.armed = none) (hq : q.turn = none) (hf : 0 < floorFree d t q.part) :
    ∃ c rq, getTier (admitReq t q d) t = { getTier d t with
        admits := (getTier d t).admits + 1, idle := false, held := tabMod (getTier d t).held q.part 0 (fun n => n + 1), clamp := c } ∧
      (admitReq t q d).reqs = d.reqs ++ [rq] ∧ (admitReq t q d).nextOrder = d.nextOrder + 1 ∧
      rq.tier = t ∧ rq.order = d.nextOrder ∧ rq.q = q ∧ rq.ended = none ∧ slice rq.descriptor 0 16 = wakeBytes d.img q := by
  have hshared : (floorFree d t q.part == 0) = false := by simpa using hf.ne'
  obtain ⟨g, hadmit⟩ : ∃ g, admitReq t q d =
      wakeTier t q (copyGrant t g (enterReq t q false g (modTier t (withCredit false q.part) d))) := by
    have h := admitReq_eq t q d
    simp only [takeCredit_calm t q ha, tap_calm _ _ _ _ d ha, hshared] at h
    exact ⟨_, h⟩
  have hprompt (e : Dev) : takePrompt q e = e := by simp [takePrompt, hq]
  obtain ⟨rq, henter, hrq⟩ : ∃ rq, enterReq t q false g (modTier t (withCredit false q.part) d) =
      { modTier t (withCredit false q.part) d with reqs := d.reqs ++ [rq], nextOrder := d.nextOrder + 1 } ∧ rq.tier = t ∧
      rq.order = d.nextOrder ∧ rq.q = q ∧ rq.ended = none ∧ slice rq.descriptor 0 16 = wakeBytes d.img q := by
    unfold enterReq
    rw [hprompt]
    exact ⟨_, rfl, rfl, rfl, rfl, rfl, wakeDescriptor_begins _ q _ _⟩
  obtain ⟨ti, mv, k, c, hcopy, hti⟩ := copyGrant_frame t g (enterReq t q false g (modTier t (withCredit false q.part) d))
  rw [henter] at hcopy hti hadmit
  obtain ⟨h1, h2, h3⟩ := wakeTier_keeps t q (copyGrant t g { modTier t (withCredit false q.part) d with
    reqs := d.reqs ++ [rq], nextOrder := d.nextOrder + 1 }) (by rw [hcopy]; exact ha)
  rw [hadmit]
  refine ⟨c, rq, ?_, h2.trans (congrArg Dev.reqs hcopy), h3.trans (congrArg Dev.nextOrder hcopy), hrq⟩
  rw [getTier, h1, hcopy, hti]
  exact congrArg (fun x : Tier => { x with clamp := c }) (getTier_modTier_self t (withCredit false q.part) d)

/-- The lane's highest onset follows the arrival; nothing else of the device does. -/
theorem noteOnset_frame (w : Wake) (d : Dev) : ∃ ti hi, noteOnset w d = { d with tiers := ti } ∧
    tabGet ti w.target {} = { getTier d w.target with highest := hi } := by
  unfold noteOnset
  split
  · exact ⟨_, _, rfl, tabGet_tabMod_self _ _ _ _ _⟩
  · exact ⟨_, _, rfl, rfl⟩

/-- A request that is not shed is admitted where it is eligible, and held where it is not (R74). -/
def admitOrHold (t : Nat) (q : WReq) (d : Dev) : Dev := if eligible d t q.part then admitReq t q d else holdRequest t q d

section
variable {q : WReq} {top : Nat} {d : Dev}

theorem placeArrival_stale (hp : (getPart d q.part).resetting = false) (hs : onLane q.w = true ∧ q.w.onset < top) :
    placeArrival q top d = shed q.w.target q (modSched (fun c => { c with stale := c.stale + 1 }) d) := by
  simp [placeArrival, hp, hs]

theorem placeArrival_fresh (hp : (getPart d q.part).resetting = false) (hs : ¬ (onLane q.w = true ∧ q.w.onset < top)) :
    placeArrival q top d = admitOrHold q.w.target q (noteOnset q.w d) := by
  unfold placeArrival
  dsimp only
  rw [if_neg (by simp [hp]), if_neg hs, admitOrHold]

end

/-- A free floor credit makes a request of a partition that runs eligible (R73). -/
theorem eligible_of_floor {d : Dev} {t p : Nat} (ht : tierRuns d t = true) (hs : (getPart d p).stopped = false)
    (hr : (getPart d p).resetting = false) (hf : frozen d 0 t = false) (h : 0 < floorFree d t p) : eligible d t p = true := by
  simp [eligible, ht, hs, hr, hf, h]

theorem not_eligible_of_stopped {d : Dev} (t : Nat) {p : Nat} (hs : (getPart d p).stopped = true) : eligible d t p = false := by
  simp [eligible, hs]

/-- A video request finds its pending slot empty. -/
theorem holdRequest_pends {t : Nat} {q : WReq} {d : Dev} (hv : videoFlag d.img q.w = true) (hp : (getTier d t).pending = []) :
    holdRequest t q d = modTier t (fun y => { y with pending := y.pending ++ [q] }) d := by
  simp [holdRequest, hv, hp]

/-! ### An arrival at an arbiter with nothing else to do -/

/-- A routed request arrives at a live device whose arbiter has nothing else to do. -/
structure CalmArrival (s : State) (w : Wake) (r : Route) : Prop where
  settled : Settled s
  live : live s.dev = true
  armed : s.dev.err.armed = none
  wf : w.wf = true
  may : mayWake w.source w.target = true
  route : routeOf s.dev.img w.target w.stream w.cls = some r
  resetting : (getPart s.dev r.part).resetting = false
  rest : ∀ t, 1 ≤ t → t ≤ 3 → (getTier s.dev t).returned = [] ∧ waitingOf (getTier s.dev t) = []

/-- The request that the arrival makes. -/
def arrivalOf (s : State) (w : Wake) (r : Route) : WReq := requestOf (scored w) none r (getTier s.dev w.target)

/-- The arrival's onset lies before the highest of its device lane (R342). -/
def StaleArrival (s : State) (w : Wake) : Prop := onLane w = true ∧ w.onset < tabGet (getTier s.dev w.target).highest w.stream 0

section
variable {s : State} {w : Wake} {r : Route}

/-- What the arrival brings about before what follows from it, ti being the tiers once the arrival is counted. -/
theorem CalmArrival.brings (h : CalmArrival s w r) : ∃ ti qs, exec (.wakeArrival w) s =
    .next (settle { s with
      dev := placeArrival (arrivalOf s w r) (tabGet (getTier s.dev w.target).highest w.stream 0) { s.dev with tiers := ti } }) ∧
    tabGet ti w.target {} = arrivedTier qs (getTier s.dev w.target) := by
  have hwf := h.wf
  simp only [Wake.wf, Bool.and_eq_true, decide_eq_true_eq] at hwf
  obtain ⟨⟨⟨⟨⟨⟨-, h1⟩, h3⟩, -⟩, -⟩, -⟩, -⟩ := hwf
  obtain ⟨ti, qs, hx, ht⟩ := wake_calm (w := scored w) h.live h.armed (by simpa using h1) (by simpa using h3) (by simpa using h.route) h.rest
  rw [scored_target, scored_stream] at hx
  rw [scored_target] at ht
  refine ⟨ti, qs, (exec_wakeArrival h.wf).trans ?_, ht⟩
  rw [if_pos h.may, hx]
  rfl

theorem arrivalOf_wake (s : State) (w : Wake) (r : Route) : ∃ n, (arrivalOf s w r).w = { w with score := n } := ⟨_, scored_eq w⟩

/-- A stale arrival is shed. -/
theorem CalmArrival.stale (h : CalmArrival s w r) (hs : StaleArrival s w) : Gives (.wakeArrival w) s fun t => SameOutside s t ∧
    (getTier t.dev w.target).arrive = (getTier s.dev w.target).arrive + 1 ∧
    (getTier t.dev w.target).shed = (getTier s.dev w.target).shed + 1 ∧
    (getTier t.dev w.target).admits = (getTier s.dev w.target).admits ∧ t.dev.sched.stale = s.dev.sched.stale + 1 ∧
    t.dev.reqs = s.dev.reqs ∧ t.dev.mem = s.dev.mem := by
  obtain ⟨ti, qs, hx, hti⟩ := h.brings
  obtain ⟨n, hw⟩ := arrivalOf_wake s w r
  rw [placeArrival_stale h.resetting (by rw [hw]; exact hs)] at hx
  have ht : (arrivalOf s w r).w.target = w.target := by rw [hw]
  obtain ⟨er, i, m, hshed⟩ := shed_frame (arrivalOf s w r).w.target (q := arrivalOf s w r) rfl
    (modSched (fun c => { c with stale := c.stale + 1 }) { s.dev with tiers := ti })
  rw [hshed, ht] at hx
  refine gives_of_quiet hx (h.settled.quiet.mono rfl rfl rfl id) fun _ _ _ => ⟨⟨rfl, rfl, rfl⟩, ?_⟩
  have hget : tabGet (tabMod ti w.target {} (fun x => { x with shed := x.shed + 1 })) w.target {} = _ := tabGet_tabMod_self _ _ _ _ _
  rw [hti] at hget
  have harrive := congrArg Tier.arrive hget
  have hcount := congrArg Tier.shed hget
  have hadmits := congrArg Tier.admits hget
  exact ⟨harrive, hcount, hadmits, rfl, rfl, rfl⟩

/-- An arrival that is not stale notes its onset and is admitted or held. -/
theorem CalmArrival.fresh (h : CalmArrival s w r) (hs : ¬ StaleArrival s w) : ∃ ti qs hi, exec (.wakeArrival w) s =
    .next (settle { s with dev := admitOrHold w.target (arrivalOf s w r) { s.dev with tiers := ti } }) ∧
    tabGet ti w.target {} = { arrivedTier qs (getTier s.dev w.target) with highest := hi } := by
  obtain ⟨ti, qs, hx, hti⟩ := h.brings
  obtain ⟨n, hw⟩ := arrivalOf_wake s w r
  have ht : (arrivalOf s w r).w.target = w.target := by rw [hw]
  obtain ⟨tj, hi, hn, htj⟩ := noteOnset_frame (arrivalOf s w r).w { s.dev with tiers := ti }
  rw [placeArrival_fresh h.resetting (by rw [hw]; exact hs), hn, ht] at hx
  rw [ht] at htj
  exact ⟨tj, qs, hi, hx, htj.trans (congrArg (fun x : Tier => { x with highest := hi }) hti)⟩

/-- A request with a free floor credit is admitted at once. -/
theorem CalmArrival.admitted (h : CalmArrival s w r) (hs : ¬ StaleArrival s w) (hruns : tierRuns s.dev w.target = true)
    (hstop : (getPart s.dev r.part).stopped = false) (hfr : frozen s.dev 0 w.target = false)
    (hfloor : tabGet (getTier s.dev w.target).held r.part 0 < floorOf s.dev.img r.part w.target) :
    Gives (.wakeArrival w) s fun t => SameOutside s t ∧
      (getTier t.dev w.target).arrive = (getTier s.dev w.target).arrive + 1 ∧
      (getTier t.dev w.target).admits = (getTier s.dev w.target).admits + 1 ∧
      (getTier t.dev w.target).shed = (getTier s.dev w.target).shed ∧
      tabGet (getTier t.dev w.target).held r.part 0 = tabGet (getTier s.dev w.target).held r.part 0 + 1 ∧
      (getTier t.dev w.target).sharedHeld = (getTier s.dev w.target).sharedHeld ∧ t.dev.nextOrder = s.dev.nextOrder + 1 ∧
      ∃ q, t.dev.reqs = s.dev.reqs ++ [q] ∧ q.tier = w.target ∧ q.order = s.dev.nextOrder ∧ q.q.w = scored w ∧ q.q.part = r.part ∧
        q.q.graph = r.graph ∧ q.q.arrival = (getTier s.dev w.target).next ∧ q.ended = none ∧
        slice q.descriptor 0 16 = wakeBytes s.dev.img q.q := by
  obtain ⟨ti, qs, hi, hx, hti⟩ := h.fresh hs
  have hfree : 0 < floorFree { s.dev with tiers := ti } w.target r.part := by
    have : tabGet (getTier { s.dev with tiers := ti } w.target).held r.part 0 = tabGet (getTier s.dev w.target).held r.part 0 := by
      rw [getTier, hti]
      rfl
    rw [floorFree, this]
    exact Nat.sub_pos_of_lt hfloor
  have hel : eligible { s.dev with tiers := ti } w.target r.part = true :=
    eligible_of_floor (d := { s.dev with tiers := ti }) hruns hstop h.resetting hfr hfree
  have hadmit : admitOrHold w.target (arrivalOf s w r) { s.dev with tiers := ti } =
      admitReq w.target (arrivalOf s w r) { s.dev with tiers := ti } := if_pos hel
  rw [hadmit] at hx
  have hq : Quiet { s.dev with tiers := ti } := h.settled.quiet.mono rfl rfl rfl id
  have hwork := admitReq_arbiterWork w.target (arrivalOf s w r) { s.dev with tiers := ti } h.armed
  obtain ⟨c, rq, htier, hreqs, horder, hrt, hro, hrq, hre, hrd⟩ :=
    admitReq_floor (t := w.target) (q := arrivalOf s w r) (d := { s.dev with tiers := ti }) h.armed rfl hfree
  have hrest : getTier { s.dev with tiers := ti } w.target = { arrivedTier qs (getTier s.dev w.target) with highest := hi } := hti
  rw [hrest] at htier
  generalize admitReq w.target (arrivalOf s w r) { s.dev with tiers := ti } = e at hx hwork htier hreqs horder
  have harrive := congrArg Tier.arrive htier
  have hadmits := congrArg Tier.admits htier
  have hshed := congrArg Tier.shed htier
  have hshared := congrArg Tier.sharedHeld htier
  have hheld := (congrArg (fun x : Tier => tabGet x.held r.part 0) htier).trans (tabGet_tabMod_self _ _ _ _ _)
  refine gives_of_quiet hx (hwork.quiet hq) fun _ _ _ => ⟨⟨rfl, rfl, rfl⟩, harrive, hadmits, hshed, hheld, hshared, horder,
    rq, hreqs, hrt, hro, ?_⟩
  rw [hrq]
  exact ⟨rfl, rfl, rfl, rfl, hre, hrd⟩

/-- A video request of a stopped partition waits in its pending slot. -/
theorem CalmArrival.pended (h : CalmArrival s w r) (hs : ¬ StaleArrival s w) (hstop : (getPart s.dev r.part).stopped = true)
    (hv : videoFlag s.dev.img w = true) : Gives (.wakeArrival w) s fun t => SameOutside s t ∧
      (getTier t.dev w.target).arrive = (getTier s.dev w.target).arrive + 1 ∧
      (getTier t.dev w.target).admits = (getTier s.dev w.target).admits ∧
      (getTier t.dev w.target).shed = (getTier s.dev w.target).shed ∧ t.dev.reqs = s.dev.reqs ∧ t.dev.mem = s.dev.mem ∧
      ∃ q, (getTier t.dev w.target).pending = [q] ∧ q.w = scored w ∧ q.part = r.part ∧ q.arrival = (getTier s.dev w.target).next := by
  obtain ⟨ti, qs, hi, hx, hti⟩ := h.fresh hs
  have hnot : eligible { s.dev with tiers := ti } w.target r.part = false :=
    not_eligible_of_stopped (d := { s.dev with tiers := ti }) w.target hstop
  have hhold : admitOrHold w.target (arrivalOf s w r) { s.dev with tiers := ti } =
      holdRequest w.target (arrivalOf s w r) { s.dev with tiers := ti } := if_neg (ne_true_of_eq_false hnot)
  have hvideo : videoFlag s.dev.img (arrivalOf s w r).w = true := by
    obtain ⟨n, hw⟩ := arrivalOf_wake s w r
    rw [hw]
    exact hv
  have hempty : (getTier { s.dev with tiers := ti } w.target).pending = [] := by
    rw [getTier, hti]
    rfl
  rw [hhold, holdRequest_pends (d := { s.dev with tiers := ti }) hvideo hempty] at hx
  have hget := getTier_modTier_self w.target (fun y => { y with pending := y.pending ++ [arrivalOf s w r] }) { s.dev with tiers := ti }
  rw [show getTier { s.dev with tiers := ti } w.target = _ from hti] at hget
  have harrive := congrArg Tier.arrive hget
  have hadmits := congrArg Tier.admits hget
  have hshed := congrArg Tier.shed hget
  have hpending := congrArg Tier.pending hget
  exact gives_of_quiet hx (h.settled.quiet.mono rfl rfl rfl id) fun _ _ _ =>
    ⟨⟨rfl, rfl, rfl⟩, harrive, hadmits, hshed, rfl, rfl, arrivalOf s w r, hpending, rfl, rfl, rfl⟩

end

/-- Settles O15: a wake goes where its route says, or nowhere, and is shed, admitted or pended there. -/
theorem wakesAreRoutedAndAdmitted : Obligations.WakesAreRoutedAndAdmitted := by
  refine ⟨fun img target stream cls => ⟨fun r => routeOf_some, routeOf_eq_none_iff.mp⟩, fun s w h hl hw =>
    ⟨fun hm => ?_, fun hm hr => ?_⟩, ?_⟩
  · rw [exec_wakeArrival hw, if_neg (by simp [hm]), settle_eq s h]
  · exact wakeArrival_unrouted h hl hw hm (routeOf_eq_none_iff.mpr hr)
  · intro s w r h hl ha hw hm hr hp hrest x lane stale
    have hc : CalmArrival s w r := ⟨h, hl, ha, hw, hm, hr, hp, hrest⟩
    have hstale : StaleArrival s w ↔ stale := and_congr_left' (onLane_iff w)
    exact ⟨fun hs => hc.stale (hstale.mpr hs), fun hs => hc.admitted (mt hstale.mp hs), fun hs => hc.pended (mt hstale.mp hs)⟩

end Sys2Proof.Machine
end

section
/-! PROOFS. What the commands of the camera share: their outcome, the tables, records of INFO codes, packet headers (R112, R113). -/

namespace Sys2Proof.Machine

/-! ### The outcome of a command -/

/-- Work of the camera leaves nothing to follow from it. -/
theorem CamWork.settled {s : State} {d : Dev} (h : Settled s) (hw : CamWork s.dev d) : Settled { s with dev := d } := by
  obtain ⟨ht, hr, hp⟩ := h
  obtain ⟨_, _, _, _, _, _, _, rfl⟩ := hw
  exact ⟨ht, hr, powerSettled_congr s.dev _ rfl rfl rfl rfl rfl rfl rfl rfl hp⟩

/-- A command that does work of the camera ends where its meaning ends. -/
theorem exec_of_camWork {i : Instr} {s : State} {d : Dev} (h : Settled s) (hx : exec i s = .next (settle { s with dev := d }))
    (hw : CamWork s.dev d) : exec i s = .next { s with dev := d } := exec_of_settled hx (hw.settled h)

theorem gives_of_exec {i : Instr} {s t : State} {P : State → Prop} (hx : exec i s = .next t) (hP : P t) : Gives i s P := ⟨t, hx, hP⟩

/-! ### Entries of the camera's tables -/

@[simp] theorem getStream_modStream_self (n : Nat) (f : CamStream → CamStream) (d : Dev) :
    getStream (modStream n f d) n = f (getStream d n) := tabGet_tabMod_self _ _ _ _ _

@[simp] theorem getSensor_modSensor_self (n : Nat) (f : Sensor → Sensor) (d : Dev) :
    getSensor (modSensor n f d) n = f (getSensor d n) := tabGet_tabMod_self _ _ _ _ _

@[simp] theorem csiFrame_putCsi_self (p v : Nat) (c : CsiFrame) (d : Dev) : csiFrame (putCsi p v c d) p v = some c :=
  tabGet?_tabSet_self _ _ _

theorem lookupKey_filter_ne {α : Type} (k : Nat) (l : List (Nat × α)) : lookupKey k (l.filter (fun c => c.1 != k)) = none := by
  induction l with
  | nil => rfl
  | cons c r ih =>
    by_cases h : c.1 = k
    · simpa [h] using ih
    · rw [List.filter_cons_of_pos (by simpa using h), lookupKey, if_neg (Ne.symm h), ih]

/-- An entry taken out of a table is not listed. -/
@[simp] theorem tabGet?_tabDrop_self {α : Type} (t : Tab α) (k : Nat) : tabGet? (tabDrop t k) k = none := lookupKey_filter_ne k t.cells

/-! ### INFO codes -/

theorem record_of_info {c : Nat} (h : severity c = 0) (p : Option Nat) (k : Nat × Nat) (d : Dev) :
    record c p k d = { d with err := errRecord c p k none false d.err } := recordAt_info c p k none false d h

theorem info_of_info {c : Nat} (h : severity c = 0) (d : Dev) : info c d = { d with err := errRecord c none (0, 0) none false d.err } :=
  record_of_info h none (0, 0) d

/-- An INFO code recorded a number of times enters the error record and arms nothing. -/
theorem infoN_of_info {c : Nat} (h : severity c = 0) : ∀ (n : Nat) (d : Dev), ∃ er, infoN c n d = { d with err := er } ∧ er.armed = d.err.armed
  | 0, d => ⟨d.err, rfl, rfl⟩
  | n + 1, d => by
    obtain ⟨er, he, ha⟩ := infoN_of_info h n (info c d)
    rw [info_of_info h] at he ha
    exact ⟨er, by rw [infoN, info_of_info h, he], ha.trans (errRecord_armed _ _ _ _ _ _)⟩

/-! ### Packet headers (R113) -/

/-- A packet whose header's ECC fails is dropped. -/
theorem header_bad (p : Nat) (d : Dev) : header p .bad d = (false, { d with
    cam := { d.cam with ports := tabMod d.cam.ports p {} (fun c => { c with eccDrop := c.eccDrop + 1 }) }
    err := errRecord 0x50 none (0, 0) none false d.err }) :=
  Prod.ext rfl (recordAt_info 0x50 none (0, 0) none false _ rfl)

theorem header_corrected (p : Nat) (d : Dev) : header p .corrected d = (true, { d with
    cam := { d.cam with ports := tabMod d.cam.ports p {} (fun c => { c with eccCorr := c.eccCorr + 1 }) } }) := rfl

theorem header_ok (p : Nat) {d : Dev} (h : d.err.armed = none) : header p .ok d = (true, d) := by
  have ha : armedOn d 9 p = none := by simp [armedOn, h]
  simp only [header, ha]

section
variable {s : State} {p : Fin 4} {v : Fin 16} {ecc : Ecc} {used : Bool} {d : Dev}

/-- The CSI-2 frame that a frame start begins: what each pipe-1 stream of it finds of its raw buffers (R115, R124). -/
def startedCsi (port vc fn : Nat) (d : Dev) : CsiFrame := { fn := fn, claims := (streamsOn d.img port vc).filterMap (claimOf d) }

theorem exec_csi2FrameStart {fn : Nat} (hf : fn < 65536) (hrx : rxOn s.dev p.val v.val = true) (hh : header p.val ecc s.dev = (used, d)) :
    exec (.csi2FrameStart p v fn ecc) s = .next (settle { s with
      dev := if used then putCsi p.val v.val (startedCsi p.val v.val fn (closeCsi p.val v.val d)) (closeCsi p.val v.val d)
        else loseStart p.val v.val d }) := by
  refine (unlessWf_of_wf (i := .csi2FrameStart p v fn ecc) (decide_eq_true hf)).trans ?_
  simp only [devStep, hrx, hh, if_true, startedCsi]

theorem exec_csi2LongPacket {dt : Nat} {b : Bytes} {ok : Bool} (hrx : rxOn s.dev p.val v.val = true)
    (hh : header p.val ecc s.dev = (used, d)) : exec (.csi2LongPacket p v dt b ok ecc) s =
      .next (settle { s with dev := if used then longPacket p.val v.val dt b ok d else d }) := by
  change execCsi2LongPacket p v dt b ok ecc s = _
  simp only [execCsi2LongPacket, devStep, hrx, hh, if_true]

/-- A frame end that is used closes the CSI-2 frame; then blocks that wait on a stream whose frame ends start (R131). -/
def endCsi (port vc : Nat) (d : Dev) : Dev :=
  ((streamsOn d.img port vc).filter (fun r => (getStream d r.stream).openFrame.isSome)).foldl (fun e r => startBlock r e)
    (freshBus (closeCsi port vc d))

theorem exec_csi2FrameEnd (hrx : rxOn s.dev p.val v.val = true) (hh : header p.val ecc s.dev = (used, d)) :
    exec (.csi2FrameEnd p v ecc) s = .next (settle { s with dev := if used then endCsi p.val v.val d else d }) := by
  change execCsi2FrameEnd p v ecc s = _
  simp only [execCsi2FrameEnd, devStep, hrx, hh, if_true]
  rfl

end

/-! ### Bytes written and read -/

@[simp] theorem fit_length (n : Nat) (b : Bytes) : (fit n b).length = n := by simp [fit, zeros]

/-- The first bytes of a write are read back. -/
theorem memRead_memWrite {m : Mem} (h : m.wf = true) (a : Nat) {n : Nat} {b : Bytes} (hn : n ≤ b.length) :
    memRead (memWrite m a b) a n = b.take n := by
  refine List.ext_getElem (by simp [memRead, hn]) fun i hi _ => ?_
  have hi : i < n := by simpa [memRead] using hi
  simp [memRead, memByte_memWrite_in b m a i h (hi.trans_le hn)]

/-! ### Frame ends and settings blocks that do nothing -/

theorem closeCsi_of_none {port vc : Nat} {d : Dev} (h : csiFrame d port vc = none) : closeCsi port vc d = d := by
  simp only [closeCsi, h]

theorem settleHeld_of_none {r : CamRec} {d : Dev} (h : (getSensor d r.sensor).held = none) : settleHeld r d = d := by
  simp only [settleHeld, h]

/-- A block that starts is sent from its sensor's entry; nothing else of the camera changes. -/
theorem startBlock_frame (r : CamRec) (d : Dev) : ∃ ss ops, startBlock r d = { d with cam := { d.cam with sensors := ss, issued := ops } } := by
  unfold startBlock
  extract_lets x
  split
  · split <;> exact ⟨_, _, rfl⟩
  · exact ⟨_, _, rfl⟩

end Sys2Proof.Machine
end

section
/-! PROOFS. Frame starts, the two pipes, and thumbnails (R113, R115, R119, R120, R123, R124). Settles O19. -/

namespace Sys2Proof.Machine

/-! ### Packets whose header's ECC fails or is corrected -/

/-- The device once a packet of a port is dropped for its header. -/
def headerDropped (port : Nat) (d : Dev) : Dev := { d with
  cam := { d.cam with ports := tabMod d.cam.ports port {} (fun c => { c with eccDrop := c.eccDrop + 1 }) }
  err := errRecord 0x50 none (0, 0) none false d.err }

theorem headerDropped_camWork (port : Nat) (d : Dev) : CamWork d (headerDropped port d) :=
  ⟨_, _, d.host.ibis, d.host.ibiMerged, d.mem, d.mov.ddr, d.freeCtr, rfl⟩

section
variable {s : State} {p : Fin 4} {v : Fin 16}

theorem frameStart_bad (h : Settled s) (hrx : rxOn s.dev p.val v.val = true) {fn : Nat} (hf : fn < 65536) :
    exec (.csi2FrameStart p v fn .bad) s = .next { s with dev := loseStart p.val v.val (headerDropped p.val s.dev) } := by
  refine exec_of_camWork h (exec_csi2FrameStart hf hrx (header_bad p.val s.dev)) ((headerDropped_camWork p.val s.dev).trans ?_)
  unfold loseStart
  split
  · exact .cam _ _
  · exact .refl _

theorem longPacket_bad (h : Settled s) (hrx : rxOn s.dev p.val v.val = true) (dt : Nat) (b : Bytes) (ok : Bool) :
    exec (.csi2LongPacket p v dt b ok .bad) s = .next { s with dev := headerDropped p.val s.dev } :=
  exec_of_camWork h (exec_csi2LongPacket hrx (header_bad p.val s.dev)) (headerDropped_camWork p.val s.dev)

theorem frameEnd_bad (h : Settled s) (hrx : rxOn s.dev p.val v.val = true) :
    exec (.csi2FrameEnd p v .bad) s = .next { s with dev := headerDropped p.val s.dev } :=
  exec_of_camWork h (exec_csi2FrameEnd hrx (header_bad p.val s.dev)) (headerDropped_camWork p.val s.dev)

/-- A packet that follows a lost frame start belongs to no frame. -/
theorem longPacket_lost {port vc dt : Nat} {b : Bytes} {c : CsiFrame} {d : Dev} (hd : supportedLong dt = true)
    (hc : csiFrame d port vc = some c) (hl : c.lost = true) : longPacket port vc dt b true d = d := by
  simp [longPacket, hd, hc, hl]

/-- A frame start that is used, d being the device after its header, where no CSI-2 frame is in reception. -/
theorem frameStart_used (h : Settled s) (hrx : rxOn s.dev p.val v.val = true) {fn : Nat} (hf : fn < 65536) {ecc : Ecc} {ports : Tab CamPort}
    (hh : header p.val ecc s.dev = (true, { s.dev with cam := { s.dev.cam with ports := ports } }))
    (hc : csiFrame s.dev p.val v.val = none) :
    exec (.csi2FrameStart p v fn ecc) s = .next { s with dev := { s.dev with cam := { s.dev.cam with
      ports := ports
      rx := tabSet s.dev.cam.rx (p.val * 16 + v.val) (startedCsi p.val v.val fn s.dev) } } } := by
  have hx := exec_csi2FrameStart hf hrx hh
  rw [closeCsi_of_none (d := { s.dev with cam := { s.dev.cam with ports := ports } }) hc, if_pos rfl] at hx
  exact exec_of_camWork h hx (.cam _ _)

/-! ### The pipes (R123, R124) -/

theorem exec_pipe0LineDone (hl : live s.dev = true) (hi : s.dev.power.isp = true) (o : IspFrame) :
    exec (.pipe0LineDone o) s = .next (settle { s with dev := lineDone o s.dev }) := by
  change execPipe0LineDone o s = _
  simp [execPipe0LineDone, devStep, hl, hi]

theorem lineDone_empty (o : IspFrame) {d : Dev} (h : d.cam.pipe0 = []) :
    lineDone o d = modCam (fun c => { c with places := c.places - 1 }) d := by
  simp only [lineDone, h]

/-- A line of a frame that pipe 0 has not finished with it. -/
theorem lineDone_more (o : IspFrame) {d : Dev} {g : RawFrame} {rest : List RawFrame} (h : d.cam.pipe0 = g :: rest) (hg : 2 ≤ g.left) :
    lineDone o d = modCam (fun c => { c with places := c.places - 1, pipe0 := { g with left := g.left - 1 } :: rest }) d := by
  have h0 : g.left ≠ 0 := by omega
  have h1 : ¬ g.left ≤ 1 := by omega
  simp only [lineDone, h, if_neg h0, if_neg h1]
  rfl

/-- The first frame in frame-end order of a stream that is not muzzled goes into pipe 1, unless it may give way to an incoming one. -/
theorem pipe1FrameStart_next (hl : live s.dev = true) (hi : s.dev.power.isp = true) {f : RawFrame} (h : Settled s) (h1 : s.dev.cam.pipe1 = none)
    (hf : s.dev.cam.queue.find? (fun g => !isMuzzled s.dev (0x40 + g.stream)) = some f) :
    exec .pipe1FrameStart s = .next (if claimed s.dev f then s else { s with
      dev := { s.dev with cam := { s.dev.cam with pipe1 := some f, queue := s.dev.cam.queue.erase f } } }) := by
  have hx : exec .pipe1FrameStart s = .next (settle { s with
      dev := if !claimed s.dev f then modCam (fun c => { c with pipe1 := some f, queue := c.queue.erase f }) s.dev else s.dev }) := by
    change execPipe1FrameStart s = _
    simp only [execPipe1FrameStart, devStep, h1, hf, hl, hi, Bool.true_and]
  cases hc : claimed s.dev f
  · exact exec_of_camWork h (by simpa [hc, modCam] using hx) (.cam _ _)
  · exact exec_of_camWork h (by simpa [hc] using hx) (.refl _)

/-- Pipe 1 takes no frame while it holds one, and none of a muzzled stream. -/
theorem pipe1FrameStart_idle (h : Settled s)
    (hn : s.dev.cam.pipe1.isSome = true ∨ ∀ g ∈ s.dev.cam.queue, isMuzzled s.dev (0x40 + g.stream) = true) :
    exec .pipe1FrameStart s = .next s := by
  refine exec_of_camWork h ?_ (.refl _)
  change execPipe1FrameStart s = _
  rcases hn with h1 | hq
  · obtain ⟨f, hf⟩ := Option.isSome_iff_exists.mp h1
    simp only [execPipe1FrameStart, devStep, hf]
  · have hf : s.dev.cam.queue.find? (fun g => !isMuzzled s.dev (0x40 + g.stream)) = none := by simpa using hq
    simp only [execPipe1FrameStart, devStep, hf]
    cases s.dev.cam.pipe1 <;> rfl

end

/-! ### Numbering (R116 to R118) -/

@[simp] theorem numberFrame_state (r : CamRec) (fn : Nat) (x : CamStream) : (numberFrame r fn x).1.state = 1 := rfl

@[simp] theorem numberFrame_trunc (r : CamRec) (fn : Nat) (x : CamStream) : (numberFrame r fn x).1.trunc = x.trunc := rfl

@[simp] theorem numberFrame_dropped (r : CamRec) (fn : Nat) (x : CamStream) : (numberFrame r fn x).1.dropped = x.dropped := rfl

theorem numberFrame_joins (r : CamRec) (fn : Nat) (x : CamStream) :
    (numberFrame r fn x).1.joins = if x.state = 1 then x.joins else min 255 (x.joins + 1) := by
  by_cases h : x.state = 1 <;> simp [numberFrame, satAdd, h]

/-- Without the sensor's frame number field frames are numbered one after another. -/
theorem numberFrame_frame_of_counted {r : CamRec} (h : r.fnMode = 0) (fn : Nat) (x : CamStream) :
    (numberFrame r fn x).1.frame = if x.seen then (x.frame + 1) % 2 ^ 48 else 0 := by
  simp [numberFrame, h]

/-! ### Thumbnails (R119, R120) -/

/-- A thumbnail's missing lines are counted and recorded. -/
theorem countShort_frame (short : Bool) (n : Nat) (p : Option Nat) (d : Dev) : ∃ er st,
    (if short then record 0x52 p (3, n) (modStream n (fun x => { x with trunc := x.trunc + 1 }) d) else d) =
      { d with err := er, cam := { d.cam with streams := st } } ∧
    tabGet st n {} = { getStream d n with trunc := (getStream d n).trunc + (if short then 1 else 0) } ∧ er.armed = d.err.armed := by
  cases short
  · exact ⟨_, _, rfl, by simp [getStream], rfl⟩
  · refine ⟨_, _, record_of_info rfl _ _ _, ?_, errRecord_armed _ _ _ _ _ _⟩
    simp [getStream]

/-- A thumbnail that replaces one which nothing has read is counted. -/
theorem countUnread_frame (read : Bool) (n : Nat) (d : Dev) : ∃ st,
    (if read then d else modStream n (fun x => { x with dropped := x.dropped + 1 }) d) = { d with cam := { d.cam with streams := st } } ∧
    tabGet st n {} = { getStream d n with dropped := (getStream d n).dropped + (if read then 0 else 1) } := by
  cases read
  · exact ⟨_, rfl, by simp [getStream]⟩
  · exact ⟨_, rfl, by simp [getStream]⟩

/-- The device once a thumbnail is written into its buffer, but for the counts of its stream. -/
def thumbWritten (r : CamRec) (number : Nat) (lines : List Bytes) (crcErrors : Nat) (d : Dev) : Audio :=
  let th := tabGet d.audio.thumbs r.stream {}
  let b := th.received % 2
  { d.audio with
    thumbs := tabSet d.audio.thumbs r.stream { received := th.received + 1, read := th.read &&& ~~~ BitVec.ofNat 2 (2 ^ b) }
    sram := memWrite d.audio.sram (r.region + b * thumbSize r) (thumbBytes r.stream number (decide (lines.length < r.height))
      (decide (0 < crcErrors)) (fit (r.width * r.height) (lines.flatMap (lumaOf r)))) }

/-- What the lean receiver counts at a thumbnail's port. -/
def thumbCounts (dropped corrected crcErrors : Nat) (x : CamPort) : CamPort :=
  { x with eccCorr := addW x.eccCorr corrected, eccDrop := addW x.eccDrop dropped, crcErr := addW x.crcErr crcErrors }

/-- A thumbnail of a stream that is not frozen is numbered and written, and what is missing of it is counted. -/
theorem thumbnail_frame {r : CamRec} {d : Dev} (ha : d.err.armed = none) (hz : streamFrozen d r.stream = false) (fn : Nat) (lines : List Bytes)
    (crcOk : List Bool) (dropped corrected : Nat) : ∃ er st, thumbnail r fn lines crcOk dropped corrected d = { d with
      err := er
      cam := { d.cam with
        ports := tabMod d.cam.ports r.port {} (thumbCounts dropped corrected (crcOk.filter (fun k => !k)).length), streams := st }
      audio := thumbWritten r (numberFrame r fn (getStream d r.stream)).1.frame lines (crcOk.filter (fun k => !k)).length d } ∧
    tabGet st r.stream {} = { (numberFrame r fn (getStream d r.stream)).1 with
      trunc := (getStream d r.stream).trunc + (if lines.length < r.height then 1 else 0)
      dropped := (getStream d r.stream).dropped +
        (if (tabGet d.audio.thumbs r.stream {}).read.getLsbD ((tabGet d.audio.thumbs r.stream {}).received % 2) then 0 else 1) } := by
  unfold thumbnail
  extract_lets p n short d0 k d1 d2 th b d3 t luma body
  obtain ⟨e1, hd0, ha0⟩ : ∃ er, d0 = { modCamPort r.port (thumbCounts dropped corrected n) d with err := er } ∧ er.armed = none := by
    obtain ⟨e0, h0, a0⟩ := infoN_of_info (c := 0x50) rfl dropped (modCamPort r.port (thumbCounts dropped corrected n) d)
    obtain ⟨e1, h1, a1⟩ := infoN_of_info (c := 0x51) rfl n { modCamPort r.port (thumbCounts dropped corrected n) d with err := e0 }
    exact ⟨e1, (congrArg (infoN 0x51 n) h0).trans h1, a1.trans (a0.trans ha)⟩
  have hx : getStream d0 r.stream = getStream d r.stream := by rw [hd0]; rfl
  have hd1 : d1 = modStream r.stream (fun _ => (numberFrame r fn (getStream d r.stream)).1) d0 := by
    refine (tap_calm _ _ _ _ _ ?_).trans (by rw [← hx])
    rw [hd0]
    exact ha0
  have ha1 : d1.err.armed = none := by rw [hd1, hd0]; exact ha0
  obtain ⟨e2, st, hd2, hst, ha2⟩ := countShort_frame short r.stream p d1
  change d2 = _ at hd2
  have hz2 : ¬ streamFrozen d2 r.stream = true := by
    rw [hd2, hd1, hd0]
    exact ne_true_of_eq_false hz
  rw [if_neg hz2]
  obtain ⟨st', hd3, hst'⟩ := countUnread_frame (th.read.getLsbD b) r.stream d2
  change d3 = _ at hd3
  have ha3 : d3.err.armed = none := by rw [hd3, hd2]; exact ha2.trans ha1
  refine ⟨e2, st', ?_, ?_⟩
  · refine (tap_calm _ _ _ _ _ (by exact ha3)).trans ?_
    have hk : k = numberFrame r fn (getStream d r.stream) := congrArg (numberFrame r fn) hx
    have hbody : { d3.audio with thumbs := tabSet d3.audio.thumbs r.stream t, sram := memWrite d3.audio.sram (r.region + b * thumbSize r) body } =
        thumbWritten r (numberFrame r fn (getStream d r.stream)).1.frame lines n d := by
      unfold body t b th
      rw [hk, hd3, hd2, hd1, hd0]
      rfl
    rw [hbody, hd3, hd2, hd1, hd0]
    rfl
  · have hth : th = tabGet d.audio.thumbs r.stream {} := by
      unfold th
      rw [hd2, hd1, hd0]
      rfl
    have hs1 : getStream d1 r.stream = (numberFrame r fn (getStream d r.stream)).1 := by rw [hd1]; exact getStream_modStream_self _ _ _
    have hs2 : getStream d2 r.stream = tabGet st r.stream {} := by rw [hd2]; rfl
    rw [hst', hs2, hst, hs1]
    simp only [numberFrame_trunc, numberFrame_dropped, short, decide_eq_true_eq, b, hth]
    rfl

/-- THUMBNAIL_RECEIVED with its header as it was sent. -/
theorem exec_thumbnailReceived {s : State} {n : Fin 48} {r : CamRec} {fn : Nat} (lines : List Bytes) (crcOk : List Bool) (dropped corrected : Nat)
    (ha : s.dev.err.armed = none) (hl : live s.dev = true) (hk : s.dev.power.perk = true) (hr : camRec? s.dev.img n.val = some r)
    (hp : r.pipe = 2) (hf : fn < 65536) : exec (.thumbnailReceived n fn lines crcOk dropped corrected) s = .next (settle { s with
      dev := startBlock r (freshBus (settleHeld r (thumbnail r fn lines crcOk dropped corrected s.dev))) }) := by
  refine (unlessWf_of_wf (i := .thumbnailReceived n fn lines crcOk dropped corrected) (decide_eq_true hf)).trans ?_
  simp [devStep, hr, hl, hk, hp, header_ok r.port ha]

theorem thumbBytes_length (stream number : Nat) (short crc : Bool) (luma : Bytes) :
    (thumbBytes stream number short crc luma).length = 32 + luma.length := by
  simp [thumbBytes, le_length, zeros]
  omega

theorem thumbFlags_eq (short : Prop) [Decidable short] (bad : Nat) :
    b2n (decide short) + 2 * b2n (decide (0 < bad)) = (if short then 1 else 0) + (if bad = 0 then 0 else 2) := by
  by_cases hs : short <;> cases bad <;> simp [b2n, hs]

/-- A thumbnail's buffer holds its header and its luma values (R120). -/
theorem memRead_thumbWritten {r : CamRec} {d : Dev} (hw : d.audio.sram.wf = true) (number : Nat) (lines : List Bytes) (bad : Nat) :
    memRead (thumbWritten r number lines bad d).sram (r.region + (tabGet d.audio.thumbs r.stream {}).received % 2 * thumbSize r)
      (32 + r.width * r.height) = thumbBytes r.stream number (decide (lines.length < r.height)) (decide (0 < bad))
        (fit (r.width * r.height) (lines.flatMap (lumaOf r))) := by
  have hlen := thumbBytes_length r.stream number (decide (lines.length < r.height)) (decide (0 < bad))
    (fit (r.width * r.height) (lines.flatMap (lumaOf r)))
  rw [fit_length] at hlen
  rw [thumbWritten, memRead_memWrite hw _ hlen.ge, List.take_of_length_le hlen.le]

theorem thumbWritten_thumbs (r : CamRec) (number : Nat) (lines : List Bytes) (bad : Nat) (d : Dev) :
    (tabGet (thumbWritten r number lines bad d).thumbs r.stream {}).received = (tabGet d.audio.thumbs r.stream {}).received + 1 ∧
    (tabGet (thumbWritten r number lines bad d).thumbs r.stream {}).read.getLsbD ((tabGet d.audio.thumbs r.stream {}).received % 2) = false := by
  have h2 := Nat.mod_lt (tabGet d.audio.thumbs r.stream {}).received (by decide : 2 > 0)
  simp only [thumbWritten, tabGet_tabSet_self, true_and]
  generalize (tabGet d.audio.thumbs r.stream {}).received % 2 = b at h2 ⊢
  rw [BitVec.getLsbD_and, BitVec.getLsbD_not, BitVec.getLsbD_ofNat, Nat.testBit_two_pow_self]
  simp [h2]

/-- The third part of R119, R120: a thumbnail of a stream that is not frozen. -/
theorem thumbnailReceived_gives {s : State} {n : Fin 48} {r : CamRec} {fn : Nat} (lines : List Bytes) (crcOk : List Bool)
    (dropped corrected : Nat) (h : Settled s) (ha : s.dev.err.armed = none) (hl : live s.dev = true) (hk : s.dev.power.perk = true)
    (hr : camRec? s.dev.img n.val = some r) (hn : r.stream = n.val) (hp : r.pipe = 2) (hz : streamFrozen s.dev n.val = false) (hf : fn < 65536)
    (hh : (getSensor s.dev r.sensor).held = none) :
    ∃ er st ss ops, exec (.thumbnailReceived n fn lines crcOk dropped corrected) s = .next { s with dev := { s.dev with
      err := er
      cam := { s.dev.cam with
        ports := tabMod s.dev.cam.ports r.port {} (thumbCounts dropped corrected (crcOk.filter (fun k => !k)).length)
        streams := st, sensors := ss, issued := ops }
      audio := thumbWritten r (numberFrame r fn (getStream s.dev n.val)).1.frame lines (crcOk.filter (fun k => !k)).length s.dev } } ∧
    tabGet st n.val {} = { (numberFrame r fn (getStream s.dev n.val)).1 with
      trunc := (getStream s.dev n.val).trunc + (if lines.length < r.height then 1 else 0)
      dropped := (getStream s.dev n.val).dropped +
        (if (tabGet s.dev.audio.thumbs n.val {}).read.getLsbD ((tabGet s.dev.audio.thumbs n.val {}).received % 2) then 0 else 1) } := by
  rw [← hn] at hz ⊢
  obtain ⟨er, st, ht, hst⟩ := thumbnail_frame ha hz fn lines crcOk dropped corrected
  have hx := exec_thumbnailReceived lines crcOk dropped corrected ha hl hk hr hp hf
  rw [ht, settleHeld_of_none (by exact hh)] at hx
  obtain ⟨ss, ops, hs⟩ := startBlock_frame r (freshBus { s.dev with
    err := er
    cam := { s.dev.cam with
      ports := tabMod s.dev.cam.ports r.port {} (thumbCounts dropped corrected (crcOk.filter (fun k => !k)).length), streams := st }
    audio := thumbWritten r (numberFrame r fn (getStream s.dev r.stream)).1.frame lines (crcOk.filter (fun k => !k)).length s.dev })
  rw [hs] at hx
  refine ⟨er, st, ss, ops, exec_of_settled hx ?_, hst⟩
  exact ⟨h.1, h.2.1, powerSettled_congr s.dev _ rfl rfl rfl rfl rfl rfl rfl rfl h.2.2⟩

/-- Settles O19: each header, pipe and thumbnail command does to its part of the camera what its rule says, and nothing else. -/
theorem cameraHeadersPipesAndThumbnails : Obligations.CameraHeadersPipesAndThumbnails := by
  refine ⟨fun s p v h ha hrx => ?_, fun s o h hl hi => ?_, fun s n r fn lines crcOk dropped corrected h ha hl hk hr hn hp hz hf hw hh => ?_⟩
  · refine ⟨fun fn hf hc => ?_, fun fn c hf hc => ?_, fun dt b c hc hlost hd => ?_, longPacket_bad h hrx, frameEnd_bad h hrx,
      fun fn hf hc => ⟨frameStart_used h hrx hf (header_corrected p.val s.dev) hc, frameStart_used h hrx hf (header_ok p.val ha) hc⟩⟩
    · have hn : csiFrame (headerDropped p.val s.dev) p.val v.val = none := hc
      exact (frameStart_bad h hrx hf).trans (by simp only [loseStart, hn]; rfl)
    · have hn : csiFrame (headerDropped p.val s.dev) p.val v.val = some c := hc
      exact (frameStart_bad h hrx hf).trans (by simp only [loseStart, hn]; rfl)
    · have hx := exec_csi2LongPacket (v := v) (dt := dt) (b := b) (ok := true) hrx (header_ok p.val ha)
      rw [if_pos rfl, longPacket_lost hd hc hlost] at hx
      exact exec_of_camWork h hx (.refl _)
  · refine ⟨fun h0 => ?_, fun g rest h0 hg => ?_, fun f h1 hf => ?_, pipe1FrameStart_idle h⟩
    · exact exec_of_camWork h ((exec_pipe0LineDone hl hi o).trans (by rw [lineDone_empty o h0]; rfl)) (.cam _ _)
    · exact exec_of_camWork h ((exec_pipe0LineDone hl hi o).trans (by rw [lineDone_more o h0 hg]; rfl)) (.cam _ _)
    · constructor <;> intro hc <;> simpa [hc] using pipe1FrameStart_next hl hi h h1 hf
  · obtain ⟨er, st, ss, ops, hx, hst⟩ := thumbnailReceived_gives lines crcOk dropped corrected h ha hl hk hr hn hp hz hf hh
    have hthumbs := thumbWritten_thumbs r (numberFrame r fn (getStream s.dev n.val)).1.frame lines (crcOk.filter (fun k => !k)).length s.dev
    have hread := memRead_thumbWritten hw (numberFrame r fn (getStream s.dev n.val)).1.frame lines (crcOk.filter (fun k => !k)).length (r := r)
    have hport := tabGet_tabMod_self s.dev.cam.ports r.port {} {} (thumbCounts dropped corrected (crcOk.filter (fun k => !k)).length)
    have hframe := congrArg CamStream.frame hst
    rw [hn] at hthumbs hread
    refine gives_of_exec hx ⟨⟨rfl, rfl, rfl⟩, hframe, congrArg CamStream.state hst, fun hm => hframe.trans (numberFrame_frame_of_counted hm fn _),
      congrArg CamStream.trunc hst, congrArg CamStream.dropped hst, hthumbs.1, hthumbs.2, ?_,
      congrArg CamPort.crcErr hport, congrArg CamPort.eccDrop hport, congrArg CamPort.eccCorr hport, rfl, rfl⟩
    rw [hread, thumbBytes, thumbFlags_eq, ← hframe]
    rfl

end Sys2Proof.Machine
end

section
/-! PROOFS. Lines of raw frames in memory: what storing one changes, and what adding one does to its frame (R23, R124, R298). -/

namespace Sys2Proof.Machine

/-! ### A remote master's writes -/

/-- What a remote master's writes may change of a device: memory, the traffic of the DRAM, the count of free values. -/
def MemWork (d e : Dev) : Prop := ∃ m x k, e = { d with mem := m, mov := { d.mov with ddr := x }, freeCtr := k }

theorem MemWork.refl (d : Dev) : MemWork d d := ⟨d.mem, d.mov.ddr, d.freeCtr, rfl⟩

theorem MemWork.trans {a b c : Dev} (h : MemWork a b) (g : MemWork b c) : MemWork a c := by
  obtain ⟨_, _, _, rfl⟩ := h
  obtain ⟨_, _, _, rfl⟩ := g
  exact ⟨_, _, _, rfl⟩

theorem remoteStore_frame (a : Nat) (b : Bytes) (d : Dev) : ∃ x k, remoteStore a b d = { d with
    mem := cleanGranules (wholeGranules a b.length) (memWrite d.mem a b), mov := { d.mov with ddr := x }, freeCtr := k } :=
  countRemote_frame a (granulesOf a b.length).length (memStore a b d)

/-! ### Marks of granules -/

theorem mem_insertNat {x n : Nat} {l : List Nat} : x ∈ insertNat n l ↔ x = n ∨ x ∈ l := by
  induction l with
  | nil => simp [insertNat]
  | cons y r ih =>
    unfold insertNat
    split
    · simp
    · split
      · simp_all
      · simp only [List.mem_cons, ih]
        tauto

theorem mem_poisonGranules {x : Nat} {gs : List Nat} {m : Mem} : x ∈ (poisonGranules gs m).poison ↔ x ∈ gs ∨ x ∈ m.poison := by
  have h (l : List Nat) : ∀ p : List Nat, x ∈ l.foldl (fun p g => insertNat g p) p ↔ x ∈ l ∨ x ∈ p := by
    induction l with
    | nil => simp
    | cons y r ih =>
      intro p
      rw [List.foldl_cons, ih, mem_insertNat, List.mem_cons]
      tauto
  exact h gs m.poison

theorem mem_cleanGranules {x : Nat} {gs : List Nat} {m : Mem} : x ∈ (cleanGranules gs m).poison ↔ x ∈ m.poison ∧ x ∉ gs := by
  simp [cleanGranules]

theorem mem_wholeGranules {g a n : Nat} : g ∈ wholeGranules a n ↔ a ≤ g * 64 ∧ g * 64 + 64 ≤ a + n := by
  simp only [wholeGranules, granulesOf, List.mem_filter, Bool.and_eq_true, decide_eq_true_eq, and_iff_right_iff_imp]
  intro h
  rw [if_neg (by omega), List.mem_map]
  exact ⟨g - a / 64, List.mem_range.mpr (by omega), by omega⟩

/-! ### Storing a line -/

theorem le_ceilDiv_mul (n : Nat) : n ≤ ceilDiv n 64 * 64 := by
  unfold ceilDiv
  omega

theorem lineBytes_le_lineStride (r : CamRec) : lineBytes r ≤ lineStride r := le_ceilDiv_mul _

theorem storeLine_memWork (a : Nat) (r : CamRec) (l : Bytes × List Nat) (d : Dev) : MemWork d (storeLine a r l d) := by
  obtain ⟨x, k, h⟩ := remoteStore_frame a (fit (lineStride r) l.1) d
  rw [storeLine, h]
  exact ⟨_, x, k, rfl⟩

/-- Memory after a line is stored at a place. -/
theorem storeLine_mem (a : Nat) (r : CamRec) (l : Bytes × List Nat) (d : Dev) : (storeLine a r l d).mem =
    poisonGranules (l.2.map (fun g => a / 64 + g)) (cleanGranules (wholeGranules a (lineStride r)) (memWrite d.mem a (fit (lineStride r) l.1))) := by
  obtain ⟨x, k, h⟩ := remoteStore_frame a (fit (lineStride r) l.1) d
  rw [storeLine, h, fit_length]

theorem storeLine_wf (a : Nat) (r : CamRec) (l : Bytes × List Nat) {d : Dev} (h : d.mem.wf = true) : (storeLine a r l d).mem.wf = true := by
  rw [storeLine_mem]
  exact memWrite_wf _ _ _ h

theorem memByte_storeLine_out {a : Nat} {r : CamRec} (l : Bytes × List Nat) {d : Dev} (h : d.mem.wf = true) {b : Nat}
    (hb : b < a ∨ a + lineStride r ≤ b) : memByte (storeLine a r l d).mem b = memByte d.mem b := by
  rw [storeLine_mem]
  exact memByte_memWrite_out _ _ _ _ h (by rwa [fit_length])

theorem memRead_storeLine (a : Nat) {r : CamRec} {l : Bytes × List Nat} {d : Dev} (h : d.mem.wf = true) (hl : l.1.length = lineBytes r) :
    memRead (storeLine a r l d).mem a (lineBytes r) = l.1 := by
  have hread := memRead_memWrite h a (b := fit (lineStride r) l.1) (by simpa using lineBytes_le_lineStride r)
  rw [storeLine_mem]
  refine hread.trans ?_
  rw [fit, List.take_take, min_eq_left (lineBytes_le_lineStride r), ← hl, List.take_left]

/-- A granule is poisoned after a line is stored if it is one of the line's poisoned ones, or was before and is not wholly rewritten. -/
theorem poisonedAt_storeLine {a b : Nat} {r : CamRec} {l : Bytes × List Nat} {d : Dev} : poisonedAt (storeLine a r l d).mem b = true ↔
    b / 64 ∈ l.2.map (fun g => a / 64 + g) ∨
      (poisonedAt d.mem b = true ∧ ¬ (a ≤ b / 64 * 64 ∧ b / 64 * 64 + 64 ≤ a + lineStride r)) := by
  have hpoison (m : Mem) : poisonedAt m b = true ↔ b / 64 ∈ m.poison := by simp [poisonedAt]
  have hwrite (c : Bytes) : ∀ (m : Mem) (a : Nat), (memWrite m a c).poison = m.poison := by
    induction c with
    | nil => exact fun _ _ => rfl
    | cons v r ih => exact fun m a => ih _ _
  rw [hpoison, hpoison, storeLine_mem, mem_poisonGranules, mem_cleanGranules, mem_wholeGranules, hwrite]

/-- All granules of a line at a place are poisoned. -/
theorem poisonIn_eq_lineGranules {d : Dev} {a n : Nat} :
    poisonIn d a n = lineGranules n ↔ ∀ g, g < ceilDiv n 64 → poisonedAt d.mem (a + 64 * g) = true := by
  simp [poisonIn, lineGranules, List.filter_eq_self]

/-! ### The lines of a pipe-1 frame -/

/-- A frame with one more line. -/
def withLine (v : Bytes × List Nat) (f : RawFrame) : RawFrame := { f with lines := f.lines ++ [v] }

section
variable {d : Dev} {r : CamRec} {f : RawFrame} {n a : Nat}

theorem rawLine_of_placed (hp : r.pipe = 1) (h : linePlace d r f.buf n = some a) :
    rawLine d r f n = (memRead d.mem a (lineBytes r), poisonIn d a (lineBytes r)) := by
  simp only [rawLine, hp, if_true, h]

theorem rawLine_of_unplaced (hp : r.pipe = 1) (h : linePlace d r f.buf n = none) : rawLine d r f n = f.lines.getD n ([], []) := by
  simp only [rawLine, hp, if_true, h]

theorem addLines_of_placed (hp : r.pipe = 1) (h : linePlace d r f.buf f.lines.length = some a) (l : Bytes × List Nat) :
    addLines r [l] f d = (withLine ([], l.2) f, storeLine a r l d) := by
  simp only [addLines, List.foldl_cons, List.foldl_nil, hp, if_true, h, withLine]

theorem addLines_of_unplaced (hp : r.pipe = 1) (h : linePlace d r f.buf f.lines.length = none) (l : Bytes × List Nat) :
    addLines r [l] f d = (withLine l f, d) := by
  simp only [addLines, List.foldl_cons, List.foldl_nil, hp, if_true, h, withLine]

/-- Lines of a buffer lie in order and apart. -/
theorem linePlace_add_le {b k : Nat} {c : Nat} (hk : linePlace d r b k = some c) (hn : linePlace d r b n = some a) (h : k < n) :
    c + lineStride r ≤ a := by
  have hmul : (b * r.height + k) * lineStride r + lineStride r ≤ (b * r.height + n) * lineStride r := by
    rw [← Nat.succ_mul]
    exact Nat.mul_le_mul_right _ (by omega)
  unfold linePlace at hk hn
  dsimp only at hk hn
  split at hk
  · rename_i g hg
    rw [hg] at hn
    dsimp only at hn
    split at hk <;> split at hn <;> simp only [Option.some.injEq, reduceCtorEq] at hk hn
    omega
  · simp at hk

end

/-- A line added to a pipe-1 frame: what becomes of the frame, of memory and of the lines that the frame holds. -/
structure LineAdded (r : CamRec) (l : Bytes × List Nat) (f : RawFrame) (d : Dev) (g : RawFrame) (e : Dev) : Prop where
  frame : ∃ v, g = withLine v f
  work : MemWork d e
  wf : e.mem.wf = true
  bytes : l.1.length = lineBytes r → (rawLine e r g f.lines.length).1 = l.1
  bad : l.2 = lineGranules (lineBytes r) → (rawLine e r g f.lines.length).2 = lineGranules (lineBytes r)
  good : l.2 = [] → (∀ a, linePlace d r f.buf f.lines.length = some a → a % 64 = 0) → (rawLine e r g f.lines.length).2 = []
  earlier : ∀ k, k < f.lines.length → (rawLine d r f k).2 = lineGranules (lineBytes r) → (rawLine e r g k).2 = lineGranules (lineBytes r)
  unplaced : linePlace d r f.buf f.lines.length = none → e.mem = d.mem
  outside : ∀ a, linePlace d r f.buf f.lines.length = some a → ∀ b, b < a ∨ a + lineStride r ≤ b → memByte e.mem b = memByte d.mem b

/-- A line that its buffer's region holds no place for stays with the frame. -/
theorem lineAdded_of_unplaced {r : CamRec} {f : RawFrame} {d : Dev} (hp : r.pipe = 1) (hw : d.mem.wf = true) (l : Bytes × List Nat)
    (h : linePlace d r f.buf f.lines.length = none) : LineAdded r l f d (withLine l f) d := by
  have hnew : rawLine d r (withLine l f) f.lines.length = l :=
    (rawLine_of_unplaced (f := withLine l f) hp h).trans (by simp [withLine])
  refine ⟨⟨l, rfl⟩, .refl d, hw, fun _ => by rw [hnew], fun hl => by rw [hnew, hl], fun hl _ => by rw [hnew, hl], fun k hk hb => ?_,
    fun _ => rfl, fun a ha => by simp [h] at ha⟩
  cases hc : linePlace d r f.buf k with
  | none =>
    rw [rawLine_of_unplaced hp hc] at hb
    rw [rawLine_of_unplaced (f := withLine l f) hp hc]
    exact (congrArg Prod.snd (List.getD_append _ _ _ _ hk)).trans hb
  | some c =>
    rw [rawLine_of_placed hp hc] at hb
    rwa [rawLine_of_placed (f := withLine l f) hp hc]

/-- A line that its buffer's region holds a place for is stored there. -/
theorem lineAdded_of_placed {r : CamRec} {f : RawFrame} {d : Dev} (hp : r.pipe = 1) (hw : d.mem.wf = true) (l : Bytes × List Nat)
    {a : Nat} (h : linePlace d r f.buf f.lines.length = some a) :
    LineAdded r l f d (withLine ([], l.2) f) (storeLine a r l d) := by
  have hwork := storeLine_memWork a r l d
  have hplace (k : Nat) : linePlace (storeLine a r l d) r f.buf k = linePlace d r f.buf k := by
    obtain ⟨_, _, _, he⟩ := hwork
    rw [he]
    rfl
  have hnew := rawLine_of_placed (f := withLine ([], l.2) f) hp ((hplace _).trans h)
  refine ⟨⟨_, rfl⟩, hwork, storeLine_wf a r l hw, fun hl => ?_, fun hl => ?_, fun hl ha => ?_, fun k hk hb => ?_, fun hn => ?_,
    fun c hc b hb => ?_⟩
  · rw [hnew]
    exact memRead_storeLine a hw hl
  · rw [hnew, poisonIn_eq_lineGranules]
    intro g hg
    rw [poisonedAt_storeLine, hl]
    exact .inl (List.mem_map.mpr ⟨g, List.mem_range.mpr hg, by omega⟩)
  · have h64 := ha a h
    rw [hnew]
    refine List.filter_eq_nil_iff.mpr fun g hg => ?_
    have hg : g < ceilDiv (lineBytes r) 64 := List.mem_range.mp hg
    have hstride : lineStride r = ceilDiv (lineBytes r) 64 * 64 := rfl
    rw [poisonedAt_storeLine, hl]
    rintro (hm | ⟨-, hm⟩)
    · simp at hm
    · exact hm (by omega)
  · cases hc : linePlace d r f.buf k with
    | none =>
      rw [rawLine_of_unplaced hp hc] at hb
      rw [rawLine_of_unplaced (f := withLine ([], l.2) f) hp ((hplace k).trans hc)]
      exact (congrArg Prod.snd (List.getD_append _ _ _ _ hk)).trans hb
    | some c =>
      have hle := linePlace_add_le hc h hk
      have hstride : lineStride r = ceilDiv (lineBytes r) 64 * 64 := rfl
      rw [rawLine_of_placed hp hc, poisonIn_eq_lineGranules] at hb
      rw [rawLine_of_placed (f := withLine ([], l.2) f) hp ((hplace k).trans hc), poisonIn_eq_lineGranules]
      intro g hg
      rw [poisonedAt_storeLine]
      exact .inr ⟨hb g hg, by omega⟩
  · simp [h] at hn
  · obtain rfl : a = c := by simpa [h] using hc
    exact memByte_storeLine_out l hw hb

/-- Adding a line. -/
theorem addLines_added {r : CamRec} {f : RawFrame} {d : Dev} (hp : r.pipe = 1) (hw : d.mem.wf = true) (l : Bytes × List Nat) :
    LineAdded r l f d (addLines r [l] f d).1 (addLines r [l] f d).2 := by
  cases h : linePlace d r f.buf f.lines.length with
  | none =>
    rw [addLines_of_unplaced hp h]
    exact lineAdded_of_unplaced hp hw l h
  | some a =>
    rw [addLines_of_placed hp h]
    exact lineAdded_of_placed hp hw l h

end Sys2Proof.Machine
end

section
/-! PROOFS. Long packets of the full receiver (R113, R115 to R118, R124). Settles O20. -/

namespace Sys2Proof.Machine

/-! ### A packet's CRC and its line -/

/-- The device once a long packet's CRC is checked. -/
def crcChecked (port : Nat) (ok : Bool) (d : Dev) : Dev :=
  if ok then d else info 0x51 (modCamPort port (fun p => { p with crcErr := p.crcErr + 1 }) d)

theorem crcChecked_frame (port : Nat) (ok : Bool) (d : Dev) : ∃ ports er,
    crcChecked port ok d = { d with cam := { d.cam with ports := ports }, err := er } ∧
    (tabGet ports port {}).crcErr = (tabGet d.cam.ports port {}).crcErr + (if ok then 0 else 1) ∧ er.armed = d.err.armed := by
  cases ok
  · exact ⟨_, _, info_of_info (c := 0x51) rfl _, by simp, errRecord_armed _ _ _ _ _ _⟩
  · exact ⟨_, _, rfl, by simp, rfl⟩

/-- A frame that notes what a packet's length and CRC say of its line. -/
def noteLine (r : CamRec) (b : Bytes) (ok : Bool) (f : RawFrame) : RawFrame :=
  { f with crcError := f.crcError || !ok, flawed := f.flawed || !ok || decide (b.length < lineBytes r) }

/-- A packet's line enters the open frame f of its stream. -/
def lineTaken (r : CamRec) (b : Bytes) (ok : Bool) (f : RawFrame) (d : Dev) : Dev :=
  let x := addLines r [keptLine r b ok] (noteLine r b ok f) d
  modStream r.stream (fun s => { s with openFrame := some x.1 }) x.2

theorem keptLine_length (r : CamRec) (b : Bytes) (ok : Bool) : (keptLine r b ok).1.length = lineBytes r := fit_length _ _

/-- Of a line whose CRC failed every granule is poisoned. -/
theorem keptLine_bad (r : CamRec) (b : Bytes) : (keptLine r b false).2 = lineGranules (lineBytes r) := by simp [keptLine]

/-- Of a whole line none is. -/
theorem keptLine_good {r : CamRec} {b : Bytes} (h : lineBytes r ≤ b.length) : (keptLine r b true).2 = [] := by
  simp only [keptLine, Bool.not_true, Bool.false_or, List.filter_eq_nil_iff, decide_eq_true_eq]
  omega

/-- A line stands in frame g as line n of it, t being the state after s. -/
def LineKept (r : CamRec) (b : Bytes) (ok : Bool) (s : State) (g : RawFrame) (n : Nat) (t : State) : Prop :=
  g.lines.length = n + 1 ∧ (rawLine t.dev r g n).1 = (keptLine r b ok).1 ∧ (keptLine r b ok).1.length = lineBytes r ∧
  (ok = false → (rawLine t.dev r g n).2 = lineGranules (lineBytes r)) ∧
  (ok = true → lineBytes r ≤ b.length → (∀ a, linePlace s.dev r g.buf n = some a → a % 64 = 0) → (rawLine t.dev r g n).2 = []) ∧
  (linePlace s.dev r g.buf n = none → t.dev.mem = s.dev.mem) ∧
  (∀ a, linePlace s.dev r g.buf n = some a → SameBytesOutside a (lineStride r) s t)

section
variable {s : State} {r : CamRec} {b : Bytes} {ok : Bool} {f : RawFrame} {c : Camera} {er : Err}

/-- A packet's line that is taken stands in its frame; before it only the camera and the error record have changed since s. -/
theorem lineTaken_keeps (hp : r.pipe = 1) (hw : s.dev.mem.wf = true) :
    ∃ g v, g = withLine v (noteLine r b ok f) ∧
      LineKept r b ok s g f.lines.length { s with dev := lineTaken r b ok f { s.dev with cam := c, err := er } } ∧
      getStream (lineTaken r b ok f { s.dev with cam := c, err := er }) r.stream = { tabGet c.streams r.stream {} with openFrame := some g } ∧
      (lineTaken r b ok f { s.dev with cam := c, err := er }).cam.ports = c.ports ∧
      CamWork s.dev (lineTaken r b ok f { s.dev with cam := c, err := er }) := by
  have hadd := addLines_added (f := noteLine r b ok f) (d := { s.dev with cam := c, err := er }) hp hw (keptLine r b ok)
  unfold lineTaken
  generalize addLines r [keptLine r b ok] (noteLine r b ok f) { s.dev with cam := c, err := er } = x at hadd ⊢
  obtain ⟨g, e⟩ := x
  change LineAdded _ _ _ _ g e at hadd
  obtain ⟨⟨v, hg⟩, hwork, -, hbytes, hbad, hgood, -, hun, hout⟩ := hadd
  obtain ⟨m, y, k, he⟩ := hwork
  have hbuf : g.buf = f.buf := by rw [hg]; rfl
  have hlen : g.lines.length = f.lines.length + 1 := by rw [hg]; simp [withLine, noteLine]
  refine ⟨g, v, hg, ⟨hlen, hbytes (keptLine_length r b ok), keptLine_length r b ok, ?_, ?_, ?_, ?_⟩, ?_, ?_, ?_⟩
  · rintro rfl
    exact hbad (keptLine_bad r b)
  · rintro rfl hb ha
    exact hgood (keptLine_good hb) (by rwa [hbuf] at ha)
  · intro hn
    rw [hbuf] at hn
    exact hun hn
  · intro a ha
    rw [hbuf] at ha
    exact hout a ha
  · rw [getStream_modStream_self, he]
    rfl
  · rw [he]
    rfl
  · rw [he]
    exact ⟨_, er, s.dev.host.ibis, s.dev.host.ibiMerged, m, y, k, rfl⟩

end

/-! ### What a long packet does -/

section
variable {d : Dev} {port vc dt : Nat} {b : Bytes} {ok : Bool} {c : CsiFrame} {r : CamRec} {f : RawFrame}

/-- A packet of a type that the receiver does not support. -/
theorem longPacket_unsupported (h : supportedLong dt = false) : longPacket port vc dt b ok d = { d with
    cam := { d.cam with ports := tabMod d.cam.ports port {} (fun c => { c with unmatched := c.unmatched + 1 }) }
    err := errRecord 0x5B none (0, 0) none false d.err } := by
  rw [longPacket, h]
  exact info_of_info rfl _

/-- A packet of a stream's data type brings a line. -/
theorem longPacket_line (hs : supportedLong dt = true) (h12 : dt ≠ 0x12) (hc : csiFrame d port vc = some c) (hl : c.lost = false)
    (hr : (streamsOn d.img port vc).find? (fun x => x.dt == dt) = some r) :
    longPacket port vc dt b ok d = lineArrives r c port vc b ok (crcChecked port ok d) := by
  obtain ⟨ports, er, hk, -, -⟩ := crcChecked_frame port ok d
  have hc1 : csiFrame (crcChecked port ok d) port vc = some c := by rw [hk]; exact hc
  have hlong : longPacket port vc dt b ok d = (match csiFrame (crcChecked port ok d) port vc with
    | none => crcChecked port ok d
    | some c => if c.lost then crcChecked port ok d else lineArrives r c port vc b ok (crcChecked port ok d)) := by
    unfold longPacket
    simp [hs, h12, hr]
    rfl
  rw [hlong, hc1]
  simp [hl]

/-- The device in which a packet's line finds its stream's frame: the one open, or one that opens with it. -/
def frameFound (r : CamRec) (c : CsiFrame) (port vc : Nat) (d : Dev) : Dev :=
  let c1 := { c with matched := true }
  if (getStream d r.stream).openFrame.isNone then
    settleHeld r (openFrame r c1 (putCsi port vc { c1 with opened := c1.opened ++ [r.stream] } d))
  else putCsi port vc c1 d

/-- A line of a pipe-1 frame that is not dropped and not full is taken. -/
theorem lineArrives_taken (hp : r.pipe = 1) (ho : (getStream (frameFound r c port vc d) r.stream).openFrame = some f)
    (hd : f.dropped = false) (hl : f.lines.length < r.height) :
    lineArrives r c port vc b ok d = lineTaken r b ok f (frameFound r c port vc d) := by
  unfold lineArrives
  extract_lets c1 fresh d1 d2 f' f1 f2 put d3
  have hd2 : d2 = frameFound r c port vc d := by
    unfold d2 d1 fresh frameFound
    cases (getStream d r.stream).openFrame <;> rfl
  have hf : f' = f := by
    unfold f'
    rw [hd2, ho]
    rfl
  have hd3 : d3 = d2 := if_neg (by simp [hp])
  have h1 : ¬ (f'.dropped || decide (r.height ≤ f'.lines.length)) = true := by simp [hf, hd, hl]
  rw [if_neg (by simp [hp]), if_neg h1, if_neg (by simp [hp]), hd3, hd2]
  unfold put f2 f1
  rw [hf]
  rfl

theorem frameFound_of_open (h : (getStream d r.stream).openFrame = some f) :
    frameFound r c port vc d = putCsi port vc { c with matched := true } d := by
  simp [frameFound, h]

/-- The frame that opens for a stream of pipe 1 with a raw buffer free (R116 to R118, R124). -/
def openedFrame (r : CamRec) (c : CsiFrame) (d : Dev) : RawFrame :=
  let k := numberFrame r c.fn (getStream d r.stream)
  { stream := r.stream, number := k.1.frame, sensorFn := c.fn, joined := k.2.1, gap := k.2.2, buf := freeBuffer d.cam r.stream,
    embedded := c.embedded }

/-- A frame of a stream that is not frozen opens where its CSI-2 frame start found a raw buffer free. -/
theorem openFrame_calm (ha : d.err.armed = none) (hz : streamFrozen d r.stream = false)
    (hc : c.claims.find? (fun k => k.1 == r.stream) = none) (hn : r.stream ∉ c.opened) :
    openFrame r c d = modStream r.stream (fun x => { x with openFrame := some (openedFrame r c d) })
      (modStream r.stream (fun _ => (numberFrame r c.fn (getStream d r.stream)).1) d) := by
  unfold openFrame
  extract_lets k p ice d1 claim old d2 lost d3 f'
  have hd1 : d1 = modStream r.stream (fun _ => (numberFrame r c.fn (getStream d r.stream)).1) d := tap_calm _ _ _ _ _ ha
  have hice : ice = false := hz
  have hclaim : claim = none := by simp [claim, hice, hn, hc]
  have hold : old = none := by simp [old, hclaim]
  have hd2 : d2 = d1 := by simp [d2, hice, hclaim]
  have hlost : lost = false := by simp [lost, hice, hclaim]
  have hd3 : d3 = d1 := by
    unfold d3
    rw [hd2, tap_calm _ _ _ _ d1 (by rw [hd1]; exact ha), ite_self]
  have hf : f' = openedFrame r c d := by
    unfold f'
    rw [hold, hlost, hd3, hd1]
    rfl
  rw [hf, hd3, hd1]

/-- The device in which a packet's line opens its stream's frame. -/
theorem frameFound_of_none (ho : (getStream d r.stream).openFrame = none) (ha : d.err.armed = none) (hz : streamFrozen d r.stream = false)
    (hc : c.claims.find? (fun k => k.1 == r.stream) = none) (hn : r.stream ∉ c.opened) (hh : (getSensor d r.sensor).held = none) :
    ∃ cam, frameFound r c port vc d = { d with cam := cam } ∧ cam.ports = d.cam.ports ∧
      tabGet cam.streams r.stream {} = { (numberFrame r c.fn (getStream d r.stream)).1 with openFrame := some (openedFrame r c d) } := by
  have hopen := openFrame_calm (r := r) (c := { c with matched := true })
    (d := putCsi port vc { c with matched := true, opened := c.opened ++ [r.stream] } d) ha hz hc hn
  refine ⟨(openFrame r { c with matched := true } (putCsi port vc { c with matched := true, opened := c.opened ++ [r.stream] } d)).cam, ?_, ?_, ?_⟩
  · have hheld : (getSensor (openFrame r { c with matched := true }
        (putCsi port vc { c with matched := true, opened := c.opened ++ [r.stream] } d)) r.sensor).held = none := by
      rw [hopen]
      exact hh
    simp only [frameFound, ho, Option.isNone_none, if_true]
    rw [settleHeld_of_none hheld, hopen]
    rfl
  · rw [hopen]
    rfl
  · rw [hopen]
    refine (getStream_modStream_self _ _ _).trans ?_
    rw [getStream_modStream_self]
    rfl

end

/-! ### The outcome of a packet that brings a line -/

section
variable {s : State} {p : Fin 4} {v : Fin 16} {dt : Nat} {b : Bytes} {ok : Bool} {c : CsiFrame} {r : CamRec}

/-- A long packet of a stream's data type in a CSI-2 frame that no frame start was lost after. -/
structure LinePacket (s : State) (p : Fin 4) (v : Fin 16) (dt : Nat) (c : CsiFrame) (r : CamRec) : Prop where
  settled : Settled s
  armed : s.dev.err.armed = none
  on : rxOn s.dev p.val v.val = true
  wf : s.dev.mem.wf = true
  supported : supportedLong dt = true
  image : dt ≠ 0x12
  frame : csiFrame s.dev p.val v.val = some c
  started : c.lost = false
  stream : (streamsOn s.dev.img p.val v.val).find? (fun x => x.dt == dt) = some r
  pipe : r.pipe = 1

/-- The packet's line is taken into frame f, which it finds open or which opens with it; cam is the camera then. -/
theorem LinePacket.taken (h : LinePacket s p v dt c r) {f : RawFrame} {cam : Camera} {er : Err}
    (hfound : frameFound r c p.val v.val (crcChecked p.val ok s.dev) = { s.dev with cam := cam, err := er })
    (ho : (tabGet cam.streams r.stream {}).openFrame = some f) (hd : f.dropped = false) (hl : f.lines.length < r.height) :
    ∃ g w t, exec (.csi2LongPacket p v dt b ok .ok) s = .next t ∧ SameOutside s t ∧ g = withLine w (noteLine r b ok f) ∧
      LineKept r b ok s g f.lines.length t ∧ getStream t.dev r.stream = { tabGet cam.streams r.stream {} with openFrame := some g } ∧
      t.dev.cam.ports = cam.ports ∧ t.dev.reqs = s.dev.reqs := by
  have hx := exec_csi2LongPacket (v := v) (dt := dt) (b := b) (ok := ok) h.on (header_ok p.val h.armed)
  have htaken := lineArrives_taken (b := b) (ok := ok) h.pipe (by rw [hfound]; exact ho) hd hl
  rw [if_pos rfl, longPacket_line h.supported h.image h.frame h.started h.stream, htaken, hfound] at hx
  obtain ⟨g, w, hg, hkept, hst, hports, hw⟩ := lineTaken_keeps (b := b) (ok := ok) (f := f) (c := cam) (er := er) h.pipe h.wf
  refine ⟨g, w, _, exec_of_camWork h.settled hx hw, ⟨rfl, rfl, rfl⟩, hg, hkept, hst, hports, ?_⟩
  obtain ⟨_, _, _, _, _, _, _, he⟩ := hw
  rw [he]

theorem LinePacket.open_gives (h : LinePacket s p v dt c r) (b : Bytes) (ok : Bool) {f : RawFrame}
    (ho : (getStream s.dev r.stream).openFrame = some f) (hd : f.dropped = false) (hl : f.lines.length < r.height) :
    Gives (.csi2LongPacket p v dt b ok .ok) s fun t => SameOutside s t ∧
      (∃ g, (getStream t.dev r.stream).openFrame = some g ∧ LineKept r b ok s g f.lines.length t ∧ g.number = f.number ∧ g.buf = f.buf ∧
        g.crcError = (f.crcError || !ok) ∧ g.flawed = (f.flawed || !ok || decide (b.length < lineBytes r)) ∧ g.missing = f.missing) ∧
      (tabGet t.dev.cam.ports p.val {}).crcErr = (tabGet s.dev.cam.ports p.val {}).crcErr + (if ok then 0 else 1) ∧
      t.dev.reqs = s.dev.reqs := by
  obtain ⟨ports, er, hcrc, hcount, -⟩ := crcChecked_frame p.val ok s.dev
  have hfound : frameFound r c p.val v.val (crcChecked p.val ok s.dev) = { s.dev with
      cam := { s.dev.cam with ports := ports, rx := tabSet s.dev.cam.rx (rxKey p.val v.val) { c with matched := true } }, err := er } :=
    (frameFound_of_open (by rw [hcrc]; exact ho)).trans (by rw [hcrc]; rfl)
  obtain ⟨g, w, t, hx, hout, rfl, hkept, hst, hports, hreqs⟩ := h.taken (b := b) hfound ho hd hl
  exact gives_of_exec hx ⟨hout, ⟨_, congrArg CamStream.openFrame hst, hkept, rfl, rfl, rfl, rfl, rfl⟩,
    (congrArg (fun x => (tabGet x p.val {}).crcErr) hports).trans hcount, hreqs⟩

theorem LinePacket.fresh_gives (h : LinePacket s p v dt c r) (b : Bytes) (ok : Bool) (ho : (getStream s.dev r.stream).openFrame = none)
    (hz : streamFrozen s.dev r.stream = false) (hc : c.claims.find? (fun k => k.1 == r.stream) = none) (hn : r.stream ∉ c.opened)
    (hl : 0 < r.height) (hh : (getSensor s.dev r.sensor).held = none) :
    Gives (.csi2LongPacket p v dt b ok .ok) s fun t => SameOutside s t ∧
      (getStream t.dev r.stream).state = 1 ∧ (getStream t.dev r.stream).frame = (numberFrame r c.fn (getStream s.dev r.stream)).1.frame ∧
      (r.fnMode = 0 → (getStream t.dev r.stream).frame =
        (if (getStream s.dev r.stream).seen then ((getStream s.dev r.stream).frame + 1) % 2 ^ 48 else 0)) ∧
      (getStream t.dev r.stream).joins =
        (if (getStream s.dev r.stream).state = 1 then (getStream s.dev r.stream).joins else min 255 ((getStream s.dev r.stream).joins + 1)) ∧
      (∃ g, (getStream t.dev r.stream).openFrame = some g ∧ LineKept r b ok s g 0 t ∧ g.number = (getStream t.dev r.stream).frame ∧
        g.sensorFn = c.fn ∧ g.joined = ((getStream s.dev r.stream).state != 1) ∧ g.dropped = false ∧ g.embedded = c.embedded ∧
        g.buf = freeBuffer s.dev.cam r.stream) := by
  obtain ⟨ports, er, hcrc, -, hae⟩ := crcChecked_frame p.val ok s.dev
  have hfresh := frameFound_of_none (d := { s.dev with cam := { s.dev.cam with ports := ports }, err := er }) (port := p.val) (vc := v.val) ho (hae.trans h.armed) hz hc hn hh
  obtain ⟨cam, hfound, -, hst0⟩ := hfresh
  rw [← hcrc] at hfound
  obtain ⟨g, w, t, hx, hout, rfl, hkept, hst, -, -⟩ := h.taken (b := b) (ok := ok) (hfound.trans (by rw [hcrc])) (congrArg CamStream.openFrame hst0) rfl hl
  rw [hst0] at hst
  have hframe : (getStream t.dev r.stream).frame = (numberFrame r c.fn (getStream s.dev r.stream)).1.frame := (congrArg CamStream.frame hst).trans rfl
  exact gives_of_exec hx ⟨hout, (congrArg CamStream.state hst).trans rfl, hframe, fun hm => hframe.trans (numberFrame_frame_of_counted hm _ _),
    (congrArg CamStream.joins hst).trans (numberFrame_joins r c.fn _), _, (congrArg CamStream.openFrame hst).trans rfl, hkept, hframe.symm, rfl, rfl, rfl, rfl, rfl⟩

end

/-- Settles O20: a long packet is unmatched, or its line is kept in the frame that is open or that opens with it. -/
theorem longPacketsOpenAndFillFrames : Obligations.LongPacketsOpenAndFillFrames := by
  intro s p v h ha hrx hw
  refine ⟨fun dt b ok hd => ?_, fun dt b ok c r hs h12 hc hl hr hp => ?_⟩
  · have hx := exec_csi2LongPacket (v := v) (dt := dt) (b := b) (ok := ok) hrx (header_ok p.val ha)
    rw [if_pos rfl, longPacket_unsupported hd] at hx
    exact exec_of_camWork h hx ⟨_, _, s.dev.host.ibis, s.dev.host.ibiMerged, s.dev.mem, s.dev.mov.ddr, s.dev.freeCtr, rfl⟩
  · have hpacket : LinePacket s p v dt c r := ⟨h, ha, hrx, hw, hs, h12, hc, hl, hr, hp⟩
    exact ⟨fun f ho hd hf => hpacket.open_gives b ok ho hd hf, fun ho hz hclaim hn h0 hh => hpacket.fresh_gives b ok ho hz hclaim hn h0 hh⟩

end Sys2Proof.Machine
end

section
/-! PROOFS. Frame ends of the full receiver and streams that go idle (R114, R116). Settles O21. -/

namespace Sys2Proof.Machine

/-! ### The missing lines of a frame -/

/-- Missing lines added to a pipe-1 frame. -/
structure LinesMissing (r : CamRec) (n : Nat) (f : RawFrame) (d : Dev) (g : RawFrame) (e : Dev) : Prop where
  frame : ∃ vs, vs.length = n ∧ g = { f with lines := f.lines ++ vs }
  work : MemWork d e
  bad : ∀ l, f.lines.length ≤ l → l < f.lines.length + n → (rawLine e r g l).2 = lineGranules (lineBytes r)
  earlier : ∀ k, k < f.lines.length → (rawLine d r f k).2 = lineGranules (lineBytes r) → (rawLine e r g k).2 = lineGranules (lineBytes r)
  complete : n = 0 → e.mem = d.mem
  outside : ∀ b, (∀ l a, f.lines.length ≤ l → l < f.lines.length + n → linePlace d r f.buf l = some a → b < a ∨ a + lineStride r ≤ b) →
    memByte e.mem b = memByte d.mem b

theorem addLines_cons (r : CamRec) (l : Bytes × List Nat) (ls : List (Bytes × List Nat)) (f : RawFrame) (d : Dev) :
    addLines r (l :: ls) f d = addLines r ls (addLines r [l] f d).1 (addLines r [l] f d).2 := by
  cases h : (if r.pipe = 1 then linePlace d r f.buf f.lines.length else none) <;>
    simp only [addLines, List.foldl_cons, List.foldl_nil, h]

/-- Missing lines are poisoned whole, and nothing outside their places is written. -/
theorem addLines_missing {r : CamRec} (hp : r.pipe = 1) : ∀ (n : Nat) (f : RawFrame) (d : Dev), d.mem.wf = true →
    LinesMissing r n f d (addLines r (List.replicate n (missingLine r)) f d).1 (addLines r (List.replicate n (missingLine r)) f d).2
  | 0, f, d, _ => ⟨⟨[], rfl, by simp [addLines]⟩, .refl d, by omega, fun _ _ => id, fun _ => rfl, fun _ _ => rfl⟩
  | n + 1, f, d, hw => by
    have hone := addLines_added (f := f) hp hw (missingLine r)
    rw [List.replicate_succ, addLines_cons]
    generalize addLines r [missingLine r] f d = x at hone ⊢
    obtain ⟨g, e⟩ := x
    change LineAdded _ _ _ _ g e at hone
    have hrest := addLines_missing hp n g e hone.wf
    obtain ⟨v, hg⟩ := hone.frame
    obtain ⟨vs, hvs, hframe⟩ := hrest.frame
    have hlen : g.lines.length = f.lines.length + 1 := by simp [hg, withLine]
    have hplace (l : Nat) : linePlace e r g.buf l = linePlace d r f.buf l := by
      obtain ⟨_, _, _, he⟩ := hone.work
      rw [he, hg]
      rfl
    refine ⟨⟨v :: vs, by simp [hvs], by rw [hframe, hg]; simp [withLine]⟩, hone.work.trans hrest.work, fun l h1 h2 => ?_,
      fun k hk hb => hrest.earlier k (by omega) (hone.earlier k hk hb), by omega, fun b hb => ?_⟩
    · obtain rfl | hl := h1.eq_or_lt
      · exact hrest.earlier _ (by omega) (hone.bad rfl)
      · exact hrest.bad l (by omega) (by omega)
    · refine (hrest.outside b fun l a h1 h2 ha => hb l a (by omega) (by omega) ((hplace l).symm.trans ha)).trans ?_
      cases ha : linePlace d r f.buf f.lines.length with
      | none => rw [hone.unplaced ha]
      | some a => exact hone.outside a ha b (hb _ a le_rfl (by omega) ha)

/-! ### The close of a frame (R114) -/

/-- The open frame of a stream as it closes, with what is missing of it and what pipe 0 still holds. -/
def closingFrame (r : CamRec) (d : Dev) (f : RawFrame) : RawFrame :=
  { f with missing := r.height - f.lines.length, truncated := decide (0 < r.height - f.lines.length),
           left := d.cam.places - (d.cam.pipe0.map (fun x => x.left)).sum }

/-- The lines missing of a frame that closes are counted and recorded. -/
def truncationCounted (p : Option Nat) (r : CamRec) (missing : Nat) (d : Dev) : Dev :=
  if missing = 0 then d
  else record 0x52 p (3, r.stream) (modStream r.stream (fun s => { s with trunc := s.trunc + 1 }) d)

theorem truncationCounted_frame (p : Option Nat) (r : CamRec) (missing : Nat) (d : Dev) : ∃ st er,
    truncationCounted p r missing d = { d with cam := { d.cam with streams := st }, err := er } ∧
    tabGet st r.stream {} = { getStream d r.stream with trunc := (getStream d r.stream).trunc + (if missing = 0 then 0 else 1) } ∧
    er = if missing = 0 then d.err else errRecord 0x52 p (3, r.stream) none false d.err := by
  by_cases h : missing = 0
  · exact ⟨_, _, if_pos h, by simp [h, getStream], (if_pos h).symm⟩
  · refine ⟨_, _, (if_neg h).trans (record_of_info rfl _ _ _), ?_, (if_neg h).symm⟩
    simp [h, getStream]

/-- A frame of pipe 1 closes: its missing lines are poisoned, it is counted and recorded where it is short, and waits for the pipe. -/
theorem closeFrame_closes {r : CamRec} {d : Dev} {f : RawFrame} (hp : r.pipe = 1) (hw : d.mem.wf = true)
    (ho : (getStream d r.stream).openFrame = some f) (hd : f.dropped = false) (hm : f.missing = 0) : ∃ g e st er,
    closeFrame r d = { e with cam := { e.cam with streams := st, queue := e.cam.queue ++ [g] }, err := er } ∧
    LinesMissing r (r.height - f.lines.length) (closingFrame r d f) (modStream r.stream (fun s => { s with openFrame := none }) d) g e ∧
    tabGet st r.stream {} = { getStream d r.stream with
      openFrame := none, trunc := (getStream d r.stream).trunc + (if f.lines.length < r.height then 1 else 0) } ∧
    er = (if f.lines.length < r.height then errRecord 0x52 (streamOwner d.img r.stream) (3, r.stream) none false d.err else d.err) := by
  have hadd := addLines_missing hp (r.height - f.lines.length) (closingFrame r d f) (modStream r.stream (fun s => { s with openFrame := none }) d) hw
  have hclose : closeFrame r d = modCam (fun c => { c with queue := c.queue ++
        [(addLines r (List.replicate (r.height - f.lines.length) (missingLine r)) (closingFrame r d f)
          (modStream r.stream (fun s => { s with openFrame := none }) d)).1] })
      (truncationCounted (streamOwner d.img r.stream) r (r.height - f.lines.length) (addLines r (List.replicate (r.height - f.lines.length) (missingLine r))
        (closingFrame r d f) (modStream r.stream (fun s => { s with openFrame := none }) d)).2) := by
    unfold closeFrame
    rw [ho]
    dsimp only
    rw [if_neg (by simp [hd]), if_neg (by simp [hp]), hm, Nat.zero_add]
    rfl
  rw [hclose]
  generalize addLines r (List.replicate (r.height - f.lines.length) (missingLine r)) (closingFrame r d f)
    (modStream r.stream (fun s => { s with openFrame := none }) d) = x at hadd ⊢
  obtain ⟨g, e⟩ := x
  change LinesMissing _ _ _ _ g e at hadd
  obtain ⟨m, y, k, he⟩ := hadd.work
  obtain ⟨st, er, hcount, hst, her⟩ := truncationCounted_frame (streamOwner d.img r.stream) r (r.height - f.lines.length) e
  refine ⟨g, e, st, er, by rw [hcount]; rfl, hadd, ?_, ?_⟩
  · have hstream : getStream e r.stream = { getStream d r.stream with openFrame := none } := by
      rw [he]
      exact getStream_modStream_self _ _ _
    rw [hst, hstream]
    simp only [Nat.sub_eq_zero_iff_le, ← not_lt, ite_not]
  · have herr : e.err = d.err := by
      rw [he]
      rfl
    rw [her, herr]
    simp only [Nat.sub_eq_zero_iff_le, ← not_lt, ite_not]

/-! ### The frame end -/

theorem startBlock_of_none {r : CamRec} {d : Dev} (h : (getSensor d r.sensor).waiting = none) : startBlock r d = d := by
  simp only [startBlock, h]

section
variable {d : Dev} {p v : Nat} {r : CamRec} {c : CsiFrame}

/-- A CSI-2 frame of one stream that matched closes with the frame of that stream. -/
theorem closeCsi_of_single (hs : streamsOn d.img p v = [r]) (hc : csiFrame d p v = some c) (hm : c.matched = true) :
    closeCsi p v d = modCam (fun x => { x with rx := tabDrop x.rx (rxKey p v) }) (settleHeld r (closeFrame r d)) := by
  simp only [closeCsi, hc, hs, List.foldl_cons, List.foldl_nil, hm, if_true]

/-- The frame end of it, where the sensor has no block held or waiting. -/
theorem endCsi_of_single (hs : streamsOn d.img p v = [r]) (hc : csiFrame d p v = some c) (hm : c.matched = true)
    (ho : (getStream d r.stream).openFrame.isSome = true) (hh : (getSensor (closeFrame r d) r.sensor).held = none)
    (hw : (getSensor (closeFrame r d) r.sensor).waiting = none) :
    endCsi p v d = modCam (fun x => { x with rx := tabDrop x.rx (rxKey p v), issued := [] }) (closeFrame r d) := by
  have hclose := closeCsi_of_single hs hc hm
  rw [settleHeld_of_none hh] at hclose
  have hstart : startBlock r (freshBus (closeCsi p v d)) = freshBus (closeCsi p v d) := startBlock_of_none (by rw [hclose]; exact hw)
  have hended : (streamsOn d.img p v).filter (fun r => (getStream d r.stream).openFrame.isSome) = [r] := by simp [hs, ho]
  rw [endCsi, hended, List.foldl_cons, List.foldl_nil, hstart, hclose]
  rfl

end

/-- A frame end closes the open frame of the one stream of its CSI-2 frame. -/
theorem frameEnd_gives {s : State} {p : Fin 4} {v : Fin 16} {r : CamRec} {f : RawFrame} {c : CsiFrame} (h : Settled s)
    (ha : s.dev.err.armed = none) (hw : s.dev.mem.wf = true) (hrx : rxOn s.dev p.val v.val = true) (hs : streamsOn s.dev.img p.val v.val = [r])
    (hc : csiFrame s.dev p.val v.val = some c) (hm : c.matched = true) (hp : r.pipe = 1)
    (ho : (getStream s.dev r.stream).openFrame = some f) (hd : f.dropped = false) (h0 : f.missing = 0)
    (hh : (getSensor s.dev r.sensor).held = none) (hwait : (getSensor s.dev r.sensor).waiting = none) :
    ∃ g e st, exec (.csi2FrameEnd p v .ok) s = .next { s with dev := { e with
      cam := { e.cam with streams := st, queue := s.dev.cam.queue ++ [g], rx := tabDrop s.dev.cam.rx (rxKey p.val v.val), issued := [] }
      err := if f.lines.length < r.height then errRecord 0x52 (streamOwner s.dev.img r.stream) (3, r.stream) none false s.dev.err
        else s.dev.err } } ∧
    LinesMissing r (r.height - f.lines.length) (closingFrame r s.dev f) (modStream r.stream (fun x => { x with openFrame := none }) s.dev) g e ∧
    tabGet st r.stream {} = { getStream s.dev r.stream with
      openFrame := none, trunc := (getStream s.dev r.stream).trunc + (if f.lines.length < r.height then 1 else 0) } := by
  obtain ⟨g, e, st, er, hclose, hadd, hst, rfl⟩ := closeFrame_closes hp hw ho hd h0
  obtain ⟨m, y, k, he⟩ := hadd.work
  have hsensor : getSensor (closeFrame r s.dev) r.sensor = getSensor s.dev r.sensor := by
    rw [hclose, he]
    rfl
  have hx := exec_csi2FrameEnd hrx (header_ok p.val ha)
  rw [if_pos rfl, endCsi_of_single hs hc hm (by simp [ho]) (hsensor ▸ hh) (hsensor ▸ hwait)] at hx
  have hcw : CamWork s.dev (closeFrame r s.dev) := by
    rw [hclose, he]
    exact ⟨_, _, s.dev.host.ibis, s.dev.host.ibiMerged, m, y, k, rfl⟩
  refine ⟨g, e, st, (exec_of_camWork h hx (hcw.trans (.cam _ _))).trans ?_, hadd, hst⟩
  rw [hclose, he]
  rfl

/-- A stream without a frame open becomes idle (R116). -/
theorem streamIdle_of_active {s : State} {n : Fin 48} {r : CamRec} (h : Settled s) (hr : camRec? s.dev.img n.val = some r) (hn : r.stream = n.val)
    (h1 : (getStream s.dev n.val).state = 1) (ho : (getStream s.dev n.val).openFrame = none) :
    exec (.streamIdle n) s = .next { s with dev := { s.dev with
      cam := { s.dev.cam with streams := tabMod s.dev.cam.streams n.val {} (fun x => { x with state := 2, leaves := min 255 (x.leaves + 1) }) }
      err := errRecord 0x5C (streamOwner s.dev.img n.val) (3, n.val) none false s.dev.err } } := by
  have hclose : closeFrame r s.dev = s.dev := by
    rw [← hn] at ho
    simp only [closeFrame, ho]
  have hx : exec (.streamIdle n) s = .next (settle { s with
      dev := record 0x5C (streamOwner s.dev.img n.val) (3, n.val) (modStream n.val (fun x => { x with state := 2, leaves := satAdd 255 x.leaves 1 }) s.dev) }) := by
    change execStreamIdle n s = _
    simp only [execStreamIdle, devStep, hr, h1, if_true, hclose]
  rw [record_of_info rfl] at hx
  exact exec_of_camWork h hx ⟨_, _, s.dev.host.ibis, s.dev.host.ibiMerged, s.dev.mem, s.dev.mov.ddr, s.dev.freeCtr, rfl⟩

/-- Settles O21: the close of a frame adds its missing lines, poisoned, and hands it to pipe 1. -/
theorem frameEndsCloseAndStreamsGoIdle : Obligations.FrameEndsCloseAndStreamsGoIdle := by
  refine fun s h ha hw => ⟨fun p v r f c hrx hs hc hm hp ho hd h0 hh hwait => ?_, fun n r hr hn h1 ho => streamIdle_of_active h hr hn h1 ho⟩
  obtain ⟨g, e, st, hx, hadd, hst⟩ := frameEnd_gives h ha hw hrx hs hc hm hp ho hd h0 hh hwait
  have hcomplete := hadd.complete
  have hbad := hadd.bad
  have hout := hadd.outside
  obtain ⟨vs, hvs, rfl⟩ := hadd.frame
  have hlines : (closingFrame r s.dev f).lines = f.lines := rfl
  refine gives_of_exec hx ⟨⟨rfl, rfl, rfl⟩, congrArg CamStream.openFrame hst, tabGet?_tabDrop_self _ _,
    ⟨_, rfl, rfl, rfl, rfl, ?_, fun l h1 h2 => hbad l h1 ?_, rfl, ?_⟩, congrArg CamStream.trunc hst,
    fun hle => ⟨if_neg hle.not_gt, hcomplete (Nat.sub_eq_zero_of_le hle)⟩, fun hlt => if_pos hlt,
    fun b hb => hout b fun l a h1 h2 ha => hb l a h1 ?_ ha⟩
  · simp only [hlines, List.length_append, hvs]
    omega
  · rw [hlines]
    omega
  · simp [closingFrame]
  · rw [hlines] at h1 h2
    omega

end Sys2Proof.Machine
end

section
/-! PROOFS. A frame leaves pipe 1: its reads, its reference, its tiles and its descriptor (R122, R124 to R127). Settles O22. -/

namespace Sys2Proof.Machine

/-! ### What a remote master writes and what it leaves -/

section
variable {a : Nat} {b : Bytes} {d : Dev}

theorem remoteStore_memWork (a : Nat) (b : Bytes) (d : Dev) : MemWork d (remoteStore a b d) := by
  obtain ⟨x, k, h⟩ := remoteStore_frame a b d
  exact ⟨_, x, k, h⟩

theorem remoteStore_mem (a : Nat) (b : Bytes) (d : Dev) :
    (remoteStore a b d).mem = cleanGranules (wholeGranules a b.length) (memWrite d.mem a b) := by
  obtain ⟨x, k, h⟩ := remoteStore_frame a b d
  rw [h]

theorem remoteStore_wf (h : d.mem.wf = true) : (remoteStore a b d).mem.wf = true := by
  rw [remoteStore_mem]
  exact memWrite_wf _ _ _ h

theorem memByte_remoteStore_out (h : d.mem.wf = true) {k : Nat} (hk : k < a ∨ a + b.length ≤ k) :
    memByte (remoteStore a b d).mem k = memByte d.mem k := by
  rw [remoteStore_mem]
  exact memByte_memWrite_out _ _ _ _ h hk

theorem memByte_remoteStore_in (h : d.mem.wf = true) {i : Nat} (hi : i < b.length) : memByte (remoteStore a b d).mem (a + i) = b.getD i 0 := by
  rw [remoteStore_mem]
  exact (memByte_memWrite_in b d.mem a i h hi).trans (by simp [hi])

theorem memRead_remoteStore (h : d.mem.wf = true) : memRead (remoteStore a b d).mem a b.length = b := by
  rw [remoteStore_mem]
  exact (memRead_memWrite h a le_rfl).trans (List.take_length)

end

/-! ### What the pipe reads -/

/-- Reads that meet no uncorrectable granule change the error record and the traffic of the DRAM alone. -/
theorem readErrors_frame (p : Option Nat) (k : Nat × Nat) (read corrected : List Nat) (d : Dev) : ∃ er x,
    readErrors p k read [] corrected d = { d with err := er, mov := { d.mov with ddr := x } } ∧ er.armed = d.err.armed := by
  have h (l : List Nat) : ∀ e : Dev, ∃ er x, l.foldl (fun e g =>
      record 0x10 p k (if 64 * g < 0x1000000000 then modDdr (fun x => { x with corr := x.corr + 1 }) e else e)) e =
        { e with err := er, mov := { e.mov with ddr := x } } ∧ er.armed = e.err.armed := by
    induction l with
    | nil => exact fun e => ⟨_, _, rfl, rfl⟩
    | cons g l ih =>
      intro e
      obtain ⟨y, hy⟩ : ∃ y, (if 64 * g < 0x1000000000 then modDdr (fun x => { x with corr := x.corr + 1 }) e else e) =
          { e with mov := { e.mov with ddr := y } } := by split <;> exact ⟨_, rfl⟩
      rw [List.foldl_cons, hy, record_of_info rfl]
      obtain ⟨er, x, he, ha⟩ := ih { e with mov := { e.mov with ddr := y }, err := errRecord 0x10 p k none false e.err }
      exact ⟨er, x, he, ha.trans (errRecord_armed _ _ _ _ _ _)⟩
  exact h _ d

theorem ispRead_frame {f : IspFrame} (hf : f.uncorrectable = []) (r : CamRec) (g : RawFrame) (d : Dev) : ∃ er x k,
    ispRead r g f d = { d with err := er, mov := { d.mov with ddr := x }, freeCtr := k } ∧ er.armed = d.err.armed := by
  unfold ispRead
  extract_lets gs
  obtain ⟨er, x, he, ha⟩ := readErrors_frame (streamOwner d.img r.stream) (3, r.stream) gs f.corrected d
  rw [hf, he]
  obtain ⟨y, k, hy⟩ := countRemote_frame 0 (gs.filter (fun k => decide (64 * k < 0x1000000000))).length
    { d with err := er, mov := { d.mov with ddr := x } }
  exact ⟨er, y, k, hy, ha⟩

/-! ### The reference (R122) -/

/-- A line of the new reference is stored where its region holds it. -/
def refStored (r : CamRec) (place : Nat → Option Nat) (w : Nat → Bytes × List Nat) (e : Dev) (l : Nat) : Dev :=
  match place l with
  | some a => storeLine a r (w l) e
  | none => e

section
variable (r : CamRec) (place : Nat → Option Nat) (w : Nat → Bytes × List Nat)

theorem refStored_memWork (e : Dev) (l : Nat) : MemWork e (refStored r place w e l) := by
  unfold refStored
  split
  · exact storeLine_memWork _ _ _ _
  · exact .refl e

theorem refStored_wf {e : Dev} (l : Nat) (h : e.mem.wf = true) : (refStored r place w e l).mem.wf = true := by
  unfold refStored
  split
  · exact storeLine_wf _ _ _ h
  · exact h

theorem memByte_refStored_out {e : Dev} {l b : Nat} (h : e.mem.wf = true) (hb : ∀ a, place l = some a → b < a ∨ a + lineStride r ≤ b) :
    memByte (refStored r place w e l).mem b = memByte e.mem b := by
  unfold refStored
  split
  · rename_i a ha
    exact memByte_storeLine_out _ h (hb a ha)
  · rfl

/-- The lines of the new reference are stored at their places, and nothing else is written. -/
theorem foldl_refStored (ls : List Nat) : ∀ d : Dev, d.mem.wf = true →
    MemWork d (ls.foldl (refStored r place w) d) ∧ (ls.foldl (refStored r place w) d).mem.wf = true ∧
    ∀ b, (∀ l ∈ ls, ∀ a, place l = some a → b < a ∨ a + lineStride r ≤ b) →
      memByte (ls.foldl (refStored r place w) d).mem b = memByte d.mem b := by
  induction ls with
  | nil => exact fun d h => ⟨.refl d, h, fun _ _ => rfl⟩
  | cons l ls ih =>
    intro d h
    obtain ⟨hwork, hwf, hout⟩ := ih (refStored r place w d l) (refStored_wf r place w l h)
    exact ⟨(refStored_memWork r place w d l).trans hwork, hwf, fun b hb => (hout b fun k hk => hb k (List.mem_cons_of_mem _ hk)).trans
      (memByte_refStored_out r place w h (hb l List.mem_cons_self))⟩

end

/-- A RAW frame becomes its stream's reference; a frame of another type leaves its stream without one. -/
theorem writeReference_frame (r : CamRec) (g : RawFrame) (f : IspFrame) {d : Dev} (hw : d.mem.wf = true) : ∃ e st,
    writeReference r g f d = { e with cam := { d.cam with streams := st } } ∧ MemWork d e ∧ e.mem.wf = true ∧
    (tabGet st r.stream {}).ref = (if isRaw r.dt = true then some g.number else none) ∧
    ∀ b, (isRaw r.dt = true → ∀ l a, l < r.height → refPlace d r l = some a → b < a ∨ a + lineStride r ≤ b) →
      memByte e.mem b = memByte d.mem b := by
  by_cases hraw : isRaw r.dt = true
  · obtain ⟨hwork, hwf, hout⟩ := foldl_refStored r (refPlace d r) (refLine d r g f) (List.range r.height) d hw
    have hdef : writeReference r g f d = modStream r.stream (fun s => { s with ref := some g.number })
        ((List.range r.height).foldl (refStored r (refPlace d r) (refLine d r g f)) d) := by
      rw [writeReference, if_pos hraw]
      rfl
    rw [hdef]
    generalize (List.range r.height).foldl (refStored r (refPlace d r) (refLine d r g f)) d = e at hwork hwf hout ⊢
    have hcam : e.cam = d.cam := by
      obtain ⟨_, _, _, rfl⟩ := hwork
      rfl
    refine ⟨e, _, by rw [modStream, hcam], hwork, hwf, ?_, fun b hb => hout b fun l hl a ha => hb hraw l a (List.mem_range.mp hl) ha⟩
    simp [hraw]
  · have hdef : writeReference r g f d = modStream r.stream (fun s => { s with ref := none }) d := if_neg hraw
    rw [hdef]
    exact ⟨d, _, rfl, .refl d, hw, by simp [hraw], fun _ _ => rfl⟩

/-! ### Tiles and descriptor (R125, R127) -/

theorem tilesOf_length (o : TensorOut) (qs : List (Int × Bool)) : (tilesOf o qs).length = tileBytes o := by
  simp only [tilesOf, tileBytes, List.length_flatMap, List.length_map, List.length_range, List.map_const', List.sum_replicate, smul_eq_mul]
  ring

theorem frameDesc_length (g : RawFrame) (tnr : Bool) (settings poisoned stats : Nat) :
    (frameDesc g tnr settings poisoned stats).length = 32 := by
  simp [frameDesc, le_length, zeros]

/-- A buffer or a frame number is returned; where nothing is armed, at most a count of held buffers changes. -/
theorem returnFrame_frame (n : Nat) (pipe1 : Bool) {d : Dev} (ha : d.err.armed = none) : ∃ st,
    returnFrame n pipe1 d = { d with cam := { d.cam with streams := st } } ∧ (tabGet st n {}).ref = (getStream d n).ref := by
  unfold returnFrame
  extract_lets p d1
  have hd1 : ∃ st, d1 = { d with cam := { d.cam with streams := st } } ∧ (tabGet st n {}).ref = (getStream d n).ref := by
    unfold d1
    split
    · split
      · exact ⟨_, rfl, by simp [getStream]⟩
      · exact ⟨_, tap_calm _ _ _ _ d ha, rfl⟩
    · exact ⟨_, rfl, rfl⟩
  obtain ⟨st, he, hst⟩ := hd1
  rw [he, tap_calm _ _ _ _ _ (by exact ha)]
  exact ⟨st, rfl, hst⟩

/-- Where a frame's slot begins (R125). -/
def slotBase (img : Image) (o : TensorOut) (number : Nat) : Nat :=
  regionBase img o.region + number % max 1 (slotCount img o) * slotBytes o

section
variable {d : Dev} {r : CamRec} {o : TensorOut} {g : RawFrame} {f : IspFrame}

theorem slotBytes_of_plain (ho : o.flags = 0) : slotBytes o = tileBytes o + 64 := by simp [slotBytes, ho, bit]

/-- The descriptor of a frame without statistics follows its tiles. -/
theorem descPlace_of_plain (ho : o.flags = 0) (img : Image) (number : Nat) : descPlace img o number = slotBase img o number + tileBytes o := by
  have h := slotBytes_of_plain ho
  rw [descPlace, slotBase, Nat.add_one_mul]
  omega

/-- The tiles and the descriptor of a frame without statistics are written over what the reference left. -/
def slotWritten (o : TensorOut) (number : Nat) (tiles desc : Bytes) (d : Dev) : Dev :=
  remoteStore (descPlace d.img o number) desc (remoteStore (slotBase d.img o number) tiles d)

theorem badGranules_of_clean (h : ∀ l ∈ rawFrame d r g, l.2 = []) : badGranules d r o g = [] := by
  have hall : (rawFrame d r g).all (fun l => l.2.isEmpty) = true := List.all_eq_true.mpr fun l hl => by simp [h l hl]
  unfold badGranules
  exact if_pos hall

theorem clipFrame_of_none (h : d.img.clipStats.find? (fun k => k.stream == r.stream) = none) (qs : List (Int × Bool)) :
    clipFrame r o qs d = d := by
  unfold clipFrame
  rw [h]

/-- The tiles of a clean frame without statistics are stored as they are. -/
theorem writeTiles_plain (ho : o.flags = 0) (hc : d.img.clipStats.find? (fun k => k.stream == r.stream) = none) (a : Nat) (vs : List Nat) :
    writeTiles r o g f a vs [] d = remoteStore a (tilesOf o (outPixels r o vs)) d := by
  unfold writeTiles
  extract_lets qs d1 d2 d3
  have hd3 : d3 = d1 := if_neg (by simp [ho, bit])
  obtain ⟨x, k, hs⟩ := remoteStore_frame a (tilesOf o qs) d
  rw [hd3]
  refine clipFrame_of_none ?_ qs
  change (remoteStore a (tilesOf o qs) d).img.clipStats.find? _ = none
  rw [hs]
  exact hc

/-- A frame without statistics, wake, pass-through or poison. -/
theorem writeFrame_plain (ho : o.flags = 0) (hc : d.img.clipStats.find? (fun k => k.stream == r.stream) = none)
    (hb : badGranules d r o g = []) : writeFrame r o g f d = returnFrame r.stream (r.pipe == 1)
      (slotWritten o g.number (tilesOf o (outPixels r o (outValues d r o g f)))
        (frameDesc g (blends d r g) (settingsOf d r g.number) 0 0xFFFFFFFF) (writeReference r g f d)) := by
  have hbit (n : Nat) : bit o.flags n = false := by simp [ho, bit]
  have himg : (writeReference r g f d).img = d.img := img_of_bootSide (writeReference_bootSide r g f d)
  unfold writeFrame
  extract_lets off vs bad nBad stats desc d1 d2 d3
  have hd1 : d1 = remoteStore (slotBase d.img o g.number) (tilesOf o (outPixels r o vs)) (writeReference r g f d) := by
    unfold d1 bad
    rw [hb, writeTiles_plain ho (by rw [himg]; exact hc)]
    rfl
  have hdesc : desc = frameDesc g (blends d r g) (settingsOf d r g.number) 0 0xFFFFFFFF := by
    unfold desc nBad bad stats
    rw [hb, hbit, Bool.and_false]
    rfl
  have hd3 : d3 = d2 := if_neg (by simp [hbit])
  rw [if_neg (by simp [hbit]), hd3]
  unfold d2 slotWritten
  rw [hd1, hdesc, himg]

/-- What the slot holds once the tiles and the descriptor are written, and what they leave. -/
theorem slotWritten_frame (ho : o.flags = 0) (hw : d.mem.wf = true) (number : Nat) {tiles desc : Bytes} (ht : tiles.length = tileBytes o)
    (hd : desc.length = 32) : MemWork d (slotWritten o number tiles desc d) ∧
    (∀ i, i < tileBytes o → memByte (slotWritten o number tiles desc d).mem (slotBase d.img o number + i) = tiles.getD i 0) ∧
    memRead (slotWritten o number tiles desc d).mem (slotBase d.img o number + slotBytes o - 64) 32 = desc ∧
    ∀ b, b < slotBase d.img o number ∨ slotBase d.img o number + slotBytes o ≤ b →
      memByte (slotWritten o number tiles desc d).mem b = memByte d.mem b := by
  have hsize := slotBytes_of_plain ho
  have hplace := descPlace_of_plain ho d.img number
  have hw1 := remoteStore_wf (a := slotBase d.img o number) (b := tiles) hw
  have hwork := (remoteStore_memWork (slotBase d.img o number) tiles d).trans (remoteStore_memWork (descPlace d.img o number) desc _)
  refine ⟨hwork, fun i hi => ?_, ?_, fun b hb => ?_⟩
  · exact (memByte_remoteStore_out hw1 (.inl (by omega))).trans (memByte_remoteStore_in hw (by omega))
  · have hat : slotBase d.img o number + slotBytes o - 64 = descPlace d.img o number := by omega
    rw [hat, ← hd]
    exact memRead_remoteStore hw1
  · exact (memByte_remoteStore_out hw1 (by omega)).trans (memByte_remoteStore_out hw (by omega))

/-- A clean frame without statistics, wake or pass-through: what is in its slot, what its stream's reference is, and what it leaves. -/
theorem writeFrame_frame (ho : o.flags = 0) (hc : d.img.clipStats.find? (fun k => k.stream == r.stream) = none)
    (hb : badGranules d r o g = []) (hw : d.mem.wf = true) (ha : d.err.armed = none) : ∃ m x k st,
    writeFrame r o g f d = { d with
      mem := m, mov := { d.mov with ddr := x }, freeCtr := k, cam := { d.cam with streams := st } } ∧
    (∀ i, i < tileBytes o →
      memByte m (slotBase d.img o g.number + i) = (tilesOf o (outPixels r o (outValues d r o g f))).getD i 0) ∧
    memRead m (slotBase d.img o g.number + slotBytes o - 64) 32 = frameDesc g (blends d r g) (settingsOf d r g.number) 0 0xFFFFFFFF ∧
    (tabGet st r.stream {}).ref = (if isRaw r.dt = true then some g.number else none) ∧
    ∀ b, (b < slotBase d.img o g.number ∨ slotBase d.img o g.number + slotBytes o ≤ b) →
      (isRaw r.dt = true → ∀ l a, l < r.height → refPlace d r l = some a → b < a ∨ a + lineStride r ≤ b) →
      memByte m b = memByte d.mem b := by
  obtain ⟨e1, st1, he1, hwork1, hw1, href, hout1⟩ := writeReference_frame r g f hw
  obtain ⟨hwork, htiles, hdesc, hout⟩ := slotWritten_frame (d := writeReference r g f d) (number := g.number) ho (by rw [he1]; exact hw1)
    (tilesOf_length o (outPixels r o (outValues d r o g f))) (frameDesc_length g (blends d r g) (settingsOf d r g.number) 0 0xFFFFFFFF)
  rw [writeFrame_plain ho hc hb]
  generalize slotWritten o g.number _ _ (writeReference r g f d) = e at hwork htiles hdesc hout ⊢
  obtain ⟨m1, x1, k1, rfl⟩ := hwork1
  rw [he1] at hwork htiles hdesc hout
  obtain ⟨m, x, k, rfl⟩ := hwork
  obtain ⟨st, hret, hst⟩ := returnFrame_frame r.stream (r.pipe == 1) (d := { d with
    mem := m, mov := { d.mov with ddr := x }, freeCtr := k, cam := { d.cam with streams := st1 } }) ha
  exact ⟨m, x, k, st, hret, htiles, hdesc, hst.trans href, fun b hb hr => (hout b hb).trans (hout1 b hr)⟩

/-- A frame that leaves its pipe is read, referenced and written. -/
theorem finishFrame_written (hr : camRec? d.img g.stream = some r) (ho : outOf d.img g.stream = some o) (hg : g.dropped = false) :
    finishFrame g f d = writeFrame r o g f (ispRead r g f d) := by
  simp [finishFrame, hr, ho, hg]

/-- A frame that its stream's muzzle dropped in the pipe is not written. -/
theorem finishFrame_dropped (hr : camRec? d.img g.stream = some r) (ho : outOf d.img g.stream = some o) (hg : g.dropped = true) :
    finishFrame g f d = returnFrame g.stream (r.pipe == 1) d := by
  simp [finishFrame, hr, ho, hg]

end

/-- The device once pipe 1 is free, the cycles of its frame counted. -/
def pipe1Freed (r : CamRec) (d : Dev) : Dev := modCam (fun c => { c with pipe1 := none, busy := addW c.busy (pipe1Cost r) }) d

theorem exec_pipe1FrameDone {s : State} {g : RawFrame} {r : CamRec} (f : IspFrame) (hl : live s.dev = true) (hi : s.dev.power.isp = true)
    (h1 : s.dev.cam.pipe1 = some g) (hr : camRec? s.dev.img g.stream = some r) :
    exec (.pipe1FrameDone f) s = .next (settle { s with dev := finishFrame g f (pipe1Freed r s.dev) }) := by
  change execPipe1FrameDone f s = _
  simp only [execPipe1FrameDone, devStep, h1, hl, hi, hr]
  rfl

/-- Settles O22: a frame that leaves pipe 1 writes its slot and its stream's reference; one that was dropped writes nothing. -/
theorem pipe1WritesTheFrameSlot : Obligations.Pipe1WritesTheFrameSlot := by
  intro s f g r o h hl hi ha h1 hr hout ho hclip hw hclean hf
  have hx := exec_pipe1FrameDone f hl hi h1 hr
  refine ⟨fun hg => ?_, fun hg => ?_⟩
  · obtain ⟨st, hret, -⟩ := returnFrame_frame g.stream (r.pipe == 1) (d := pipe1Freed r s.dev) ha
    rw [finishFrame_dropped (by exact hr) (by exact hout) hg, hret] at hx
    exact gives_of_exec (exec_of_camWork h hx (.cam _ _)) ⟨⟨rfl, rfl, rfl⟩, rfl, rfl⟩
  · obtain ⟨er, x, k, hread, har⟩ := ispRead_frame hf r g (pipe1Freed r s.dev)
    obtain ⟨m, y, j, st, hwrite, htiles, hdesc, href, hrest⟩ := writeFrame_frame (d := ispRead r g f (pipe1Freed r s.dev)) (f := f) (g := g) ho
      (by rw [hread]; exact hclip) (badGranules_of_clean (by rw [hread]; exact hclean)) (by rw [hread]; exact hw)
      (by rw [hread]; exact har.trans ha)
    rw [finishFrame_written (by exact hr) (by exact hout) hg, hwrite, hread] at hx
    rw [hread] at htiles hdesc hrest
    refine gives_of_exec (exec_of_camWork h hx ⟨_, _, s.dev.host.ibis, s.dev.host.ibiMerged, _, _, _, rfl⟩)
      ⟨⟨rfl, rfl, rfl⟩, rfl, rfl, htiles, hdesc, href, hrest, rfl⟩

end Sys2Proof.Machine
end

section
/-! PROOFS. Settings blocks, their transfers and their end, and targets that join (R130 to R133). Settles O23. -/

namespace Sys2Proof.Machine

/-! ### A block that waits (R131) -/

/-- The device once a settings block waits at its sensor, in place of one that has not started. -/
def blockPosted (n : Nat) (b : SetBlock) (r : CamRec) (d : Dev) : Dev :=
  modSensor n (fun x => { x with waiting := some b })
    (if (getSensor d n).waiting.isSome then modStream r.stream (fun x => { x with setMiss := x.setMiss + 1 }) d else d)

theorem exec_settingsBlockPost {s : State} {n : Fin 32} {p : Fin 128} {id : Nat} {es : List (Nat × Nat)} {r : CamRec} (hl : live s.dev = true)
    (hwf : (Instr.settingsBlockPost n p id es).wf = true) (hr : sensorStream s.dev.img n.val = some r)
    (ho : streamOwner s.dev.img r.stream = some p.val) (hx : ∃ x ∈ s.dev.img.sensors, x.sensor = n.val) :
    exec (.settingsBlockPost n p id es) s = .next (settle { s with dev := blockPosted n.val ⟨id, es⟩ r s.dev }) := by
  have hany : s.dev.img.sensors.any (fun x => x.sensor == n.val) = true := by simpa using hx
  refine (unlessWf_of_wf hwf).trans ?_
  simp [devStep, hr, hl, ho, hany, blockPosted]

/-- What a posted block changes: what waits at its sensor, and its stream's count of missed blocks. -/
theorem blockPosted_frame (n : Nat) (b : SetBlock) (r : CamRec) (d : Dev) : ∃ st,
    blockPosted n b r d = { d with cam := { d.cam with
      streams := st, sensors := tabMod d.cam.sensors n {} (fun x => { x with waiting := some b }) } } ∧
    (tabGet st r.stream {}).setMiss = (getStream d r.stream).setMiss + (if (getSensor d n).waiting.isSome then 1 else 0) := by
  unfold blockPosted
  by_cases hw : (getSensor d n).waiting.isSome = true
  · rw [if_pos hw, if_pos hw]
    exact ⟨_, rfl, congrArg CamStream.setMiss (tabGet_tabMod_self _ _ _ _ _)⟩
  · rw [if_neg hw, if_neg hw]
    exact ⟨_, rfl, (BitVec.add_zero _).symm⟩

/-! ### The transfers of a block (R132, R133) -/

section
variable {n : Nat} {b : SetBlock} {k m : Nat} {d : Dev}

/-- An acknowledged transfer is followed by the next write. -/
theorem transferDone_next (h : (getSensor d n).cur = some (b, k, m, false)) (hk : k ≤ b.entries.length) :
    transferDone n true d = issueBlock n b (k + 1) false (modSensor n (fun s => { s with cur := some (b, k + 1, m, false) }) d) := by
  have hne : k ≠ b.entries.length + 1 := by omega
  simp [transferDone, h, hne]

/-- A transfer that is not acknowledged is followed by the hold_off write. -/
theorem transferDone_refused (h : (getSensor d n).cur = some (b, k, m, false)) (hk : k ≤ b.entries.length) :
    transferDone n false d = issueBlock n b k true (modSensor n (fun s => { s with cur := some (b, k, m, true) }) d) := by
  have hne : k ≠ b.entries.length + 1 := by omega
  simp [transferDone, h, hne]

/-- The hold_off write ends the block. -/
theorem transferDone_last (h : (getSensor d n).cur = some (b, b.entries.length + 1, m, false)) :
    transferDone n true d = blockEnds n b m d := by
  simp [transferDone, h]

/-- The hold_off write after a NACK ends the block without effect. -/
theorem transferDone_nacked (h : (getSensor d n).cur = some (b, k, m, true)) (ack : Bool) : transferDone n ack d = blockNacked n d := by
  simp [transferDone, h]

end

/-- A transfer that does work of the camera ends where its meaning ends. -/
theorem exec_settingsTransferDone {s : State} {n : Fin 32} {ack : Bool} {d : Dev} (h : Settled s)
    (hd : transferDone n.val ack (freshBus s.dev) = d) (hw : CamWork (freshBus s.dev) d) :
    exec (.settingsTransferDone n ack) s = .next { s with dev := d } := by
  refine exec_of_camWork h ?_ ((CamWork.cam s.dev _).trans hw)
  rw [← hd]
  rfl

/-- The sensor's block at a transfer, whose write goes out on a bus with nothing before it. -/
theorem issueBlock_frame (n : Nat) (b : SetBlock) (k : Nat) (nacked : Bool) (c : SetBlock × Nat × Nat × Bool) (d : Dev) :
    issueBlock n b k nacked (modSensor n (fun s => { s with cur := some c }) (freshBus d)) = { d with cam := { d.cam with
      sensors := tabMod d.cam.sensors n {} (fun s => { s with cur := some c })
      issued := [blockWrite (getSensor d n).cfg b k nacked] } } := by
  have hcfg : (getSensor (modSensor n (fun s => { s with cur := some c }) (freshBus d)) n).cfg = (getSensor d n).cfg := by simp; rfl
  rw [issueBlock, hcfg]
  rfl

theorem blockWrite_next (r : SensorRec) (b : SetBlock) (k : Nat) : blockWrite r b (k + 1) false =
    if k + 1 ≤ b.entries.length then .write r.port r.dynAddr (b.entries.getD k (0, 0)).1 (b.entries.getD k (0, 0)).2
    else .write r.port r.dynAddr r.holdReg r.holdOff := by
  simp [blockWrite]

theorem blockWrite_nacked (r : SensorRec) (b : SetBlock) (k : Nat) : blockWrite r b k true = .write r.port r.dynAddr r.holdReg r.holdOff :=
  rfl

/-! ### The end of a block (R132) -/

/-- Flagging a frame leaves the sensors and the counts of missed blocks. -/
theorem markFrame_frame (r : CamRec) (m : Nat) (d : Dev) :
    (markFrame r m d).cam.sensors = d.cam.sensors ∧ ∀ n, (getStream (markFrame r m d) n).setMiss = (getStream d n).setMiss := by
  unfold markFrame
  split
  · refine ⟨rfl, fun n => ?_⟩
    exact (congrArg CamStream.setMiss (tabGet_tabMap d.cam.streams _ n {} (by rfl))).trans rfl
  · unfold flagMissed
    split
    · exact ⟨rfl, fun _ => rfl⟩
    · extract_lets a b
      split
      · obtain ⟨x, k, h⟩ := remoteStore_frame (a + 1) (le 1 (u8 b 1 ||| 32)) d
        rw [h]
        exact ⟨rfl, fun _ => rfl⟩
      · exact ⟨rfl, fun _ => rfl⟩

/-- A block that missed the blanking window is counted at its stream; its sensor is as it was. -/
theorem missBlock_frame (r : CamRec) (m : Nat) (d : Dev) : (missBlock r m d).cam.sensors = d.cam.sensors ∧
    (getStream (missBlock r m d) r.stream).setMiss = (getStream d r.stream).setMiss + 1 := by
  obtain ⟨hsens, hmiss⟩ := markFrame_frame r m d
  rw [missBlock, record_of_info rfl]
  refine ⟨hsens, (congrArg CamStream.setMiss (getStream_modStream_self _ _ _)).trans ?_⟩
  exact congrArg (· + 1) (hmiss r.stream)

section
variable {n id N m : Nat} {r : CamRec} {d : Dev}

theorem applyBlock_of_stream (hr : sensorStream d.img n = some r) : applyBlock n id N m d =
    if m = N then modSensor n (fun s => { s with nack := false, applied := (m + r.latency, id) :: s.applied }) d
    else missBlock r m (modSensor n (fun s => { s with nack := false, applied := (m + r.latency, id) :: s.applied }) d) := by
  simp only [applyBlock, hr]

/-- A block that ended well applies from M + L, and is a miss where M is not N. -/
theorem applyBlock_frame (hr : sensorStream d.img n = some r) :
    getSensor (applyBlock n id N m d) n = { getSensor d n with nack := false, applied := (m + r.latency, id) :: (getSensor d n).applied } ∧
    (getStream (applyBlock n id N m d) r.stream).setMiss = (getStream d r.stream).setMiss + (if m = N then 0 else 1) ∧
    (m = N → (applyBlock n id N m d).mem = d.mem) := by
  rw [applyBlock_of_stream hr]
  by_cases hm : m = N
  · simp only [if_pos hm]
    exact ⟨getSensor_modSensor_self _ _ _, (BitVec.add_zero _).symm, fun _ => rfl⟩
  · simp only [if_neg hm]
    obtain ⟨hsens, hmiss⟩ := missBlock_frame r m (modSensor n (fun s => { s with nack := false, applied := (m + r.latency, id) :: s.applied }) d)
    refine ⟨?_, hmiss, fun h => absurd h hm⟩
    rw [getSensor, hsens]
    exact getSensor_modSensor_self _ _ _

end

/-- The device once a block is no longer in progress. -/
def blockLeft (n : Nat) (d : Dev) : Dev := modSensor n (fun s => { s with cur := none }) d

section
variable {n : Nat} {b : SetBlock} {m : Nat} {r : CamRec} {d : Dev}

theorem getSensor_blockLeft : getSensor (blockLeft n d) n = { getSensor d n with cur := none } := getSensor_modSensor_self _ _ _

/-- A block ends while no frame is being received, or once it has opened: it applies. -/
theorem blockEnds_applies (hr : sensorStream d.img n = some r) (hp : r.pipe ≠ 2)
    (hc : ∀ c, csiFrame d r.port r.vc = some c → r.stream ∈ c.opened) :
    blockEnds n b m d = applyBlock n b.id m (getStream d r.stream).frame (blockLeft n d) := by
  simp only [blockEnds, hr, if_neg hp]
  split
  · rename_i c hc'
    rw [if_pos (by simpa using hc c hc')]
    rfl
  · rfl

/-- A block ends while a frame is being received that has not opened: it waits for it. -/
theorem blockEnds_waits {c : CsiFrame} (hr : sensorStream d.img n = some r) (hp : r.pipe ≠ 2)
    (hc : csiFrame d r.port r.vc = some c) (ho : r.stream ∉ c.opened) :
    blockEnds n b m d = modSensor n (fun s => { s with held := some (b.id, m) }) (blockLeft n d) := by
  simp only [blockEnds, hr, if_neg hp]
  split
  · rename_i c' hc'
    obtain rfl : c = c' := Option.some.inj (hc.symm.trans hc')
    exact if_neg (by simpa using ho)
  · rename_i hnone
    exact nomatch hc.symm.trans hnone

end

/-- A block ended by a NACK leaves what has applied. -/
theorem blockNacked_frame (n : Nat) (d : Dev) : CamWork d (blockNacked n d) ∧
    getSensor (blockNacked n d) n = { getSensor d n with cur := none, nack := true } := by
  unfold blockNacked
  extract_lets st
  refine ⟨(CamWork.cam d _).trans (record_camWork _ _ _ _), ?_⟩
  rw [record_of_info rfl]
  exact getSensor_modSensor_self _ _ _

/-! ### Targets that join (R130) -/

theorem exec_sensorHotJoin {s : State} {p : Fin 2} {pid : Nat} (hl : live s.dev = true) (hpid : pid < 2 ^ 48)
    (hc : ∃ c ∈ s.dev.img.ctrlPorts, c.port = p.val ∧ bit c.flags 0 = true) :
    exec (.sensorHotJoin p pid) s = .next (settle { s with dev := targetFound p.val pid (freshBus s.dev) }) := by
  have hany : s.dev.img.ctrlPorts.any (fun r => r.port == p.val && bit r.flags 0) = true := by simpa using hc
  refine (unlessWf_of_wf (i := .sensorHotJoin p pid) (decide_eq_true hpid)).trans ?_
  simp only [devStep, hl, hany, Bool.and_self, if_true]

/-- The device once a target has its address, by the first operation on the bus. -/
def sensorAddressed (n : Nat) (op : BusOp) (d : Dev) : Dev := { d with cam := { d.cam with
  sensors := tabMod d.cam.sensors n {} (fun s => { s with addressed := true }), issued := [op] } }

/-- A sensor that has its address joins as soon as its first settings are there, and waits for them else. -/
theorem joinSensor_eq (r : SensorRec) (op : BusOp) (d : Dev) : joinSensor r [op] (freshBus d) =
    if r.initBlob = 0 ∨ blobPlaced d r.initBlob = true then initSensor r (sensorAddressed r.sensor op d) else sensorAddressed r.sensor op d :=
  rfl

theorem getSensor_sensorAddressed (n : Nat) (op : BusOp) (d : Dev) :
    getSensor (sensorAddressed n op d) n = { getSensor d n with addressed := true } := tabGet_tabMod_self _ _ _ _ _

theorem getSensor_initSensor (r : SensorRec) (d : Dev) :
    getSensor (initSensor r d) r.sensor = { getSensor d r.sensor with joined := true, applied := [] } := tabGet_tabMod_self _ _ _ _ _

/-- A target that matches a sensor gets its address. -/
theorem targetFound_matched {port pid : Nat} {r : SensorRec} {d : Dev}
    (h : d.img.sensors.find? (fun x => x.port == port && !bit x.flags 0 && pidMatches x pid) = some r) :
    targetFound port pid (freshBus d) = joinSensor r [.entdaa port pid r.dynAddr] (freshBus d) := by
  have h' : (freshBus d).img.sensors.find? (fun x => x.port == port && !bit x.flags 0 && pidMatches x pid) = some r := h
  unfold targetFound
  rw [h']

/-- A target that matches no sensor gets the next address of its port from 0x60, while there is one. -/
theorem targetFound_unmatched {port pid : Nat} {d : Dev}
    (h : d.img.sensors.find? (fun x => x.port == port && !bit x.flags 0 && pidMatches x pid) = none) :
    targetFound port pid (freshBus d) = { d with
      cam := { d.cam with
        unmatched := if (tabGet d.cam.unmatched port []).length < 16 then
            tabSet d.cam.unmatched port (tabGet d.cam.unmatched port [] ++ [(0x60 + (tabGet d.cam.unmatched port []).length, pid)])
          else d.cam.unmatched
        issued := if (tabGet d.cam.unmatched port []).length < 16 then
            [.entdaa port pid (0x60 + (tabGet d.cam.unmatched port []).length), .disec port (0x60 + (tabGet d.cam.unmatched port []).length)]
          else [] }
      err := errRecord 0x5F none (0, 0) none false d.err } := by
  have h' : (freshBus d).img.sensors.find? (fun x => x.port == port && !bit x.flags 0 && pidMatches x pid) = none := h
  have hg' : tabGet (freshBus d).cam.unmatched port [] = tabGet d.cam.unmatched port [] := rfl
  unfold targetFound
  simp only [h', info_of_info (c := 0x5F) rfl, hg']
  by_cases hg : (tabGet d.cam.unmatched port []).length < 16
  · simp only [if_pos hg]
    rfl
  · simp only [if_neg hg]
    rfl

/-- Settles O23: each command of sensor control does to its sensor and its stream what its rule says. -/
theorem settingsBlocksAndHotJoins : Obligations.SettingsBlocksAndHotJoins := by
  intro s h
  refine ⟨fun n p id es r hl hid1 hid2 hes1 hes2 hes hr ho hx => ?_, fun n b k m hcur hk => ⟨?_, ?_⟩,
    fun n b m r hcur hr hp => ⟨fun hc => ?_, fun c hc hno => ?_⟩, fun n b k m ack hcur => ?_,
    fun p pid r hl hpid hc hr => ?_, fun p pid hl hpid hc hnone => ?_⟩
  · have hwf : (Instr.settingsBlockPost n p id es).wf = true := by
      have hall : es.all (fun e => decide (e.1 < 65536) && decide (e.2 < 256)) = true := by simpa using hes
      simp only [Instr.wf, hall, decide_eq_true hid1, decide_eq_true hid2, decide_eq_true hes1, decide_eq_true hes2, Bool.and_self]
    obtain ⟨st, hd, hmiss⟩ := blockPosted_frame n.val ⟨id, es⟩ r s.dev
    have hx := exec_settingsBlockPost hl hwf hr ho hx
    rw [hd] at hx
    have hsens := tabGet_tabMod_self s.dev.cam.sensors n.val {} {} (fun x => { x with waiting := some ⟨id, es⟩ })
    exact gives_of_exec (exec_of_camWork h hx (.cam _ _))
      ⟨⟨rfl, rfl, rfl⟩, congrArg Sensor.waiting hsens, (congrArg Sensor.cur hsens).trans rfl, hmiss, rfl, rfl⟩
  · have hx := exec_settingsTransferDone h (transferDone_next (d := freshBus s.dev) hcur hk) (.cam _ _)
    rw [issueBlock_frame, blockWrite_next] at hx
    exact gives_of_exec hx ⟨⟨rfl, rfl, rfl⟩, congrArg Sensor.cur (tabGet_tabMod_self _ _ _ _ _), rfl, rfl⟩
  · have hx := exec_settingsTransferDone h (transferDone_refused (d := freshBus s.dev) hcur hk) (.cam _ _)
    rw [issueBlock_frame, blockWrite_nacked] at hx
    exact gives_of_exec hx ⟨⟨rfl, rfl, rfl⟩, congrArg Sensor.cur (tabGet_tabMod_self _ _ _ _ _), rfl, rfl⟩
  · have hend := (transferDone_last (d := freshBus s.dev) hcur).trans (blockEnds_applies (d := freshBus s.dev) hr hp hc)
    have hx := exec_settingsTransferDone h hend ((CamWork.cam _ _).trans (applyBlock_camWork _ _ _ _ _))
    obtain ⟨hsens, hmiss, hmem⟩ := applyBlock_frame (id := b.id) (N := m) (m := (getStream s.dev r.stream).frame)
      (d := blockLeft n.val (freshBus s.dev)) hr
    rw [getSensor_blockLeft] at hsens
    exact gives_of_exec hx
      ⟨⟨rfl, rfl, rfl⟩, congrArg Sensor.cur hsens, congrArg Sensor.nack hsens, (congrArg Sensor.applied hsens).trans rfl, hmiss, hmem⟩
  · have hend := (transferDone_last (d := freshBus s.dev) hcur).trans (blockEnds_waits (d := freshBus s.dev) hr hp hc hno)
    have hx := exec_settingsTransferDone h hend ((CamWork.cam _ _).trans (.cam _ _))
    have hsens := (getSensor_modSensor_self n.val (fun x => { x with held := some (b.id, m) }) (blockLeft n.val (freshBus s.dev))).trans
      (congrArg (fun x : Sensor => { x with held := some (b.id, m) }) getSensor_blockLeft)
    exact gives_of_exec hx ⟨⟨rfl, rfl, rfl⟩, congrArg Sensor.cur hsens, congrArg Sensor.held hsens,
      (congrArg Sensor.applied hsens).trans rfl, rfl⟩
  · obtain ⟨hwork, hsens⟩ := blockNacked_frame n.val (freshBus s.dev)
    have hx := exec_settingsTransferDone h (transferDone_nacked (d := freshBus s.dev) hcur ack) hwork
    exact gives_of_exec hx ⟨⟨rfl, rfl, rfl⟩, congrArg Sensor.cur hsens, congrArg Sensor.nack hsens, (congrArg Sensor.applied hsens).trans rfl⟩
  · have hx := exec_sensorHotJoin hl hpid hc
    rw [targetFound_matched hr, joinSensor_eq] at hx
    by_cases hthere : r.initBlob = 0 ∨ blobPlaced s.dev r.initBlob = true
    · have hsens := getSensor_initSensor r (sensorAddressed r.sensor (.entdaa p.val pid r.dynAddr) s.dev)
      rw [getSensor_sensorAddressed] at hsens
      rw [if_pos hthere] at hx
      exact gives_of_exec (exec_of_camWork h hx (.cam s.dev _)) ⟨⟨rfl, rfl, rfl⟩, congrArg Sensor.addressed hsens,
        fun _ => ⟨congrArg Sensor.joined hsens, congrArg Sensor.applied hsens, rfl⟩, fun hno => absurd hthere hno, rfl, rfl⟩
    · have hsens := getSensor_sensorAddressed r.sensor (.entdaa p.val pid r.dynAddr) s.dev
      rw [if_neg hthere] at hx
      exact gives_of_exec (exec_of_camWork h hx (.cam s.dev _)) ⟨⟨rfl, rfl, rfl⟩, congrArg Sensor.addressed hsens,
        fun hyes => absurd hyes hthere, fun _ => ⟨(congrArg Sensor.joined hsens).trans rfl, rfl⟩, rfl, rfl⟩
  · exact exec_of_camWork h ((exec_sensorHotJoin hl hpid hc).trans (by rw [targetFound_unmatched hnone]))
      ⟨_, _, s.dev.host.ibis, s.dev.host.ibiMerged, s.dev.mem, s.dev.mov.ddr, s.dev.freeCtr, rfl⟩

end Sys2Proof.Machine
end

section
/-! PROOFS. What the commands of the tensor cores share: their outcome, the tiles of units, work that touches units alone. -/

namespace Sys2Proof.Machine

/-! ### The outcome of a command -/

/-- The power domains that are on, but for the banks and the DRAM. -/
def domainsOn (p : Power) : BitVec 4 × Bool × Bool × Bool := (p.clusters, p.sup, p.isp, p.perk)

/-- A settled device stays so under a change of the fields that nothing follows from; of the power state, of all but its domains. -/
theorem Settled.of_same {s : State} {e : Dev} (h : Settled s) (hv : e.sched.tripped = s.dev.sched.tripped) (hb : e.boot = s.dev.boot)
    (hi : e.img = s.dev.img) (hr : e.reqs = s.dev.reqs) (ht : e.tiers = s.dev.tiers) (hc : e.host.cur = s.dev.host.cur)
    (hx : e.host.tx = s.dev.host.tx) (hp : domainsOn e.power = domainsOn s.dev.power) : Settled { s with dev := e } := by
  obtain ⟨htrip, hrom, hpow⟩ := h
  refine ⟨hv.trans htrip, (congrArg Boot.romDue hb).trans hrom, ?_⟩
  simp only [domainsOn, Prod.mk.injEq] at hp
  obtain ⟨hclu, hsup, hisp, hperk⟩ := hp
  have e1 : supWanted e = supWanted s.dev := by simp [supWanted, booting, hostBusy, hb, hclu, hc]
  have e2 : ispWanted e = ispWanted s.dev := by simp [ispWanted, cameraAlwaysOn, forwarding, getTx, hb, hi, hclu, hx]
  have e3 : perkAfter (supWanted s.dev) e = perkAfter (supWanted s.dev) s.dev := by
    unfold perkAfter creditsHeld getTier
    rw [hb, hi, hr, ht, hperk]
  show PowerSettled e
  rw [powerSettled_iff] at hpow ⊢
  rw [e1, e2, e3, hb, hsup, hisp, hperk]
  exact hpow

/-! ### Units and their tiles -/

theorem getUnit_modUnit_self (u : Nat) (f : Unit_ → Unit_) (d : Dev) : getUnit (modUnit u f d) u = f (getUnit d u) :=
  tabGet_tabMod_self _ _ _ _ _

theorem getUnit_modUnit_ne {u v : Nat} (h : v ≠ u) (f : Unit_ → Unit_) (d : Dev) : getUnit (modUnit u f d) v = getUnit d v :=
  tabGet_tabMod_ne _ _ _ _ _ _ h

theorem tileOf_modUnit_self (u : Nat) (f : Unit_ → Unit_) (d : Dev) : tileOf (modUnit u f d) u = (f (getUnit d u)).tile :=
  congrArg Unit_.tile (getUnit_modUnit_self u f d)

theorem tileOf_modUnit_ne {u v : Nat} (h : v ≠ u) (f : Unit_ → Unit_) (d : Dev) : tileOf (modUnit u f d) v = tileOf d v :=
  congrArg Unit_.tile (getUnit_modUnit_ne h f d)

/-- A change of a unit that leaves its tile leaves every unit's. -/
theorem tileOf_modUnit_of_same {u : Nat} {f : Unit_ → Unit_} {d : Dev} (h : (f (getUnit d u)).tile = tileOf d u) (v : Nat) :
    tileOf (modUnit u f d) v = tileOf d v := by
  by_cases hv : v = u
  · rw [hv, tileOf_modUnit_self, h]
  · exact tileOf_modUnit_ne hv f d

theorem getUnit_eq_of_units {d e : Dev} (h : e.units = d.units) (u : Nat) : getUnit e u = getUnit d u := by rw [getUnit, h]; rfl

theorem tileOf_eq_of_units {d e : Dev} (h : e.units = d.units) (u : Nat) : tileOf e u = tileOf d u :=
  congrArg Unit_.tile (getUnit_eq_of_units h u)

/-! ### Work that touches units -/

/-- What the work of tiles may change of a device before they commit: its units, the error record, the queue of interrupts, the count of
free values. -/
def UnitWork (d e : Dev) : Prop := ∃ us er i n k, e = { d with
  units := us, err := er, host := { d.host with ibis := i, ibiMerged := n }, freeCtr := k } ∧ er.armed = d.err.armed

theorem UnitWork.refl (d : Dev) : UnitWork d d := ⟨_, _, _, _, _, rfl, rfl⟩

theorem UnitWork.trans {a b c : Dev} (h : UnitWork a b) (g : UnitWork b c) : UnitWork a c := by
  obtain ⟨_, _, _, _, _, rfl, ha⟩ := h
  obtain ⟨_, _, _, _, _, rfl, hb⟩ := g
  exact ⟨_, _, _, _, _, rfl, hb.trans ha⟩

theorem UnitWork.armed {d e : Dev} (h : UnitWork d e) : e.err.armed = d.err.armed := by
  obtain ⟨_, _, _, _, _, rfl, ha⟩ := h
  exact ha

theorem UnitWork.settled {s : State} {e : Dev} (h : Settled s) (hw : UnitWork s.dev e) : Settled { s with dev := e } := by
  obtain ⟨_, _, _, _, _, rfl, -⟩ := hw
  exact h.of_same rfl rfl rfl rfl rfl rfl rfl rfl

theorem modUnit_unitWork (u : Nat) (f : Unit_ → Unit_) (d : Dev) : UnitWork d (modUnit u f d) := ⟨_, _, _, _, _, rfl, rfl⟩

theorem recordAt_unitWork (c : Nat) (p : Option Nat) (k : Nat × Nat) (a : Option Nat) (j : Bool) (d : Dev) :
    UnitWork d (recordAt c p k a j d) ∧ (recordAt c p k a j d).units = d.units := by
  unfold recordAt
  extract_lets d1 sv tell
  split
  · obtain ⟨i, n, h⟩ := ibi_frame 2 c (p.getD 255) sv d1
    rw [h]
    exact ⟨⟨_, _, _, _, _, rfl, errRecord_armed ..⟩, rfl⟩
  · exact ⟨⟨_, _, _, _, _, rfl, errRecord_armed ..⟩, rfl⟩

/-- A code recorded a number of times touches no unit. -/
theorem foldl_record_unitWork (c : Nat) (p : Option Nat) (k : Nat × Nat) (l : List Nat) : ∀ d : Dev,
    UnitWork d (l.foldl (fun e _ => record c p k e) d) ∧ (l.foldl (fun e _ => record c p k e) d).units = d.units := by
  induction l with
  | nil => exact fun d => ⟨.refl d, rfl⟩
  | cons _ r ih =>
    intro d
    obtain ⟨hw, hu⟩ := recordAt_unitWork c p k none false d
    obtain ⟨gw, gu⟩ := ih (record c p k d)
    exact ⟨hw.trans gw, gu.trans hu⟩

/-- A unit whose counters of cycles alone differ (R147, R150, R158, R318). -/
def Recounted (x y : Unit_) : Prop := ∃ a b c g p m w, y = { x with
  adv := a, bubble := b, throttle := c, gated := g, gatedPart := p, commit := m, preemptWait := w }

theorem Recounted.refl (x : Unit_) : Recounted x x := ⟨_, _, _, _, _, _, _, rfl⟩

theorem Recounted.tile {x y : Unit_} (h : Recounted x y) : y.tile = x.tile := by
  obtain ⟨_, _, _, _, _, _, _, rfl⟩ := h
  rfl

theorem Recounted.trans {x y z : Unit_} (h : Recounted x y) (g : Recounted y z) : Recounted x z := by
  obtain ⟨_, _, _, _, _, _, _, rfl⟩ := h
  obtain ⟨_, _, _, _, _, _, _, rfl⟩ := g
  exact ⟨_, _, _, _, _, _, _, rfl⟩

theorem Recounted.committed (x : Unit_) (m : Word) : Recounted x { x with commit := m } := ⟨_, _, _, _, _, _, _, rfl⟩

theorem Recounted.advanced (x : Unit_) (a b c g : Word) (p : Nat) :
    Recounted x { x with adv := a, bubble := b, throttle := c, gated := g, gatedPart := p } := ⟨_, _, _, _, _, _, _, rfl⟩

theorem recounted_modUnit {u : Nat} {f : Unit_ → Unit_} (d : Dev) (h : Recounted (getUnit d u) (f (getUnit d u))) (v : Nat) :
    Recounted (getUnit d v) (getUnit (modUnit u f d) v) := by
  by_cases hv : v = u
  · subst hv
    rw [getUnit_modUnit_self]
    exact h
  · rw [getUnit_modUnit_ne hv]
    exact .refl _

theorem draw_unitWork (d : Dev) : UnitWork d (draw d).2 := ⟨_, _, _, _, _, rfl, rfl⟩

/-- Counting the work of a tile that is lost or done again: its counts and its unit's, nothing else. -/
theorem lostWork_frame (u : Nat) (t : Tile) (d : Dev) : (∃ n, (lostWork u t d).1 = { t with counted := true, spent := n }) ∧
    UnitWork d (lostWork u t d).2 ∧ ∀ v, Recounted (getUnit d v) (getUnit (lostWork u t d).2 v) := by
  unfold lostWork
  extract_lets c1 c2 c3 c4 n adv bubbles throttle gated
  clear_value gated throttle bubbles adv n
  have h1 : UnitWork d c1.2 := draw_unitWork d
  have h4 : UnitWork d c4.2 := ((h1.trans (draw_unitWork _)).trans (draw_unitWork _)).trans (draw_unitWork _)
  split
  next h => exact ⟨⟨t.spent, by rw [← h]⟩, .refl d, fun v => .refl _⟩
  · split
    · exact ⟨⟨_, rfl⟩, h1.trans (modUnit_unitWork _ _ _), recounted_modUnit c1.2 (.committed _ _)⟩
    · exact ⟨⟨_, rfl⟩, h4.trans (modUnit_unitWork _ _ _), recounted_modUnit c4.2 (.advanced _ _ _ _ _ _)⟩

end Sys2Proof.Machine
end

section
/-! PROOFS. Hard stops, steps of the operating point, periods of the governor (R154, R418 to R423). Settles O32. -/

namespace Sys2Proof.Machine

/-! ### Hard stops reach tiles (R154) -/

/-- A tile without what has been counted of it so far. -/
def unspent (t : Tile) : Tile := { t with spent := 0 }

/-- A tile that a hard stop holds, without what has been counted of it. -/
def heldTile (t : Tile) : Tile :=
  if t.stopped then { t with spent := 0 } else { t with stopped := true, counted := true, halted := true, spent := 0 }

theorem heldTile_heldTile (t : Tile) : heldTile (heldTile t) = heldTile t := by
  unfold heldTile
  split <;> simp_all

/-- A hard stop does not end the tile: it is no replay, or its commit has begun. -/
def Holdable (x : Option Tile) : Prop := ∀ t, x = some t → t.replay = false ∨ t.committing = true

theorem holdable_congr {x y : Option Tile} (h : x.map heldTile = y.map heldTile) (hy : Holdable y) : Holdable x := by
  rintro t rfl
  cases y with
  | none => exact nomatch h
  | some z =>
    have ht : heldTile t = heldTile z := Option.some.inj h
    have hr : t.replay = z.replay ∧ t.committing = z.committing := by
      unfold heldTile at ht
      split at ht <;> split at ht <;> simp_all
    rw [hr.1, hr.2]
    exact hy z rfl

/-- A hard stop holds the tile of a unit, counts its work so far, and touches no other. -/
theorem hardStopTile_frame {u : Nat} {d : Dev} (h : Holdable (tileOf d u)) : UnitWork d (hardStopTile u d) ∧
    (tileOf (hardStopTile u d) u).map unspent = (tileOf d u).map heldTile ∧
    ∀ v, v ≠ u → tileOf (hardStopTile u d) v = tileOf d v := by
  unfold hardStopTile
  cases ht : tileOf d u with
  | none => exact ⟨.refl d, by rw [ht]; rfl, fun _ _ => rfl⟩
  | some t =>
    dsimp only
    obtain ⟨⟨n, hn⟩, hw, hu⟩ := lostWork_frame u t d
    generalize hk : modUnit u (fun x => { x with
      tile := some { (lostWork u t d).1 with stopped := true, halted := true }, leash := {} }) (lostWork u t d).2 = e
    have he : UnitWork d e := hk ▸ hw.trans (modUnit_unitWork _ _ _)
    have htile : tileOf e u = some { t with counted := true, spent := n, stopped := true, halted := true } := by
      rw [← hk, tileOf_modUnit_self, hn]
    have hother (v : Nat) (hv : v ≠ u) : tileOf e v = tileOf d v := by
      rw [← hk, tileOf_modUnit_ne hv]
      exact (hu v).tile
    split
    next hs => exact ⟨.refl d, by rw [ht]; simp [unspent, heldTile, hs], fun _ _ => rfl⟩
    next hs =>
      have hheld : (tileOf e u).map unspent = (some t).map heldTile := by
        rw [htile]
        simp [unspent, heldTile, hs]
      split
      · exact ⟨he, hheld, hother⟩
      next hc =>
        rw [if_neg (by simpa [hc] using h t ht)]
        obtain ⟨hr, hru⟩ := recordAt_unitWork 0x62 (tilePart d u) (1, u) none false e
        exact ⟨he.trans hr, (congrArg _ (tileOf_eq_of_units hru u)).trans hheld,
          fun v hv => (tileOf_eq_of_units hru v).trans (hother v hv)⟩

/-- A hard stop holds the tiles of a list of units. -/
theorem foldl_hardStopTile (l : List Nat) : ∀ d : Dev, (∀ u ∈ l, Holdable (tileOf d u)) →
    UnitWork d (l.foldl (fun e u => hardStopTile u e) d) ∧ ∀ v, (tileOf (l.foldl (fun e u => hardStopTile u e) d) v).map unspent =
      if v ∈ l then (tileOf d v).map heldTile else (tileOf d v).map unspent := by
  induction l with
  | nil => exact fun d _ => ⟨.refl d, fun v => by simp⟩
  | cons u r ih =>
    intro d hd
    obtain ⟨hw, hself, hother⟩ := hardStopTile_frame (hd u List.mem_cons_self)
    have hheld (v : Nat) : (tileOf (hardStopTile u d) v).map heldTile = (tileOf d v).map heldTile := by
      by_cases hv : v = u
      · subst hv
        have hu (x : Option Tile) : x.map heldTile = (x.map unspent).map heldTile := by
          rw [Option.map_map]
          rfl
        rw [hu, hself, Option.map_map]
        exact congrArg (fun f => Option.map f _) (funext heldTile_heldTile)
      · rw [hother v hv]
    obtain ⟨gw, gt⟩ := ih (hardStopTile u d) fun v hv => holdable_congr (hheld v) (hd v (List.mem_cons_of_mem u hv))
    refine ⟨hw.trans gw, fun v => ?_⟩
    rw [List.foldl_cons, gt]
    by_cases hv : v ∈ r
    · rw [if_pos hv, if_pos (List.mem_cons_of_mem u hv), hheld]
    · rw [if_neg hv]
      by_cases hvu : v = u
      · rw [hvu, hself, if_pos List.mem_cons_self]
      · rw [hother v hvu, if_neg (by simp [hv, hvu])]

/-- The order of the tiles that a hard stop reaches leaves out none. -/
theorem mem_stopOrder {d : Dev} {us : List Nat} {v : Nat} :
    v ∈ us.filter (fun u => !replaying d u) ++ us.filter (fun u => replaying d u) ↔ v ∈ us := by
  simp only [List.mem_append, List.mem_filter, Bool.not_eq_true']
  cases replaying d v <;> simp

theorem recordOn_of_none {d : Dev} (h : d.err.armed = none) (cls inst c : Nat) (p : Option Nat) (k : Nat × Nat) :
    recordOn cls inst c p k d = record c p k d := by simp [recordOn, armedOn, h]

/-- The cluster's own part of a hard stop. -/
def clusterStopped (n : Nat) (d : Dev) : Dev := modCluster n (fun c => { c with stopped := true, hardStops := c.hardStops + 1 }) d

theorem getCluster_modCluster_self (n : Nat) (f : Cluster → Cluster) (d : Dev) : getCluster (modCluster n f d) n = f (getCluster d n) :=
  tabGet_tabMod_self _ _ _ _ _

/-- A hard stop: its cluster stops, the tiles there are held, and both counts advance. -/
theorem hardStop_frame {n : Nat} {d : Dev} (ha : d.err.armed = none) (hp : d.power.clusters.getLsbD n = true)
    (hs : (getCluster d n).stopped = false) (hh : ∀ u ∈ unitsOf n, Holdable (tileOf d u)) : ∃ e,
    UnitWork (modPower (fun p => { p with hardStops := p.hardStops + 1 }) (clusterStopped n d)) e ∧ hardStop n d = e ∧
    ∀ v, (tileOf e v).map unspent = if v ∈ unitsOf n then (tileOf d v).map heldTile else (tileOf d v).map unspent := by
  unfold hardStop
  rw [hp, hs]
  simp only [Bool.not_false, Bool.and_self, if_true]
  rw [show modCluster n (fun c => { c with stopped := true, hardStops := c.hardStops + 1 }) d = clusterStopped n d from rfl]
  generalize hus : (unitsOf n).filter (fun u => !replaying d u) ++ (unitsOf n).filter (fun u => replaying d u) = us
  have hmem (v : Nat) : v ∈ us ↔ v ∈ unitsOf n := hus ▸ mem_stopOrder
  obtain ⟨hw, ht⟩ := foldl_hardStopTile us (clusterStopped n d) fun u hu => hh u ((hmem u).mp hu)
  generalize us.foldl (fun e u => hardStopTile u e) (clusterStopped n d) = e at hw ht
  obtain ⟨hr, hu⟩ := recordAt_unitWork 0x92 none (2, n) none false (modPower (fun p => { p with hardStops := p.hardStops + 1 }) e)
  refine ⟨_, UnitWork.trans ?_ hr, recordOn_of_none (d := modPower _ e) (hw.armed.trans ha) .., fun v => ?_⟩
  · obtain ⟨_, _, _, _, _, rfl, hx⟩ := hw
    exact ⟨_, _, _, _, _, rfl, hx⟩
  · rw [tileOf_eq_of_units hu, show tileOf (modPower _ e) v = tileOf e v from rfl, ht]
    simp only [hmem]
    rfl

/-! ### Tiles are released (R154, R421) -/

/-- A tile after the release of its cluster at a throttle level. -/
def releasedTile (l : Nat) (t : Tile) : Tile :=
  if t.stopped = false then t
  else if t.committing then { t with stopped := false, counted := false }
  else { t with stopped := false, replay := true, counted := false, levels := (l, l) }

theorem releasedTile_releasedTile (l : Nat) (t : Tile) : releasedTile l (releasedTile l t) = releasedTile l t := by
  unfold releasedTile
  split
  · rfl
  · split <;> rfl

theorem tileOf_rampUp (u : Nat) (x : DescId) (b : Bytes) (d : Dev) (v : Nat) : tileOf (rampUp u x b d) v = tileOf d v := by
  have hfill : tileOf (fillLeashes u x b d) v = tileOf d v := tileOf_modUnit_of_same rfl v
  unfold rampUp loadFirst
  split
  · exact (tileOf_modUnit_of_same rfl v).trans hfill
  · exact hfill

/-- A unit's tile is released; nothing but units changes. -/
theorem releaseTile_frame (u : Nat) (d : Dev) : (∃ us, releaseTile u d = { d with units := us }) ∧
    tileOf (releaseTile u d) u = (tileOf d u).map (releasedTile (clusterLevel d (clusterOf u))) ∧
    ∀ v, v ≠ u → tileOf (releaseTile u d) v = tileOf d v := by
  unfold releaseTile
  cases ht : tileOf d u with
  | none => exact ⟨⟨_, rfl⟩, ht, fun _ _ => rfl⟩
  | some t =>
    dsimp only
    split
    next hs =>
      have hs : t.stopped = false := by simpa using hs
      exact ⟨⟨_, rfl⟩, by rw [ht]; simp [releasedTile, hs], fun _ _ => rfl⟩
    next hs =>
      have hs : t.stopped = true := by simpa using hs
      split
      next hc => exact ⟨⟨_, rfl⟩, by rw [tileOf_modUnit_self]; simp [releasedTile, hs, hc], fun v hv => tileOf_modUnit_ne hv _ _⟩
      next hc =>
        refine ⟨⟨_, rampUp_frame _ _ _ _⟩, ?_, fun v hv => (tileOf_rampUp _ _ _ _ v).trans (tileOf_modUnit_ne hv _ _)⟩
        rw [tileOf_rampUp, tileOf_modUnit_self]
        simp [releasedTile, hs, hc]

/-- The tiles of a list of units of a cluster are released. -/
theorem foldl_releaseTile {n : Nat} (l : List Nat) : ∀ d : Dev, (∀ u ∈ l, clusterOf u = n) →
    (∃ us, l.foldl (fun e u => releaseTile u e) d = { d with units := us }) ∧ ∀ v, tileOf (l.foldl (fun e u => releaseTile u e) d) v =
      if v ∈ l then (tileOf d v).map (releasedTile (clusterLevel d n)) else tileOf d v := by
  induction l with
  | nil => exact fun d _ => ⟨⟨_, rfl⟩, fun v => by simp⟩
  | cons u r ih =>
    intro d hn
    obtain ⟨⟨us, he⟩, hself, hother⟩ := releaseTile_frame u d
    rw [hn u List.mem_cons_self] at hself
    obtain ⟨⟨us', he'⟩, ht⟩ := ih (releaseTile u d) fun v hv => hn v (List.mem_cons_of_mem u hv)
    have hlevel : clusterLevel (releaseTile u d) n = clusterLevel d n := by rw [he]; rfl
    rw [hlevel] at ht
    refine ⟨⟨us', he'.trans (by rw [he])⟩, fun v => ?_⟩
    rw [List.foldl_cons, ht]
    by_cases hvu : v = u
    · subst hvu
      rw [hself, if_pos List.mem_cons_self, Option.map_map]
      split
      · exact congrArg (fun f => Option.map f _) (funext (releasedTile_releasedTile _))
      · rfl
    · rw [hother v hvu]
      simp [hvu]

theorem clusterOf_of_mem_unitsOf {n u : Nat} (hn : n < 4) (h : u ∈ unitsOf n) : clusterOf u = n := by
  simp only [unitsOf, List.mem_append, List.mem_map, List.mem_range, List.mem_singleton] at h
  unfold clusterOf
  rcases h with ⟨k, hk, rfl⟩ | rfl
  · rw [if_pos (by omega)]
    omega
  · rw [if_neg (by omega)]
    omega

/-! ### The levels that tiles note (R421) -/

/-- Every tile in progress notes the level of its cluster. -/
theorem tileOf_noteLevels (d : Dev) (u : Nat) : tileOf (noteLevels d) u = (tileOf d u).map (fun z => { z with
    levels := (min z.levels.1 (clusterLevel d (clusterOf u)), max z.levels.2 (clusterLevel d (clusterOf u))) }) :=
  congrArg Unit_.tile (tabGet_tabMap d.units (fun u x => { x with tile := x.tile.map (fun t => { t with
    levels := (min t.levels.1 (clusterLevel d (clusterOf u)), max t.levels.2 (clusterLevel d (clusterOf u))) }) }) u {} rfl)

/-- Where a device stands with the tiles of one that has noted its levels, and applies those levels, they have been noted. -/
theorem levelsNoted_of_noteLevels {s t : State} {d : Dev} (hs : d.units = s.dev.units) (ht : t.dev.units = (noteLevels d).units)
    (hl : ∀ c, clusterLevel t.dev c = clusterLevel d c) : LevelsNoted s t := by
  intro u
  rw [tileOf_eq_of_units ht, tileOf_noteLevels, tileOf_eq_of_units hs]
  simp only [hl]

/-! ### A period of the governor (R420, R421) -/

/-- The mean of a number of periods, rounded either way. -/
theorem meanPower_frame (l : List Nat) (d : Dev) : ∃ m k, meanPower l d = (m, { d with freeCtr := k }) ∧
    l.foldl (fun a x => a + x) 0 / l.length ≤ m ∧ m ≤ l.foldl (fun a x => a + x) 0 / l.length + 1 ∧
    (l.foldl (fun a x => a + x) 0 % l.length = 0 → m = l.foldl (fun a x => a + x) 0 / l.length) := by
  unfold meanPower
  extract_lets sum c
  split
  · exact ⟨_, _, rfl, le_rfl, Nat.le_succ _, fun _ => rfl⟩
  next h => exact ⟨_, _, rfl, Nat.le_add_right _ _, Nat.add_le_add_left (by omega) _, fun hz => absurd hz h⟩

/-- What a period's sample leaves of the power state, beside the decisions. -/
def sampled (base compute : Int) (means : List Nat) (mean : Nat) (peak : Word) (p : Power) : Power :=
  { p with base := base, compute := compute, means := means, mean := mean, peak := peak }

/-- The decisions of a period do not depend on its sample, but for the mean that they are given. -/
theorem decide420_sampled (limit q : Nat) (b c : Int) (l : List Nat) (m : Nat) (k : Word) (p : Power) :
    decide420 limit q (sampled b c l m k p) = sampled b c l m k (decide420 limit q p) := by
  unfold decide420
  extract_lets x y
  have hx : x = sampled b c l m k y := by
    unfold x y
    split
    · rfl
    · split
      · by_cases h : 10 ≤ p.calm + 1
        · rw [if_pos h, if_pos (by exact h)]
          rfl
        · rw [if_neg h, if_neg (by exact h)]
          rfl
      · rfl
  rw [hx]
  rfl

theorem decide420_frame (limit q : Nat) (p : Power) : ∃ a b c e, decide420 limit q p =
    { p with level := a, calm := b, high := c, low := e } := by
  unfold decide420
  split
  · exact ⟨_, _, _, _, rfl⟩
  · split
    · split <;> exact ⟨_, _, _, _, rfl⟩
    · exact ⟨_, _, _, _, rfl⟩

theorem injectTemp_of_none {mx : Int} {d : Dev} (h : d.err.armed = none) : injectTemp mx d = d := by
  have harm (k : Nat) : armedOn d 0xF k = none := by simp [armedOn, h]
  simp [injectTemp, harm]

/-- The power state after the decisions of a period. -/
def decided (mw : Nat) (d : Dev) : Power :=
  if d.power.changing = none then decide420 d.img.power.limit (mw + 100) d.power else d.power

/-- The power state after a period of mean power `mw` that leaves the mean `m` and the peak `pk`. -/
def periodPower (base compute : Int) (mw m : Nat) (pk : Word) (d : Dev) : Power :=
  { sampled base (if d.power.clusters != 0 then compute else d.power.compute) ((mw :: d.power.means).take 100) (m % 65536) pk (decided mw d) with
    throttled := if 0 < (decided mw d).level then d.power.throttled + 1 else d.power.throttled }

/-- A period of the governor: the sample, the mean, the decisions, the levels that tiles note. -/
theorem governorPeriod_frame {mx : Int} {mw : Nat} {base compute : Int} {d : Dev} (hw : awake d = true) (ha : d.err.armed = none)
    (hr : refRunning d.power = true) : ∃ m k pk, governorPeriod mx mw base compute d =
      noteLevels { d with power := periodPower base compute mw m pk d, freeCtr := k } ∧
    ((mw :: d.power.means).take 100).foldl (fun a x => a + x) 0 / ((mw :: d.power.means).take 100).length ≤ m ∧
    m ≤ ((mw :: d.power.means).take 100).foldl (fun a x => a + x) 0 / ((mw :: d.power.means).take 100).length + 1 ∧
    (((mw :: d.power.means).take 100).foldl (fun a x => a + x) 0 % ((mw :: d.power.means).take 100).length = 0 →
      m = ((mw :: d.power.means).take 100).foldl (fun a x => a + x) 0 / ((mw :: d.power.means).take 100).length) := by
  unfold governorPeriod
  rw [if_pos hw]
  extract_lets d1 l mk pk d2 d3
  obtain ⟨m, k, hm, hbounds⟩ := meanPower_frame l d1
  have hr1 : refRunning d1.power = true := hr
  rw [if_pos hr1]
  refine ⟨m, k, pk, ?_, hbounds⟩
  have hmk : mk = (m, { d1 with freeCtr := k }) := hm
  have h2 : d2 = { d with freeCtr := k, power := sampled base (if d.power.clusters != 0 then compute else d.power.compute) l (m % 65536) pk d.power } := by
    unfold d2
    rw [hmk]
    rfl
  have h3 : d3 = { d with freeCtr := k, power := sampled base (if d.power.clusters != 0 then compute else d.power.compute) l (m % 65536) pk (decided mw d) } := by
    unfold d3 decided
    rw [h2]
    by_cases hc : d.power.changing = none
    · rw [if_pos (by simpa [sampled] using hc), if_pos hc]
      simp only [modPower, decide420_sampled]
    · rw [if_neg (by simpa [sampled] using hc), if_neg hc]
  have hthr : (decided mw d).throttled = d.power.throttled := by
    unfold decided
    split
    · obtain ⟨_, _, _, _, he⟩ := decide420_frame d.img.power.limit (mw + 100) d.power
      rw [he]
    · rfl
  rw [h3]
  simp only [modPower]
  rw [injectTemp_of_none (by exact ha)]
  simp only [periodPower, sampled, hthr]
  rfl

/-! ### The commands -/

section
variable {s : State} {n : Fin 4}

/-- A command of the device that leaves a settled device ends there. -/
theorem gives_of_settled {i : Instr} {s : State} {f : Dev → Dev} {d : Dev} {P : State → Prop} (hx : exec i s = devStep f s) (hf : f s.dev = d)
    (h : Settled { s with dev := d }) (hP : P { s with dev := d }) : Gives i s P :=
  gives_of_exec (exec_of_settled (hx.trans (by rw [devStep, hf])) h) hP

/-- A hard stop (R154, R423). -/
theorem hardStop_gives (h : Settled s) (ha : s.dev.err.armed = none) (hp : s.dev.power.clusters.getLsbD n.val = true)
    (hs : (getCluster s.dev n.val).stopped = false) (hh : ∀ u ∈ unitsOf n.val, Holdable (tileOf s.dev u)) :
    Gives (.hardStop n) s fun e => SameOutside s e ∧ (getCluster e.dev n.val).stopped = true ∧
      (getCluster e.dev n.val).hardStops = (getCluster s.dev n.val).hardStops + 1 ∧
      e.dev.power.hardStops = s.dev.power.hardStops + 1 ∧
      (∀ u, (tileOf e.dev u).map unspent = if u ∈ unitsOf n.val then (tileOf s.dev u).map heldTile else (tileOf s.dev u).map unspent) ∧
      e.dev.reqs = s.dev.reqs ∧ e.dev.mem = s.dev.mem := by
  obtain ⟨e, ⟨_, _, _, _, _, rfl, -⟩, he, ht⟩ := hardStop_frame ha hp hs hh
  have hc := getCluster_modCluster_self n.val (fun c => { c with stopped := true, hardStops := c.hardStops + 1 }) s.dev
  exact gives_of_settled rfl he (h.of_same rfl rfl rfl rfl rfl rfl rfl rfl)
    ⟨⟨rfl, rfl, rfl⟩, congrArg Cluster.stopped hc, congrArg Cluster.hardStops hc, rfl, ht, rfl, rfl⟩

/-- The release of a stopped cluster (R154, R421). -/
theorem hardStopRelease_gives (h : Settled s) (hs : (getCluster s.dev n.val).stopped = true) :
    Gives (.hardStopRelease n) s fun e => SameOutside s e ∧ (getCluster e.dev n.val).stopped = false ∧ (getCluster e.dev n.val).hold = true ∧
      (∀ u, tileOf e.dev u = if u ∈ unitsOf n.val then (tileOf s.dev u).map (releasedTile (max s.dev.power.level 8)) else tileOf s.dev u) ∧
      e.dev.reqs = s.dev.reqs ∧ e.dev.mem = s.dev.mem ∧ e.dev.sched = s.dev.sched := by
  obtain ⟨⟨us, he⟩, ht⟩ := foldl_releaseTile (unitsOf n.val) (modCluster n.val (fun c => { c with stopped := false, hold := true }) s.dev)
    fun u => clusterOf_of_mem_unitsOf n.isLt
  have hc := getCluster_modCluster_self n.val (fun c => { c with stopped := false, hold := true }) s.dev
  have hlevel : clusterLevel (modCluster n.val (fun c => { c with stopped := false, hold := true }) s.dev) n.val = max s.dev.power.level 8 := by
    rw [clusterLevel, hc]
    rfl
  rw [hlevel, he] at ht
  have hf : hardRelease n.val s.dev = _ := (if_pos hs).trans he
  exact gives_of_settled rfl hf (h.of_same rfl rfl rfl rfl rfl rfl rfl rfl)
    ⟨⟨rfl, rfl, rfl⟩, congrArg Cluster.stopped hc, congrArg Cluster.hold hc, ht, rfl, rfl, rfl⟩

/-- The hold level of a cluster ends (R421). -/
theorem holdLevelExpiry_gives (h : Settled s) : Gives (.holdLevelExpiry n) s fun e => SameOutside s e ∧
    e.dev.clusters = tabMod s.dev.clusters n.val {} (fun c => { c with hold := false }) ∧ LevelsNoted s e ∧
    e.dev.reqs = s.dev.reqs ∧ e.dev.mem = s.dev.mem ∧ e.dev.sched = s.dev.sched ∧ e.dev.err = s.dev.err :=
  gives_of_settled (f := holdEnds n.val) rfl rfl (h.of_same rfl rfl rfl rfl rfl rfl rfl rfl)
    ⟨⟨rfl, rfl, rfl⟩, rfl, levelsNoted_of_noteLevels (d := modCluster n.val (fun c => { c with hold := false }) s.dev) rfl rfl fun _ => rfl,
      rfl, rfl, rfl, rfl⟩

end

section
variable {s : State}

/-- A command that changes the power state alone, and no domain. -/
theorem exec_of_power {i : Instr} {f : Dev → Dev} {p : Power} (h : Settled s) (hx : exec i s = devStep f s)
    (hf : f s.dev = { s.dev with power := p }) (hp : domainsOn p = domainsOn s.dev.power) :
    exec i s = .next { s with dev := { s.dev with power := p } } :=
  exec_of_settled (hx.trans (by rw [devStep, hf])) (h.of_same rfl rfl rfl rfl rfl rfl rfl hp)

/-- A step down by the governor (R418, R420). -/
theorem governorStepDown_gives (h : Settled s) (hw : awake s.dev = true) (hh : 100 ≤ s.dev.power.high) (hp : s.dev.power.point < 2)
    (hc : s.dev.power.changing = none) : Gives .governorStepDown s fun t => SameOutside s t ∧ LevelsNoted s t ∧ t.dev.power = { s.dev.power with
      level := 0, high := 0, raising := false, point := s.dev.power.point + 1, changing := some (s.dev.power.point + 1)
      stepDown := s.dev.power.stepDown + 1 } ∧ t.dev.mem = s.dev.mem ∧ t.dev.reqs = s.dev.reqs ∧ t.dev.err = s.dev.err := by
  have hf : governorDown s.dev = stepDownTo (s.dev.power.point + 1)
      (noteLevels (modPower (fun p => { p with level := 0, high := 0, raising := false }) s.dev)) := by
    simp [governorDown, hw, hh, hp, hc]
  exact gives_of_settled rfl hf (h.of_same rfl rfl rfl rfl rfl rfl rfl rfl) ⟨⟨rfl, rfl, rfl⟩,
    levelsNoted_of_noteLevels (d := modPower (fun p => { p with level := 0, high := 0, raising := false }) s.dev) rfl rfl fun _ => rfl,
    rfl, rfl, rfl, rfl⟩

theorem decided_frame (mw : Nat) (d : Dev) : ∃ a b c e, decided mw d = { d.power with level := a, calm := b, high := c, low := e } := by
  unfold decided
  split
  · exact decide420_frame _ _ _
  · exact ⟨_, _, _, _, rfl⟩

/-- A period of the governor (R420, R421). -/
theorem governorPeriod_gives {mw : Nat} {base compute : Int} (h : Settled s) (hw : awake s.dev = true) (ha : s.dev.err.armed = none)
    (hwf : Instr.wf (.governorPeriod mw base compute) = true) (hr : refRunning s.dev.power = true) :
    let l := (mw :: s.dev.power.means).take 100
    let sum := l.foldl (fun a x => a + x) 0
    let p := decided mw s.dev
    Gives (.governorPeriod mw base compute) s fun t => SameOutside s t ∧ t.dev.power.base = base ∧
      (s.dev.power.clusters ≠ 0 → t.dev.power.compute = compute) ∧ t.dev.power.means = l ∧
      (∃ m, sum / l.length ≤ m ∧ m ≤ sum / l.length + 1 ∧ (sum % l.length = 0 → m = sum / l.length) ∧ t.dev.power.mean = m % 65536) ∧
      t.dev.power.level = p.level ∧ t.dev.power.calm = p.calm ∧ t.dev.power.high = p.high ∧ t.dev.power.low = p.low ∧
      t.dev.power.throttled = (if 0 < p.level then s.dev.power.throttled + 1 else s.dev.power.throttled) ∧
      LevelsNoted s t ∧ t.dev.power.point = s.dev.power.point ∧ t.dev.mem = s.dev.mem ∧ t.dev.reqs = s.dev.reqs ∧ t.dev.err = s.dev.err := by
  intro l sum p
  obtain ⟨m, k, pk, he, hlo, hhi, hexact⟩ := governorPeriod_frame (mx := gradeMax s.otp) (mw := mw) (base := base) (compute := compute) hw ha hr
  obtain ⟨_, _, _, _, hp⟩ := decided_frame mw s.dev
  have hsame : domainsOn p = domainsOn s.dev.power ∧ p.point = s.dev.power.point := by
    rw [show p = _ from hp]
    exact ⟨rfl, rfl⟩
  refine gives_of_settled (unlessWf_of_wf hwf) he (h.of_same rfl rfl rfl rfl rfl rfl rfl hsame.1) ?_
  exact ⟨⟨rfl, rfl, rfl⟩, rfl, fun hc => if_pos (by simpa using hc), rfl, ⟨m, hlo, hhi, hexact, rfl⟩, rfl, rfl, rfl, rfl, rfl,
    levelsNoted_of_noteLevels (d := { s.dev with power := periodPower base compute mw m pk s.dev, freeCtr := k }) rfl rfl fun _ => rfl, hsame.2, rfl, rfl, rfl⟩

end

/-- Settles O32: hard stops hold and release tiles, the operating point moves by one, a governor period samples, decides and counts. -/
theorem hardStopsAndOperatingPoints : Obligations.HardStopsAndOperatingPoints := by
  refine ⟨fun s n h ha => ⟨hardStop_gives h ha, hardStopRelease_gives h, holdLevelExpiry_gives h⟩,
    fun s h => ⟨fun hl hr hc hp => ?_, governorStepDown_gives h, fun hw hlow hp hc => ?_, fun k hk hs => ?_, fun k hk hs => ?_⟩,
    fun s mw base compute h hw ha hwf hr => governorPeriod_gives h hw ha hwf hr⟩
  · exact exec_of_power h rfl (f := bootRaise) (by simp [bootRaise, hl, hr, hc, hp, stepUp, modPower]) rfl
  · exact exec_of_power h rfl (f := governorUp) (by simp [governorUp, hw, hlow, hp, hc, stepUp, modPower]) rfl
  · exact exec_of_power h rfl (f := changeDone) (by simp [changeDone, hk, hs, modPower]) rfl
  · exact exec_of_power (p := s.dev.power) h rfl (f := changeDone) (by simp [changeDone, hk, hs]) rfl

end Sys2Proof.Machine
end

section
/-! PROOFS. The advancing part of a tile, up to the start of its commit (R139, R147, R148, R150, R158). Settles O29. -/

namespace Sys2Proof.Machine

/-! ### A tile's reads (R289, R297) -/

/-- What reads of memory may change of a device: which granules are poisoned, the error record, the queue of interrupts, the traffic of
the DRAM, the count of free values. -/
def ReadWork (d e : Dev) : Prop := ∃ m er i n x k, e = { d with
  mem := { d.mem with poison := m }, err := er, host := { d.host with ibis := i, ibiMerged := n }, mov := { d.mov with ddr := x }
  freeCtr := k } ∧ er.armed = d.err.armed

theorem ReadWork.refl (d : Dev) : ReadWork d d := ⟨_, _, _, _, _, _, rfl, rfl⟩

theorem ReadWork.trans {a b c : Dev} (h : ReadWork a b) (g : ReadWork b c) : ReadWork a c := by
  obtain ⟨_, _, _, _, _, _, rfl, ha⟩ := h
  obtain ⟨_, _, _, _, _, _, rfl, hb⟩ := g
  exact ⟨_, _, _, _, _, _, rfl, hb.trans ha⟩

theorem record_readWork (c : Nat) (p : Option Nat) (k : Nat × Nat) (d : Dev) : ReadWork d (record c p k d) := by
  obtain ⟨i, n, h⟩ := record_frame c p k d
  rw [h]
  exact ⟨_, _, _, _, _, _, rfl, errRecord_armed ..⟩

theorem foldl_readWork {α : Type} {f : Dev → α → Dev} (h : ∀ d x, ReadWork d (f d x)) (l : List α) : ∀ d : Dev, ReadWork d (l.foldl f d) := by
  induction l with
  | nil => exact .refl
  | cons x r ih => exact fun d => (h d x).trans (ih _)

theorem readErrors_readWork (p : Option Nat) (k : Nat × Nat) (read uncorrectable corrected : List Nat) (d : Dev) :
    ReadWork d (readErrors p k read uncorrectable corrected d) := by
  unfold readErrors
  extract_lets met d1
  refine (foldl_readWork (fun e g => ?_) _ d).trans (foldl_readWork (fun e g => ?_) _ d1)
  · split
    · exact ReadWork.trans ⟨_, _, _, _, _, _, rfl, rfl⟩ (record_readWork _ _ _ _)
    · exact .refl e
  · refine ReadWork.trans ?_ (record_readWork _ _ _ _)
    split
    · exact ⟨_, _, _, _, _, _, rfl, rfl⟩
    · exact .refl e

theorem touchGranules_frame (gs : List Nat) (write : Bool) (d : Dev) : ∃ x k,
    touchGranules gs write d = { d with mov := { d.mov with ddr := x }, freeCtr := k } := by
  unfold touchGranules countTraffic withChecks
  split
  · split <;> exact ⟨_, _, rfl⟩
  · exact ⟨_, _, rfl⟩

theorem touchGranules_readWork (gs : List Nat) (write : Bool) (d : Dev) : ReadWork d (touchGranules gs write d) := by
  obtain ⟨x, k, h⟩ := touchGranules_frame gs write d
  rw [h]
  exact ⟨_, _, _, _, _, _, rfl, rfl⟩

theorem tileRead_readWork (u : Nat) (x : DescId) (b : Bytes) (pages : List (Nat × Nat)) (run : TileRun) (d : Dev) :
    ReadWork d (tileRead u x b pages run d) :=
  (readErrors_readWork _ _ _ _ _ _).trans (touchGranules_readWork _ _ _)

/-! ### What the advancing part counts (R147, R148, R150, R158) -/

/-- The counts of a tile's advancing part: those of its unit, and the records of invalid entries and of values not finite. -/
theorem countAdvance_frame (u : Nat) (x : DescId) (b : Bytes) (run : TileRun) (n : AdvCounts) (d : Dev) :
    let e := countAdvance u x b run n d
    let a := advanceCycles d u x b
    let y := getUnit d u
    UnitWork d e ∧ (∀ v, v ≠ u → getUnit e v = getUnit d v) ∧ (getUnit e u).adv = addW y.adv a.1 ∧
      (getUnit e u).bubble = addW y.bubble n.bubbles ∧ (getUnit e u).throttle = addW y.throttle n.throttle ∧
      (getUnit e u).gated = addW y.gated ((y.gatedPart + n.gated) / 256) ∧ (getUnit e u).skipped = addW y.skipped a.2.2 ∧
      (getUnit e u).blocks = blocksAfter d u x b := by
  unfold countAdvance
  extract_lets a window d1 d2 e
  have h1 : getUnit d1 u = _ := getUnit_modUnit_self u _ d
  obtain ⟨h2, hu2⟩ := foldl_record_unitWork 0x65 (some (dPart b)) (1, u) (List.range n.nonfinite) d1
  obtain ⟨h3, hu3⟩ := foldl_record_unitWork 0x68 (some (dPart b)) (1, u) (List.range n.zcBad) d2
  have he (v : Nat) : getUnit e v = getUnit d1 v := getUnit_eq_of_units (hu3.trans hu2) v
  refine ⟨(modUnit_unitWork _ _ _).trans (h2.trans h3), fun v hv => (he v).trans (getUnit_modUnit_ne hv _ _), ?_⟩
  rw [he, h1]
  exact ⟨rfl, rfl, rfl, rfl, rfl, rfl⟩

theorem advanceCycles_draw (d : Dev) (u : Nat) (x : DescId) (b : Bytes) : advanceCycles (draw d).2 u x b = advanceCycles d u x b := rfl

theorem blocksAfter_draw (d : Dev) (u : Nat) (x : DescId) (b : Bytes) : blocksAfter (draw d).2 u x b = blocksAfter d u x b := rfl

/-! ### The working area (R139) -/

/-- The working area is one of the same descriptor, held as before. -/
theorem runTile_frame (d : Dev) (u : Nat) (b : Bytes) (run : TileRun) (cells : List Cell) (bad : Bool) (t : Tile) :
    (runTile d u b run cells bad t).d = t.d ∧ (runTile d u b run cells bad t).stopped = t.stopped := by
  have hsearch (vals : List (Cell × Word)) (z : Tile) :
      (runSearch d t.d b vals bad z).d = z.d ∧ (runSearch d t.d b vals bad z).stopped = z.stopped := by
    unfold runSearch
    split
    · split <;> exact ⟨rfl, rfl⟩
    · exact ⟨rfl, rfl⟩
  have harray : (runArray d u t.d b cells bad t).d = t.d ∧ (runArray d u t.d b cells bad t).stopped = t.stopped := by
    unfold runArray
    extract_lets tm vals t1
    split
    · exact hsearch _ t1
    · exact ⟨rfl, rfl⟩
  unfold runTile
  extract_lets area
  split
  case h_1 => exact ⟨rfl, rfl⟩
  case h_2 => exact ⟨rfl, rfl⟩
  case h_3 => exact ⟨rfl, rfl⟩
  case h_4 => exact ⟨rfl, rfl⟩
  case h_5 => exact harray

/-- Bytes of a working area as the drains write it. -/
def areaBytes (acc : List AccElem) : Bytes := acc.flatMap (fun e => le 4 e.value.toNat)

theorem length_areaBytes (acc : List AccElem) : (areaBytes acc).length = 4 * acc.length := by
  induction acc with
  | nil => rfl
  | cons e r ih =>
    simp only [areaBytes, List.flatMap_cons, List.length_append, le_length, List.length_cons] at ih ⊢
    omega

/-- The drains change memory alone. -/
theorem storeAcc_frame (u : Nat) (acc : List AccElem) (d : Dev) : ∃ m, storeAcc u acc d = { d with mem := m } := by
  unfold storeAcc
  split <;> exact ⟨_, rfl⟩

/-- A stem engine has no accumulators region. -/
theorem storeAcc_of_stem {u : Nat} (h : 24 ≤ u) (acc : List AccElem) (d : Dev) : storeAcc u acc d = d := if_pos h

/-- A core's drains write its working area from the start of the region on, and nothing else. -/
theorem storeAcc_of_core {u : Nat} (h : u < 24) (acc : List AccElem) {d : Dev} (hw : d.mem.wf = true) :
    (∀ k, k < coreRegion d.img u 2 ∨ coreRegion d.img u 2 + 4 * acc.length ≤ k → memByte (storeAcc u acc d).mem k = memByte d.mem k) ∧
    memRead (storeAcc u acc d).mem (coreRegion d.img u 2) (4 * acc.length) = areaBytes acc := by
  unfold storeAcc
  rw [if_neg (by omega), ← length_areaBytes]
  exact ⟨fun k hk => memByte_memWrite_out _ _ _ _ hw hk, (memRead_memWrite hw _ le_rfl).trans List.take_length⟩

/-! ### The commit begins -/

/-- Nothing is injected into a tile with no injection armed. -/
theorem injectTile_of_none {d : Dev} (h : d.err.armed = none) (u : Nat) (b : Bytes) (pair : Option (Nat × Nat)) :
    injectTile u b pair d = (none, false, d) := by simp [injectTile, h]

section
variable {d : Dev} {u : Nat} {run : TileRun} {t : Tile} {y : Desc}

/-- A tile as its commit begins: with its working area `w`, and its cycles counted. -/
def beginCommit (d : Dev) (u : Nat) (t w : Tile) (b : Bytes) (n : AdvCounts) : Tile :=
  { w with committing := true, passes := (advanceCycles d u t.d b).2, counted := false
           spent := t.spent + (advanceCycles d u t.d b).1 + n.bubbles + n.throttle }

/-- The ramp-down of a tile that reads what it may, and whose scales match: its reads, its counts, its working area. -/
theorem advanceEnd_eq (hl : live d = true) (ha : d.err.armed = none) (ht : tileOf d u = some t) (hy : desc? d t.d = some y)
    (hc : t.committing = false) (hs : t.stopped = false)
    (hm : (dKind y.bytes = 4 ∨ dKind y.bytes = 5) → isMuzzled d (0x28 + clusterOf u) = false) (hr : readBreach d t.d y.bytes = none) :
    let e := tileRead u t.d y.bytes t.pages run d
    let cells := cellsOf e u t.d y.bytes
    let n := advCounts e u t y.bytes run cells
    let w := runTile e u y.bytes run cells false t
    (tileBubbles e u t y.bytes run.stalls).bad = false → tileMismatch e u t.d y.bytes cells t.pages = none →
    advanceEnd u run d = (List.range w.accSat).foldl (fun e _ => record 0x64 (some (dPart y.bytes)) (1, u) e)
      (storeAcc u w.acc (modUnit u (fun x => { x with tile := some (beginCommit e u t w y.bytes n), accSat := addW x.accSat w.accSat })
        (countAdvance u t.d y.bytes run n (draw e).2))) := by
  intro e cells n w hbad hmis
  have hguard : (!live d || t.committing || t.stopped || ((dKind y.bytes == 4 || dKind y.bytes == 5) && isMuzzled d (0x28 + clusterOf u))) = false := by
    rw [hl, hc, hs]
    simpa [← imp_iff_not_or] using hm
  have harm : (countAdvance u t.d y.bytes run n (draw e).2).err.armed = none := by
    obtain ⟨_, _, _, _, _, _, he, hea⟩ : ReadWork d e := tileRead_readWork _ _ _ _ _ _
    exact (countAdvance_frame u t.d y.bytes run n (draw e).2).1.armed.trans ((congrArg (fun d => d.err.armed) he).trans (hea.trans ha))
  unfold advanceEnd
  simp only [ht, hy, hguard, hr]
  rw [if_neg Bool.false_ne_true, if_neg (by rw [hbad]; exact Bool.false_ne_true), hmis, injectTile_of_none harm]
  rfl

end

/-- What a tile's advancing part may change of a device. -/
def AdvanceWork (d e : Dev) : Prop := ∃ us m er i n x k, e = { d with
  units := us, mem := m, err := er, host := { d.host with ibis := i, ibiMerged := n }, mov := { d.mov with ddr := x }, freeCtr := k }

theorem AdvanceWork.trans {a b c : Dev} (h : AdvanceWork a b) (g : AdvanceWork b c) : AdvanceWork a c := by
  obtain ⟨_, _, _, _, _, _, _, rfl⟩ := h
  obtain ⟨_, _, _, _, _, _, _, rfl⟩ := g
  exact ⟨_, _, _, _, _, _, _, rfl⟩

theorem ReadWork.advanceWork {d e : Dev} (h : ReadWork d e) : AdvanceWork d e := by
  obtain ⟨_, _, _, _, _, _, rfl, -⟩ := h
  exact ⟨_, _, _, _, _, _, _, rfl⟩

theorem UnitWork.advanceWork {d e : Dev} (h : UnitWork d e) : AdvanceWork d e := by
  obtain ⟨_, _, _, _, _, rfl, -⟩ := h
  exact ⟨_, _, _, _, _, _, _, rfl⟩

theorem ReadWork.units {d e : Dev} (h : ReadWork d e) : e.units = d.units := by
  obtain ⟨_, _, _, _, _, _, rfl, -⟩ := h
  rfl

theorem ReadWork.img {d e : Dev} (h : ReadWork d e) : e.img = d.img := by
  obtain ⟨_, _, _, _, _, _, rfl, -⟩ := h
  rfl

theorem ReadWork.cells {d e : Dev} (h : ReadWork d e) : e.mem.cells = d.mem.cells := by
  obtain ⟨_, _, _, _, _, _, rfl, -⟩ := h
  rfl

theorem UnitWork.mem {d e : Dev} (h : UnitWork d e) : e.mem = d.mem := by
  obtain ⟨_, _, _, _, _, rfl, -⟩ := h
  rfl

theorem UnitWork.img {d e : Dev} (h : UnitWork d e) : e.img = d.img := by
  obtain ⟨_, _, _, _, _, rfl, -⟩ := h
  rfl

theorem AdvanceWork.settled {s : State} {e : Dev} (h : Settled s) (hw : AdvanceWork s.dev e) : Settled { s with dev := e } := by
  obtain ⟨_, _, _, _, _, _, _, rfl⟩ := hw
  exact h.of_same rfl rfl rfl rfl rfl rfl rfl rfl

theorem AdvanceWork.sched {d e : Dev} (h : AdvanceWork d e) : e.sched = d.sched := by
  obtain ⟨_, _, _, _, _, _, _, rfl⟩ := h
  rfl

theorem AdvanceWork.reqs {d e : Dev} (h : AdvanceWork d e) : e.reqs = d.reqs := by
  obtain ⟨_, _, _, _, _, _, _, rfl⟩ := h
  rfl

/-- The commit of a tile begins: its working area is stored, its unit holds it, and what its arrays saturated is recorded. -/
theorem begins_frame {u : Nat} {z : Tile} {acc : List AccElem} {sat : Nat} {p : Option Nat} {k : Nat × Nat} {l : List Nat} {d e : Dev}
    (h : e = l.foldl (fun e _ => record 0x64 p k e)
      (storeAcc u acc (modUnit u (fun x => { x with tile := some z, accSat := addW x.accSat sat }) d))) :
    AdvanceWork d e ∧ getUnit e u = { getUnit d u with tile := some z, accSat := addW (getUnit d u).accSat sat } ∧
    (∀ v, v ≠ u → getUnit e v = getUnit d v) ∧ e.mem = (storeAcc u acc d).mem := by
  subst h
  generalize hf : (fun x : Unit_ => { x with tile := some z, accSat := addW x.accSat sat }) = f
  rw [show ({ getUnit d u with tile := some z, accSat := addW (getUnit d u).accSat sat } : Unit_) = f (getUnit d u) from hf ▸ rfl]
  obtain ⟨m, hst⟩ := storeAcc_frame u acc (modUnit u f d)
  obtain ⟨hw, hu⟩ := foldl_record_unitWork 0x64 p k l (storeAcc u acc (modUnit u f d))
  have hun : (l.foldl (fun e _ => record 0x64 p k e) (storeAcc u acc (modUnit u f d))).units = (modUnit u f d).units := hu.trans (by rw [hst])
  refine ⟨?_, (getUnit_eq_of_units hun u).trans (getUnit_modUnit_self u f d),
    fun v hv => (getUnit_eq_of_units hun v).trans (getUnit_modUnit_ne hv f d), hw.mem.trans ?_⟩
  · refine AdvanceWork.trans (b := storeAcc u acc (modUnit u f d)) ?_ hw.advanceWork
    rw [hst]
    exact ⟨_, _, _, _, _, _, _, rfl⟩
  · unfold storeAcc
    split <;> rfl

/-- Settles O29: the reads, the counts and the working area of a tile, one after the other. -/
theorem tilesAdvanceToTheirCommit : Obligations.TilesAdvanceToTheirCommit := by
  intro s u run t y hset hl ha ht hy hc hs hwf hm hr d cells n a x w hbad hmis
  obtain ⟨e, he⟩ : ∃ e, e = advanceEnd u.val run s.dev := ⟨_, rfl⟩
  obtain ⟨hbw, hbu, hbo, hbm⟩ := begins_frame (he.trans (advanceEnd_eq hl ha ht hy hc hs hm hr hbad hmis))
  obtain ⟨hd, hds⟩ := runTile_frame d u.val y.bytes run cells false t
  have hread : ReadWork s.dev d := tileRead_readWork _ _ _ _ _ _
  have hunit (v : Nat) : getUnit (draw d).2 v = getUnit s.dev v := getUnit_eq_of_units hread.units v
  obtain ⟨hcw, hco, hcu⟩ := countAdvance_frame u.val t.d y.bytes run n (draw d).2
  have hcw : UnitWork d _ := (draw_unitWork d).trans hcw
  rw [hunit, advanceCycles_draw, blocksAfter_draw] at hcu
  obtain ⟨hadv, hbub, hthr, hgat, hskip, hblk⟩ := hcu
  have hwork := (hread.advanceWork.trans hcw.advanceWork).trans hbw
  have hbytes (k : Nat) : memByte (countAdvance u.val t.d y.bytes run n (draw d).2).mem k = memByte s.dev.mem k := by
    rw [hcw.mem, memByte, hread.cells]
    rfl
  have hwf' : (countAdvance u.val t.d y.bytes run n (draw d).2).mem.wf = true := by
    rw [hcw.mem, Mem.wf, hread.cells]
    exact hwf
  have himg := hcw.img.trans hread.img
  refine gives_of_settled rfl he.symm (hwork.settled hset) ⟨⟨rfl, rfl, rfl⟩, ⟨beginCommit d u.val t w y.bytes n, ?_, hd, rfl, hds.trans hs, rfl, rfl⟩, ?_⟩
  · exact congrArg Unit_.tile hbu
  · rw [show getUnit (State.dev { s with dev := e }) u.val = _ from hbu]
    refine ⟨hadv, hbub, hthr, hgat, hskip, hblk, fun hst a => ?_, fun hcore => ?_, fun v hv => ?_, hwork.sched, hwork.reqs⟩
    · rw [storeAcc_of_stem hst] at hbm
      exact (congrArg (memByte · a) hbm).trans (hbytes a)
    · obtain ⟨hout, hin⟩ := storeAcc_of_core hcore w.acc hwf'
      rw [himg, ← hbm] at hout hin
      exact ⟨fun b hb => (hout b hb).trans (hbytes b), hin⟩
    · exact (hbo v hv).trans ((hco v hv).trans (hunit v))

end Sys2Proof.Machine
end

section
/-! PROOFS. What ends with a request (R73, R306, R307, R340): what it leaves as it was, and what it closes. -/

namespace Sys2Proof.Machine

/-! ### What such an end leaves as it was -/

/-- A unit as it was, but for the frames it keeps and for pre-emption. -/
def KeptUnit (x y : Unit_) : Prop := ∃ f w p, y = { x with frames := f, preemptWait := w, preempt := p }

theorem KeptUnit.refl (x : Unit_) : KeptUnit x x := ⟨_, _, _, rfl⟩

theorem KeptUnit.trans {x y z : Unit_} (h : KeptUnit x y) (g : KeptUnit y z) : KeptUnit x z := by
  obtain ⟨_, _, _, rfl⟩ := h
  obtain ⟨_, _, _, rfl⟩ := g
  exact ⟨_, _, _, rfl⟩

theorem KeptUnit.tile {x y : Unit_} (h : KeptUnit x y) : y.tile = x.tile := by
  obtain ⟨_, _, _, rfl⟩ := h
  rfl

/-- A device after an end of work that is not a commit: nothing is due, no cell is signalled, no byte outside the headers of state
blocks changes, no descriptor comes to life and no request opens. -/
structure Contained (d e : Dev) : Prop where
  img : e.img = d.img
  boot : e.boot = d.boot
  power : e.power = d.power
  tripped : e.sched.tripped = d.sched.tripped
  cells : e.sched.cells = d.sched.cells
  armed : e.err.armed = d.err.armed
  isp : ispWanted d = true → ispWanted e = true
  addr : ∀ k, blkAddr e k = blkAddr d k
  mem : d.mem.wf = true → e.mem.wf = true ∧ ∀ a, (∀ k, a < blkAddr d k ∨ blkAddr d k + 64 ≤ a) → memByte e.mem a = memByte d.mem a
  gone : ∀ x, desc? d x = none → desc? e x = none
  closed : ∀ o, openReq d o = false → openReq e o = false

theorem Contained.refl (d : Dev) : Contained d d :=
  ⟨rfl, rfl, rfl, rfl, rfl, rfl, id, fun _ => rfl, fun h => ⟨h, fun _ _ => rfl⟩, fun _ => id, fun _ => id⟩

theorem Contained.trans {a b c : Dev} (h : Contained a b) (g : Contained b c) : Contained a c where
  img := g.img.trans h.img
  boot := g.boot.trans h.boot
  power := g.power.trans h.power
  tripped := g.tripped.trans h.tripped
  cells := g.cells.trans h.cells
  armed := g.armed.trans h.armed
  isp hi := g.isp (h.isp hi)
  addr k := (g.addr k).trans (h.addr k)
  mem hw := by
    obtain ⟨hb, hab⟩ := h.mem hw
    obtain ⟨hc, hbc⟩ := g.mem hb
    exact ⟨hc, fun x hx => (hbc x fun k => h.addr k ▸ hx k).trans (hab x hx)⟩
  gone x hx := g.gone x (h.gone x hx)
  closed o ho := g.closed o (h.closed o ho)

/-- What `Contained` speaks of. -/
def containedPart (d : Dev) : (Image × Boot × Power × Option (Nat × Nat × Nat × Nat) × Tab Word × List Desc) ×
    Tab TxPort × Mem × Tab Blk × List Req :=
  ((d.img, d.boot, d.power, d.sched.tripped, d.sched.cells, d.sched.live), d.host.tx, d.mem, d.blks, d.reqs)

theorem Contained.of_same {d e : Dev} (h : containedPart e = containedPart d) (ha : e.err.armed = d.err.armed) : Contained d e := by
  simp only [containedPart, Prod.mk.injEq] at h
  obtain ⟨⟨hi, hb, hp, ht, hc, hl⟩, hx, hm, hk, hr⟩ := h
  have haddr (k : Nat) : blkAddr e k = blkAddr d k := by
    unfold blkAddr blkAt blkCore getBlk
    rw [hi, hk]
  refine ⟨hi, hb, hp, ht, hc, ha, ?_, haddr, fun h => ⟨hm ▸ h, fun a _ => by rw [hm]⟩, fun x => by simp [desc?, hl], fun o => by simp [openReq, hr]⟩
  simp [ispWanted, cameraAlwaysOn, forwarding, getTx, hi, hb, hp, hx]

/-- `Contained`, with every unit as it was but for the frames it keeps and for pre-emption. -/
structure Ends (d e : Dev) : Prop extends Contained d e where
  unit : ∀ u, KeptUnit (getUnit d u) (getUnit e u)

theorem Ends.refl (d : Dev) : Ends d d := ⟨.refl d, fun _ => .refl _⟩

theorem Ends.trans {a b c : Dev} (h : Ends a b) (g : Ends b c) : Ends a c :=
  ⟨h.toContained.trans g.toContained, fun u => (h.unit u).trans (g.unit u)⟩

theorem Contained.ends {d e : Dev} (h : Contained d e) (hu : e.units = d.units) : Ends d e := ⟨h, fun u => getUnit_eq_of_units hu u ▸ .refl _⟩

theorem Ends.of_same {d e : Dev} (h : containedPart e = containedPart d) (ha : e.err.armed = d.err.armed) (hu : e.units = d.units) : Ends d e :=
  (Contained.of_same h ha).ends hu

theorem foldl_ends {α : Type} {f : Dev → α → Dev} (h : ∀ d x, d.err.armed = none → Ends d (f d x)) (l : List α) :
    ∀ d : Dev, d.err.armed = none → Ends d (l.foldl f d) := by
  induction l with
  | nil => exact fun d _ => .refl d
  | cons x r ih => exact fun d hd => (h d x hd).trans (ih _ ((h d x hd).armed.trans hd))

/-- `Ends`, with memory and the signals on their way as they were. -/
structure Retires (d e : Dev) : Prop extends Ends d e where
  bytes : e.mem = d.mem
  remote : e.sched.remote = d.sched.remote

theorem Retires.refl (d : Dev) : Retires d d := ⟨.refl d, rfl, rfl⟩

theorem Retires.trans {a b c : Dev} (h : Retires a b) (g : Retires b c) : Retires a c :=
  ⟨h.toEnds.trans g.toEnds, g.bytes.trans h.bytes, g.remote.trans h.remote⟩

/-! ### Records and lanes (R343, R364) -/

theorem record_ends (c : Nat) (p : Option Nat) (k : Nat × Nat) (d : Dev) : Ends d (record c p k d) := by
  obtain ⟨i, n, h⟩ := record_frame c p k d
  rw [h]
  exact .of_same rfl (errRecord_armed ..) rfl

/-- A port with more in its queue keeps the ISP domain no less than before. -/
theorem forwarding_modTx {k : Nat} {f : TxPort → TxPort} {d : Dev} (hf : ∀ t, ∃ l, (f t).queue = t.queue ++ l) (h : forwarding d = true) :
    forwarding (modTx k f d) = true := by
  simp only [forwarding, List.any_eq_true] at h ⊢
  obtain ⟨j, hj, y, hy, hkind⟩ := h
  refine ⟨j, hj, y, ?_, hkind⟩
  by_cases hjk : j = k
  · subst hjk
    obtain ⟨l, hl⟩ := hf (getTx d j)
    rw [show getTx (modTx j f d) j = f (getTx d j) from tabGet_tabMod_self _ _ _ _ _, hl]
    exact List.mem_append_left _ hy
  · rw [show getTx (modTx k f d) j = getTx d j from tabGet_tabMod_ne _ _ _ _ _ _ hjk]
    exact hy

theorem modTx_ends {k : Nat} {f : TxPort → TxPort} (d : Dev) (hf : ∀ t, ∃ l, (f t).queue = t.queue ++ l) : Ends d (modTx k f d) :=
  Contained.ends { Contained.refl d with
    isp := fun h => by
      simp only [ispWanted, Bool.or_eq_true] at h ⊢
      exact h.imp id (forwarding_modTx hf) } rfl

theorem enqueueRecord_ends (p : Nat) (o : OutRec) (m : RecMeta) (w : Bool) (d : Dev) : Ends d (enqueueRecord p o m w d).2 := by
  unfold enqueueRecord
  split
  · exact .refl d
  next ci c _ =>
    split
    · split
      · exact .refl d
      · dsimp only
        exact (modTx_ends d fun t => ⟨[], by simp⟩).trans (record_ends _ _ _ _)
    · extract_lets n arrival flags hdr rec_ d1 d2
      have h1 : Ends d d1 := modTx_ends d fun t => ⟨[rec_], rfl⟩
      have h2 : Ends d d2 := h1.trans (.of_same rfl rfl rfl)
      split
      · obtain ⟨i, k, h⟩ := ibi_frame 4 p c.port c.vc d2
        exact h2.trans (h ▸ .of_same rfl rfl rfl)
      · exact h2

theorem sendRecs_ends (r : Req) (l : List OutRec) : ∀ d : Dev, Ends d (sendRecs r l d).2 := by
  induction l with
  | nil => exact .refl
  | cons o rest ih =>
    intro d
    unfold sendRecs
    extract_lets e
    have he : Ends d e.2 := enqueueRecord_ends _ _ _ _ d
    have hp : Ends e.2 (modSched (fun c => { c with placeholders := c.placeholders + 1 }) e.2) := .of_same rfl rfl rfl
    split
    · split
      · exact he.trans (hp.trans (ih _))
      · exact he.trans (ih _)
    · exact .refl d

/-- No request of an order is open among some. -/
def NoneOpen (o : Nat) (l : List Req) : Prop := ∀ r ∈ l, r.order = o → r.ended ≠ none

theorem openReq_eq_false_iff {d : Dev} {o : Nat} : openReq d o = false ↔ NoneOpen o d.reqs := by
  simp [openReq, NoneOpen]

theorem NoneOpen.cons {o : Nat} {r x : Req} {l k : List Req} (h : NoneOpen o (r :: l)) (hx : x.order = r.order) (he : x.ended = r.ended)
    (hk : NoneOpen o l → NoneOpen o k) : NoneOpen o (x :: k) :=
  List.forall_mem_cons.mpr ⟨fun ho => he ▸ h r List.mem_cons_self (hx ▸ ho), hk fun y hy => h y (List.mem_cons_of_mem r hy)⟩

theorem pumpReqs_ends (l : List Req) : ∀ (held : List (Nat × Nat × Nat)) (d : Dev), Ends d (pumpReqs l held d).2 ∧
    ∀ o, NoneOpen o l → NoneOpen o (pumpReqs l held d).1 := by
  induction l with
  | nil => exact fun _ d => ⟨.refl d, fun _ => id⟩
  | cons r rs ih =>
    intro held d
    have back (e : Dev) : Ends e (creditBack r e) := .of_same rfl rfl rfl
    have drop (o : Nat) (h : NoneOpen o (r :: rs)) : NoneOpen o rs := fun x hx => h x (List.mem_cons_of_mem r hx)
    unfold pumpReqs
    split
    · split
      · exact ⟨(back d).trans (ih _ _).1, fun o h => (ih _ _).2 o (drop o h)⟩
      · exact ⟨(ih _ _).1, fun o h => h.cons rfl rfl ((ih _ _).2 o)⟩
    · split
      · exact ⟨(ih _ _).1, fun o h => h.cons rfl rfl ((ih _ _).2 o)⟩
      · extract_lets e
        have he : Ends d e.2 := sendRecs_ends r r.recs d
        split
        · exact ⟨he.trans ((back _).trans (ih _ _).1), fun o h => (ih _ _).2 o (drop o h)⟩
        · exact ⟨he.trans (ih _ _).1, fun o h => h.cons rfl rfl ((ih _ _).2 o)⟩

/-! ### Frames, instances and descriptors (R306, R314, R320) -/

theorem foldl_tap_of_calm {α : Type} (g : α → Nat × Nat × Nat × Nat) (l : List α) {d : Dev} (h : d.err.armed = none) :
    l.foldl (fun e c => tap (g c).1 (g c).2.1 (g c).2.2.1 (g c).2.2.2 e) d = d := by
  induction l with
  | nil => rfl
  | cons c r ih => rw [List.foldl_cons, tap_calm _ _ _ _ d h, ih]

/-- Frames that units lose. -/
theorem filterFrames_ends (hit : Nat × Nat × Nat × Nat × Nat → Bool) (d : Dev) :
    Ends d { d with units := tabMap d.units (fun _ u => { u with frames := u.frames.filter (fun f => !hit f) }) } := by
  refine ⟨.of_same rfl rfl, fun u => ?_⟩
  have h : getUnit { d with units := tabMap d.units (fun _ u => { u with frames := u.frames.filter (fun f => !hit f) }) } u =
      { getUnit d u with frames := (getUnit d u).frames.filter (fun f => !hit f) } := tabGet_tabMap _ _ _ _ rfl
  rw [h]
  exact ⟨_, _, _, rfl⟩

theorem freeFrames_ends (g i : Nat) {d : Dev} (h : d.err.armed = none) : Ends d (freeFrames g i d) := by
  unfold freeFrames
  extract_lets hit e
  rw [show e = d from foldl_tap_of_calm (fun c : Nat × Unit_ => (4, c.1, 1, (graphOf d.img g).part)) _ h]
  exact filterFrames_ends hit d

theorem freeStrand_retires (x : DescId) (k : Nat) {d : Dev} (h : d.err.armed = none) : Retires d (freeStrand x k d) := by
  unfold freeStrand
  extract_lets hit e
  rw [show e = d from foldl_tap_of_calm (fun c : Nat × Unit_ => (4, c.1, 1, (graphOf d.img x.graph).part)) _ h]
  exact ⟨filterFrames_ends hit d, rfl, rfl⟩

theorem tap_ends (pool inst kind part : Nat) {d : Dev} (h : d.err.armed = none) : Ends d (tap pool inst kind part d) := by
  rw [tap_calm _ _ _ _ d h]
  exact .refl d

theorem sweepInsts_ends {d : Dev} (h : d.err.armed = none) : Ends d (sweepInsts d) := by
  refine foldl_ends (fun e c he => ?_) _ d h
  have h1 : Ends e (modSched (fun s => { s with insts := tabDrop s.insts c.1 }) e) := .of_same rfl rfl rfl
  have h2 := h1.trans (tap_ends 2 (graphOf d.img (c.1 / 64)).pool 1 (graphOf d.img (c.1 / 64)).part (h1.armed.trans he))
  exact h2.trans (freeFrames_ends _ _ (h2.armed.trans he))

theorem pump_ends {d : Dev} (h : d.err.armed = none) : Ends d (pump d) := by
  obtain ⟨he, hopen⟩ := pumpReqs_ends d.reqs [] d
  have h1 : Ends d { (pumpReqs d.reqs [] d).2 with reqs := (pumpReqs d.reqs [] d).1 } :=
    ⟨{ he.toContained with closed := fun o ho => openReq_eq_false_iff.mpr (hopen o (openReq_eq_false_iff.mp ho)) }, he.unit⟩
  exact h1.trans (sweepInsts_ends (h1.armed.trans h))

theorem foldl_modKv_kv {α : Type} (n : α → Nat) (f : α → KvSeq → KvSeq) (l : List α) : ∀ d : Dev,
    ∃ k, l.foldl (fun e x => modKv (n x) (f x) e) d = { d with kv := k } := by
  induction l with
  | nil => exact fun _ => ⟨_, rfl⟩
  | cons x r ih => exact fun d => ih (modKv (n x) (f x) d)

theorem dropWalk_retires (x : DescId) (d : Dev) : Retires d (dropWalk x d) := by
  obtain ⟨k, hk⟩ := foldl_modKv_kv (fun w : Walk => w.seq) (fun _ k => { k with locks := k.locks - 1 }) (d.kv.walks.filter (fun w => w.d == x)) d
  unfold dropWalk
  dsimp only
  rw [hk]
  exact ⟨.of_same rfl rfl rfl, rfl, rfl⟩

/-- A change of a block that leaves its place leaves where every block is. -/
theorem modBlk_ends {b : Nat} {f : Blk → Blk} (d : Dev) (hp : ∀ x, (f x).place = x.place) (hh : ∀ x, (f x).home = x.home) : Ends d (modBlk b f d) := by
  have hb (k : Nat) : (getBlk (modBlk b f d) k).place = (getBlk d k).place ∧ (getBlk (modBlk b f d) k).home = (getBlk d k).home := by
    by_cases hk : k = b
    · subst hk
      rw [show getBlk (modBlk k f d) k = f (getBlk d k) from tabGet_tabMod_self _ _ _ _ _]
      exact ⟨hp _, hh _⟩
    · rw [show getBlk (modBlk b f d) k = getBlk d k from tabGet_tabMod_ne _ _ _ _ _ _ hk]
      exact ⟨rfl, rfl⟩
  refine Contained.ends { Contained.refl d with addr := fun k => ?_ } rfl
  obtain ⟨h1, h2⟩ := hb k
  unfold blkAddr blkAt blkCore
  rw [h1, h2]
  rfl

/-- Live descriptors that are changed or go. -/
theorem modLive_ends {f : List Desc → List Desc} (d : Dev) (hf : ∀ x, desc? d x = none → (f d.sched.live).find? (fun y => y.id == x) = none) :
    Ends d (modSched (fun c => { c with live := f c.live }) d) := Contained.ends { Contained.refl d with gone := hf } rfl

/-- A descriptor that retires is live no more. -/
theorem retire_retires (x : DescId) {d : Dev} (h : d.err.armed = none) : Retires d (retire x d) ∧ desc? (retire x d) x = none := by
  unfold retire
  split
  next hx => exact ⟨.refl d, hx⟩
  next y _ =>
    extract_lets d1 d2 d3 pool d4
    have h1 : Retires d d1 := dropWalk_retires x d
    have h2 : Retires d d2 := by
      unfold d2
      split
      · exact h1.trans (freeStrand_retires x _ (h1.armed.trans h))
      · exact h1
    have h3 : Retires d d3 := by
      unfold d3
      split
      · exact h2.trans ⟨modBlk_ends _ (fun _ => rfl) fun _ => rfl, rfl, rfl⟩
      · exact h2
    have h4 : Retires d d4 := h3.trans ⟨modLive_ends d3 fun z hz => by simp_all [desc?], rfl, rfl⟩
    have hgone : desc? d4 x = none := by simp [d4, desc?, modSched]
    split
    · have hheld : Ends d4 (modSched (fun c => { c with held := c.held ++ [y] }) d4) := .of_same rfl rfl rfl
      exact ⟨h4.trans ⟨hheld, rfl, rfl⟩, hheld.gone x hgone⟩
    · rw [tap_calm _ _ _ _ d4 (h4.armed.trans h)]
      exact ⟨h4, hgone⟩

/-! ### Scan tiles that will not run (R242, R307) -/

theorem blkHeader_length (d : Dev) (b : Nat) : (blkHeader d b).length = 64 := by
  simp [blkHeader, le_length, zeros]

/-- Bytes of block headers that change. -/
theorem mem_ends {m : Mem} (d : Dev) (h : d.mem.wf = true → m.wf = true ∧
    ∀ a, (∀ k, a < blkAddr d k ∨ blkAddr d k + 64 ≤ a) → memByte m a = memByte d.mem a) : Ends d { d with mem := m } :=
  Contained.ends { Contained.refl d with mem := h } rfl

/-- A header is written where its block is. -/
theorem writeBlkHeader_ends (b : Nat) (d : Dev) : Ends d (writeBlkHeader b d) := by
  unfold writeBlkHeader memStore
  have hlen := blkHeader_length d b
  generalize blkHeader d b = header at hlen ⊢
  exact mem_ends d fun hw => ⟨memWrite_wf _ _ _ hw, fun a ha => memByte_memWrite_out header d.mem _ a hw (hlen.symm ▸ ha b)⟩

theorem countChunks_frame (n k : Nat) : ∀ x : Blk, (countChunks n k x).place = x.place ∧ (countChunks n k x).home = x.home := by
  induction k with
  | zero => exact fun x => ⟨rfl, rfl⟩
  | succ k ih =>
    intro x
    unfold countChunks
    split
    · exact ih _
    · exact ⟨rfl, rfl⟩

theorem noteSlices_ends (b pos : Nat) (ss : List Nat) (d : Dev) : Ends d (noteSlices b pos ss d) := by
  unfold noteSlices
  extract_lets d1 d2
  have h1 : Ends d d1 := modBlk_ends d (fun _ => rfl) fun _ => rfl
  have h2 : Ends d d2 := h1.trans (modBlk_ends d1 (fun x => (countChunks_frame _ _ x).1) fun x => (countChunks_frame _ _ x).2)
  split
  · exact h2
  · exact h2.trans (writeBlkHeader_ends b d2)

theorem settleChunks_ends (b : Nat) (d : Dev) : Ends d (settleChunks b d) := by
  unfold settleChunks
  extract_lets q o n d1 sr
  have h1 : Ends d d1 := .of_same rfl rfl rfl
  split
  · exact h1
  · exact h1.trans (.of_same rfl rfl rfl)

theorem skipScans_ends (g i : Nat) {d : Dev} (h : d.err.armed = none) : Ends d (skipScans g i d) :=
  foldl_ends (fun _ _ _ => (noteSlices_ends _ _ _ _).trans (settleChunks_ends _ _)) _ d h

theorem cancelInst_ends (g i : Nat) {d : Dev} (h : d.err.armed = none) : Ends d (cancelInst g i d).1 := by
  unfold cancelInst
  extract_lets d0 xs orphans d1 d2
  have h0 : Ends d d0 := by
    unfold d0
    split
    · exact .refl d
    · exact skipScans_ends g i h
  have h1 : Ends d d1 := h0.trans (foldl_ends (fun e y he => (retire_retires y.id he).1.toEnds) xs d0 (h0.armed.trans h))
  have h2 : Ends d d2 := h1.trans (.of_same rfl rfl rfl)
  exact h2.trans (.of_same rfl rfl rfl)

/-! ### Requests end (R73, R340, R344) -/

/-- Requests of an order end. -/
theorem modReq_ends {o : Nat} {f : Req → Req} (d : Dev) (ho : ∀ r, (f r).order = r.order) (he : ∀ r, r.ended ≠ none → (f r).ended ≠ none) :
    Ends d (modReq o f d) := by
  refine Contained.ends { Contained.refl d with closed := fun k hk => ?_ } rfl
  rw [openReq_eq_false_iff] at hk ⊢
  intro r hr
  obtain ⟨x, hx, rfl⟩ := List.mem_map.mp hr
  split
  · exact fun h => he x (hk x hx ((ho x).symm.trans h))
  · exact hk x hx

theorem emptySlot_ends (o : Nat) (d : Dev) : Ends d (emptySlot o d) := by
  refine modLive_ends d fun x hx => ?_
  simp only [desc?, List.find?_eq_none] at hx ⊢
  intro y hy
  obtain ⟨z, hz, rfl⟩ := List.mem_map.mp hy
  have := hx z hz
  split <;> exact this

theorem endOne_ends (r : Req) (cause : Nat) (orphaned : Bool) {d : Dev} (h : d.err.armed = none) :
    Ends d (endOne r cause orphaned d).1 ∧ openReq (endOne r cause orphaned d).1 r.order = false := by
  unfold endOne
  extract_lets tells d1 d2 d3 gone audio d4
  have h1 : Ends d d1 := modReq_ends d (fun _ => rfl) fun _ _ => Option.some_ne_none _
  have hopen : openReq d1 r.order = false := by
    rw [openReq_eq_false_iff]
    intro x hx ho
    obtain ⟨y, hy, rfl⟩ := List.mem_map.mp hx
    by_cases hyo : y.order = r.order
    · rw [if_pos hyo]
      exact Option.some_ne_none _
    · rw [if_neg hyo] at ho
      exact absurd ho hyo
  have h2 : Ends d1 d2 := by
    unfold d2
    split
    · exact .of_same rfl rfl rfl
    · exact .refl d1
  have h3 : Ends d1 d3 := by
    unfold d3
    split
    · exact h2.trans (.of_same rfl rfl rfl)
    · exact h2
  have h4 : Ends d1 d4 := h3.trans (.of_same rfl rfl rfl)
  have done {e : Dev} (he : Ends d1 e) : Ends d e ∧ openReq e r.order = false := ⟨h1.trans he, he.closed _ hopen⟩
  split
  · exact done (h3.trans (.of_same rfl rfl rfl))
  · split
    · exact done (h4.trans (emptySlot_ends _ _))
    · split
      · exact done (h4.trans (cancelInst_ends _ _ (h4.armed.trans (h1.armed.trans h))))
      · exact done h4
    · exact done h4

/-- Ends of requests: of those among the first entries that the fuel suffices for, none is open any more. -/
theorem endMany_ends (n : Nat) : ∀ (l : List (Nat × Nat × Bool)) (d : Dev), d.err.armed = none → Ends d (endMany n l d) ∧
    ∀ x ∈ l.take n, openReq (endMany n l d) x.1 = false := by
  induction n with
  | zero => exact fun l d _ => ⟨.refl d, fun x hx => absurd hx (by simp)⟩
  | succ n ih =>
    intro l d h
    match l with
    | [] => exact ⟨.refl d, fun x hx => absurd hx (by simp)⟩
    | (o, c, b) :: rest =>
      unfold endMany
      have later {e : Dev} {k : List (Nat × Nat × Bool)} (he : Ends d e) (ho : openReq e o = false) (hk : rest.take n ⊆ k.take n) :
          Ends d (endMany n k e) ∧ ∀ x ∈ ((o, c, b) :: rest).take (n + 1), openReq (endMany n k e) x.1 = false := by
        obtain ⟨hw, hc⟩ := ih k e (he.armed.trans h)
        refine ⟨he.trans hw, fun x hx => ?_⟩
        rcases List.mem_cons.mp hx with rfl | hx
        · exact hw.closed _ ho
        · exact hc x (hk hx)
      split
      next hnone => exact later (.refl d) (by simpa [openReq] using hnone) (List.Subset.refl _)
      next r hr =>
        extract_lets e
        obtain ⟨he, ho⟩ := endOne_ends r c b h
        have hro : r.order = o := by
          have := List.find?_some hr
          simp_all
        exact later he (hro ▸ ho) (List.take_append ▸ List.subset_append_left _ _)

/-- Ends of requests, the first list as a cause ends them: none of those is open any more. -/
theorem endBoth_frame (own orphans : List Nat) (cause : Nat) {d : Dev} (h : d.err.armed = none) :
    Ends d (endBoth own orphans cause d) ∧ ∀ o ∈ own, openReq (endBoth own orphans cause d) o = false := by
  unfold endBoth
  generalize hl : own.map (fun o => (o, cause, false)) ++ orphans.map (fun o => (o, cause, true)) = l
  obtain ⟨he, hc⟩ := endMany_ends (own.length + orphans.length + (d.reqs.length + 1) * (d.reqs.length + 1)) l d h
  have hp := pump_ends (he.armed.trans h)
  refine ⟨he.trans hp, fun o ho => hp.closed _ (hc (o, cause, false) ?_)⟩
  have hlen : l.length = own.length + orphans.length := by rw [← hl]; simp
  rw [List.take_of_length_le (by omega), ← hl]
  exact List.mem_append_left _ (List.mem_map_of_mem ho)

theorem truncateBack_ends (o : Nat) (d : Dev) : Ends d (truncateBack o d) := by
  unfold truncateBack
  split
  next r _ =>
    obtain ⟨k, hk⟩ := foldl_modKv_kv (fun k : Nat × Nat => k.1) (fun k q => { q with edits := q.edits ++ [.truncate k.2] }) r.kvBefore d
    rw [hk]
    exact .of_same rfl rfl rfl
  · exact .refl d

/-- A descriptor that fails retires unsignalled, and every request that it works for ends (R307, R321, R340). -/
theorem failDesc_frame {x : DescId} {y : Desc} (cause : Nat) {d : Dev} (h : d.err.armed = none) (hy : desc? d x = some y) :
    Ends d (failDesc x cause d) ∧ desc? (failDesc x cause d) x = none ∧ ∀ o ∈ ordersOf d y, openReq (failDesc x cause d) o = false := by
  unfold failDesc
  rw [hy]
  dsimp -zeta only
  extract_lets own orphans d0 d1 c
  have h0 : Ends d d0 := by
    unfold d0
    split
    · refine foldl_ends (fun e o _ => ?_) own d h
      split
      · exact truncateBack_ends o e
      · exact .refl e
    · exact .refl d
  obtain ⟨⟨h1, -, -⟩, hgone⟩ := retire_retires x (h0.armed.trans h)
  have h1' := (h0.trans h1).armed.trans h
  have hc : Ends d1 c.1 := by
    unfold c
    split
    · exact .refl d1
    · exact cancelInst_ends _ _ h1'
  obtain ⟨he, hclosed⟩ := endBoth_frame own (orphans ++ c.2.filter (fun o => !own.contains o && !orphans.contains o)) cause (hc.armed.trans h1')
  exact ⟨(h0.trans h1).trans (hc.trans he), (hc.trans he).gone x hgone, hclosed⟩

end Sys2Proof.Machine
end

section
/-! PROOFS. Faults and mismatched scale blocks of tiles (R152, R153, R177, R178). Settles O31. -/

namespace Sys2Proof.Machine

/-! ### Work that is charged (R158, R315, R318) -/

/-- What may change of a device as a tile stops, before its descriptor fails: units, the error record, the queue of interrupts, charges,
pre-emption waits, tests that wait, the count of free values. -/
def FaultWork (d e : Dev) : Prop := ∃ us er i n k cl pa m ag, e = { d with
  units := us, err := er, host := { d.host with ibis := i, ibiMerged := n }, freeCtr := k, clusters := cl
  sched := { d.sched with parts := pa, preemptMax := m }, age := ag } ∧ er.armed = d.err.armed

theorem FaultWork.refl (d : Dev) : FaultWork d d := ⟨_, _, _, _, _, _, _, _, _, rfl, rfl⟩

theorem FaultWork.trans {a b c : Dev} (h : FaultWork a b) (g : FaultWork b c) : FaultWork a c := by
  obtain ⟨_, _, _, _, _, _, _, _, _, rfl, ha⟩ := h
  obtain ⟨_, _, _, _, _, _, _, _, _, rfl, hb⟩ := g
  exact ⟨_, _, _, _, _, _, _, _, _, rfl, hb.trans ha⟩

theorem UnitWork.faultWork {d e : Dev} (h : UnitWork d e) : FaultWork d e := by
  obtain ⟨_, _, _, _, _, rfl, ha⟩ := h
  exact ⟨_, _, _, _, _, _, _, _, _, rfl, ha⟩

theorem FaultWork.armed {d e : Dev} (h : FaultWork d e) : e.err.armed = d.err.armed := by
  obtain ⟨_, _, _, _, _, _, _, _, _, rfl, ha⟩ := h
  exact ha

theorem FaultWork.contained {d e : Dev} (h : FaultWork d e) : Contained d e := by
  obtain ⟨_, _, _, _, _, _, _, _, _, rfl, ha⟩ := h
  exact .of_same rfl ha

theorem FaultWork.desc? {d e : Dev} (h : FaultWork d e) (x : DescId) : desc? e x = desc? d x := by
  obtain ⟨_, _, _, _, _, _, _, _, _, rfl, -⟩ := h
  rfl

theorem FaultWork.img {d e : Dev} (h : FaultWork d e) : e.img = d.img := h.contained.img

theorem FaultWork.ordersOf {d e : Dev} (h : FaultWork d e) (y : Desc) : ordersOf e y = ordersOf d y := by
  obtain ⟨_, _, _, _, _, _, _, _, _, rfl, -⟩ := h
  rfl

theorem chargeTile_faultWork (u p n : Nat) (d : Dev) : FaultWork d (chargeTile u p n d) ∧ (chargeTile u p n d).units = d.units := by
  unfold chargeTile
  extract_lets c now q d1
  have h1 : FaultWork d d1 := ⟨_, _, _, _, _, _, _, _, _, rfl, rfl⟩
  split
  · obtain ⟨hw, hu⟩ := recordAt_unitWork 0x42 (some p) (2, c) none false (modPart p (fun x => { x with overq := x.overq + 1 }) d1)
    exact ⟨h1.trans (FaultWork.trans ⟨_, _, _, _, _, _, _, _, _, rfl, rfl⟩ hw.faultWork), hu⟩
  · exact ⟨h1, rfl⟩

theorem endWait_faultWork (u n : Nat) (d : Dev) : FaultWork d (endWait u n d) ∧ ∀ v, Recounted (getUnit d v) (getUnit (endWait u n d) v) := by
  unfold endWait
  split
  · exact ⟨⟨_, _, _, _, _, _, _, _, _, rfl, rfl⟩, recounted_modUnit d ⟨_, _, _, _, _, _, _, rfl⟩⟩
  · exact ⟨.refl d, fun _ => .refl _⟩

/-- Counting and charging the work of a tile that ends without commit recounts units and leaves the rest of them. -/
theorem endWork_faultWork (u : Nat) (t : Tile) (d : Dev) : FaultWork d (endWork u t d) ∧ ∀ v, Recounted (getUnit d v) (getUnit (endWork u t d) v) := by
  unfold endWork
  extract_lets e
  obtain ⟨-, hw, hu⟩ := lostWork_frame u t d
  unfold chargeLost
  extract_lets c1 c2 total
  have h2 : FaultWork e.2 c2.2 := ⟨_, _, _, _, _, _, _, _, _, rfl, rfl⟩
  obtain ⟨h3, hu3⟩ := chargeTile_faultWork u (dPart (descBytes e.2 e.1.d)) (total - e.1.charged) c2.2
  obtain ⟨h4, hu4⟩ := endWait_faultWork u (Config.freeNat c2.1 % (total + 1)) (chargeTile u (dPart (descBytes e.2 e.1.d)) (total - e.1.charged) c2.2)
  exact ⟨hw.faultWork.trans (h2.trans (h3.trans h4)), fun v => (hu v).trans (getUnit_eq_of_units hu3 v ▸ hu4 v)⟩

/-! ### A tile stops (Table 6.4) -/

/-- A unit as it was, but for its counters of cycles, the frames it keeps and pre-emption. -/
def Worked (x y : Unit_) : Prop := ∃ a b c g p m w f q, y = { x with
  adv := a, bubble := b, throttle := c, gated := g, gatedPart := p, commit := m, preemptWait := w, frames := f, preempt := q }

theorem Recounted.worked {x y z : Unit_} (h : Recounted x y) (g : KeptUnit y z) : Worked x z := by
  obtain ⟨_, _, _, _, _, _, _, rfl⟩ := h
  obtain ⟨_, _, _, rfl⟩ := g
  exact ⟨_, _, _, _, _, _, _, _, _, rfl⟩

/-- The tile of a unit has been aborted, which the unit otherwise leaves as `x`: its descriptor has retired, its requests have ended. -/
structure TileEnds (u : Nat) (x : Unit_) (t : Tile) (y : Desc) (d e : Dev) : Prop where
  contained : Contained d e
  self : Worked { x with abort := x.abort + 1, tile := none } (getUnit e u)
  others : ∀ v, v ≠ u → tileOf e v = tileOf d v
  retired : desc? e t.d = none
  ended : ∀ o ∈ ordersOf d y, openReq e o = false

theorem TileEnds.after {u : Nat} {x : Unit_} {t : Tile} {y : Desc} {d0 d e : Dev} (hw : FaultWork d0 d) (ho : ∀ v, v ≠ u → tileOf d v = tileOf d0 v)
    (h : TileEnds u x t y d e) : TileEnds u x t y d0 e :=
  ⟨hw.contained.trans h.contained, h.self, fun v hv => (h.others v hv).trans (ho v hv), h.retired, hw.ordersOf y ▸ h.ended⟩

section
variable {d : Dev} {u : Nat} {t : Tile} {y : Desc}

/-- A device from which a tile has gone that its unit counts as aborted, its descriptor still live. -/
def tileGone (u : Nat) (t : Tile) (d : Dev) : Dev := clearTile u (modUnit u (fun x => { x with abort := x.abort + 1 }) (endWork u t d))

theorem tileGone_faultWork (u : Nat) (t : Tile) (d : Dev) : FaultWork d (tileGone u t d) :=
  (endWork_faultWork u t d).1.trans ((modUnit_unitWork _ _ _).trans (modUnit_unitWork _ _ _)).faultWork

theorem getUnit_tileGone_self (u : Nat) (t : Tile) (d : Dev) :
    Recounted { getUnit d u with abort := (getUnit d u).abort + 1, tile := none } (getUnit (tileGone u t d) u) := by
  obtain ⟨_, _, _, _, _, _, _, hr⟩ := (endWork_faultWork u t d).2 u
  rw [tileGone, clearTile, getUnit_modUnit_self, getUnit_modUnit_self, hr]
  exact ⟨_, _, _, _, _, _, _, rfl⟩

theorem tileOf_tileGone_ne {u v : Nat} (h : v ≠ u) (t : Tile) (d : Dev) : tileOf (tileGone u t d) v = tileOf d v := by
  rw [tileGone, clearTile, tileOf_modUnit_ne h, tileOf_modUnit_ne h]
  exact ((endWork_faultWork u t d).2 v).tile

theorem abortTile_ends (cause : Nat) (ha : d.err.armed = none) (ht : tileOf d u = some t) (hy : desc? d t.d = some y) (hc : t.committing = false) :
    TileEnds u (getUnit d u) t y d (abortTile u cause d) := by
  have hw := tileGone_faultWork u t d
  have heq : abortTile u cause d = failDesc t.d cause (tileGone u t d) := by
    simp only [abortTile, ht, hc]
    rfl
  obtain ⟨he, hgone, hclosed⟩ := failDesc_frame cause (hw.armed.trans ha) ((hw.desc? t.d).trans hy)
  rw [← heq] at he hgone hclosed
  refine ⟨hw.contained.trans he.toContained, (getUnit_tileGone_self u t d).worked (he.unit u), fun v hv => ?_, hgone, hw.ordersOf y ▸ hclosed⟩
  exact (he.unit v).tile.trans (tileOf_tileGone_ne hv t d)

/-- A tile that is neither a scan tile nor a search tile is aborted, and nothing more. -/
theorem stopTile_eq (cause : Nat) (ht : tileOf d u = some t) (hy : desc? d t.d = some y) (hk : dKind y.bytes ≠ 3) (hs : isSearch d.img y.bytes = false) :
    stopTile u cause d = abortTile u cause d := by
  have hb : descBytes d t.d = y.bytes := by simp [descBytes, hy]
  simp [stopTile, ht, hb, hk, hs]

/-- A unit after a fault of its tile: a core counts it, a stem engine does not (R451). -/
def faulted (u : Nat) (x : Unit_) : Unit_ := { x with faults := x.faults + if u < 24 then 1 else 0 }

theorem coreFault_frame (u : Nat) (d : Dev) : FaultWork d (coreFault u d) ∧ getUnit (coreFault u d) u = faulted u (getUnit d u) ∧
    ∀ v, v ≠ u → tileOf (coreFault u d) v = tileOf d v := by
  unfold coreFault
  split
  next h =>
    refine ⟨.refl d, ?_, fun _ _ => rfl⟩
    simp [faulted, show ¬ u < 24 by omega]
  next h =>
    extract_lets n d1
    have h1 : FaultWork d d1 := (modUnit_unitWork _ _ _).faultWork
    have hself : getUnit d1 u = faulted u (getUnit d u) := by
      rw [faulted, if_pos (by omega)]
      exact getUnit_modUnit_self u _ d
    have hother (v : Nat) (hv : v ≠ u) : tileOf d1 v = tileOf d v := tileOf_modUnit_ne hv _ d
    have htest : ∃ a, (queueTest u 2 d1).2 = { d1 with age := a } := by
      unfold queueTest
      split
      · exact ⟨_, rfl⟩
      · obtain ⟨a, ha, -⟩ := nextTest_frame (modAge (fun a => { a with tests := a.tests ++ [(u, 2)] }) d1)
        exact ⟨a, ha⟩
    split
    · obtain ⟨a, hq⟩ := htest
      rw [hq]
      exact ⟨h1.trans ⟨_, _, _, _, _, _, _, _, _, rfl, rfl⟩, hself, hother⟩
    · exact ⟨h1, hself, hother⟩

/-- A fault or a mismatch of a tile that is neither committing nor a scan tile nor a search tile: what its unit counts comes first, as
`x`, and then the tile is aborted. -/
theorem stopTile_ends {d0 : Dev} {x : Unit_} (cause : Nat) (hw : FaultWork d0 d) (ho : ∀ v, v ≠ u → tileOf d v = tileOf d0 v) (hx : getUnit d u = x)
    (ha : d0.err.armed = none) (ht : x.tile = some t) (hy : desc? d0 t.d = some y) (hc : t.committing = false) (hk : dKind y.bytes ≠ 3)
    (hs : isSearch d0.img y.bytes = false) : TileEnds u x t y d0 (stopTile u cause d) := by
  subst hx
  have hy' := (hw.desc? t.d).trans hy
  rw [stopTile_eq cause ht hy' hk (hw.img ▸ hs)]
  exact (abortTile_ends cause (hw.armed.trans ha) ht hy' hc).after hw ho

theorem faultTile_ends (code : Nat) (j : Bool) (ha : d.err.armed = none) (ht : tileOf d u = some t) (hy : desc? d t.d = some y)
    (hc : t.committing = false) (hk : dKind y.bytes ≠ 3) (hs : isSearch d.img y.bytes = false) :
    TileEnds u (faulted u (getUnit d u)) t y d (faultTile u code j d) := by
  unfold faultTile
  extract_lets p d1
  obtain ⟨hw1, hu1⟩ : UnitWork d d1 ∧ d1.units = d.units := by
    obtain ⟨hw, hu⟩ := recordAt_unitWork (min 0x60 code) p (1, u) none j d
    obtain ⟨gw, gu⟩ := recordAt_unitWork (max 0x60 code) p (1, u) none j (recordAt (min 0x60 code) p (1, u) none j d)
    exact ⟨hw.trans gw, gu.trans hu⟩
  obtain ⟨hw2, hself, hother⟩ := coreFault_frame u d1
  rw [getUnit_eq_of_units hu1] at hself
  exact stopTile_ends 0x60 (hw1.faultWork.trans hw2) (fun v hv => (hother v hv).trans (tileOf_eq_of_units hu1 v)) hself ha ht hy hc hk hs

/-- A unit after a scale block that did not match: it counts it, and keeps the first. -/
def tagFailed (kind expected observed : Nat) (x : Unit_) : Unit_ :=
  { x with tagErr := x.tagErr + 1, tagFirst := match x.tagFirst with | some f => some f | none => some (kind, expected, observed) }

theorem tagFail_ends (kind expected observed : Nat) (j : Bool) (ha : d.err.armed = none) (ht : tileOf d u = some t) (hy : desc? d t.d = some y)
    (hc : t.committing = false) (hk : dKind y.bytes ≠ 3) (hs : isSearch d.img y.bytes = false) :
    TileEnds u (tagFailed kind expected observed (getUnit d u)) t y d (tagFail u kind expected observed j d) := by
  unfold tagFail
  extract_lets p d1
  obtain ⟨hw, hu⟩ := recordAt_unitWork 0x61 p (1, u) none j d1
  refine stopTile_ends 0x61 ((modUnit_unitWork _ _ _).trans hw).faultWork (fun v hv => (tileOf_eq_of_units hu v).trans (tileOf_modUnit_ne hv _ d))
    ((getUnit_eq_of_units hu u).trans (getUnit_modUnit_self u _ d)) ha ht hy hc hk hs

end

/-! ### The commands -/

section
variable {s : State} {u : Fin 28} {t : Tile} {y : Desc} {x : Unit_} {e : Dev}

/-- A command of the device that leaves it settled ends there. -/
theorem exec_of_same {i : Instr} {f : Dev → Dev} {d : Dev} (hx : exec i s = devStep f s) (hf : f s.dev = d) (h : Settled { s with dev := d }) :
    exec i s = .next { s with dev := d } := exec_of_settled (hx.trans (by rw [devStep, hf])) h

/-- What O31 says of a tile that has been aborted. -/
def Aborted (s : State) (u : Fin 28) (t : Tile) (y : Desc) (e : State) : Prop :=
  SameOutside s e ∧ tileOf e.dev u.val = none ∧ desc? e.dev t.d = none ∧ (∀ o ∈ ordersOf s.dev y, openReq e.dev o = false) ∧
    e.dev.sched.cells = s.dev.sched.cells ∧ SameOutsideHeaders s e ∧ (getUnit e.dev u.val).abort = (getUnit s.dev u.val).abort + 1 ∧
    ∀ v, v ≠ u.val → tileOf e.dev v = tileOf s.dev v

/-- A command that aborts a tile, of a settled device. -/
theorem gives_of_tileEnds {i : Instr} {f : Dev → Dev} {Q : Unit_ → Prop} (hx : exec i s = devStep f s) (hf : f s.dev = e) (h : Settled s)
    (hw : s.dev.mem.wf = true) (he : TileEnds u.val x t y s.dev e) (hxa : x.abort = (getUnit s.dev u.val).abort)
    (hQ : ∀ z, Worked { x with abort := x.abort + 1, tile := none } z → Q z) :
    Gives i s fun z => Aborted s u t y z ∧ Q (getUnit z.dev u.val) := by
  obtain ⟨hc, hself, hothers, hretired, hended⟩ := he
  have hbytes := (hc.mem hw).2
  have hq : Quiet e := h.quiet.mono hc.tripped (congrArg Boot.romDue hc.boot) (congrArg Power.isp hc.power) hc.isp
  refine gives_of_quiet (hx.trans (by rw [devStep, hf])) hq fun a b p => ⟨⟨⟨rfl, rfl, rfl⟩, ?_, hretired, hended, hc.cells, hbytes, ?_, hothers⟩, hQ _ hself⟩
  · obtain ⟨_, _, _, _, _, _, _, _, _, hz⟩ := hself
    exact congrArg Unit_.tile hz
  · obtain ⟨_, _, _, _, _, _, _, _, _, hz⟩ := hself
    exact (congrArg Unit_.abort hz).trans (congrArg (· + 1) hxa)

variable (hset : Settled s) (hl : live s.dev = true) (ha : s.dev.err.armed = none) (ht : tileOf s.dev u.val = some t)
  (hy : desc? s.dev t.d = some y) (hc : t.committing = false) (hst : t.stopped = false) (hk : dKind y.bytes ≠ 3)
  (hs : isSearch s.dev.img y.bytes = false) (hw : s.dev.mem.wf = true)

include hset hl ha ht hy hc hst hk hs hw in
/-- A fault of a tile (R152, R153, R451). -/
theorem tileFault_gives {det : Nat} (hdet : det = 0x69 ∨ det = 0x6A ∨ det = 0x13) : Gives (.tileFault u det) s fun e =>
    Aborted s u t y e ∧ (getUnit e.dev u.val).faults = (getUnit s.dev u.val).faults + (if u.val < 24 then 1 else 0) := by
  have hwf : Instr.wf (.tileFault u det) = true := by rcases hdet with rfl | rfl | rfl <;> rfl
  have hf : tileFault u.val det s.dev = faultTile u.val det false s.dev := by simp [tileFault, ht, hl, hst]
  refine gives_of_tileEnds (i := .tileFault u det) (s := s)
    (Q := fun z => z.faults = (getUnit s.dev u.val).faults + if u.val < 24 then 1 else 0) (unlessWf_of_wf hwf) hf hset hw
    (faultTile_ends det false ha ht hy hc hk hs) rfl ?_
  rintro z ⟨_, _, _, _, _, _, _, _, _, rfl⟩
  rfl

include hl ht hy hst in
/-- A scale block that a tile consumes (R177, R178). -/
theorem scaleCheck_of_pair {block kind a : Nat} (tag seen : Nat) (poisoned : Bool)
    (hp : pairAt s.dev u.val t.d y.bytes (cellsOf s.dev u.val t.d y.bytes) t.pages kind block = some a) :
    scaleCheck u.val block kind tag seen poisoned s.dev =
      if poisoned then { s.dev with mem := poisonGranules [a / 64] s.dev.mem }
      else if tag % 256 ≠ block % 256 ∨ seen % 256 ≠ kind then tagFail u.val kind (block % 256) (tag % 256) false s.dev
      else s.dev := by
  have hb : descBytes s.dev t.d = y.bytes := by simp [descBytes, hy]
  simp only [scaleCheck, ht, hl, hst, hb, Bool.not_false, Bool.and_self, if_true, hp]

include hl ht hy hst in
/-- A scale block that a tile does not consume. -/
theorem scaleCheck_of_no_pair {block kind : Nat} (tag seen : Nat) (poisoned : Bool)
    (hp : pairAt s.dev u.val t.d y.bytes (cellsOf s.dev u.val t.d y.bytes) t.pages kind block = none) :
    scaleCheck u.val block kind tag seen poisoned s.dev = s.dev := by
  have hb : descBytes s.dev t.d = y.bytes := by simp [descBytes, hy]
  simp only [scaleCheck, ht, hl, hst, hb, Bool.not_false, Bool.and_self, if_true, hp]

include hset hl ha ht hy hc hst hk hs hw in
/-- A scale block that does not match (R177). -/
theorem scaleTagMismatch_gives {block kind tag seen : Nat}
    (hp : pairAt s.dev u.val t.d y.bytes (cellsOf s.dev u.val t.d y.bytes) t.pages kind block ≠ none)
    (hm : tag % 256 ≠ block % 256 ∨ seen % 256 ≠ kind) : Gives (.scaleTagMismatch u block kind tag seen false) s fun e => Aborted s u t y e ∧
      (getUnit e.dev u.val).tagErr = (getUnit s.dev u.val).tagErr + 1 ∧
      ((getUnit s.dev u.val).tagFirst = none → (getUnit e.dev u.val).tagFirst = some (kind, block % 256, tag % 256)) ∧
      ∀ f, (getUnit s.dev u.val).tagFirst = some f → (getUnit e.dev u.val).tagFirst = some f := by
  obtain ⟨a, hp⟩ := Option.ne_none_iff_exists'.mp hp
  have hf : scaleCheck u.val block kind tag seen false s.dev = tagFail u.val kind (block % 256) (tag % 256) false s.dev :=
    (scaleCheck_of_pair hl ht hy hst tag seen false hp).trans (if_pos hm)
  refine gives_of_tileEnds (i := .scaleTagMismatch u block kind tag seen false) (Q := fun z => z.tagErr = (getUnit s.dev u.val).tagErr + 1 ∧
    ((getUnit s.dev u.val).tagFirst = none → z.tagFirst = some (kind, block % 256, tag % 256)) ∧
    ∀ f, (getUnit s.dev u.val).tagFirst = some f → z.tagFirst = some f) rfl hf hset hw
    (tagFail_ends kind (block % 256) (tag % 256) false ha ht hy hc hk hs) rfl ?_
  rintro z ⟨_, _, _, _, _, _, _, _, _, rfl⟩
  refine ⟨rfl, fun hn => ?_, fun f hf => ?_⟩
  · simp [tagFailed, hn]
  · simp [tagFailed, hf]

end

/-- Settles O31: a fault and a mismatch abort the tile; a poisoned block is poisoned, and one that the tile does not consume is nothing to it. -/
theorem faultsAbortTheTile : Obligations.FaultsAbortTheTile := by
  intro s u t y hset hl ha ht hy hc hst hk hs hw ended
  refine ⟨fun det hdet => tileFault_gives hset hl ha ht hy hc hst hk hs hw hdet,
    fun block kind tag seen hp hm => scaleTagMismatch_gives hset hl ha ht hy hc hst hk hs hw hp hm,
    fun block kind tag seen a hp => ?_, fun block kind tag seen bad hp => ?_⟩
  · exact exec_of_same rfl (scaleCheck_of_pair hl ht hy hst tag seen true hp) (hset.of_same rfl rfl rfl rfl rfl rfl rfl rfl)
  · exact exec_of_same rfl (scaleCheck_of_no_pair hl ht hy hst tag seen bad hp) hset

end Sys2Proof.Machine
end

section
/-! PROOFS. The commit of an array or stem tile (R151, R281, R295, R306). Settles O30. -/

namespace Sys2Proof.Machine

/-! ### Elements are written (R151) -/

theorem writeBits_wf (base off width v : Nat) {m : Mem} (h : m.wf = true) : (writeBits base off width v m).wf = true := memWrite_wf _ _ _ h

theorem memByte_writeBits_out {base off width : Nat} (v : Nat) {m : Mem} (h : m.wf = true) {a : Nat}
    (ha : a < base + off / 8 ∨ base + off / 8 + (off % 8 + width + 7) / 8 ≤ a) : memByte (writeBits base off width v m) a = memByte m a :=
  memByte_memWrite_out _ _ _ _ h (by rw [le_length]; exact ha)

/-- Bytes in which no element lies read as before. -/
theorem memByte_writeVals_out {base a : Nat} {l : List OutVal} {m : Mem} (h : m.wf = true)
    (ha : ∀ v ∈ l, a < base + v.off / 8 ∨ base + v.off / 8 + (v.off % 8 + v.width + 7) / 8 ≤ a) :
    memByte (writeVals base l m) a = memByte m a := by
  suffices memByte (l.foldl (fun a v => writeBits base v.off v.width v.bits a) m) a = memByte m a from this
  induction l generalizing m with
  | nil => rfl
  | cons v r ih =>
    rw [List.foldl_cons, ih (writeBits_wf _ _ _ _ h) fun w hw => ha w (List.mem_cons_of_mem v hw)]
    exact memByte_writeBits_out _ h (ha v List.mem_cons_self)

/-- Where a tile writes follows from the frames that units keep. -/
theorem destAddr_of_frames {d e : Dev} (hi : e.img = d.img) (hf : ∀ u, (getUnit e u).frames = (getUnit d u).frames) (x : DescId) (b : Bytes) :
    destAddr e x b = destAddr d x b := by
  have hframe : frameOf e x.graph x.inst (dStrand b) = frameOf d x.graph x.inst (dStrand b) := by simp only [frameOf, hf]
  simp only [destAddr, refAddr, hframe, hi]

/-- A dense output without a scale stream is its elements and its padding. -/
theorem writeOutput_of_dense {u base : Nat} {x : DescId} {b : Bytes} {vals : List OutVal} {scales : List (Nat × GScale × Bool)} {d : Dev}
    (ha : destAddr d x b = some base) (hz : zcOf d.img b = none) (hs : scaleKind d.img b = none) :
    writeOutput u x b vals scales d = { d with mem := writeVals base (padVals d.img (graphBlob d x.graph) b ++ vals) d.mem } := by
  unfold writeOutput
  rw [ha]
  simp only [hz, hs]

/-! ### Conversions are counted (R164, R165, R182) -/

/-- A unit after the conversions of a commit: counted, and noted in its watched slots. -/
def Converted (l : List OutVal) (x y : Unit_) : Prop := ∃ n w, y = { x with
  converted := addW x.converted (l.filter (fun v => v.converted)).length
  clipped := addW x.clipped ((l.filter (fun v => v.converted)).filter (fun v => v.clipped)).length, nonfinite := n, watch := w }

theorem watchVal_frame (img : Image) (u table : Nat) (v : OutVal) (x : Unit_) : ∃ w, watchVal img u table v x = { x with watch := w } := by
  unfold watchVal
  generalize img.watched.filter _ = l
  induction l generalizing x with
  | nil => exact ⟨_, rfl⟩
  | cons r l ih =>
    obtain ⟨w, hw⟩ := ih { x with watch := tabMod x.watch r.slot {} (fun s =>
      if s.count = 0xFFFFFFFF#32 then s else { sumsq := fAdd s.sumsq (fMul v.err v.err), count := s.count + 1 }) }
    exact ⟨w, hw⟩

theorem foldl_watchVal_frame (img : Image) (u table : Nat) (l : List OutVal) : ∀ x : Unit_, ∃ w,
    l.foldl (fun z v => watchVal img u table v z) x = { x with watch := w } := by
  induction l with
  | nil => exact fun x => ⟨_, rfl⟩
  | cons v l ih =>
    intro x
    obtain ⟨w, hw⟩ := watchVal_frame img u table v x
    obtain ⟨w', hw'⟩ := ih { x with watch := w }
    exact ⟨w', by rw [List.foldl_cons, hw, hw']⟩

/-- Conversions counted without statistics touch their unit and the error record. -/
theorem countVals_frame (u p : Nat) {rq : Option RqTable} (l : List OutVal) (d : Dev) (hf : ∀ r, rq = some r → bit r.flags 3 = false) :
    UnitWork d (countVals u p rq l d) ∧ Converted l (getUnit d u) (getUnit (countVals u p rq l d) u) ∧
      ∀ v, v ≠ u → getUnit (countVals u p rq l d) v = getUnit d v := by
  unfold countVals
  extract_lets cs bad d1 d2
  obtain ⟨hw, hu⟩ := foldl_record_unitWork 0x65 (some p) (1, u) (List.range bad) d1
  have h2 : UnitWork d d2 := (modUnit_unitWork _ _ _).trans hw
  have hself : Converted l (getUnit d u) (getUnit d2 u) := by
    rw [getUnit_eq_of_units hu, getUnit_modUnit_self]
    cases rq with
    | none => exact ⟨_, _, rfl⟩
    | some r =>
      obtain ⟨w, he⟩ := foldl_watchVal_frame d.img u r.id cs { getUnit d u with
        converted := addW (getUnit d u).converted cs.length
        clipped := addW (getUnit d u).clipped (cs.filter (fun v => v.clipped)).length
        nonfinite := addW (getUnit d u).nonfinite bad }
      exact ⟨_, w, he⟩
  have hother (v : Nat) (hv : v ≠ u) : getUnit d2 v = getUnit d v := (getUnit_eq_of_units hu v).trans (getUnit_modUnit_ne hv _ d)
  split
  next r =>
    rw [if_neg (by simp [hf r rfl])]
    exact ⟨h2, hself, hother⟩
  · exact ⟨h2, hself, hother⟩

/-! ### What follows from the signal (R295, R306) -/

theorem windowStall_retires (x : DescId) (lay : Option (Nat × Nat)) (d : Dev) : Retires d (windowStall x lay d) := by
  unfold windowStall
  split
  · exact .refl d
  · dsimp only
    split
    · exact .refl d
    · exact ⟨.of_same rfl rfl rfl, rfl, rfl⟩

theorem pump_retires {d : Dev} (h : d.err.armed = none) : Retires d (pump d) := by
  obtain ⟨_, _, ⟨_, _, _, _, _, _, _, rfl⟩, ⟨_, _, _, _, _, _, _, hp⟩, -⟩ := pump_frame d
  exact ⟨pump_ends h, by rw [hp], by rw [hp]⟩

/-- Requests for pre-emption touch units and live descriptors in that note alone (R317). -/
theorem settlePreempt_retires (d : Dev) : Retires d (settlePreempt d) := by
  have h1 : Ends d { d with units := tabMap d.units (fun u x => { x with preempt := (d.sched.live.flatMap (preemptsOf d)).contains u && x.tile.isSome }) } := by
    refine ⟨.of_same rfl rfl, fun u => ?_⟩
    have hu : getUnit { d with units := tabMap d.units (fun u x => { x with preempt := (d.sched.live.flatMap (preemptsOf d)).contains u && x.tile.isSome }) } u =
        { getUnit d u with preempt := (d.sched.live.flatMap (preemptsOf d)).contains u && (getUnit d u).tile.isSome } :=
      tabGet_tabMap d.units (fun u x => { x with preempt := (d.sched.live.flatMap (preemptsOf d)).contains u && x.tile.isSome }) u {}
        (by simp only [Option.isSome_none, Bool.and_false])
    rw [hu]
    exact ⟨_, _, _, rfl⟩
  refine ⟨h1.trans (modLive_ends _ fun x hx => ?_), rfl, rfl⟩
  simp only [desc?, List.find?_eq_none] at hx ⊢
  intro y hy
  obtain ⟨z, hz, rfl⟩ := List.mem_map.mp hy
  exact hx z hz

/-- The own cell of a descriptor is signalled, or the signal is on its way; nothing else changes (R295). -/
theorem signalOwn_frame (x : DescId) (b : Bytes) (d : Dev) : (∃ ce re, signalOwn x b d = { d with sched := { d.sched with cells := ce, remote := re } }) ∧
    (dSignal b ≠ 0xFFFF →
      let k := cellNo d.img x.graph x.inst (dSignal b)
      (k / 2048 = dCluster b → cellCount (signalOwn x b d) k = cellCount d k + 1 ∧ (signalOwn x b d).sched.remote = d.sched.remote) ∧
      (k / 2048 ≠ dCluster b → cellCount (signalOwn x b d) k = cellCount d k ∧ (signalOwn x b d).sched.remote = d.sched.remote ++ [k])) := by
  unfold signalOwn
  by_cases hs : dSignal b = 0xFFFF
  · rw [if_pos hs]
    exact ⟨⟨_, _, rfl⟩, fun h => absurd hs h⟩
  · rw [if_neg hs]
    extract_lets k
    by_cases hk : k / 2048 = dCluster b
    · rw [if_pos hk]
      exact ⟨⟨_, _, rfl⟩, fun _ => ⟨fun _ => ⟨tabGet_tabMod_self _ _ _ _ _, rfl⟩, fun h => absurd hk h⟩⟩
    · rw [if_neg hk]
      exact ⟨⟨_, _, rfl⟩, fun _ => ⟨fun h => absurd h hk, fun _ => ⟨rfl, rfl⟩⟩⟩

/-! ### The commit up to its signal -/

/-- What a commit may change of a device before its signal: memory, units, the error record, the queue of interrupts, the traffic of the
DRAM, charges, pre-emption waits, the count of free values. -/
def CommitWork (d e : Dev) : Prop := ∃ us m er i n x k cl pa pm ag, e = { d with
  units := us, mem := m, err := er, host := { d.host with ibis := i, ibiMerged := n }, mov := { d.mov with ddr := x }, freeCtr := k
  clusters := cl, sched := { d.sched with parts := pa, preemptMax := pm }, age := ag } ∧ er.armed = d.err.armed

theorem CommitWork.trans {a b c : Dev} (h : CommitWork a b) (g : CommitWork b c) : CommitWork a c := by
  obtain ⟨_, _, _, _, _, _, _, _, _, _, _, rfl, ha⟩ := h
  obtain ⟨_, _, _, _, _, _, _, _, _, _, _, rfl, hb⟩ := g
  exact ⟨_, _, _, _, _, _, _, _, _, _, _, rfl, hb.trans ha⟩

theorem FaultWork.commitWork {d e : Dev} (h : FaultWork d e) : CommitWork d e := by
  obtain ⟨_, _, _, _, _, _, _, _, _, rfl, ha⟩ := h
  exact ⟨_, _, _, _, _, _, _, _, _, _, _, rfl, ha⟩

theorem FaultWork.mem {d e : Dev} (h : FaultWork d e) : e.mem = d.mem := by
  obtain ⟨_, _, _, _, _, _, _, _, _, rfl, -⟩ := h
  rfl

theorem CommitWork.img {d e : Dev} (h : CommitWork d e) : e.img = d.img := by
  obtain ⟨_, _, _, _, _, _, _, _, _, _, _, rfl, -⟩ := h
  rfl

theorem CommitWork.armed {d e : Dev} (h : CommitWork d e) : e.err.armed = d.err.armed := by
  obtain ⟨_, _, _, _, _, _, _, _, _, _, _, rfl, ha⟩ := h
  exact ha

theorem CommitWork.signals {d e : Dev} (h : CommitWork d e) : e.sched.cells = d.sched.cells ∧ e.sched.remote = d.sched.remote := by
  obtain ⟨_, _, _, _, _, _, _, _, _, _, _, rfl, -⟩ := h
  exact ⟨rfl, rfl⟩

theorem CommitWork.quiet {d e : Dev} (h : CommitWork d e) (hq : Quiet d) : Quiet e := by
  obtain ⟨_, _, _, _, _, _, _, _, _, _, _, rfl, -⟩ := h
  exact hq.mono rfl rfl rfl id

theorem endWait_kept (u n : Nat) (d : Dev) (v : Nat) : KeptUnit (getUnit d v) (getUnit (endWait u n d) v) := by
  unfold endWait
  split
  · by_cases hv : v = u
    · subst hv
      exact ⟨_, _, _, getUnit_modUnit_self v _ d⟩
    · exact ⟨_, _, _, getUnit_modUnit_ne hv _ d⟩
  · exact .refl _

section
variable (u cycles waited base : Nat) (t : Tile) (y : Desc) (d : Dev)

/-- The elements of a tile, converted. -/
def commitVals : List OutVal := (convertAll d t.d y.bytes (outEls d t.d y.bytes t)).1

/-- A device after a tile's dense output at an address: written, its conversions and its traffic counted. -/
def outputDone : Dev :=
  let e := countVals u (dPart y.bytes) (rqOf d.img y.bytes) (commitVals t y d) d
  touchGranules (tileWrites d u t.d t.pages y.bytes) true
    { e with mem := writeVals base (padVals d.img (graphBlob d t.d.graph) y.bytes ++ commitVals t y d) d.mem }

/-- A device after the commit of a tile up to its signal: its output is done, its cycles are counted and charged, the unit is free. -/
def commitDone : Dev :=
  let cyc := commitCycles d t.d y.bytes t.pages
  let total := tileCycles t cyc cycles
  clearTile u (chargeTile u (dPart y.bytes) (total - t.charged) (endWait u (min waited total)
    (modUnit u (fun x => { x with tiles := x.tiles + 1, commit := addW x.commit cyc }) (outputDone u base t y d))))

variable {u cycles waited base t y d}

theorem outputDone_frame (hf : ∀ r, rqOf d.img y.bytes = some r → bit r.flags 3 = false) : CommitWork d (outputDone u base t y d) ∧
    (outputDone u base t y d).mem = writeVals base (padVals d.img (graphBlob d t.d.graph) y.bytes ++ commitVals t y d) d.mem ∧
    Converted (commitVals t y d) (getUnit d u) (getUnit (outputDone u base t y d) u) ∧
    ∀ v, v ≠ u → getUnit (outputDone u base t y d) v = getUnit d v := by
  obtain ⟨hw, hself, hother⟩ := countVals_frame u (dPart y.bytes) (commitVals t y d) d hf
  unfold outputDone
  extract_lets e
  obtain ⟨x, k, he⟩ := touchGranules_frame (tileWrites d u t.d t.pages y.bytes) true
    { e with mem := writeVals base (padVals d.img (graphBlob d t.d.graph) y.bytes ++ commitVals t y d) d.mem }
  rw [he]
  exact ⟨hw.faultWork.commitWork.trans ⟨_, _, _, _, _, _, _, _, _, _, _, rfl, rfl⟩, rfl, hself, hother⟩

/-- A unit after the commit of its tile. -/
def commitUnit (l : List OutVal) (cyc : Nat) (x y : Unit_) : Prop :=
  ∃ z, Converted l x z ∧ KeptUnit { z with tiles := z.tiles + 1, commit := addW z.commit cyc, tile := none } y

theorem commitDone_frame (hf : ∀ r, rqOf d.img y.bytes = some r → bit r.flags 3 = false) : CommitWork d (commitDone u cycles waited base t y d) ∧
    (commitDone u cycles waited base t y d).mem = writeVals base (padVals d.img (graphBlob d t.d.graph) y.bytes ++ commitVals t y d) d.mem ∧
    commitUnit (commitVals t y d) (commitCycles d t.d y.bytes t.pages) (getUnit d u) (getUnit (commitDone u cycles waited base t y d) u) ∧
    ∀ v, v ≠ u → tileOf (commitDone u cycles waited base t y d) v = tileOf d v := by
  obtain ⟨hw, hm, hself, hother⟩ := outputDone_frame (u := u) (base := base) (t := t) hf
  unfold commitDone
  extract_lets cyc total
  generalize hd2 : modUnit u (fun x => { x with tiles := x.tiles + 1, commit := addW x.commit cyc }) (outputDone u base t y d) = d2
  have h2 : FaultWork (outputDone u base t y d) d2 := hd2 ▸ (modUnit_unitWork _ _ _).faultWork
  obtain ⟨h3, -⟩ := endWait_faultWork u (min waited total) d2
  have hu3 := endWait_kept u (min waited total) d2
  obtain ⟨h4, hu4⟩ := chargeTile_faultWork u (dPart y.bytes) (total - t.charged) (endWait u (min waited total) d2)
  have h5 := (h2.trans (h3.trans h4)).trans (modUnit_unitWork u (fun x => { x with tile := none }) _).faultWork
  refine ⟨hw.trans h5.commitWork, h5.mem.trans hm, ⟨_, hself, ?_⟩, fun v hv => ?_⟩
  · obtain ⟨_, _, _, hk⟩ := hu3 u
    rw [clearTile, getUnit_modUnit_self, getUnit_eq_of_units hu4, hk, ← hd2, getUnit_modUnit_self]
    exact ⟨_, _, _, rfl⟩
  · rw [clearTile, tileOf_modUnit_ne hv, tileOf_eq_of_units hu4]
    refine (hu3 v).tile.trans ?_
    rw [← hd2]
    exact (tileOf_modUnit_ne hv _ _).trans (congrArg Unit_.tile (hother v hv))

end

section
variable {u cycles waited base : Nat} {t : Tile} {y : Desc} {d : Dev}

/-- A dense output of an array or stem tile that is not a search tile. -/
structure DenseOutput (d : Dev) (x : DescId) (b : Bytes) (base : Nat) : Prop where
  kind : dKind b = 0 ∨ dKind b = 1
  search : isSearch d.img b = false
  dest : destAddr d x b = some base
  compressed : zcOf d.img b = none
  scaled : scaleKind d.img b = none
  statistics : ∀ r, rqOf d.img b = some r → bit r.flags 3 = false

theorem UnitWork.graphBlob {d e : Dev} (h : UnitWork d e) (g : Nat) : graphBlob e g = graphBlob d g := by
  obtain ⟨_, _, _, _, _, rfl, -⟩ := h
  rfl

theorem commitKind_of_dense (h : DenseOutput d t.d y.bytes base) (out : CommitData) :
    touchGranules (tileWrites d u t.d t.pages y.bytes) true (commitKind u t.d y.bytes t out d) = outputDone u base t y d := by
  obtain ⟨hw, ⟨_, _, hself⟩, hother⟩ := countVals_frame u (dPart y.bytes) (commitVals t y d) d h.statistics
  have hkind : commitKind u t.d y.bytes t out d = writeOutput u t.d y.bytes (commitVals t y d) (convertAll d t.d y.bytes (outEls d t.d y.bytes t)).2
      (countVals u (dPart y.bytes) (rqOf d.img y.bytes) (commitVals t y d) d) := by
    unfold commitKind
    rcases h.kind with hk | hk <;> simp only [hk, h.search] <;> rfl
  unfold outputDone
  generalize countVals u (dPart y.bytes) (rqOf d.img y.bytes) (commitVals t y d) d = e at hw hself hother hkind ⊢
  have hframes (v : Nat) : (getUnit e v).frames = (getUnit d v).frames := by
    by_cases hv : v = u
    · rw [hv, hself]
    · rw [hother v hv]
  have hpad : padVals e.img (graphBlob e t.d.graph) y.bytes = padVals d.img (graphBlob d t.d.graph) y.bytes := by rw [hw.img, hw.graphBlob]
  rw [hkind, writeOutput_of_dense ((destAddr_of_frames hw.img hframes _ _).trans h.dest) (hw.img ▸ h.compressed) (hw.img ▸ h.scaled), hpad, hw.mem]

/-- The commit of a tile that composes no record, wakes nothing and enrols nothing. -/
theorem commitTile_eq (h : DenseOutput d t.d y.bytes base) : commitTile u t y { cycles := cycles, waited := waited } d =
    settlePreempt (pump (windowStall t.d (layerOf d t.d y.bytes)
      (retire t.d (signalOwn t.d y.bytes (commitDone u cycles waited base t y d))))) := by
  have hemit (e : Dev) : emitAll y { cycles := cycles, waited := waited } e = e := by
    unfold emitAll
    dsimp only [List.foldl_nil]
    rw [if_neg Bool.false_ne_true]
    split <;> rfl
  have hkind : dKind y.bytes ≠ 4 := by rcases h.kind with hk | hk <;> rw [hk] <;> decide
  unfold commitTile
  extract_lets b os cyc lay d1 d2 total d3 d4 d5 d6 d7 d8
  have h1 : d1 = outputDone u base t y d := commitKind_of_dense h _
  have h7 : d7 = d4 := (if_neg hkind).trans (hemit d4)
  have h8 : d8 = windowStall t.d lay (retire t.d (signalOwn t.d b (clearTile u d7))) := rfl
  rw [h8, h7]
  unfold d4 d3 d2
  rw [h1]
  rfl

/-- The end of a commit, where the partition may write what the tile writes. -/
theorem commitEnd_eq (hl : live d = true) (ht : tileOf d u = some t) (hy : desc? d t.d = some y) (hc : t.committing = true)
    (hs : t.stopped = false) (h : DenseOutput d t.d y.bytes base) (hb : writeBreach d u t.d t.pages y.bytes = none) :
    commitEnd u { cycles := cycles, waited := waited } d = settlePreempt (pump (windowStall t.d (layerOf d t.d y.bytes)
      (retire t.d (signalOwn t.d y.bytes (commitDone u cycles waited base t y d))))) := by
  have hguard : (!live d || !t.committing || t.stopped || ((dKind y.bytes == 4 || dKind y.bytes == 5) && isMuzzled d (0x28 + clusterOf u))) = false := by
    rcases h.kind with hk | hk <;> simp [hl, hc, hs, hk]
  have hscatter (bf16 : Bool) : scatterBreach d t.d y.bytes bf16 = none := by
    rcases h.kind with hk | hk <;> simp [scatterBreach, hk]
  simp only [commitEnd, ht, hy, hguard, hscatter, hb]
  exact commitTile_eq h

/-- What follows from the signal of a commit. -/
theorem afterSignal_retires (x : DescId) (lay : Option (Nat × Nat)) (h : d.err.armed = none) :
    Retires d (settlePreempt (pump (windowStall x lay (retire x d)))) ∧ desc? (settlePreempt (pump (windowStall x lay (retire x d)))) x = none := by
  obtain ⟨h1, hgone⟩ := retire_retires x h
  have h2 := windowStall_retires x lay (retire x d)
  have h3 := pump_retires (h2.armed.trans (h1.armed.trans h))
  have h4 := h2.trans (h3.trans (settlePreempt_retires _))
  exact ⟨h1.trans h4, h4.gone x hgone⟩

end

/-- Settles O30: a dense output is written and counted, its barrier is signalled, its descriptor retires. -/
theorem commitsWriteTheirDestination : Obligations.CommitsWriteTheirDestination := by
  intro s u cycles waited base t y hset hl ha ht hy hc hst hkind hsearch hdest hz hsc hstat hb hwf vals written
  have h : DenseOutput s.dev t.d y.bytes base := ⟨hkind, hsearch, hdest, hz, hsc, hstat⟩
  obtain ⟨hw, hm, ⟨z, ⟨_, _, hz⟩, ⟨_, _, _, hunit⟩⟩, hothers⟩ :=
    commitDone_frame (u := u.val) (cycles := cycles) (waited := waited) (base := base) (t := t) hstat
  have heq := commitEnd_eq (cycles := cycles) (waited := waited) hl ht hy hc hst h hb
  generalize commitDone u.val cycles waited base t y s.dev = d at hw hm hunit hothers heq
  obtain ⟨⟨ce, re, hsig⟩, hsignal⟩ := signalOwn_frame t.d y.bytes d
  have hq : Quiet (signalOwn t.d y.bytes d) := by
    rw [hsig]
    exact (hw.quiet hset.quiet).mono rfl rfl rfl id
  obtain ⟨hr, hgone⟩ := afterSignal_retires t.d (layerOf s.dev t.d y.bytes) (show (signalOwn t.d y.bytes d).err.armed = none by
    rw [hsig]
    exact hw.armed.trans ha)
  generalize settlePreempt (pump (windowStall t.d (layerOf s.dev t.d y.bytes) (retire t.d (signalOwn t.d y.bytes d)))) = e at hr hgone heq
  have hq' : Quiet e := hq.mono hr.tripped (congrArg Boot.romDue hr.boot) (congrArg Power.isp hr.power) hr.isp
  have hmem : e.mem = writeVals base written s.dev.mem := hr.bytes.trans ((congrArg Dev.mem hsig).trans hm)
  have hunits (v : Nat) : getUnit (signalOwn t.d y.bytes d) v = getUnit d v := getUnit_eq_of_units (congrArg Dev.units hsig) v
  obtain ⟨_, _, _, hlast⟩ := hr.unit u.val
  rw [hunits, hunit, hz] at hlast
  refine gives_of_quiet (congrArg (fun d => Host.Outcome.next (settle { s with dev := d })) heq) hq' fun a b p => ⟨⟨rfl, rfl, rfl⟩, hmem,
    fun k hk => (congrArg (memByte · k) hmem).trans (memByte_writeVals_out hwf hk), congrArg Unit_.tile hlast, hgone, congrArg Unit_.tiles hlast,
    congrArg Unit_.commit hlast, congrArg Unit_.converted hlast, congrArg Unit_.clipped hlast, fun v hv => ?_, fun hs => ?_⟩
  · exact (hr.unit v).tile.trans ((congrArg Unit_.tile (hunits v)).trans (hothers v hv))
  · obtain ⟨hcells, hremote⟩ := hw.signals
    have hcount (k : Nat) : cellCount d k = cellCount s.dev k := by rw [cellCount, hcells]; rfl
    have hlater (k : Nat) : cellCount e k = cellCount (signalOwn t.d y.bytes d) k := by rw [cellCount, hr.cells]; rfl
    obtain ⟨hown, hother⟩ := hsignal hs
    rw [hw.img, hcount] at hown hother
    rw [hremote, ← hr.remote, ← hlater] at hown hother
    exact ⟨hown, hother⟩

end Sys2Proof.Machine
end

section
/-! PROOFS. Top-k lists: their rank order, what an offer keeps, what a merge keeps (R189 to R191). Settles O36. -/

namespace Sys2Proof.Machine

/-! ### Rank order (R189) -/

/-- The rank of an entry: its score, turned round where a higher score is better, and then its item. -/
def rankKey (direction : Nat) (e : KEntry) : ℤ ×ₗ ℕ := toLex (if direction = 0 then e.score else -e.score, e.item)

theorem rankKey_injective (direction : Nat) : Function.Injective (rankKey direction) := by
  rintro ⟨s, i⟩ ⟨t, j⟩ h
  simp only [rankKey, toLex_inj, Prod.mk.injEq] at h
  obtain ⟨hs, rfl⟩ := h
  split at hs
  · rw [hs]
  · rw [Int.neg_inj.mp hs]

theorem ranksBefore_iff {direction : Nat} {a b : KEntry} :
    ranksBefore direction a b = true ↔ rankKey direction a < rankKey direction b := by
  simp only [rankKey, Prod.Lex.toLex_lt_toLex, ranksBefore]
  by_cases hs : a.score = b.score
  · simp [hs]
  · by_cases hd : direction = 0 <;> simp [hs, hd]

theorem ranksBefore_eq_false_iff {direction : Nat} {a b : KEntry} :
    ranksBefore direction a b = false ↔ rankKey direction b ≤ rankKey direction a := by
  rw [← not_lt, ← ranksBefore_iff, Bool.not_eq_true]

/-- Entries stand in rank order. -/
def Ranked (direction : Nat) (l : List KEntry) : Prop := l.Pairwise (fun a b => rankKey direction a ≤ rankKey direction b)

section
variable {direction k : Nat}

theorem ranked_iff {l : List KEntry} : Ranked direction l ↔ l.Pairwise (fun a b => ranksBefore direction b a = false) := by
  simp only [Ranked, ranksBefore_eq_false_iff]

/-- Two lists in rank order of the same entries are one list. -/
theorem Ranked.eq_of_perm {l m : List KEntry} (hl : Ranked direction l) (hm : Ranked direction m) (h : l.Perm m) : l = m :=
  h.eq_of_pairwise (fun _ _ _ _ hab hba => rankKey_injective direction (le_antisymm hab hba)) hl hm

theorem rankInsert_perm (e : KEntry) (l : List KEntry) : (rankInsert direction e l).Perm (e :: l) := by
  induction l with
  | nil => exact .refl _
  | cons x r ih =>
    unfold rankInsert
    split
    · exact .refl _
    · exact (ih.cons x).trans (.swap e x r)

theorem mem_rankInsert {e x : KEntry} {l : List KEntry} : x ∈ rankInsert direction e l ↔ x = e ∨ x ∈ l := by
  rw [(rankInsert_perm e l).mem_iff, List.mem_cons]

theorem rankInsert_ranked (e : KEntry) {l : List KEntry} (h : Ranked direction l) : Ranked direction (rankInsert direction e l) := by
  induction l with
  | nil => exact List.pairwise_singleton _ e
  | cons x r ih =>
    obtain ⟨hx, hr⟩ := List.pairwise_cons.mp h
    unfold rankInsert
    split
    next hb =>
      have hex := (ranksBefore_iff.mp hb).le
      exact List.pairwise_cons.mpr ⟨List.forall_mem_cons.mpr ⟨hex, fun y hy => hex.trans (hx y hy)⟩, h⟩
    next hb =>
      have hxe := ranksBefore_eq_false_iff.mp (Bool.eq_false_iff.mpr hb)
      refine List.pairwise_cons.mpr ⟨fun y hy => ?_, ih hr⟩
      obtain rfl | hy := mem_rankInsert.mp hy
      · exact hxe
      · exact hx y hy

/-! ### Offers (R189) -/

/-- What stands behind the first k entries does not come among the first k when an entry is put in. -/
theorem take_rankInsert_take (e : KEntry) (l : List KEntry) :
    ∀ k, (rankInsert direction e (l.take k)).take k = (rankInsert direction e l).take k := by
  induction l with
  | nil => simp
  | cons x r ih =>
    intro k
    match k with
    | 0 => simp
    | k + 1 =>
      simp only [List.take_succ_cons, rankInsert]
      split
      · cases k with
        | zero => rfl
        | succ n => simp [List.take_take]
      · simp [ih k]

/-- Entries put in their ranks one after the other. -/
def rankInserts (direction : Nat) (l : List KEntry) : List KEntry := l.foldl (fun m e => rankInsert direction e m) []

theorem foldl_rankInsert_perm (l : List KEntry) : ∀ m, (l.foldl (fun m e => rankInsert direction e m) m).Perm (l ++ m) := by
  induction l with
  | nil => exact fun m => .refl m
  | cons e r ih => exact fun m => (ih _).trans (((rankInsert_perm e m).append_left r).trans List.perm_middle)

theorem rankInserts_perm (l : List KEntry) : (rankInserts direction l).Perm l :=
  (foldl_rankInsert_perm l []).trans (.of_eq l.append_nil)

theorem rankInserts_ranked (l : List KEntry) : Ranked direction (rankInserts direction l) :=
  List.foldlRecOn l _ .nil fun _ hm e _ => rankInsert_ranked e hm

/-- The order in which entries are put in does not matter. -/
theorem rankInserts_eq_of_perm {a b : List KEntry} (h : a.Perm b) : rankInserts direction a = rankInserts direction b :=
  (rankInserts_ranked a).eq_of_perm (rankInserts_ranked b) (((rankInserts_perm a).trans h).trans (rankInserts_perm b).symm)

/-- A list to which values are offered holds the first k of them and of what it stood for. -/
theorem foldl_offer_entries (l : List KEntry) : ∀ (m : List KEntry) (a : KList), a.entries = m.take k →
    (l.foldl (fun a e => offer direction k e a) a).entries = (l.foldl (fun m e => rankInsert direction e m) m).take k := by
  induction l with
  | nil => exact fun _ _ => id
  | cons e r ih => exact fun m a h => ih _ _ (by rw [← take_rankInsert_take, ← h]; rfl)

/-- Offered to an empty list, values give the first k of them in rank order. -/
theorem offers_entries (l : List KEntry) :
    (l.foldl (fun a e => offer direction k e a) {}).entries = (rankInserts direction l).take k :=
  foldl_offer_entries l [] {} (by simp)

/-! ### Merges (R190, R191) -/

/-- A list of up to k entries accounts for an entry: the entry's item stands in it no lower, or none of its k entries ranks lower. -/
def Covers (direction k : Nat) (m : List KEntry) (e : KEntry) : Prop :=
  (∃ x ∈ m, x.item = e.item ∧ rankKey direction x ≤ rankKey direction e) ∨
    (m.length = k ∧ ∀ x ∈ m, rankKey direction x ≤ rankKey direction e)

/-- An item that stands no lower is kept among the first k, or they all stand no lower. -/
theorem covers_take_of_mem {r : List KEntry} {x e : KEntry} (hr : Ranked direction r) (hx : x ∈ r) (hi : x.item = e.item)
    (hle : rankKey direction x ≤ rankKey direction e) : Covers direction k (r.take k) e := by
  rw [← List.take_append_drop k r, List.mem_append] at hx
  obtain hx | hx := hx
  · exact .inl ⟨x, hx, hi, hle⟩
  · have hlen := List.length_pos_of_mem hx
    rw [List.length_drop] at hlen
    rw [Ranked, ← List.take_append_drop k r, List.pairwise_append] at hr
    exact .inr ⟨by rw [List.length_take]; omega, fun y hy => (hr.2.2 y hy x hx).trans hle⟩

/-- Where k entries rank no lower than an entry, the first k do. -/
theorem covers_take_of_count {r : List KEntry} {e : KEntry} (hr : Ranked direction r)
    (hc : k ≤ r.countP (fun x => decide (rankKey direction x ≤ rankKey direction e))) : Covers direction k (r.take k) e := by
  have hlen : (r.take k).length = k := List.length_take_of_le (hc.trans List.countP_le_length)
  refine .inr ⟨hlen, fun x hx => by_contra fun hxe => ?_⟩
  rw [Ranked, ← List.take_append_drop k r, List.pairwise_append] at hr
  rw [← List.take_append_drop k r, List.countP_append] at hc
  have hdrop : (r.drop k).countP (fun x => decide (rankKey direction x ≤ rankKey direction e)) = 0 :=
    List.countP_eq_zero.mpr fun y hy hye => hxe ((hr.2.2 x hx y hy).trans (of_decide_eq_true hye))
  have htake : (r.take k).countP (fun x => decide (rankKey direction x ≤ rankKey direction e)) ≠ (r.take k).length :=
    fun h => hxe (of_decide_eq_true (List.countP_eq_length.mp h x hx))
  have := (r.take k).countP_le_length (p := fun x => decide (rankKey direction x ≤ rankKey direction e))
  omega

/-- Entries m are what a merge keeps of the entries seen. -/
structure Keeps (direction k : Nat) (seen m : List KEntry) : Prop where
  length : m.length ≤ k
  ranked : Ranked direction m
  items : (m.map (fun e => e.item)).Nodup
  source : ∀ e ∈ m, e ∈ seen
  covers : ∀ e ∈ seen, Covers direction k m e

/-- Of entries that no item has twice, all but one are of items other than a given one. -/
theorem length_le_filter_item {l : List KEntry} (h : (l.map (fun e => e.item)).Nodup) (i : Nat) :
    l.length ≤ (l.filter (fun x => x.item != i)).length + 1 := by
  have hone : l.countP (fun x => x.item == i) ≤ 1 := by
    have := List.nodup_iff_count_le_one.mp h i
    rwa [List.count, List.countP_map] at this
  have hsplit := l.length_eq_countP_add_countP (fun x => x.item == i)
  have hrest : l.countP (fun x => decide (¬(x.item == i) = true)) = (l.filter (fun x => x.item != i)).length := by
    rw [← List.countP_eq_length_filter]
    exact List.countP_congr fun x _ => by simp
  omega

/-- An entry that takes the place of its item's lower one leaves every other accounted for. -/
theorem Covers.insert {m : List KEntry} {e z : KEntry} (hr : Ranked direction m) (hn : (m.map (fun e => e.item)).Nodup)
    (he : ∀ x ∈ m, x.item = e.item → rankKey direction e < rankKey direction x) (h : Covers direction k m z) :
    Covers direction k ((rankInsert direction e (m.filter (fun x => x.item != e.item))).take k) z := by
  have hr' : Ranked direction (rankInsert direction e (m.filter (fun x => x.item != e.item))) := rankInsert_ranked e (hr.filter _)
  obtain ⟨x, hx, hi, hle⟩ | ⟨hlen, hall⟩ := h
  · by_cases hxe : x.item = e.item
    · exact covers_take_of_mem hr' (mem_rankInsert.mpr (.inl rfl)) (hxe.symm.trans hi) ((he x hx hxe).le.trans hle)
    · exact covers_take_of_mem hr' (mem_rankInsert.mpr (.inr (List.mem_filter.mpr ⟨hx, by simpa using hxe⟩))) hi hle
  · refine covers_take_of_count hr' ?_
    rw [(rankInsert_perm e _).countP_eq, List.countP_cons,
      List.countP_eq_length.mpr fun x hx => decide_eq_true (hall x (List.mem_filter.mp hx).1)]
    by_cases hm : ∃ x ∈ m, x.item = e.item
    · obtain ⟨x, hx, hxe⟩ := hm
      rw [if_pos (decide_eq_true ((he x hx hxe).le.trans (hall x hx)))]
      exact hlen ▸ length_le_filter_item hn e.item
    · rw [List.filter_eq_self.mpr fun x hx => by simpa using fun hxe => hm ⟨x, hx, hxe⟩]
      omega

/-- A merge keeps of an entry more what R189 and R191 say. -/
theorem Keeps.unite {seen : List KEntry} {l : KList} (h : Keeps direction k seen l.entries) (e : KEntry) :
    Keeps direction k (seen ++ [e]) (unite direction k e l).entries := by
  unfold Machine.unite
  split
  next hany =>
    simp only [List.any_eq_true, Bool.and_eq_true, beq_iff_eq, Bool.not_eq_true', ranksBefore_eq_false_iff] at hany
    refine ⟨h.length, h.ranked, h.items, fun x hx => List.mem_append_left _ (h.source x hx), fun z hz => ?_⟩
    obtain hz | hz := List.mem_append.mp hz
    · exact h.covers z hz
    · exact .inl (List.mem_singleton.mp hz ▸ hany)
  next hany =>
    have hlower : ∀ x ∈ l.entries, x.item = e.item → rankKey direction e < rankKey direction x := fun x hx hxe => by
      simp only [List.any_eq_true, Bool.and_eq_true, beq_iff_eq, Bool.not_eq_true', ranksBefore_eq_false_iff, not_exists, not_and] at hany
      exact lt_of_not_ge (hany x hx hxe)
    have hr := rankInsert_ranked e (h.ranked.filter (fun x => x.item != e.item))
    refine ⟨List.length_take_le .., hr.take, ?_, fun x hx => ?_, fun z hz => ?_⟩
    · refine ((List.take_sublist k _).map _).nodup (((rankInsert_perm e _).map _).nodup_iff.mpr ?_)
      rw [List.map_cons, List.nodup_cons]
      exact ⟨by simp, (List.filter_sublist.map _).nodup h.items⟩
    · obtain rfl | hx := mem_rankInsert.mp (List.mem_of_mem_take hx)
      · exact List.mem_append_right _ (List.mem_singleton_self x)
      · exact List.mem_append_left _ (h.source x (List.mem_filter.mp hx).1)
    · obtain hz | hz := List.mem_append.mp hz
      · exact (h.covers z hz).insert h.ranked h.items hlower
      · rw [List.mem_singleton.mp hz]
        exact covers_take_of_mem hr (mem_rankInsert.mpr (.inl rfl)) rfl le_rfl

theorem Keeps.foldl_unite (es : List KEntry) : ∀ {seen : List KEntry} {l : KList}, Keeps direction k seen l.entries →
    Keeps direction k (seen ++ es) (es.foldl (fun b e => Machine.unite direction k e b) l).entries := by
  induction es with
  | nil => exact fun h => by simpa using h
  | cons e r ih => exact fun h => by simpa using ih (h.unite e)

@[simp] theorem unite_tainted (e : KEntry) (l : KList) : (unite direction k e l).tainted = l.tainted := by
  unfold unite
  split <;> rfl

theorem foldl_unite_tainted (es : List KEntry) (l : KList) : (es.foldl (fun b e => unite direction k e b) l).tainted = l.tainted :=
  List.foldlRecOn (motive := fun b : KList => b.tainted = l.tainted) es _ rfl fun _ hb _ _ => (unite_tainted _ _).trans hb

/-- One list taken into a merge. -/
def mergeList (direction k : Nat) (a l : KList) : KList :=
  l.entries.foldl (fun b e => unite direction k e b) { a with tainted := a.tainted || l.tainted }

theorem mergeLists_eq (ls : List KList) : mergeLists direction k ls = ls.foldl (mergeList direction k) {} := rfl

theorem foldl_mergeList_keeps (ls : List KList) : ∀ {seen : List KEntry} {a : KList}, Keeps direction k seen a.entries →
    Keeps direction k (seen ++ ls.flatMap (fun l => l.entries)) (ls.foldl (mergeList direction k) a).entries := by
  induction ls with
  | nil => exact fun h => by simpa using h
  | cons l r ih =>
    intro seen a h
    rw [List.flatMap_cons, ← List.append_assoc]
    exact ih (Keeps.foldl_unite (l := { a with tainted := a.tainted || l.tainted }) l.entries h)

theorem foldl_mergeList_tainted (ls : List KList) : ∀ a : KList,
    (ls.foldl (mergeList direction k) a).tainted = (a.tainted || ls.any (fun l => l.tainted)) := by
  induction ls with
  | nil => simp
  | cons l r ih => exact fun a => by rw [List.foldl_cons, ih, mergeList, foldl_unite_tainted, List.any_cons, Bool.or_assoc]

/-- A merge keeps of the entries of its lists what R189 to R191 say. -/
theorem mergeLists_keeps (direction k : Nat) (ls : List KList) :
    Keeps direction k (ls.flatMap (fun l => l.entries)) (mergeLists direction k ls).entries := by
  simpa [mergeLists_eq] using foldl_mergeList_keeps ls (seen := []) (a := {}) ⟨Nat.zero_le _, .nil, .nil, by simp, by simp⟩

end

/-- Settles O36: a merge keeps the first entries of its lists' items in rank order, and values give their first k in any order. -/
theorem mergesKeepTheBestInRankOrder : Obligations.MergesKeepTheBestInRankOrder := by
  refine ⟨fun direction k ls => ?_, fun direction k a b hab => ?_⟩
  · obtain ⟨hlen, hr, hn, hsource, hcov⟩ := mergeLists_keeps direction k ls
    refine ⟨hlen, ranked_iff.mp hr, hn, fun e he => List.mem_flatMap.mp (hsource e he), fun l hl e he => ?_, ?_⟩
    · simpa only [Covers, ranksBefore_eq_false_iff] using hcov e (List.mem_flatMap.mpr ⟨l, hl, he⟩)
    · simpa [mergeLists_eq] using foldl_mergeList_tainted ls {}
  · have hr := rankInserts_ranked (direction := direction) a
    have hp := rankInserts_perm (direction := direction) a
    dsimp only
    rw [offers_entries, offers_entries, ← rankInserts_eq_of_perm hab]
    refine ⟨rfl, by rw [List.length_take, hp.length_eq], ranked_iff.mp hr.take, (rankInserts direction a).drop k,
      (List.take_append_drop k _).symm ▸ hp, fun x hx y hy => ranksBefore_eq_false_iff.mpr ?_⟩
    rw [Ranked, ← List.take_append_drop k (rankInserts direction a), List.pairwise_append] at hr
    exact hr.2.2 x hx y hy

end Sys2Proof.Machine
end

section
/-! PROOFS. Batches of queries, the start of a sweep, the ranges of its cores (R195, R196, R198). -/

namespace Sys2Proof.Machine

/-! ### The ranges of a sweep (R195) -/

/-- First of the groups that core number i takes, where every core takes q of them and the first r take one more. -/
def firstGroup (q r i : Nat) : Nat := i * q + min i r

theorem firstGroup_succ (q r i : Nat) : firstGroup q r (i + 1) = firstGroup q r i + (q + if i < r then 1 else 0) := by
  unfold firstGroup
  rw [Nat.succ_mul]
  split <;> omega

theorem firstGroup_mono (q r : Nat) : Monotone (firstGroup q r) :=
  monotone_nat_of_le_succ fun i => firstGroup_succ q r i ▸ Nat.le_add_right _ _

/-- The ranges of cores that are numbered from i on follow one another. -/
theorem flatMap_groups (q r : Nat) (cores : List Nat) : ∀ i, (cores.zipIdx i).flatMap (fun c =>
      List.range' (firstGroup q r c.2) (q + if c.2 < r then 1 else 0)) =
    List.range' (firstGroup q r i) (firstGroup q r (i + cores.length) - firstGroup q r i) := by
  induction cores with
  | nil => simp
  | cons u us ih =>
    intro i
    have hnext := firstGroup_succ q r i
    have hlast : firstGroup q r (i + 1) ≤ firstGroup q r (i + 1 + us.length) := firstGroup_mono q r (Nat.le_add_right _ _)
    rw [List.zipIdx_cons, List.flatMap_cons, ih, List.length_cons, Nat.add_comm us.length, ← Nat.add_assoc]
    rw [hnext] at hlast ⊢
    rw [List.range'_append_1]
    congr 1
    dsimp only
    omega

theorem firstGroup_length {n k : Nat} (h : k ≠ 0) : firstGroup (n / k) (n % k) k = n := by
  rw [firstGroup, min_eq_right (Nat.mod_lt n (Nat.pos_of_ne_zero h)).le, Nat.div_add_mod]

theorem sweepRanges_eq {cores : List Nat} (h : cores ≠ []) (count : Nat) : sweepRanges cores count = cores.zipIdx.map (fun c =>
    (c.1, firstGroup ((count + 15) / 16 / cores.length) ((count + 15) / 16 % cores.length) c.2,
      (count + 15) / 16 / cores.length + if c.2 < (count + 15) / 16 % cores.length then 1 else 0)) := by
  have hmax : max 1 cores.length = cores.length := max_eq_right (List.length_pos_iff.mpr h)
  simp only [sweepRanges, hmax]
  rfl

/-- The groups are divided among the cores, in their order, in contiguous ranges that differ by one group at most. -/
theorem sweepRanges_divide {cores : List Nat} (h : cores ≠ []) (count : Nat) : (sweepRanges cores count).map (fun r => r.1) = cores ∧
    (sweepRanges cores count).flatMap (fun r => (List.range r.2.2).map (fun i => r.2.1 + i)) = List.range ((count + 15) / 16) ∧
    ∀ r ∈ sweepRanges cores count, r.2.2 = (count + 15) / 16 / cores.length ∨ r.2.2 = (count + 15) / 16 / cores.length + 1 := by
  rw [sweepRanges_eq h]
  refine ⟨List.map_map.trans (List.zipIdx_map_fst 0 cores), ?_, fun r hr => ?_⟩
  · simp only [List.flatMap_map, ← List.range'_eq_map_range]
    rw [flatMap_groups, Nat.zero_add, firstGroup_length (List.length_pos_iff.mpr h).ne', List.range_eq_range']
    simp [firstGroup]
  · obtain ⟨c, -, rfl⟩ := List.mem_map.mp hr
    dsimp only
    split
    · exact .inr rfl
    · exact .inl rfl

/-! ### Catalogues and selectors -/

theorem getCat_modCat_self (n : Nat) (f : Cat → Cat) (d : Dev) : getCat (modCat n f d) n = f (getCat d n) := tabGet_tabMod_self _ _ _ _ _

theorem getCat_modCat_ne {n k : Nat} (h : k ≠ n) (f : Cat → Cat) (d : Dev) : getCat (modCat n f d) k = getCat d k :=
  tabGet_tabMod_ne _ _ _ _ _ _ h

theorem getCat_eq_of_cats {d e : Dev} (h : e.cats = d.cats) (n : Nat) : getCat e n = getCat d n := by rw [getCat, h]; rfl

/-- A selector from which a catalogue's lists were taken holds none of them. -/
theorem listAt_dropLists {slot row : Nat} (h : row < 64) (t : Tab KList) : listAt (dropLists slot t) slot row = {} := by
  have hkey : listKey slot row / 64 = slot := by unfold listKey; omega
  have hnone : ∀ l : List (Nat × KList), lookupKey (listKey slot row) (l.filter (fun c => c.1 / 64 != slot)) = none := fun l => by
    induction l with
    | nil => rfl
    | cons c r ih =>
      rw [List.filter_cons]
      split
      next hc =>
        rw [lookupKey, if_neg fun he => by simp [← he, hkey] at hc]
        exact ih
      · exact ih
  rw [listAt, tabGet, tabGet?, dropLists, hnone]
  rfl

/-- A tile as a sweep that starts or ends leaves it (R199). -/
def staleTile (slot : Nat) (d : Dev) (t : Tile) : Tile :=
  if isSearch d.img (descBytes d t.d) && (catOfTile d t.d (descBytes d t.d)).any (fun r => r.slot == slot) then { t with stale := true } else t

theorem getUnit_staleSearch (slot : Nat) (d : Dev) (u : Nat) :
    getUnit (staleSearch slot d) u = { getUnit d u with tile := (tileOf d u).map (staleTile slot d) } := tabGet_tabMap _ _ _ _ rfl

/-! ### The commands -/

section
variable {s : State} {n : Fin 8} {r : CatRec}

/-- A change of catalogues and units leaves a settled device settled. -/
theorem Settled.of_search (h : Settled s) (us : Tab Unit_) (cs : Tab Cat) : Settled { s with dev := { s.dev with units := us, cats := cs } } :=
  h.of_same rfl rfl rfl rfl rfl rfl rfl rfl

theorem exec_queryJoin {q : Query} {o : Nat} (h : Settled s) (hr : catRec? s.dev.img n.val = some r)
    (hwf : Instr.wf (.queryJoin n q) = true) (ho : queryOrder s.dev q = some o) (hrun : running s.dev (graphOf s.dev.img q.graph).part = true) :
    exec (.queryJoin n q) s = .next { s with dev := modCat n.val (fun c =>
      if c.batch.length < 64 then { c with batch := c.batch ++ [{ q := q, order := o }] }
      else { c with waiting := c.waiting ++ [{ q := q, order := o }], blocked := c.blocked + 1 }) s.dev } :=
  exec_of_same (unlessWf_of_wf (i := .queryJoin n q) hwf) (by rw [queryJoin, hr, ho]; exact if_pos hrun) (h.of_search s.dev.units _)

theorem exec_batchWaitExpiry (h : Settled s) (hr : catRec? s.dev.img n.val = some r) (hb : (getCat s.dev n.val).batch ≠ []) :
    exec (.batchWaitExpiry n) s = .next { s with dev := modCat n.val (fun c => { c with expired := true }) s.dev } :=
  exec_of_same rfl (if_pos ⟨by rw [hr]; rfl, hb⟩) (h.of_search s.dev.units _)

/-- The catalogue at the start of a sweep: the batch is in the sweep, and waiting queries move up. -/
def sweepStarted (d : Dev) (c : Cat) : Cat :=
  { c with
    sweep := some { queries := c.batch, snapshot := c.count, cores := coresOn d, ranges := sweepRanges (coresOn d) c.count }
    batch := c.waiting.take 64
    waiting := c.waiting.drop 64
    expired := false }

/-- The device at the start of a sweep: no selector holds a list of the catalogue, and no search tile of it belongs to the sweep. -/
def sweepStartedDev (slot : Nat) (d : Dev) : Dev :=
  modCat slot (sweepStarted d) (staleSearch slot { d with units := tabMap d.units (fun _ u => { u with lists := dropLists slot u.lists }) })

theorem sweepStart_eq {slot : Nat} {d : Dev} (hr : catRec? d.img slot = some r) (hl : live d = true) (hs : (getCat d slot).sweep = none)
    (hb : (getCat d slot).batch ≠ []) (hc : coresOn d ≠ []) (hp : d.power.clusters ≠ 0)
    (hw : (getCat d slot).batch.length = 64 ∨ (getCat d slot).expired = true ∨ r.batchWait = 0) :
    sweepStart slot d = sweepStartedDev slot d := by
  rw [sweepStart, hr]
  have hp' : ¬d.power.clusters = 0#4 := hp
  exact if_pos (by simpa [hl, hs, hb, hc, hp', or_assoc] using hw)

theorem lists_sweepStartedDev {slot row : Nat} (h : row < 64) (d : Dev) (u : Nat) :
    listAt (getUnit (sweepStartedDev slot d) u).lists slot row = {} := by
  have hu : (getUnit (sweepStartedDev slot d) u).lists = dropLists slot (getUnit d u).lists := by
    rw [getUnit_eq_of_units (show (sweepStartedDev slot d).units = _ from modCat_units ..), getUnit_staleSearch]
    exact congrArg Unit_.lists (tabGet_tabMap d.units (fun _ u => { u with lists := dropLists slot u.lists }) u {} rfl)
  rw [hu, listAt_dropLists h]

end

end Sys2Proof.Machine
end

section
/-! PROOFS. The merges of a sweep, and what is answered at its end (R191, R193, R199, R200). Settles O37. -/

namespace Sys2Proof.Machine

/-! ### Lists of a sweep by query (R191) -/

/-- A table of one value for each of some keys reads as that value. -/
theorem tabGet_map_self {α : Type} (f : Nat → α) {l : List Nat} {q : Nat} (h : q ∈ l) (x : α) :
    tabGet (⟨l.map (fun q => (q, f q))⟩ : Tab α) q x = f q := by
  have hlook : lookupKey q (l.map (fun q => (q, f q))) = some (f q) := by
    induction l with
    | nil => exact absurd h List.not_mem_nil
    | cons p r ih =>
      rw [List.map_cons, lookupKey]
      split
      next he => rw [he]
      next hne => exact ih ((List.mem_cons.mp h).resolve_left hne)
  rw [tabGet, tabGet?, hlook]
  rfl

/-- The lists of queries, by their rows. -/
theorem tabGet_rows {α β : Type} (f : Nat → α) (l : List β) {q : Nat} (h : q < l.length) (x : α) :
    tabGet (⟨l.zipIdx.map (fun e => (e.2, f e.2))⟩ : Tab α) q x = f q := by
  have hrows : l.zipIdx.map (fun e => (e.2, f e.2)) = (List.range l.length).map (fun q => (q, f q)) := by
    rw [List.range_eq_range', ← List.zipIdx_map_snd, List.map_map]
    rfl
  rw [hrows]
  exact tabGet_map_self f (List.mem_range.mpr h) x

/-! ### The merge of a cluster (R191, R193) -/

/-- Units of which each changes once. -/
theorem foldl_modUnit_frame (f : Unit_ → Unit_) (l : List Nat) : ∀ d : Dev, ∃ us,
    l.foldl (fun e u => modUnit u f e) d = { d with units := us } := by
  induction l with
  | nil => exact fun _ => ⟨_, rfl⟩
  | cons u r ih => exact fun d => ih (modUnit u f d)

theorem getUnit_foldl_modUnit_of_notMem (f : Unit_ → Unit_) {l : List Nat} {v : Nat} (h : v ∉ l) (d : Dev) :
    getUnit (l.foldl (fun e u => modUnit u f e) d) v = getUnit d v :=
  List.foldlRecOn (motive := fun e => getUnit e v = getUnit d v) l _ rfl fun _ he _ hu =>
    (getUnit_modUnit_ne (ne_of_mem_of_not_mem hu h).symm f _).trans he

theorem getUnit_foldl_modUnit_of_mem (f : Unit_ → Unit_) {l : List Nat} (hl : l.Nodup) {v : Nat} (h : v ∈ l) :
    ∀ d : Dev, getUnit (l.foldl (fun e u => modUnit u f e) d) v = f (getUnit d v) := by
  induction l with
  | nil => exact absurd h List.not_mem_nil
  | cons u r ih =>
    intro d
    obtain ⟨hu, hr⟩ := List.nodup_cons.mp hl
    rw [List.foldl_cons]
    obtain rfl | hv := List.mem_cons.mp h
    · rw [getUnit_foldl_modUnit_of_notMem f hu, getUnit_modUnit_self]
    · rw [ih hr hv, getUnit_modUnit_ne (ne_of_mem_of_not_mem hv hu)]

theorem mergeCores_nodup (d : Dev) (slot cluster : Nat) (w : Sweep) : (mergeCores d slot cluster w).Nodup :=
  (List.nodup_range.map fun _ _ h => Nat.add_left_cancel h).filter _

/-- A core whose lists a merge has read: they are gone and counted. -/
def listsRead (slot n : Nat) (x : Unit_) : Unit_ := { x with kLists := addW x.kLists n, lists := dropLists slot x.lists }

/-- The lists of a cluster for each query of a sweep. -/
def clusterLists (r : CatRec) (slot cluster : Nat) (w : Sweep) (d : Dev) : Tab KList :=
  ⟨(List.range w.queries.length).map (fun q => (q, mergeLists r.direction r.k
    ((mergeCores d slot cluster w).map (fun u => listAt (getUnit d u).lists slot q))))⟩

/-- The device after the merge of a cluster. -/
def clusterMerged (r : CatRec) (slot cluster : Nat) (w : Sweep) (d : Dev) : Dev :=
  modCat slot (fun c => { c with sweep := some { w with merged := tabSet w.merged cluster (clusterLists r slot cluster w d) } })
    ((mergeCores d slot cluster w).foldl (fun e u => modUnit u (listsRead slot w.queries.length) e) d)

theorem clusterMerged_frame (r : CatRec) (slot cluster : Nat) (w : Sweep) (d : Dev) : ∃ us cs,
    clusterMerged r slot cluster w d = { d with units := us, cats := cs } := by
  obtain ⟨us, h⟩ := foldl_modUnit_frame (listsRead slot w.queries.length) (mergeCores d slot cluster w) d
  rw [clusterMerged, h]
  exact ⟨us, _, rfl⟩

section
variable {d : Dev} {slot cluster : Nat} {r : CatRec} {w : Sweep}

theorem clusterMerge_eq (hr : catRec? d.img slot = some r) (hs : (getCat d slot).sweep = some w) (hl : live d = true)
    (hu : mergeCores d slot cluster w ≠ []) (hm : tabGet? w.merged cluster = none) (hn : searching d slot cluster = false)
    (hd : sweepDone d slot w = true) : clusterMerge slot cluster d = clusterMerged r slot cluster w d := by
  rw [clusterMerge, hr, hs]
  exact if_neg (by simp [hl, hu, hm, hn, hd])

theorem clusterMerge_of_not_done (hs : (getCat d slot).sweep = some w) (hd : sweepDone d slot w = false) : clusterMerge slot cluster d = d := by
  unfold clusterMerge
  split
  next hs' =>
    obtain rfl := Option.some.inj (hs.symm.trans hs')
    simp [hd]
  · rfl

theorem getUnit_clusterMerged {u : Nat} (hu : u ∈ mergeCores d slot cluster w) :
    getUnit (clusterMerged r slot cluster w d) u = listsRead slot w.queries.length (getUnit d u) :=
  getUnit_foldl_modUnit_of_mem _ (mergeCores_nodup d slot cluster w) hu d

end

/-! ### What identifications change (R200) -/

/-- `Ends`, with memory and the catalogues as they were. -/
structure Identifies (d e : Dev) : Prop extends Ends d e where
  bytes : e.mem = d.mem
  cats : e.cats = d.cats

theorem Identifies.refl (d : Dev) : Identifies d d := ⟨.refl d, rfl, rfl⟩

theorem Identifies.trans {a b c : Dev} (h : Identifies a b) (g : Identifies b c) : Identifies a c :=
  ⟨h.toEnds.trans g.toEnds, g.bytes.trans h.bytes, g.cats.trans h.cats⟩

theorem foldl_identifies {α : Type} {f : Dev → α → Dev} (h : ∀ d x, d.err.armed = none → Identifies d (f d x)) (l : List α) :
    ∀ d : Dev, d.err.armed = none → Identifies d (l.foldl f d) := by
  induction l with
  | nil => exact fun d _ => .refl d
  | cons x r ih => exact fun d hd => (h d x hd).trans (ih _ ((h d x hd).armed.trans hd))

theorem record_identifies (c : Nat) (p : Option Nat) (k : Nat × Nat) (d : Dev) : Identifies d (record c p k d) := by
  have hends := record_ends c p k d
  obtain ⟨i, n, h⟩ := record_frame c p k d
  rw [h] at hends ⊢
  exact ⟨hends, rfl, rfl⟩

theorem modReq_identifies {o : Nat} {f : Req → Req} (d : Dev) (ho : ∀ r, (f r).order = r.order)
    (he : ∀ r, r.ended ≠ none → (f r).ended ≠ none) :
    Identifies d (modReq o f d) := ⟨modReq_ends d ho he, rfl, rfl⟩

theorem pump_identifies {d : Dev} (h : d.err.armed = none) : Identifies d (pump d) := by
  obtain ⟨q, e, ⟨_, _, _, _, _, _, _, he⟩, ⟨_, _, _, _, _, _, _, hp⟩, -⟩ := pump_frame d
  exact ⟨pump_ends h, by rw [hp, he], by rw [hp, he]⟩

theorem composeRec_identifies (o : Nat) (x : OutRec) (d : Dev) : Identifies d (composeRec o x d) := by
  refine modReq_identifies d (fun r => ?_) fun r => ?_
  · split <;> rfl
  · split <;> exact id

theorem flushIdents_identifies (o : Nat) {d : Dev} (h : d.err.armed = none) : Identifies d (flushIdents o d) := by
  unfold flushIdents
  split
  · exact .refl d
  next r _ =>
    extract_lets go
    have hcut : Identifies d (modReq o (fun q => { q with idents := q.idents.drop go.length }) d) :=
      modReq_identifies d (fun _ => rfl) fun _ => id
    exact hcut.trans (foldl_identifies (fun e x _ => composeRec_identifies o x.2 e) go _ (hcut.armed.trans h))

theorem answer_identifies (r : CatRec) (snapshot : Nat) (l : List (QEntry × Option KList)) {d : Dev} (h : d.err.armed = none) :
    Identifies d (answer r snapshot l d) := by
  have hkept := foldl_identifies (f := fun e (x : QEntry × Option KList) => modReq x.1.order (fun q =>
      if q.ended.isNone then { q with idents := identInsert ((x.1.q.frame, x.1.q.detection),
        { dtype := 0x30, kind := 1, body := identification r snapshot x.1.q x.2, tainted := x.2.any (fun k => k.tainted) }) q.idents } else q) e)
    (fun e x _ => modReq_identifies e (fun q => by split <;> rfl) fun q => by split <;> exact id) l d h
  exact hkept.trans (foldl_identifies (fun e o he => flushIdents_identifies o he) _ _ (hkept.armed.trans h))

theorem finishReq_identifies (o : Nat) {d : Dev} (h : d.err.armed = none) : Identifies d (finishReq o d) := by
  unfold finishReq
  extract_lets d1 d2
  have h1 : Identifies d d1 := by
    unfold d1
    split
    · split
      · exact ⟨.of_same rfl rfl rfl, rfl, rfl⟩
      · exact .refl d
    · exact .refl d
  have h2 : Identifies d d2 := by
    unfold d2
    split
    · exact h1.trans ⟨emptySlot_ends o d1, rfl, rfl⟩
    · exact h1
  have h3 := h2.trans (modReq_identifies (o := o) (f := fun r => if r.ended.isNone then { r with ended := some 0 } else r) d2
    (fun r => by split <;> rfl) fun r hr => by split <;> simp_all)
  exact h3.trans (pump_identifies (h3.armed.trans h))

theorem finishAnswered_identifies (os : List Nat) {d : Dev} (h : d.err.armed = none) : Identifies d (finishAnswered os d) := by
  refine foldl_identifies (fun e o he => ?_) os d h
  split
  · exact finishReq_identifies o he
  · exact .refl e

/-! ### The device-wide merge (R191, R200) -/

/-- The device-wide list of a query of a sweep. -/
def deviceList (r : CatRec) (slot : Nat) (w : Sweep) (d : Dev) (q : Nat) : KList :=
  mergeLists r.direction r.k ((sweepClusters d slot w).map (fun c => tabGet (tabGet w.merged c {}) q {}))

/-- The catalogue at the end of a sweep. -/
def sweepEnded (r : CatRec) (slot cycles : Nat) (w : Sweep) (d : Dev) (c : Cat) : Cat :=
  { c with
    sweep := none, sweeps := c.sweeps + 1, queries := addW c.queries w.queries.length
    sweepMax := w32 (max c.sweepMax.toNat cycles)
    device := ⟨w.queries.zipIdx.map (fun e => (e.2, deviceList r slot w d e.2))⟩ }

/-- The device at the end of a sweep, before its queries are answered. -/
def sweepEndedDev (r : CatRec) (slot cycles : Nat) (w : Sweep) (d : Dev) : Dev :=
  modCat slot (sweepEnded r slot cycles w d) (staleSearch slot d)

section
variable {d : Dev} {slot cycles : Nat} {r : CatRec} {w : Sweep}

theorem deviceMerge_identifies (ha : d.err.armed = none) (hr : catRec? d.img slot = some r) (hs : (getCat d slot).sweep = some w)
    (hl : live d = true) (hm : ∀ c ∈ sweepClusters d slot w, (tabGet? w.merged c).isSome = true) :
    Identifies (sweepEndedDev r slot cycles w d) (deviceMerge slot cycles d) := by
  rw [deviceMerge, hr, hs]
  dsimp -zeta only
  extract_lets cs list found d1 d2
  rw [if_pos (by simpa [hl, cs] using hm)]
  have h2 : Identifies d1 d2 := by
    unfold d2
    split
    · exact record_identifies ..
    · exact .refl d1
  have h3 := h2.trans (answer_identifies r w.snapshot found (h2.armed.trans ha))
  have h4 := h3.trans (finishAnswered_identifies (dedup (w.queries.map (fun e => e.order))) (h3.armed.trans ha))
  exact h4.trans (pump_identifies (h4.armed.trans ha))

/-- A search tile of the catalogue that is still running belongs to no later sweep. -/
theorem stale_sweepEndedDev {u : Nat} {y : Tile} (h : tileOf (sweepEndedDev r slot cycles w d) u = some y)
    (hs : isSearch d.img (descBytes d y.d) = true) (hc : (catOfTile d y.d (descBytes d y.d)).any (fun z => z.slot == slot) = true) :
    y.stale = true := by
  rw [tileOf, getUnit_eq_of_units (show (sweepEndedDev r slot cycles w d).units = _ from modCat_units ..), getUnit_staleSearch] at h
  obtain ⟨t, -, rfl⟩ := Option.map_eq_some_iff.mp h
  have hd : (staleTile slot d t).d = t.d := by
    unfold staleTile
    split <;> rfl
  rw [hd] at hs hc
  rw [staleTile, if_pos (by rw [hs, hc]; rfl)]

end

/-! ### The commands -/

section
variable {s : State} {n : Fin 8} {r : CatRec} {w : Sweep}

theorem exec_clusterMergeDone {c : Fin 4} (h : Settled s) (hr : catRec? s.dev.img n.val = some r)
    (hs : (getCat s.dev n.val).sweep = some w) (hl : live s.dev = true) (hu : mergeCores s.dev n.val c.val w ≠ [])
    (hm : tabGet? w.merged c.val = none) (hn : searching s.dev n.val c.val = false) (hd : sweepDone s.dev n.val w = true) :
    exec (.clusterMergeDone n c) s = .next { s with dev := clusterMerged r n.val c.val w s.dev } := by
  obtain ⟨us, cs, he⟩ := clusterMerged_frame r n.val c.val w s.dev
  exact exec_of_same rfl (clusterMerge_eq hr hs hl hu hm hn hd) (he ▸ h.of_search us cs)

theorem deviceMergeDone_gives {cycles : Nat} (h : Settled s) (ha : s.dev.err.armed = none) (hr : catRec? s.dev.img n.val = some r)
    (hs : (getCat s.dev n.val).sweep = some w) (hl : live s.dev = true)
    (hm : ∀ c ∈ sweepClusters s.dev n.val w, (tabGet? w.merged c).isSome = true) :
    Gives (.deviceMergeDone n cycles) s fun t => SameOutside s t ∧ t.dev.mem = s.dev.mem ∧
      getCat t.dev n.val = sweepEnded r n.val cycles w s.dev (getCat s.dev n.val) ∧
      ∀ u, tileOf t.dev u = tileOf (sweepEndedDev r n.val cycles w s.dev) u := by
  have he := deviceMerge_identifies (cycles := cycles) ha hr hs hl hm
  have hq : Quiet (sweepEndedDev r n.val cycles w s.dev) := h.quiet.mono rfl rfl rfl id
  refine gives_of_quiet (d := deviceMerge n.val cycles s.dev) rfl
    (hq.mono he.tripped (congrArg Boot.romDue he.boot) (congrArg Power.isp he.power) he.isp) fun a b p => ⟨⟨rfl, rfl, rfl⟩, he.bytes, ?_,
      fun u => (he.unit u).tile⟩
  exact (getCat_eq_of_cats he.cats n.val).trans (getCat_modCat_self ..)

end

/-- Settles O37: queries join batches, a sweep takes its batch and divides the groups, and the merges empty the selectors and end it. -/
theorem queriesJoinAndSweepsEnd : Obligations.QueriesJoinAndSweepsEnd := by
  refine ⟨⟨fun s n r h hr => ⟨fun _ _ hwf ho hrun => exec_queryJoin h hr hwf ho hrun, exec_batchWaitExpiry h hr,
    fun hl hs hb hc hp hw => ?_⟩, fun cores count hc => sweepRanges_divide hc count⟩, fun s n r w h ha hr hs hl =>
    ⟨fun c hu hm hn hd => ?_, fun c hd => exec_of_same rfl (clusterMerge_of_not_done hs hd) h, fun cycles hm => ?_⟩⟩
  · have hcat : getCat (sweepStartedDev n.val s.dev) n.val = sweepStarted s.dev (getCat s.dev n.val) := getCat_modCat_self ..
    refine gives_of_settled rfl (sweepStart_eq hr hl hs hb hc hp hw) (h.of_search _ _) ⟨⟨rfl, rfl, rfl⟩, ?_⟩
    exact ⟨congrArg Cat.sweep hcat, congrArg Cat.batch hcat, congrArg Cat.waiting hcat,
      fun u row hrow => lists_sweepStartedDev hrow s.dev u, fun k hk => getCat_modCat_ne hk .., rfl, rfl⟩
  · obtain ⟨us, cs, he⟩ := clusterMerged_frame r n.val c.val w s.dev
    refine ⟨_, exec_clusterMergeDone h hr hs hl hu hm hn hd, ⟨rfl, rfl, rfl⟩, (congrArg Dev.reqs he).trans rfl,
      (congrArg Dev.mem he).trans rfl, fun u hu => ?_, _, congrArg Cat.sweep (getCat_modCat_self ..), rfl, rfl, fun q hq => ?_⟩
    · rw [getUnit_clusterMerged hu]
      exact ⟨fun q hq => listAt_dropLists hq _, rfl⟩
    · rw [tabGet_tabSet_self]
      exact tabGet_map_self _ (List.mem_range.mpr hq) _
  · obtain ⟨t, ht, hout, hmem, hcat, htile⟩ := deviceMergeDone_gives (cycles := cycles) h ha hr hs hl hm
    refine ⟨t, ht, hout, ?_⟩
    rw [hcat]
    exact ⟨rfl, rfl, rfl, fun q hq => tabGet_rows (deviceList r n.val w s.dev) w.queries hq _, rfl, hmem,
      fun u y hy hsearch hof => stale_sweepEndedDev ((htile u).symm.trans hy) hsearch hof⟩

end Sys2Proof.Machine
end

section
/-! PROOFS. Copies of memory and moves of state blocks: the bytes at the destination, the bytes elsewhere, the mover's counts (R239, R241,
R284). -/

namespace Sys2Proof.Machine

/-! ### Copies -/

theorem lookupKey_filter_key {α : Type} (p : Nat → Bool) (k : Nat) (l : List (Nat × α)) :
    lookupKey k (l.filter (fun c => p c.1)) = if p k then lookupKey k l else none := by
  induction l with
  | nil => simp [lookupKey]
  | cons c r ih =>
    rw [List.filter_cons]
    by_cases hk : k = c.1
    · subst hk
      split
      next hc => simp [lookupKey]
      next hc => rw [ih, if_neg hc]
    · split
      next hc => rw [lookupKey, lookupKey, if_neg hk, if_neg hk, ih]
      next hc => rw [lookupKey, if_neg hk, ih]

theorem memByte_memLose (m : Mem) (a n k : Nat) : memByte (memLose m a n) k = if a ≤ k ∧ k < a + n then 0 else memByte m k := by
  have h := lookupKey_filter_key (fun x => decide (x < a) || decide (a + n ≤ x)) k m.cells
  rw [memByte, show (memLose m a n).cells = m.cells.filter (fun c => decide (c.1 < a) || decide (a + n ≤ c.1)) from rfl, h]
  by_cases hk : a ≤ k ∧ k < a + n
  · rw [if_pos hk, if_neg (by simp; omega)]
    rfl
  · rw [if_neg hk, if_pos (by simp; omega)]
    rfl

/-- Cells put from a distance into a list read there as they did, and the rest of the list as before. -/
theorem lookup_foldl_setCell (src dst k : Nat) (l : List Host.Cell) : ∀ (c : List Host.Cell) (lo : Nat), cellsWf lo l = true →
    (∀ e ∈ l, src ≤ e.1) → cellsWf 0 c = true →
    (lookupKey k (l.foldl (fun x e => setCell (e.1 - src + dst) e.2 x) c)).getD 0 =
      if dst ≤ k then (lookupKey (k - dst + src) l).getD ((lookupKey k c).getD 0) else (lookupKey k c).getD 0 := by
  induction l with
  | nil => simp [lookupKey]
  | cons e r ih =>
    intro c lo hl hs hc
    simp only [cellsWf, Bool.and_eq_true] at hl
    have he := hs e List.mem_cons_self
    rw [List.foldl_cons, ih _ _ hl.2 (fun x hx => hs x (List.mem_cons_of_mem e hx)) (setCell_wf _ _ _ _ (Nat.zero_le _) hc),
      lookup_setCell _ _ _ _ _ hc]
    by_cases hk : dst ≤ k
    · by_cases hb : k - dst + src = e.1
      · rw [if_pos hk, if_pos hk, lookup_absent _ r _ (by omega) hl.2, lookupKey, if_pos hb, if_pos (by omega)]
        rfl
      · rw [if_pos hk, if_pos hk, lookupKey, if_neg hb, if_neg (by omega)]
    · rw [if_neg hk, if_neg hk, if_neg (by omega)]

/-- A copy puts the bytes of its source at its destination and changes no other byte; the two may overlap. -/
theorem memByte_copyRange {m : Mem} (h : m.wf = true) (src dst n k : Nat) :
    memByte (copyRange src dst n m) k = if dst ≤ k ∧ k < dst + n then memByte m (k - dst + src) else memByte m k := by
  have hmoved := lookupKey_filter_key (fun x => decide (src ≤ x) && decide (x < src + n)) (k - dst + src) m.cells
  have hfold := lookup_foldl_setCell src dst k (m.cells.filter (fun c => decide (src ≤ c.1) && decide (c.1 < src + n))) (memLose m dst n).cells 0
    (filter_wf _ _ _ h) (fun e he => by simp at he; exact he.2.1) (memLose_wf m dst n h)
  have hlose := memByte_memLose m dst n k
  rw [hmoved] at hfold
  unfold memByte at hlose ⊢
  rw [hlose] at hfold
  refine hfold.trans ?_
  by_cases hin : dst ≤ k ∧ k < dst + n
  · rw [if_pos hin.1, if_pos hin, if_pos hin, if_pos (by simp; omega)]
  · rw [if_neg hin, if_neg hin]
    split
    · rw [if_neg (by simp; omega)]
      rfl
    · rfl

theorem memRead_copyRange {m : Mem} (h : m.wf = true) (src dst n : Nat) : memRead (copyRange src dst n m) dst n = memRead m src n := by
  refine List.map_congr_left fun i hi => ?_
  have hi := List.mem_range.mp hi
  rw [memByte_copyRange h, if_pos (by omega), Nat.add_sub_cancel_left, Nat.add_comm]

theorem memByte_copyRange_out {m : Mem} (h : m.wf = true) (src : Nat) {dst n k : Nat} (hk : k < dst ∨ dst + n ≤ k) :
    memByte (copyRange src dst n m) k = memByte m k := by
  rw [memByte_copyRange h, if_neg (by omega)]

/-! ### Transfers of the device's own -/

/-- What tags and traffic change of a device: counters of movers and DRAM but for the transfers done, and the count of free values. -/
def TagWork (d e : Dev) : Prop := ∃ mv k, e = { d with mov := mv, freeCtr := k } ∧ ∀ j, (tabGet mv.movers j {}).xfers = (getMover d j).xfers

theorem TagWork.refl (d : Dev) : TagWork d d := ⟨_, _, rfl, fun _ => rfl⟩

theorem TagWork.trans {a b c : Dev} (h : TagWork a b) (g : TagWork b c) : TagWork a c := by
  obtain ⟨_, _, rfl, ha⟩ := h
  obtain ⟨_, _, rfl, hb⟩ := g
  exact ⟨_, _, rfl, fun j => (hb j).trans (ha j)⟩

theorem getMover_modMover_self (n : Nat) (f : Mover → Mover) (d : Dev) : getMover (modMover n f d) n = f (getMover d n) :=
  tabGet_tabMod_self _ _ _ _ _

theorem getMover_modMover_ne {n j : Nat} (h : j ≠ n) (f : Mover → Mover) (d : Dev) : getMover (modMover n f d) j = getMover d j :=
  tabGet_tabMod_ne _ _ _ _ _ _ h

theorem noteTags_tagWork (row n : Nat) (d : Dev) : TagWork d (noteTags row n d) := by
  unfold noteTags
  split
  · exact ⟨_, _, rfl, fun _ => rfl⟩
  · split
    · exact ⟨_, _, rfl, fun _ => rfl⟩
    · refine ⟨_, _, rfl, fun j => ?_⟩
      by_cases hj : j = row - 2
      · subst hj
        exact (congrArg Mover.xfers (getMover_modMover_self (row - 2) (fun m => { m with tagsHigh := max m.tagsHigh n }) d) :)
      · exact (congrArg Mover.xfers (getMover_modMover_ne hj (fun m => { m with tagsHigh := max m.tagsHigh n }) d) :)

theorem passTags_tagWork (p row n : Nat) {d : Dev} (h : d.err.armed = none) : TagWork d (passTags p row n d) := by
  unfold passTags
  dsimp only
  split
  · exact .refl d
  · rw [tap_calm _ _ _ _ d h, tap_calm _ _ _ _ d h]
    exact TagWork.trans (b := (draw d).2) ⟨_, _, rfl, fun _ => rfl⟩ (noteTags_tagWork _ _ _)

theorem countTraffic_tagWork (a granules : Nat) (write : Bool) (d : Dev) : TagWork d (countTraffic a granules write d) := by
  unfold countTraffic withChecks
  split
  · split <;> exact ⟨_, _, rfl, fun _ => rfl⟩
  · exact .refl d

/-- A transfer copies its granules and is counted by its mover. -/
theorem deviceXfer_frame (n part src dst g : Nat) {d : Dev} (h : d.err.armed = none) : ∃ mv k, deviceXfer n part src dst g d =
    { d with mem := copyRange src dst (g * 64) d.mem, mov := mv, freeCtr := k } ∧ (tabGet mv.movers n {}).xfers = (getMover d n).xfers + 1 := by
  unfold deviceXfer
  extract_lets tags d1 d2
  have passed (a : Nat) (write : Bool) {e : Dev} (he : e.err.armed = none) : TagWork e (tags a write e) := by
    unfold tags
    split
    · exact passTags_tagWork _ _ _ he
    · exact .refl e
  have h0 : TagWork d (tags src false d) := passed src false h
  have h0a : (tags src false d).err.armed = none := by
    obtain ⟨_, _, he, -⟩ := h0
    rw [he]
    exact h
  have h2 : TagWork d d2 := (h0.trans (passed dst true h0a)).trans ((countTraffic_tagWork _ _ _ _).trans (countTraffic_tagWork _ _ _ _))
  obtain ⟨mv, k, he, hx⟩ := h2
  rw [he]
  exact ⟨_, _, rfl, (congrArg Mover.xfers (getMover_modMover_self n _ _)).trans (congrArg (· + 1) (hx n))⟩

/-! ### Moves of blocks -/

theorem getBlk_modBlk_self (b : Nat) (f : Blk → Blk) (d : Dev) : getBlk (modBlk b f d) b = f (getBlk d b) := tabGet_tabMod_self _ _ _ _ _

theorem getBlk_modBlk_ne {b j : Nat} (h : j ≠ b) (f : Blk → Blk) (d : Dev) : getBlk (modBlk b f d) j = getBlk d j :=
  tabGet_tabMod_ne _ _ _ _ _ _ h

theorem blkBytes_div_mul (r : BlockRec) : blkBytes r / 64 * 64 = blkBytes r := by
  unfold blkBytes
  omega

theorem header_le_blkBytes (r : BlockRec) : 64 ≤ blkBytes r := by
  unfold blkBytes ceilDiv
  omega

/-- A block at a place, with no transfer of it in flight. -/
def placed (place : Nat) (x : Blk) : Blk := { x with place := place, moving := false }

/-- A block moves with its contents, and its mover counts one transfer. -/
theorem moveBlk_frame (n b place : Nat) {d : Dev} (h : d.err.armed = none) : ∃ mv k, moveBlk n b place d = modBlk b (placed place)
    { d with mem := copyRange (blkAddr d b) (blkAt d b place) (blkBytes (blkRec d.img b)) d.mem, mov := mv, freeCtr := k } ∧
    (tabGet mv.movers n {}).xfers = (getMover d n).xfers + 1 := by
  obtain ⟨mv, k, he, hx⟩ := deviceXfer_frame n (blkPart d.img b) (blkAddr d b) (blkAt d b place) (blkBytes (blkRec d.img b) / 64) h
  rw [blkBytes_div_mul] at he
  exact ⟨mv, k, congrArg (modBlk b (placed place)) he, hx⟩

end Sys2Proof.Machine
end

section
/-! PROOFS. What the end of requests and the stop of a partition leave of sequences, partitions and state blocks (R236, R242, R307, R325). -/

namespace Sys2Proof.Machine

/-! ### What stands -/

/-- Of each sequence the count of late marks, of each partition its stop and the cause, of each block its place and its poison. -/
def standingOf (d : Dev) : (Nat → Word) × (Nat → Bool × Nat) × (Nat → Nat × Bool × List Nat) :=
  (fun q => (getSeq d q).late, fun p => ((getPart d p).stopped, (getPart d p).cause),
    fun b => ((getBlk d b).place, (getBlk d b).moving, (getBlk d b).poison))

/-- What stands in a device stands in another, and with nothing armed no checker has found anything. -/
structure Stands (d e : Dev) : Prop where
  standing : standingOf e = standingOf d
  checks : d.err.armed = none → checkSide e = checkSide d

theorem Stands.refl (d : Dev) : Stands d d := ⟨rfl, fun _ => rfl⟩

theorem Stands.trans {a b c : Dev} (h : Stands a b) (g : Stands b c) : Stands a c where
  standing := g.standing.trans h.standing
  checks ha := (g.checks ((congrArg Prod.fst (h.checks ha)).trans ha)).trans (h.checks ha)

theorem Stands.late {d e : Dev} (h : Stands d e) (q : Nat) : (getSeq e q).late = (getSeq d q).late :=
  congrFun (congrArg Prod.fst h.standing) q

theorem Stands.stop {d e : Dev} (h : Stands d e) (p : Nat) :
    (getPart e p).stopped = (getPart d p).stopped ∧ (getPart e p).cause = (getPart d p).cause :=
  Prod.mk.inj (congrFun (congrArg (fun x => x.2.1) h.standing) p)

theorem Stands.block {d e : Dev} (h : Stands d e) (b : Nat) : (getBlk e b).place = (getBlk d b).place ∧
    (getBlk e b).moving = (getBlk d b).moving ∧ (getBlk e b).poison = (getBlk d b).poison := by
  have hb := congrFun (congrArg (fun x => x.2.2) h.standing) b
  simpa [standingOf] using hb

theorem Stands.of_same {d e : Dev} (hq : e.seqs = d.seqs) (hb : e.blks = d.blks) (hp : e.sched.parts = d.sched.parts)
    (hc : checkSide e = checkSide d) : Stands d e where
  standing := by
    unfold standingOf getSeq getPart getBlk
    rw [hq, hb, hp]
  checks _ := hc

theorem units_stands (us : Tab Unit_) (d : Dev) : Stands d { d with units := us } := .of_same rfl rfl rfl rfl

theorem mem_stands (m : Mem) (d : Dev) : Stands d { d with mem := m } := .of_same rfl rfl rfl rfl

theorem modSched_stands {f : Sched → Sched} (d : Dev) (hp : ∀ c, (f c).parts = c.parts) (ht : ∀ c, (f c).tripped = c.tripped) :
    Stands d (modSched f d) := .of_same rfl rfl (hp _) (Prod.ext rfl (ht _))

theorem modInst_stands (g i : Nat) (f : GInst → GInst) (d : Dev) : Stands d (modInst g i f d) :=
  modSched_stands d (fun _ => rfl) fun _ => rfl

theorem foldl_stands {α : Type} {f : Dev → α → Dev} (h : ∀ d x, Stands d (f d x)) (l : List α) : ∀ d : Dev, Stands d (l.foldl f d) := by
  induction l with
  | nil => exact .refl
  | cons x r ih => exact fun d => (h d x).trans (ih _)

/-- Work that frees what requests hold, where it ends nothing but requests. -/
theorem Ends.stands {d e : Dev} (hs : standingOf e = standingOf d) (h : d.err.armed = none → Ends d e) : Stands d e :=
  ⟨hs, fun ha => Prod.ext (h ha).armed (h ha).tripped⟩

theorem modSeq_stands {q : Nat} {f : Seq → Seq} (d : Dev) (hf : ∀ x, (f x).late = x.late) : Stands d (modSeq q f d) := by
  refine ⟨Prod.ext (funext fun j => ?_) rfl, fun _ => rfl⟩
  by_cases hj : j = q
  · subst hj
    exact (congrArg Seq.late (tabGet_tabMod_self _ _ _ _ _)).trans (hf _)
  · exact congrArg Seq.late (tabGet_tabMod_ne _ _ _ _ _ _ hj)

theorem modBlk_stands {b : Nat} {f : Blk → Blk} (d : Dev)
    (hf : ∀ x, (f x).place = x.place ∧ (f x).moving = x.moving ∧ (f x).poison = x.poison) : Stands d (modBlk b f d) := by
  refine ⟨Prod.ext rfl (Prod.ext rfl (funext fun j => ?_)), fun _ => rfl⟩
  by_cases hj : j = b
  · subst hj
    obtain ⟨hp, hm, hx⟩ := hf (getBlk d j)
    simp only [standingOf, getBlk_modBlk_self, hp, hm, hx]
  · simp only [standingOf, getBlk_modBlk_ne hj]

theorem modPart_stands {p : Nat} {f : Part → Part} (d : Dev) (hf : ∀ x, (f x).stopped = x.stopped ∧ (f x).cause = x.cause) :
    Stands d (modPart p f d) := by
  refine ⟨Prod.ext rfl (Prod.ext (funext fun j => ?_) rfl), fun _ => rfl⟩
  by_cases hj : j = p
  · subst hj
    obtain ⟨hs, hc⟩ := hf (getPart d j)
    have hpart : getPart (modPart j f d) j = f (getPart d j) := tabGet_tabMod_self _ _ _ _ _
    simp only [standingOf, hpart, hs, hc]
  · have hpart : getPart (modPart p f d) j = getPart d j := tabGet_tabMod_ne _ _ _ _ _ _ hj
    simp only [standingOf, hpart]

theorem tap_stands (pool inst kind part : Nat) (d : Dev) : Stands d (tap pool inst kind part d) := by
  refine ⟨?_, fun ha => by rw [tap_calm _ _ _ _ d ha]⟩
  obtain ⟨_, _, _, _, _, h⟩ := tap_taps pool inst kind part d
  rw [h]
  rfl

theorem record_stands (c : Nat) (p : Option Nat) (k : Nat × Nat) (d : Dev) : Stands d (record c p k d) := by
  obtain ⟨_, _, h⟩ := record_frame c p k d
  refine .of_same ?_ ?_ ?_ (record_checkSide c p k d) <;> rw [h]

/-! ### Requests that end (R73, R306, R307) -/

theorem pump_stands (d : Dev) : Stands d (pump d) := by
  refine Ends.stands ?_ fun ha => pump_ends ha
  obtain ⟨q, e, ⟨_, _, _, _, _, _, _, he⟩, ⟨_, _, _, _, _, _, _, hp⟩, -⟩ := pump_frame d
  rw [hp, he]
  rfl

theorem dropWalk_stands (x : DescId) (d : Dev) : Stands d (dropWalk x d) := by
  obtain ⟨k, hk⟩ := foldl_modKv_kv (fun w : Walk => w.seq) (fun _ k => { k with locks := k.locks - 1 }) (d.kv.walks.filter (fun w => w.d == x)) d
  unfold dropWalk
  dsimp only
  rw [hk]
  exact .of_same rfl rfl rfl rfl

theorem freeStrand_stands (x : DescId) (k : Nat) (d : Dev) : Stands d (freeStrand x k d) :=
  (foldl_stands (fun e _ => tap_stands _ _ _ _ e) _ d).trans (.of_same rfl rfl rfl rfl)

theorem retire_stands (x : DescId) (d : Dev) : Stands d (retire x d) := by
  unfold retire
  split
  · exact .refl d
  next y _ =>
    extract_lets d1 d2 d3 pool d4
    have h1 : Stands d d1 := dropWalk_stands x d
    have h2 : Stands d d2 := by
      unfold d2
      split
      · exact h1.trans (freeStrand_stands x _ d1)
      · exact h1
    have h3 : Stands d d3 := by
      unfold d3
      split
      · exact h2.trans (modBlk_stands d2 fun _ => ⟨rfl, rfl, rfl⟩)
      · exact h2
    have h4 : Stands d d4 := h3.trans (.of_same rfl rfl rfl rfl)
    split
    · exact h4.trans (.of_same rfl rfl rfl rfl)
    · exact h4.trans (tap_stands _ _ _ _ d4)

theorem countChunks_keeps (n k : Nat) : ∀ x : Blk, (countChunks n k x).place = x.place ∧ (countChunks n k x).moving = x.moving ∧
    (countChunks n k x).poison = x.poison := by
  induction k with
  | zero => exact fun x => ⟨rfl, rfl, rfl⟩
  | succ k ih =>
    intro x
    unfold countChunks
    split
    · exact ih _
    · exact ⟨rfl, rfl, rfl⟩

theorem noteSlices_stands (b pos : Nat) (ss : List Nat) (d : Dev) : Stands d (noteSlices b pos ss d) := by
  unfold noteSlices
  extract_lets d1 d2
  have h1 : Stands d d1 := modBlk_stands d fun _ => ⟨rfl, rfl, rfl⟩
  have h2 : Stands d d2 := h1.trans (modBlk_stands d1 fun x => countChunks_keeps _ _ x)
  split
  · exact h2
  · exact h2.trans (mem_stands _ d2)

theorem settleChunks_stands (b : Nat) (d : Dev) : Stands d (settleChunks b d) := by
  unfold settleChunks
  extract_lets q o n d1 sr
  have h1 : Stands d d1 := modSeq_stands d fun _ => rfl
  split
  · exact h1
  · exact h1.trans (modSeq_stands d1 fun x => by split <;> rfl)

theorem skipScans_stands (g i : Nat) (d : Dev) : Stands d (skipScans g i d) :=
  foldl_stands (fun e _ => (noteSlices_stands _ _ _ e).trans (settleChunks_stands _ _)) _ d

theorem cancelInst_stands (g i : Nat) (d : Dev) : Stands d (cancelInst g i d).1 := by
  unfold cancelInst
  extract_lets d0 xs orphans d1 d2
  have h0 : Stands d d0 := by
    unfold d0
    split
    · exact .refl d
    · exact skipScans_stands g i d
  have h1 : Stands d d1 := h0.trans (foldl_stands (fun e y => retire_stands y.id e) xs d0)
  have h2 : Stands d d2 := h1.trans (modSched_stands d1 (fun _ => rfl) fun _ => rfl)
  exact h2.trans (modInst_stands g i _ d2)

theorem endOne_stands (r : Req) (cause : Nat) (orphaned : Bool) (d : Dev) : Stands d (endOne r cause orphaned d).1 := by
  unfold endOne
  extract_lets tells d1 d2 d3 gone audio d4
  have h2 : Stands d d2 := by
    unfold d2
    split <;> exact .of_same rfl rfl rfl rfl
  have h3 : Stands d d3 := by
    unfold d3
    split
    · exact h2.trans (.of_same rfl rfl rfl rfl)
    · exact h2
  have h4 : Stands d d4 := h3.trans (.of_same rfl rfl rfl rfl)
  split
  · exact h3.trans (.of_same rfl rfl rfl rfl)
  · split
    · exact h4.trans (.of_same rfl rfl rfl rfl)
    · split
      · exact h4.trans (cancelInst_stands _ _ d4)
      · exact h4
    · exact h4

theorem endMany_stands (n : Nat) : ∀ (l : List (Nat × Nat × Bool)) (d : Dev), Stands d (endMany n l d) := by
  induction n with
  | zero => exact fun _ => .refl
  | succ n ih =>
    intro l d
    match l with
    | [] => exact .refl d
    | (o, c, b) :: rest =>
      unfold endMany
      split
      · exact ih rest d
      next r _ => exact (endOne_stands r c b d).trans (ih _ _)

theorem endReqs_stands (os : List Nat) (cause : Nat) (d : Dev) : Stands d (endReqs os cause d) :=
  (endMany_stands _ _ d).trans (pump_stands _)

/-- Ends of requests: none of those named is open any more. -/
theorem endReqs_ends (os : List Nat) (cause : Nat) {d : Dev} (h : d.err.armed = none) :
    Ends d (endReqs os cause d) ∧ ∀ o ∈ os, openReq (endReqs os cause d) o = false := by
  have hb := endBoth_frame os [] cause h
  simpa only [endBoth, endReqs, List.length_nil, Nat.add_zero, List.map_nil, List.append_nil] using hb

/-! ### A partition stops (R325, Table 13.6) -/

theorem UnitWork.stands {d e : Dev} (h : UnitWork d e) : Stands d e := by
  obtain ⟨_, _, _, _, _, rfl, ha⟩ := h
  exact .of_same rfl rfl rfl (Prod.ext ha rfl)

theorem chargeTile_stands (u p n : Nat) (d : Dev) : Stands d (chargeTile u p n d) := by
  unfold chargeTile
  extract_lets c now q d1
  have h0 : Stands d (modCluster c (fun k => { k with charge := tabMod k.charge p 0 (fun x => x + n) }) d) := .of_same rfl rfl rfl rfl
  have h1 : Stands d d1 := h0.trans (modPart_stands _ fun _ => ⟨rfl, rfl⟩)
  split
  · have h2 : Stands d1 (modPart p (fun x => { x with overq := x.overq + 1 }) d1) := modPart_stands d1 fun _ => ⟨rfl, rfl⟩
    exact h1.trans (h2.trans (record_stands _ _ _ _))
  · exact h1

theorem endWork_stands (u : Nat) (t : Tile) (d : Dev) : Stands d (endWork u t d) := by
  unfold endWork chargeLost endWait
  extract_lets e c1 c2 total
  have hdrawn : Stands d c2.2 := (((lostWork_frame u t d).2.1.trans (draw_unitWork _)).trans (draw_unitWork _)).stands
  have hcharged : Stands d (chargeTile u (dPart (descBytes e.2 e.1.d)) (total - e.1.charged) c2.2) := hdrawn.trans (chargeTile_stands _ _ _ _)
  split
  · exact hcharged.trans ((modUnit_unitWork _ _ _).stands.trans (modSched_stands _ (fun _ => rfl) fun _ => rfl))
  · exact hcharged

theorem poisonDest_stands (x : DescId) (pages : List (Nat × Nat)) (d : Dev) : Stands d (poisonDest x pages d) := by
  unfold poisonDest
  dsimp only
  split
  · exact .of_same rfl rfl rfl rfl
  · exact mem_stands _ d

theorem discardTile_stands (u : Nat) (d : Dev) : Stands d (discardTile u none d) := by
  unfold discardTile
  split
  · exact .refl d
  next t _ =>
    extract_lets d1 d2
    have h1 : Stands d d1 := (endWork_stands u t d).trans (units_stands _ _)
    have h2 : Stands d d2 := by
      unfold d2
      split
      · exact h1.trans (poisonDest_stands _ _ d1)
      · exact h1
    have h3 : Stands d (clearTile u d2) := h2.trans (units_stands _ _)
    have hretire : discardDesc t.d none (clearTile u d2) = retire t.d (clearTile u d2) := by
      unfold discardDesc
      split
      next hc => exact absurd hc (by simp)
      · rfl
    exact hretire ▸ h3.trans (retire_stands t.d _)

theorem discardPart_stands (p : Nat) (d : Dev) : Stands d (discardPart p none d) := by
  refine foldl_stands (fun e u => ?_) _ d
  split
  · exact discardTile_stands u e
  · exact .refl e

theorem cancelKv_stands (p : Nat) (d : Dev) : Stands d (cancelKv p d) := by
  obtain ⟨k, hk⟩ := foldl_modKv_kv id (fun _ k => { k with edits := [], locks := 0 }) (kvsOf d.img p) d
  unfold cancelKv
  dsimp only [id] at hk ⊢
  rw [hk]
  exact .of_same rfl rfl rfl rfl

theorem keepXfers_stands (keep : Xfer → Bool) (n : Nat) (d : Dev) : Stands d (keepXfers keep n d) := by
  unfold keepXfers returnTags
  extract_lets stays e gone
  have he : Stands d e := .of_same rfl rfl rfl rfl
  have hgone := foldl_stands (fun e (t : Tag) => tap_stands 1 t.row 1 t.part e) gone e
  exact he.trans (hgone.trans (.of_same rfl rfl rfl rfl))

theorem closeSession_stands (n : Nat) (d : Dev) : Stands d (closeSession n d) := .of_same rfl rfl rfl rfl

theorem resetStart_stands (p : Nat) (d : Dev) : Stands d (resetStart p d) := by
  unfold resetStart
  split
  · exact .refl d
  · extract_lets cause d0 d1 d2 d3 gone d4 d5 d7 open_
    have h0 : Stands d d0 := by
      unfold d0
      split
      · exact record_stands _ _ _ d
      · exact .refl d
    have hpart : Stands d0 (modPart p (fun x => { x with resetting := true }) d0) := modPart_stands d0 fun _ => ⟨rfl, rfl⟩
    have h1 : Stands d d1 := h0.trans (hpart.trans (discardPart_stands p _))
    have h3 : Stands d d3 := h1.trans ((cancelKv_stands p d1).trans (foldl_stands (fun e n => keepXfers_stands _ n e) _ d2))
    have h4 : Stands d d4 := h3.trans (endReqs_stands _ _ d3)
    have h5 : Stands d d5 := h4.trans (foldl_stands (fun e x => retire_stands x e) gone d4)
    have h7 : Stands d d7 := h5.trans (units_stands _ d5)
    exact h7.trans ((foldl_stands (fun e n => closeSession_stands n e) open_ d7).trans (pump_stands _))

/-- A partition that runs stops with the cause. -/
theorem stopPart_stands {p cause : Nat} {d : Dev} (hs : (getPart d p).stopped = false) (hr : (getPart d p).resetting = false) :
    Stands (modPart p (fun x => { x with stopped := true, cause := cause }) d) (stopPart p cause d) := by
  unfold stopPart
  rw [if_neg (by simp [hs, hr])]
  extract_lets d1 d3
  have h3 : Stands d1 d3 := endReqs_stands _ _ d1
  split
  · exact h3.trans (resetStart_stands p d3)
  · exact h3

end Sys2Proof.Machine
end

section
/-! PROOFS. Reset marks of sequences (R235, R236). -/

namespace Sys2Proof.Machine

/-! ### What a mark does to its sequence (R236) -/

theorem getSeq_modSeq_self (q : Nat) (f : Seq → Seq) (d : Dev) : getSeq (modSeq q f d) q = f (getSeq d q) := tabGet_tabMod_self _ _ _ _ _

/-- A mark that is late or discarded is counted and recorded, and nothing else happens. -/
theorem lateMark_eq (q part : Nat) (d : Dev) : lateMark q part d =
    { modSeq q (fun x => { x with late := x.late + 1 }) d with err := errRecord 0x70 (some part) (8, q) none false d.err } :=
  record_of_info rfl _ _ _

section
variable {d : Dev} {q m : Nat} {r : SeqRec}

theorem takeMark_of_held (hr : seqRec? d.img q = some r) (hlo : (getSeq d q).base ≤ m / chunkSteps d.img q)
    (hhi : m / chunkSteps d.img q < (getSeq d q).base + 4) : takeMark q m d = setMark q m (chunkSteps d.img q) (bit r.flags 0) d := by
  unfold takeMark
  rw [hr]
  exact (if_neg (by omega)).trans (if_pos hhi)

theorem takeMark_of_late (hr : seqRec? d.img q = some r) (hlo : m / chunkSteps d.img q < (getSeq d q).base) : takeMark q m d =
    setMark q ((getSeq d q).base * chunkSteps d.img q) (chunkSteps d.img q) (bit r.flags 0) (lateMark q r.part d) := by
  unfold takeMark
  rw [hr]
  exact if_pos hlo

theorem takeMark_of_far (hr : seqRec? d.img q = some r) (hhi : (getSeq d q).base + 4 ≤ m / chunkSteps d.img q) :
    takeMark q m d = lateMark q r.part d := by
  unfold takeMark
  rw [hr]
  exact (if_neg (by omega)).trans (if_neg (by omega))

theorem getSeq_setMark_self (q s T : Nat) (bidir : Bool) (d : Dev) :
    (getSeq (setMark q s T bidir d) q).marks = insertNat s (getSeq d q).marks ∧
      (getSeq (setMark q s T bidir d) q).late = (getSeq d q).late ∧ (getSeq (setMark q s T bidir d) q).base = (getSeq d q).base := by
  rw [setMark, getSeq_modSeq_self]
  exact ⟨rfl, rfl, rfl⟩

theorem getSeq_lateMark_self (q part : Nat) (d : Dev) : (getSeq (lateMark q part d) q).marks = (getSeq d q).marks ∧
    (getSeq (lateMark q part d) q).late = (getSeq d q).late + 1 := by
  have h : getSeq (lateMark q part d) q = _ := (congrArg (getSeq · q) (lateMark_eq q part d)).trans (getSeq_modSeq_self q _ d)
  rw [h]
  exact ⟨rfl, rfl⟩

/-! ### RESET_MARK (R235) -/

theorem postMark_of_owner {p : Nat} (hrun : running d p = true) (hr : seqRec? d.img q = some r) (hp : r.part = p) :
    postMark p q m d = takeMark q m d := by
  simp [postMark, hrun, hr, hp]

theorem postMark_of_other {p : Nat} (hrun : running d p = true) (hr : seqRec? d.img q = some r) (hp : r.part ≠ p) :
    postMark p q m d = stopPart p 0x40 (record 0x40 (some p) (8, q) d) := by
  simp [postMark, hrun, hr, hp]

end

section
variable {s : State} {p : Fin 128} {q : Fin 64} {m : Nat} {r : SeqRec}

theorem exec_resetMark (hm : m < 2 ^ 48) : exec (.resetMark p q m) s = devStep (postMark p.val q.val m) s :=
  unlessWf_of_wf (i := .resetMark p q m) (decide_eq_true hm)

/-- A mark of the owner changes sequences and the error record at most. -/
theorem resetMark_gives {e : Dev} {P : State → Prop} (h : Settled s) (hm : m < 2 ^ 48) (hrun : running s.dev p.val = true)
    (hr : seqRec? s.dev.img q.val = some r) (hp : r.part = p.val) (he : takeMark q.val m s.dev = e)
    (hf : ∃ sq er, e = { s.dev with seqs := sq, err := er }) (hP : P { s with dev := e }) : Gives (.resetMark p q m) s P := by
  obtain ⟨sq, er, rfl⟩ := hf
  exact gives_of_settled (exec_resetMark hm) ((postMark_of_owner hrun hr hp).trans he) (h.of_same rfl rfl rfl rfl rfl rfl rfl rfl) hP

theorem not_stopped_of_running {d : Dev} {p : Nat} (h : running d p = true) : (getPart d p).stopped = false ∧ (getPart d p).resetting = false := by
  simp only [running, Bool.and_eq_true, Bool.not_eq_true'] at h
  obtain ⟨⟨-, hs⟩, hr⟩ := h
  exact ⟨hs, hr⟩

/-- A mark for another partition's sequence stops its sender and changes no count of marks (R235, R325). -/
theorem resetMark_of_other_gives (h : Settled s) (ha : s.dev.err.armed = none) (hm : m < 2 ^ 48) (hrun : running s.dev p.val = true)
    (hr : seqRec? s.dev.img q.val = some r) (hp : r.part ≠ p.val) : Gives (.resetMark p q m) s fun t => SameOutside s t ∧
      (getPart t.dev p.val).stopped = true ∧ (getPart t.dev p.val).cause = 0x40 ∧
      (getSeq t.dev q.val).late = (getSeq s.dev q.val).late := by
  obtain ⟨hstop, hreset⟩ := not_stopped_of_running hrun
  obtain ⟨i, n, hrec⟩ := record_frame 0x40 (some p.val) (8, q.val) s.dev
  have hst := stopPart_stands (p := p.val) (cause := 0x40) (d := record 0x40 (some p.val) (8, q.val) s.dev) (hrec ▸ hstop) (hrec ▸ hreset)
  have hpost := postMark_of_other (m := m) hrun hr hp
  have hboot : bootSide (postMark p.val q.val m s.dev) = bootSide s.dev := postMark_bootSide ..
  rw [← hpost, hrec] at hst
  have hpart := tabGet_tabMod_self s.dev.sched.parts p.val {} {} (fun x => { x with stopped := true, cause := 0x40 })
  obtain ⟨hstops, hcause⟩ := hst.stop p.val
  have hcheck := hst.checks ((errRecord_armed ..).trans ha)
  refine gives_of_camWork (exec_resetMark hm) ((congrArg Prod.snd hcheck).trans h.1) ((congrArg (fun x => x.1.romDue) hboot).trans h.2.1) ?_
  rintro _ _ _ _ ⟨_, _, _, _, _, _, _, rfl⟩
  exact ⟨⟨rfl, rfl, rfl⟩, hstops.trans (congrArg Part.stopped hpart), hcause.trans (congrArg Part.cause hpart), hst.late q.val⟩

end

end Sys2Proof.Machine
end

section
/-! PROOFS. State blocks come in and go out (R238 to R242). Settles O38. -/

namespace Sys2Proof.Machine

/-! ### Where blocks lie -/

/-- Where a block is depends on the image, its place and its home. -/
theorem blkAddr_congr {d e : Dev} {b : Nat} (hi : e.img = d.img) (hp : (getBlk e b).place = (getBlk d b).place)
    (hh : (getBlk e b).home = (getBlk d b).home) : blkAddr e b = blkAddr d b := by
  unfold blkAddr blkAt blkCore
  rw [hi, hp, hh]

theorem blkAt_congr {d e : Dev} {b : Nat} (hi : e.img = d.img) (hh : (getBlk e b).home = (getBlk d b).home) (place : Nat) :
    blkAt e b place = blkAt d b place := by
  unfold blkAt blkCore
  rw [hi, hh]

/-! ### A block comes in (R241) -/

/-- A core after a swap-in. -/
def countIn (waited : Nat) (x : Unit_) : Unit_ := { x with swapIn := x.swapIn + 1, scWait := addW x.scWait waited }

/-- A block that waits no longer. -/
def served (x : Blk) : Blk := { x with waiting := none }

/-- The device after the transfer of a swap-in, its header not yet compared. -/
def swappedIn (b waited : Nat) (d : Dev) : Dev :=
  modUnit (blkCore d b) (countIn waited) (modBlk b served (moveBlk (blkCore d b / 6) b 0 d))

/-- What a header that does not match does to a block that has come in (R242). -/
def headerFailed (b : Nat) (p : Option Nat) (k : Nat × Nat) (d : Dev) : Dev :=
  endReqs (waitingChunk d b) 0x71 (record 0x71 p k (poisonBlk b d))

section
variable {d : Dev} {b hb hc waited : Nat}

theorem swapInDone_eq (hl : live d = true) (hb' : d.img.blocks.any (fun r => r.id == b) = true) (hp : (getBlk d b).place ≠ 0)
    (ht : slotTurn d b = true) (hon : d.power.clusters.getLsbD (blkCore d b / 6) = true) : ∃ p k, swapInDone b hb hc [] waited d =
      if headerMatches d b hb hc = true then swappedIn b waited d else headerFailed b p k (swappedIn b waited d) := by
  refine ⟨some ((seqRec? d.img (blkRec d.img b).seq).getD {}).part, (8, (blkRec d.img b).seq), ?_⟩
  refine (if_pos (by simp [hl, hb', hp, ht, hon])).trans ?_
  simp only [if_true, List.contains_nil, Bool.not_false, Bool.and_true]
  rfl

/-- What a swap-in has changed: the block is resident and waits no longer, its bytes are at its slot, its core and its mover have
counted. -/
structure CameIn (b waited : Nat) (d e : Dev) : Prop where
  frame : ∃ us bl m mv k, e = { d with units := us, blks := bl, mem := m, mov := mv, freeCtr := k }
  blk : getBlk e b = served (placed 0 (getBlk d b))
  others : ∀ j, j ≠ b → getBlk e j = getBlk d j
  unit : getUnit e (blkCore d b) = countIn waited (getUnit d (blkCore d b))
  mover : (getMover e (blkCore d b / 6)).xfers = (getMover d (blkCore d b / 6)).xfers + 1
  mem : e.mem = copyRange (blkAddr d b) (blkAt d b 0) (blkBytes (blkRec d.img b)) d.mem

theorem swappedIn_cameIn (b waited : Nat) (ha : d.err.armed = none) : CameIn b waited d (swappedIn b waited d) := by
  unfold swappedIn
  obtain ⟨mv, k, he, hx⟩ := moveBlk_frame (blkCore d b / 6) b 0 ha
  rw [he]
  refine ⟨⟨_, _, _, _, _, rfl⟩, ?_, fun j hj => ?_, getUnit_modUnit_self .., hx, rfl⟩
  · exact (getBlk_modBlk_self b served _).trans (congrArg served (getBlk_modBlk_self b (placed 0) _))
  · exact (getBlk_modBlk_ne hj served _).trans (getBlk_modBlk_ne hj (placed 0) _)

end

/-! ### A header that does not match (R242) -/

section
variable {d e : Dev} {b waited : Nat}

theorem CameIn.img (h : CameIn b waited d e) : e.img = d.img := by
  obtain ⟨_, _, _, _, _, rfl⟩ := h.frame
  rfl

theorem CameIn.armed (h : CameIn b waited d e) : e.err.armed = d.err.armed := by
  obtain ⟨_, _, _, _, _, rfl⟩ := h.frame
  rfl

theorem CameIn.quiet (h : CameIn b waited d e) (hq : Quiet d) : Quiet e := by
  obtain ⟨_, _, _, _, _, rfl⟩ := h.frame
  exact hq.mono rfl rfl rfl id

theorem CameIn.blkAddr_self (h : CameIn b waited d e) : blkAddr e b = blkAt d b 0 := by
  have haddr : blkAddr e b = blkAt e b 0 := by
    rw [blkAddr, h.blk]
    rfl
  have hhome : (getBlk e b).home = (getBlk d b).home := (congrArg Blk.home h.blk).trans rfl
  rw [haddr, blkAt_congr h.img hhome]

theorem CameIn.blkAddr_ne (h : CameIn b waited d e) {j : Nat} (hj : j ≠ b) : blkAddr e j = blkAddr d j :=
  blkAddr_congr h.img (congrArg Blk.place (h.others j hj)) (congrArg Blk.home (h.others j hj))

theorem CameIn.waiting (h : CameIn b waited d e) : waitingChunk e b = waitingChunk d b := by
  obtain ⟨_, _, _, _, _, rfl⟩ := h.frame
  rfl

/-- A byte outside the block's slot and outside every header of a block is outside every header after the move too. -/
theorem CameIn.outside_headers (h : CameIn b waited d e) {a : Nat} (hb : a < blkAt d b 0 ∨ blkAt d b 0 + blkBytes (blkRec d.img b) ≤ a)
    (hj : ∀ j, a < blkAddr d j ∨ blkAddr d j + 64 ≤ a) (j : Nat) : a < blkAddr e j ∨ blkAddr e j + 64 ≤ a := by
  by_cases hjb : j = b
  · subst hjb
    rw [h.blkAddr_self]
    exact hb.imp id (le_trans (Nat.add_le_add_left (header_le_blkBytes _) _))
  · rw [h.blkAddr_ne hjb]
    exact hj j

/-- A block all of whose n elements hold poison. -/
def allPoisoned (n : Nat) (x : Blk) : Blk := { x with poison := x.poison ++ (List.range n).filter (fun k => !x.poison.contains k) }

theorem mem_poison_allPoisoned {n i : Nat} (h : i < n) (x : Blk) : i ∈ (allPoisoned n x).poison := by
  by_cases hi : i ∈ x.poison
  · exact List.mem_append_left _ hi
  · exact List.mem_append_right _ (by simp [h, hi])

theorem poisonBlk_eq (b : Nat) (d : Dev) : ∃ gs, poisonBlk b d =
    { modBlk b (allPoisoned (blkRec d.img b).count) d with mem := poisonGranules gs d.mem } := ⟨_, rfl⟩

theorem getBlk_poisonBlk (b : Nat) (d : Dev) : getBlk (poisonBlk b d) b = allPoisoned (blkRec d.img b).count (getBlk d b) :=
  getBlk_modBlk_self b (allPoisoned (blkRec d.img b).count) d

/-- Poison leaves where blocks are and every byte as it is. -/
theorem poisonBlk_ends (b : Nat) (d : Dev) : Ends d (poisonBlk b d) := by
  obtain ⟨gs, h⟩ := poisonBlk_eq b d
  have hlist : Ends d (modBlk b (allPoisoned (blkRec d.img b).count) d) := modBlk_ends d (fun _ => rfl) fun _ => rfl
  exact h ▸ hlist.trans (mem_ends _ fun hw => ⟨hw, fun _ _ => rfl⟩)

/-- What a header that does not match brings about: its block stays where it is, all of it holds poison, and the requests of the waiting
chunk have ended. -/
structure Spoils (b : Nat) (d e : Dev) : Prop where
  ends : Ends d e
  present : present e b = present d b
  poison : ∀ i, i < (blkRec d.img b).count → i ∈ (getBlk e b).poison
  closed : ∀ o ∈ waitingChunk d b, openReq e o = false

theorem headerFailed_spoils (b : Nat) (p : Option Nat) (k : Nat × Nat) (ha : d.err.armed = none) : Spoils b d (headerFailed b p k d) := by
  have h1 := (poisonBlk_ends b d).trans (record_ends 0x71 p k (poisonBlk b d))
  obtain ⟨h2, hclosed⟩ := endReqs_ends (waitingChunk d b) 0x71 (h1.armed.trans ha)
  obtain ⟨hplace, hmoving, hpoison⟩ := ((record_stands 0x71 p k (poisonBlk b d)).trans (endReqs_stands (waitingChunk d b) 0x71 _)).block b
  refine ⟨h1.trans h2, ?_, fun i hi => ?_, hclosed⟩
  · unfold present headerFailed
    rw [hplace, hmoving, getBlk_poisonBlk]
    rfl
  · unfold headerFailed
    rw [hpoison, getBlk_poisonBlk]
    exact mem_poison_allPoisoned hi _

/-- A block that has come in behind a header that does not match. -/
theorem CameIn.gives_of_spoils {s : State} {i : Instr} (h : CameIn b waited s.dev d) (g : Spoils b d e) (hset : Settled s)
    (hw : s.dev.mem.wf = true) (hx : exec i s = .next (settle { s with dev := e })) :
    Gives i s fun t => SameOutside s t ∧ present t.dev b = true ∧
      (∀ i, i < (blkRec s.dev.img b).count → i ∈ (getBlk t.dev b).poison) ∧ (∀ o ∈ waitingChunk s.dev b, openReq t.dev o = false) ∧
      ∀ a, (a < blkAt s.dev b 0 ∨ blkAt s.dev b 0 + blkBytes (blkRec s.dev.img b) ≤ a) →
        (∀ j, a < blkAddr s.dev j ∨ blkAddr s.dev j + 64 ≤ a) → memByte t.dev.mem a = memByte s.dev.mem a := by
  obtain ⟨hends, hpres, hpoison, hclosed⟩ := g
  have hcopy : d.mem.wf = true := h.mem ▸ copyRange_wf _ _ _ _ hw
  have hq := (h.quiet hset.quiet).mono hends.tripped (congrArg Boot.romDue hends.boot) (congrArg Power.isp hends.power) hends.isp
  rw [h.waiting] at hclosed
  rw [h.img] at hpoison
  refine gives_of_quiet hx hq fun _ _ _ => ⟨⟨rfl, rfl, rfl⟩, hpres.trans ?_, hpoison, hclosed, fun a hslot hheads => ?_⟩
  · rw [present, h.blk]
    rfl
  · calc memByte e.mem a = memByte d.mem a := (hends.mem hcopy).2 a (h.outside_headers hslot hheads)
      _ = memByte s.dev.mem a := h.mem ▸ memByte_copyRange_out hw _ hslot

end

/-! ### A block goes out (R239 to R241) -/

/-- A core after a swap-out. -/
def countOut (x : Unit_) : Unit_ := { x with swapOut := x.swapOut + 1 }

theorem swapOutDone_eq {d : Dev} {b : Nat} (hl : live d = true) (hb : d.img.blocks.any (fun r => r.id == b) = true)
    (hp : (getBlk d b).place = 0) (hpin : (getBlk d b).pins = 0) (hw : slotWanted d b = true ∨ (getBlk d b).moving = true) :
    swapOutDone b d = swapOut b (unready b d) :=
  if_pos (by rcases hw with hw | hw <;> simp [hl, hb, hp, hpin, hw])

/-- What a swap-out has changed: the block is at its spill home, its core and its mover have counted. -/
theorem swapOut_frame (b : Nat) {d : Dev} (ha : d.err.armed = none) : ∃ mv k,
    swapOut b d = modUnit (blkCore d b) countOut (modBlk b (placed (blkRec d.img b).spillTier) { d with
      mem := copyRange (blkAddr d b) (blkAt d b (blkRec d.img b).spillTier) (blkBytes (blkRec d.img b)) d.mem, mov := mv, freeCtr := k }) ∧
    (tabGet mv.movers (blkCore d b / 6) {}).xfers = (getMover d (blkCore d b / 6)).xfers + 1 := by
  obtain ⟨mv, k, he, hx⟩ := moveBlk_frame (blkCore d b / 6) b (blkRec d.img b).spillTier ha
  exact ⟨mv, k, congrArg (modUnit (blkCore d b) countOut) he, hx⟩

theorem blkIdle_eq {d : Dev} {b : Nat} (hl : live d = true) (hp : (getBlk d b).place = 0) (hpin : (getBlk d b).pins = 0)
    (hi : ((seqRec? d.img (blkRec d.img b).seq).getD {}).idleCycles ≠ 0) :
    blkIdle b d = modBlk b (fun x => { x with moving := true }) (unready b d) :=
  if_pos (by simp [hl, hp, hpin, hi])

/-! ### The commands -/

section
variable {s : State} {b : Nat} (hset : Settled s) (ha : s.dev.err.armed = none) (hl : live s.dev = true)
  (hb : s.dev.img.blocks.any (fun r => r.id == b) = true)

include hset ha hl hb in
theorem stateSwapInDone_of_match_gives {hid hc waited : Nat} (hp : (getBlk s.dev b).place ≠ 0) (ht : slotTurn s.dev b = true)
    (hon : s.dev.power.clusters.getLsbD (blkCore s.dev b / 6) = true) (hm : headerMatches s.dev b hid hc = true) :
    Gives (.stateSwapInDone b hid hc [] waited) s fun t => SameOutside s t ∧ CameIn b waited s.dev t.dev := by
  obtain ⟨p, k, he⟩ := swapInDone_eq (hb := hid) (hc := hc) (waited := waited) hl hb hp ht hon
  have hin := swappedIn_cameIn b waited ha
  rw [if_pos hm] at he
  refine gives_of_settled rfl he ?_ ⟨⟨rfl, rfl, rfl⟩, hin⟩
  obtain ⟨_, _, _, _, _, hf⟩ := hin.frame
  rw [hf]
  exact hset.of_same rfl rfl rfl rfl rfl rfl rfl rfl

include hset ha hl hb in
theorem stateSwapInDone_of_mismatch_gives {hid hc waited : Nat} (hw : s.dev.mem.wf = true) (hp : (getBlk s.dev b).place ≠ 0)
    (ht : slotTurn s.dev b = true) (hon : s.dev.power.clusters.getLsbD (blkCore s.dev b / 6) = true) (hm : headerMatches s.dev b hid hc = false) :
    Gives (.stateSwapInDone b hid hc [] waited) s fun t => SameOutside s t ∧ present t.dev b = true ∧
      (∀ i, i < (blkRec s.dev.img b).count → i ∈ (getBlk t.dev b).poison) ∧ (∀ o ∈ waitingChunk s.dev b, openReq t.dev o = false) ∧
      ∀ a, (a < blkAt s.dev b 0 ∨ blkAt s.dev b 0 + blkBytes (blkRec s.dev.img b) ≤ a) →
        (∀ j, a < blkAddr s.dev j ∨ blkAddr s.dev j + 64 ≤ a) → memByte t.dev.mem a = memByte s.dev.mem a := by
  obtain ⟨p, k, he⟩ := swapInDone_eq (hb := hid) (hc := hc) (waited := waited) hl hb hp ht hon
  have hin := swappedIn_cameIn b waited ha
  rw [if_neg (by simp [hm])] at he
  have hx : exec (.stateSwapInDone b hid hc [] waited) s = devStep (swapInDone b hid hc [] waited) s := rfl
  exact hin.gives_of_spoils (headerFailed_spoils b p k (hin.armed.trans ha)) hset hw (hx.trans (by rw [devStep, he]))

include hset ha hl hb in
theorem stateSwapOutDone_gives (hp : (getBlk s.dev b).place = 0) (hpin : (getBlk s.dev b).pins = 0)
    (hwant : slotWanted s.dev b = true ∨ (getBlk s.dev b).moving = true) : Gives (.stateSwapOutDone b) s fun t => SameOutside s t ∧
      getBlk t.dev b = placed (blkRec s.dev.img b).spillTier (getBlk s.dev b) ∧ (∀ j, j ≠ b → getBlk t.dev j = getBlk s.dev j) ∧
      getUnit t.dev (blkCore s.dev b) = countOut (getUnit s.dev (blkCore s.dev b)) ∧
      (getMover t.dev (blkCore s.dev b / 6)).xfers = (getMover s.dev (blkCore s.dev b / 6)).xfers + 1 ∧
      t.dev.mem = copyRange (blkAt s.dev b 0) (blkAt s.dev b (blkRec s.dev.img b).spillTier) (blkBytes (blkRec s.dev.img b)) s.dev.mem ∧
      t.dev.reqs = s.dev.reqs := by
  obtain ⟨mv, k, he, hx⟩ := swapOut_frame b (d := unready b s.dev) ha
  have haddr : blkAddr s.dev b = blkAt s.dev b 0 := congrArg (blkAt s.dev b) hp
  refine gives_of_settled rfl ((swapOutDone_eq hl hb hp hpin hwant).trans he) (hset.of_same rfl rfl rfl rfl rfl rfl rfl rfl)
    ⟨⟨rfl, rfl, rfl⟩, getBlk_modBlk_self b _ _, fun j hj => getBlk_modBlk_ne hj _ _, getUnit_modUnit_self .., hx, ?_, rfl⟩
  rw [← haddr]
  rfl

include hset hl in
theorem exec_stateIdleExpiry (hp : (getBlk s.dev b).place = 0) (hpin : (getBlk s.dev b).pins = 0)
    (hi : ((seqRec? s.dev.img (blkRec s.dev.img b).seq).getD {}).idleCycles ≠ 0) :
    exec (.stateIdleExpiry b) s = .next { s with dev := modBlk b (fun x => { x with moving := true }) (unready b s.dev) } :=
  exec_of_same rfl (blkIdle_eq hl hp hpin hi) (hset.of_same rfl rfl rfl rfl rfl rfl rfl rfl)

end

/-- Settles O38: marks by the chunk that they fall in, swaps by the header that comes in, and the idle block's tiles. -/
theorem sequenceMarksAndBlocks : Obligations.SequenceMarksAndBlocks := by
  refine ⟨fun s p q m r hset ha hm hrun hr => ⟨fun hp hlo hhi => ?_, fun hp hlo => ?_, fun hp hhi => ?_,
    resetMark_of_other_gives hset ha hm hrun hr⟩, fun s b hset ha hl hb hw => ⟨fun hid hc waited hp ht hon => ⟨fun hm => ?_,
    stateSwapInDone_of_mismatch_gives hset ha hl hb hw hp ht hon⟩, fun hp hpin hwant => ?_, exec_stateIdleExpiry hset hl⟩⟩
  · obtain ⟨hmarks, hlate, hbase⟩ := getSeq_setMark_self q.val m (chunkSteps s.dev.img q.val) (bit r.flags 0) s.dev
    exact resetMark_gives hset hm hrun hr hp (takeMark_of_held hr hlo hhi) ⟨_, _, rfl⟩ ⟨⟨rfl, rfl, rfl⟩, hmarks, hlate, hbase, rfl, rfl⟩
  · have he := takeMark_of_late hr hlo
    obtain ⟨hmarks, hlate, -⟩ := getSeq_setMark_self q.val ((getSeq s.dev q.val).base * chunkSteps s.dev.img q.val) (chunkSteps s.dev.img q.val)
      (bit r.flags 0) (lateMark q.val r.part s.dev)
    obtain ⟨gmarks, glate⟩ := getSeq_lateMark_self q.val r.part s.dev
    rw [gmarks] at hmarks
    rw [glate] at hlate
    rw [lateMark_eq] at he hmarks hlate
    exact resetMark_gives hset hm hrun hr hp he ⟨_, _, rfl⟩ ⟨⟨rfl, rfl, rfl⟩, hmarks, hlate, rfl, rfl⟩
  · obtain ⟨hmarks, hlate⟩ := getSeq_lateMark_self q.val r.part s.dev
    rw [lateMark_eq] at hmarks hlate
    exact resetMark_gives hset hm hrun hr hp ((takeMark_of_far hr hhi).trans (lateMark_eq ..)) ⟨_, _, rfl⟩
      ⟨⟨rfl, rfl, rfl⟩, hmarks, hlate, rfl, rfl⟩
  · obtain ⟨t, hx, hout, hin⟩ := stateSwapInDone_of_match_gives (waited := waited) hset ha hl hb hp ht hon hm
    obtain ⟨hframe, hblk, -, hunit, hmover, hmem⟩ := hin
    obtain ⟨_, _, _, _, _, hf⟩ := hframe
    refine ⟨t, hx, hout, ?_⟩
    rw [present, hblk, hunit, hmem]
    exact ⟨rfl, rfl, rfl, rfl, rfl, rfl, hmover, memRead_copyRange hw .., fun a hslot => hmem ▸ memByte_copyRange_out hw _ hslot,
      (congrArg Dev.reqs hf).trans rfl, (congrArg Dev.err hf).trans rfl⟩
  · obtain ⟨t, hx, hout, hblk, hothers, hunit, hmover, hmem, hreqs⟩ := stateSwapOutDone_gives hset ha hl hb hp hpin hwant
    refine ⟨t, hx, hout, ?_⟩
    rw [hblk, hunit, hmem]
    exact ⟨rfl, rfl, rfl, rfl, hmover, hothers, memRead_copyRange hw .., fun a hslot => hmem ▸ memByte_copyRange_out hw _ hslot, hreqs⟩

end Sys2Proof.Machine
end

section
/-! PROOFS. What the ends of requests leave of the clusters, the walks and the bytes outside the headers of state blocks (R256, R307). -/

namespace Sys2Proof.Machine

/-! ### Bytes that a write leaves, whatever the form of memory -/

theorem lookupKey_setCell_ne {a k : Nat} (v : Byte) (h : k ≠ a) : ∀ l : List Host.Cell, lookupKey k (setCell a v l) = lookupKey k l
  | [] => by
    unfold setCell
    split <;> simp [lookupKey, h]
  | (b, w) :: r => by
    have hab : a = b → k ≠ b := fun e => e ▸ h
    have ih := lookupKey_setCell_ne v h r
    unfold setCell
    split
    · split <;> simp [lookupKey, h]
    · split
      next e => split <;> simp [lookupKey, h, hab e]
      next => simp [lookupKey, ih]

/-- The bytes outside a write read as before, whether or not the cells are in canonical form. -/
theorem memByte_memWrite_outside {k : Nat} : ∀ (b : Bytes) (m : Mem) (a : Nat), k < a ∨ a + b.length ≤ k →
    memByte (memWrite m a b) k = memByte m k
  | [], _, _, _ => rfl
  | v :: r, m, a, h => by
    rw [List.length_cons] at h
    rw [memWrite, memByte_memWrite_outside r _ _ (by omega), memByte, memPut, lookupKey_setCell_ne v (by omega)]
    rfl

/-! ### What is spared -/

/-- The image, the state blocks, the clusters, memory and the walks. -/
def sparedPart (d : Dev) : Image × Tab Blk × Tab Cluster × Mem × List Walk := (d.img, d.blks, d.clusters, d.mem, d.kv.walks)

/-- No cluster changes, no block goes elsewhere, no byte outside the headers of blocks changes, and no walk starts. -/
structure Spares (d e : Dev) : Prop where
  clusters : e.clusters = d.clusters
  addr : ∀ k, blkAddr e k = blkAddr d k
  bytes : ∀ a, (∀ k, a < blkAddr d k ∨ blkAddr d k + 64 ≤ a) → memByte e.mem a = memByte d.mem a
  walks : ∀ v ∈ e.kv.walks, v ∈ d.kv.walks

theorem Spares.refl (d : Dev) : Spares d d := ⟨rfl, fun _ => rfl, fun _ _ => rfl, fun _ => id⟩

theorem Spares.trans {a b c : Dev} (h : Spares a b) (g : Spares b c) : Spares a c where
  clusters := g.clusters.trans h.clusters
  addr k := (g.addr k).trans (h.addr k)
  bytes x hx := (g.bytes x fun k => h.addr k ▸ hx k).trans (h.bytes x hx)
  walks v hv := h.walks v (g.walks v hv)

theorem Spares.of_same {d e : Dev} (h : sparedPart e = sparedPart d) : Spares d e := by
  simp only [sparedPart, Prod.mk.injEq] at h
  obtain ⟨hi, hb, hc, hm, hw⟩ := h
  refine ⟨hc, fun k => ?_, fun a _ => by rw [hm], fun v hv => hw ▸ hv⟩
  unfold blkAddr blkAt blkCore getBlk
  rw [hi, hb]

theorem Spares.no_walk {d e : Dev} (h : Spares d e) {x : DescId} (hn : d.kv.walks.any (fun v => v.d == x) = false) :
    e.kv.walks.any (fun v => v.d == x) = false := by
  rw [List.any_eq_false] at hn ⊢
  exact fun v hv => hn v (h.walks v hv)

theorem foldl_spares {α : Type} {f : Dev → α → Dev} (h : ∀ d x, Spares d (f d x)) (l : List α) : ∀ d : Dev, Spares d (l.foldl f d) := by
  induction l with
  | nil => exact .refl
  | cons x r ih => exact fun d => (h d x).trans (ih _)

theorem modBlk_spares {b : Nat} {f : Blk → Blk} (d : Dev) (hp : ∀ x, (f x).place = x.place) (hh : ∀ x, (f x).home = x.home) :
    Spares d (modBlk b f d) := ⟨rfl, (modBlk_ends d hp hh).addr, fun _ _ => rfl, fun _ => id⟩

theorem writeBlkHeader_spares (b : Nat) (d : Dev) : Spares d (writeBlkHeader b d) := by
  unfold writeBlkHeader memStore
  have hlen := blkHeader_length d b
  generalize blkHeader d b = header at hlen ⊢
  exact ⟨rfl, fun _ => rfl, fun a ha => memByte_memWrite_outside header d.mem _ (hlen.symm ▸ ha b), fun _ => id⟩

theorem record_spares (c : Nat) (p : Option Nat) (k : Nat × Nat) (d : Dev) : Spares d (record c p k d) := by
  obtain ⟨_, _, h⟩ := record_frame c p k d
  exact h ▸ .of_same rfl

theorem tap_spares (pool inst kind part : Nat) (d : Dev) : Spares d (tap pool inst kind part d) := by
  obtain ⟨_, _, _, _, _, h⟩ := tap_taps pool inst kind part d
  exact h ▸ .of_same rfl

/-! ### Descriptors that retire (R256, R306) -/

theorem foldl_modKv_seqs {α : Type} (n : α → Nat) (f : α → KvSeq → KvSeq) (l : List α) : ∀ d : Dev,
    ∃ sq, l.foldl (fun e x => modKv (n x) (f x) e) d = { d with kv := { d.kv with seqs := sq } } := by
  induction l with
  | nil => exact fun _ => ⟨_, rfl⟩
  | cons x r ih => exact fun d => ih (modKv (n x) (f x) d)

/-- The walk of a descriptor goes, and with it locks of its sequence. -/
theorem dropWalk_frame (x : DescId) (d : Dev) : ∃ sq,
    dropWalk x d = { d with kv := { d.kv with seqs := sq, walks := d.kv.walks.filter (fun w => w.d != x) } } := by
  obtain ⟨sq, h⟩ := foldl_modKv_seqs (fun w : Walk => w.seq) (fun _ k => { k with locks := k.locks - 1 })
    (d.kv.walks.filter (fun w => w.d == x)) d
  unfold dropWalk
  dsimp only
  rw [h]
  exact ⟨sq, rfl⟩

theorem dropWalk_no_walk (x : DescId) (d : Dev) : (dropWalk x d).kv.walks.any (fun v => v.d == x) = false := by
  obtain ⟨_, h⟩ := dropWalk_frame x d
  rw [h]
  simp

theorem dropWalk_spares (x : DescId) (d : Dev) : Spares d (dropWalk x d) := by
  obtain ⟨_, h⟩ := dropWalk_frame x d
  rw [h]
  exact ⟨rfl, fun _ => rfl, fun _ _ => rfl, fun _ => List.mem_of_mem_filter⟩

theorem freeStrand_spares (x : DescId) (k : Nat) (d : Dev) : Spares d (freeStrand x k d) :=
  (foldl_spares (fun e _ => tap_spares _ _ _ _ e) _ d).trans (.of_same rfl)

theorem retire_spares (x : DescId) (d : Dev) : Spares d (retire x d) := by
  unfold retire
  split
  · exact .refl d
  next y _ =>
    extract_lets d1 d2 d3 pool d4
    have h1 : Spares d d1 := dropWalk_spares x d
    have h2 : Spares d d2 := by
      unfold d2
      split
      · exact h1.trans (freeStrand_spares x _ d1)
      · exact h1
    have h3 : Spares d d3 := by
      unfold d3
      split
      · exact h2.trans (modBlk_spares d2 (fun _ => rfl) fun _ => rfl)
      · exact h2
    have h4 : Spares d d4 := h3.trans (.of_same rfl)
    split
    · exact h4.trans (.of_same rfl)
    · exact h4.trans (tap_spares _ _ _ _ d4)

/-! ### Scan tiles that will not run (R242, R307) -/

theorem noteSlices_spares (b pos : Nat) (ss : List Nat) (d : Dev) : Spares d (noteSlices b pos ss d) := by
  unfold noteSlices
  extract_lets d1 d2
  have h1 : Spares d d1 := modBlk_spares d (fun _ => rfl) fun _ => rfl
  have h2 : Spares d d2 := h1.trans (modBlk_spares d1 (fun x => (countChunks_frame _ _ x).1) fun x => (countChunks_frame _ _ x).2)
  split
  · exact h2
  · exact h2.trans (writeBlkHeader_spares b d2)

theorem settleChunks_spares (b : Nat) (d : Dev) : Spares d (settleChunks b d) := by
  unfold settleChunks
  extract_lets q o n d1 sr
  have h1 : Spares d d1 := .of_same rfl
  split
  · exact h1
  · exact h1.trans (.of_same rfl)

theorem cancelInst_spares (g i : Nat) (d : Dev) : Spares d (cancelInst g i d).1 := by
  unfold cancelInst
  extract_lets d0 xs orphans d1 d2
  have h0 : Spares d d0 := by
    unfold d0
    split
    · exact .refl d
    · exact foldl_spares (fun e _ => (noteSlices_spares _ _ _ e).trans (settleChunks_spares _ _)) _ d
  have h1 : Spares d d1 := h0.trans (foldl_spares (fun e y => retire_spares y.id e) xs d0)
  have h2 : Spares d d2 := h1.trans (.of_same rfl)
  exact h2.trans (.of_same rfl)

/-! ### Requests that end (R73, R307, R340) -/

theorem endOne_spares (r : Req) (cause : Nat) (orphaned : Bool) (d : Dev) : Spares d (endOne r cause orphaned d).1 := by
  unfold endOne
  extract_lets tells d1 d2 d3 gone audio d4
  have h2 : Spares d d2 := by
    unfold d2
    split <;> exact .of_same rfl
  have h3 : Spares d d3 := by
    unfold d3
    split
    · exact h2.trans (.of_same rfl)
    · exact h2
  have h4 : Spares d d4 := h3.trans (.of_same rfl)
  split
  · exact h3.trans (.of_same rfl)
  · split
    · exact h4.trans (.of_same rfl)
    · split
      · exact h4.trans (cancelInst_spares _ _ d4)
      · exact h4
    · exact h4

theorem endMany_spares (n : Nat) : ∀ (l : List (Nat × Nat × Bool)) (d : Dev), Spares d (endMany n l d) := by
  induction n with
  | zero => exact fun _ => .refl
  | succ n ih =>
    intro l d
    match l with
    | [] => exact .refl d
    | (o, c, b) :: rest =>
      unfold endMany
      split
      · exact ih rest d
      next r _ => exact (endOne_spares r c b d).trans (ih _ _)

theorem pump_spares (d : Dev) : Spares d (pump d) := by
  obtain ⟨_, _, ⟨_, _, _, _, _, _, _, rfl⟩, ⟨_, _, _, _, _, _, _, hp⟩, -⟩ := pump_frame d
  exact hp ▸ .of_same rfl

theorem endReqs_spares (os : List Nat) (cause : Nat) (d : Dev) : Spares d (endReqs os cause d) :=
  (endMany_spares _ _ d).trans (pump_spares _)

end Sys2Proof.Machine
end

section
/-! PROOFS. Walks of page tables: their start, their end, and their failure (R255, R256, R261, R297). Settles O39. -/

namespace Sys2Proof.Machine

/-! ### The outcome of a command that ends requests -/

/-- A command that ends requests and brings about nothing else that is due. -/
theorem gives_of_ends {i : Instr} {s : State} {f : Dev → Dev} {e : Dev} {P : State → Prop} (hx : exec i s = devStep f s) (hf : f s.dev = e)
    (h : Settled s) (he : Ends s.dev e) (hP : ∀ a b p, P { s with dev := { e with power := { e.power with sup := a, isp := b, perk := p } } }) :
    Gives i s P :=
  gives_of_quiet (hx.trans (by rw [devStep, hf]))
    (h.quiet.mono he.tripped (congrArg Boot.romDue he.boot) (congrArg Power.isp he.power) he.isp) hP

theorem getKv_modKv_self (q : Nat) (f : KvSeq → KvSeq) (d : Dev) : getKv (modKv q f d) q = f (getKv d q) := tabGet_tabMod_self _ _ _ _ _

theorem getKv_modKv_ne {q j : Nat} (h : j ≠ q) (f : KvSeq → KvSeq) (d : Dev) : getKv (modKv q f d) j = getKv d j :=
  tabGet_tabMod_ne _ _ _ _ _ _ h

/-- Requests that end with a cause that is recorded first. -/
structure Ended (os : List Nat) (d e : Dev) : Prop extends Ends d e where
  spares : Spares d e
  none_open : ∀ o ∈ os, openReq e o = false

theorem endRecorded_ended (os : List Nat) (cause : Nat) (p : Option Nat) (k : Nat × Nat) {d : Dev} (h : d.err.armed = none) :
    Ended os d (endReqs os cause (record cause p k d)) := by
  have hrec := record_ends cause p k d
  obtain ⟨hends, hclosed⟩ := endReqs_ends os cause (hrec.armed.trans h)
  exact ⟨hrec.trans hends, (record_spares cause p k d).trans (endReqs_spares os cause _), hclosed⟩

/-! ### A walk starts (R256, R261) -/

/-- The device once a walk has started: its lock is taken, its cluster counts it. -/
def walkStarted (x : DescId) (c w q : Nat) (d : Dev) : Dev :=
  modCluster c (fun z => { z with walks := z.walks + 1 }) { d with kv := { d.kv with
    seqs := tabMod d.kv.seqs q {} (fun k => { k with locks := k.locks + 1 }), walks := d.kv.walks ++ [{ d := x, unit := (c, w), seq := q }] } }

/-- A walk that may start does, or its append exceeds the capacity and its requests end. -/
theorem walkStart_eq {d : Dev} {x : DescId} {y : Desc} {q layer w : Nat} {ps : List Nat} (hy : desc? d x = some y)
    (hw : walkOf d y.bytes = some (q, layer, ps)) (hrun : running d (dPart y.bytes) = true) (hrel : y.released = false)
    (hwait : waitsMet d x y.bytes = true) (hedits : (getKv d q).edits = []) (hlocks : (getKv d q).locks < 255)
    (hnone : d.kv.walks.any (fun v => v.d == x) = false) (hmuz : isMuzzled d (0x20 + 2 * dCluster y.bytes + w) = false) :
    walkStart x w d = if overCapacity d y.bytes then endReqs (ordersOf d y) 0x74 (record 0x74 (some (dPart y.bytes)) (8, q) d)
      else walkStarted x (dCluster y.bytes) w q d := by
  unfold walkStart
  rw [hy]
  dsimp only
  rw [hw]
  exact if_pos (by simp [hrun, hrel, hwait, hedits, hlocks, hnone, hmuz])

/-! ### A walk looks its pages up (R255) -/

/-- The translations of a walk that passes every check are those of its pages' entries, in their order. -/
theorem walkPages_translations {d : Dev} {q layer : Nat} : ∀ (ps : List Nat) (l : List (Nat × Nat × Nat × Nat × Nat)) (hm : Nat × Nat)
    (acc : List (Nat × Nat)), (walkPages d q layer ps l hm acc).1 = true →
    (walkPages d q layer ps l hm acc).2.1 = acc ++ ps.map (fun p => (p, (ptEntry d q layer p).frame * 4096))
  | [], _, _, acc, _ => (List.append_nil acc).symm
  | p :: rest, l, hm, acc, h => by
    unfold walkPages at h ⊢
    dsimp only at h ⊢
    split at h
    next hok => rw [if_pos hok, walkPages_translations rest _ _ _ h, List.append_assoc, List.map_cons, List.singleton_append]
    next => exact absurd h (by simp)

/-- What a walk finds: whether every check passed, the translations, hits and misses, the look-aside buffer afterwards. -/
abbrev WalkFound := Bool × List (Nat × Nat) × (Nat × Nat) × List (Nat × Nat × Nat × Nat × Nat)

/-- What a walk's lookups do to its cluster: hits, misses, and the walker's look-aside buffer. -/
def lookedUp (walker hits misses : Nat) (l : List (Nat × Nat × Nat × Nat × Nat)) (z : Cluster) : Cluster :=
  { z with hits := addW z.hits hits, misses := addW z.misses misses, aside := tabSet z.aside walker l }

/-- What a walk's lookups and reads may change of a device, `cl` being its clusters afterwards: traffic and tags, the count of free
values; where an entry comes back uncorrectable, the error record, the queue of interrupts and the poison of memory. -/
def Looked (cl : Tab Cluster) (d e : Dev) : Prop := ∃ mv k er i n m, e = { d with
  clusters := cl, mov := mv, freeCtr := k, err := er, host := { d.host with ibis := i, ibiMerged := n }, mem := m } ∧
  er.armed = d.err.armed ∧ m.cells = d.mem.cells

theorem walkReads_tagWork (q c misses : Nat) {d : Dev} (h : d.err.armed = none) : TagWork d (walkReads q c misses d) := by
  unfold walkReads
  extract_lets r d1
  have h1 : TagWork d d1 := countTraffic_tagWork _ _ _ d
  have ha : d1.err.armed = none := by
    obtain ⟨_, _, he, -⟩ := h1
    rw [he]
    exact h
  split
  · exact h1.trans (passTags_tagWork _ _ _ ha)
  · exact h1

theorem entryLost_looked {cl : Tab Cluster} {d e : Dev} (h : Looked cl d e) (q layer : Nat) (ps : List Nat) :
    Looked cl d (entryLost q layer ps e) := by
  unfold entryLost
  extract_lets r entry drawn a
  split
  · exact h
  · have hrec := (recordAt_unitWork 0x11 (some r.part) (8, q) (some a) false drawn.2).1.armed
    obtain ⟨er', i', n', he⟩ := recordAt_frame 0x11 (some r.part) (8, q) (some a) false drawn.2
    rw [he] at hrec ⊢
    obtain ⟨mv, k, er, i, n, m, rfl, harmed, hcells⟩ := h
    exact ⟨mv, k + 1, er', i', n', _, rfl, hrec.trans harmed, hcells⟩

/-! ### A walk ends (R255, R297) -/

section
variable {d : Dev} {x : DescId} {y : Desc} {v : Walk} {q layer : Nat} {ps : List Nat}

/-- The device once a walk has looked its pages up: `r` is what `walkPages` found. -/
def walked (v : Walk) (q : Nat) (r : WalkFound) (d : Dev) : Dev :=
  walkReads q v.unit.1 r.2.2.1.2 (modCluster v.unit.1 (lookedUp v.unit.2 r.2.2.1.1 r.2.2.1.2 r.2.2.2) d)

theorem walked_frame (r : WalkFound) (h : d.err.armed = none) :
    ∃ mv k, walked v q r d = { modCluster v.unit.1 (lookedUp v.unit.2 r.2.2.1.1 r.2.2.1.2 r.2.2.2) d with mov := mv, freeCtr := k } := by
  obtain ⟨mv, k, he, -⟩ := walkReads_tagWork q v.unit.1 r.2.2.1.2 (d := modCluster v.unit.1 (lookedUp v.unit.2 r.2.2.1.1 r.2.2.1.2 r.2.2.2) d) h
  exact ⟨mv, k, he⟩

/-- A walk that has ended well: its translations stand. -/
def translated (x : DescId) (pages : List (Nat × Nat)) (d : Dev) : Dev :=
  { d with kv := { d.kv with walks := d.kv.walks.map (fun z => if z.d = x then { z with pages := some pages } else z) } }

/-- With nothing armed, a walk fails where an entry that it reads is lost or one does not check, and else it ends with its translations. -/
theorem walkEnd_eq (ha : d.err.armed = none) (hy : desc? d x = some y) (hw : walkOf d y.bytes = some (q, layer, ps))
    (hv : d.kv.walks.find? (fun v => v.d == x && v.pages.isNone) = some v)
    {r : WalkFound}
    (hr : walkPages d q layer ps (tabGet (getCluster d v.unit.1).aside v.unit.2 []) (0, 0) [] = r) (poisoned : Bool) :
    walkEnd x poisoned d =
      if r.1 && poisoned && r.2.2.1.2 != 0 then walkFail x y q v.unit.1 false (entryLost q layer ps (walked v q r d))
      else if !r.1 then walkFail x y q v.unit.1 false (walked v q r d)
      else translated x r.2.1 (walked v q r d) := by
  have harm : (armedOn (walked v q r d) 0xD v.unit.1).isSome = false := by
    obtain ⟨_, _, he⟩ := walked_frame (v := v) (q := q) r ha
    rw [he]
    simp [armedOn, modCluster, ha]
  subst hr
  unfold walkEnd
  rw [hy, hv]
  dsimp -zeta only
  rw [hw]
  dsimp -zeta only
  extract_lets c r' missed d1 d1'
  have harm' : (armedOn d1' 0xD c).isSome = false := harm
  simp only [harm', Bool.false_eq_true, if_false]
  rfl

/-- The device once a walk has failed, its requests still open: the walk and its lock are gone, and its cluster counts it. -/
def walkLost (x : DescId) (c : Nat) (d : Dev) : Dev := modCluster c (fun z => { z with failed := z.failed + 1 }) (dropWalk x d)

theorem walkFail_eq (x : DescId) (y : Desc) (q c : Nat) (d : Dev) : walkFail x y q c false d =
    endReqs (ordersOf (walkLost x c d) y) 0x75 (record 0x75 (some (dPart y.bytes)) (8, q) (walkLost x c d)) := rfl

theorem walkLost_frame (x : DescId) (c : Nat) (d : Dev) : ∃ cl sq, walkLost x c d =
    { d with clusters := cl, kv := { d.kv with seqs := sq, walks := d.kv.walks.filter (fun w => w.d != x) } } ∧
    (tabGet cl c {}).failed = (getCluster d c).failed + 1 := by
  obtain ⟨sq, h⟩ := dropWalk_frame x d
  unfold walkLost
  rw [h]
  exact ⟨_, sq, rfl, congrArg Cluster.failed (getCluster_modCluster_self c (fun z => { z with failed := z.failed + 1 }) d)⟩

/-- A walk that fails is counted and is no more, and its requests have ended (R255). -/
theorem gives_of_walkFail {i : Instr} {s : State} {f : Dev → Dev} {c : Nat} {cl : Tab Cluster} (hx : exec i s = devStep f s)
    (hf : f s.dev = walkFail x y q c false d) (hset : Settled s) (ha : s.dev.err.armed = none) (hl : Looked cl s.dev d)
    (hc : (tabGet cl c {}).failed = (getCluster s.dev c).failed) : Gives i s fun t => SameOutside s t ∧
      (getCluster t.dev c).failed = (getCluster s.dev c).failed + 1 ∧ t.dev.kv.walks.any (fun z => z.d == x) = false ∧
      (∀ o ∈ ordersOf s.dev y, openReq t.dev o = false) ∧ SameOutsideHeaders s t := by
  rw [walkFail_eq] at hf
  obtain ⟨cl', sq, hlost, hfailed⟩ := walkLost_frame x c d
  have hnone : (walkLost x c d).kv.walks.any (fun z => z.d == x) = false := by simp [hlost]
  generalize walkLost x c d = d1 at hf hlost hnone
  obtain ⟨mv, k, er, ib, n, m, rfl, harmed, hcells⟩ := hl
  have harm : d1.err.armed = none := (congrArg (fun e => e.err.armed) hlost).trans (harmed.trans ha)
  have hq : Quiet d1 := hlost ▸ hset.quiet.mono rfl rfl rfl id
  have haddr (j : Nat) : blkAddr d1 j = blkAddr s.dev j := hlost ▸ rfl
  have horders : ordersOf d1 y = ordersOf s.dev y := hlost ▸ rfl
  have hbyte (a : Nat) : memByte d1.mem a = memByte s.dev.mem a := by rw [hlost, memByte, hcells, memByte]
  obtain ⟨hends, hspares, hclosed⟩ := endRecorded_ended (ordersOf d1 y) 0x75 (some (dPart y.bytes)) (8, q) harm
  refine gives_of_quiet (hx.trans (by rw [devStep, hf]))
    (hq.mono hends.tripped (congrArg Boot.romDue hends.boot) (congrArg Power.isp hends.power) hends.isp) fun a b p =>
      ⟨⟨rfl, rfl, rfl⟩, ?_, hspares.no_walk hnone, fun o ho => hclosed o (horders ▸ ho),
        fun a hout => (hspares.bytes a fun j => (haddr j).symm ▸ hout j).trans (hbyte a)⟩
  have hcl := hspares.clusters.trans (congrArg Dev.clusters hlost)
  exact (congrArg (fun t => (tabGet t c {}).failed) hcl).trans (hfailed.trans (congrArg (· + 1) hc))

end

/-! ### The commands -/

section
variable {s : State} {x : DescId} {y : Desc} {v : Walk} {q : Nat} {r : WalkFound} (hset : Settled s) (ha : s.dev.err.armed = none)

include hset ha in
/-- A walk whose append exceeds the capacity does not start (R261). -/
theorem pageWalkStart_over_gives {w : Fin 2} (hx : walkStart x w.val s.dev =
    endReqs (ordersOf s.dev y) 0x74 (record 0x74 (some (dPart y.bytes)) (8, q) s.dev))
    (hnone : s.dev.kv.walks.any (fun v => v.d == x) = false) : Gives (.pageWalkStart x w) s fun t => SameOutside s t ∧
      (∀ o ∈ ordersOf s.dev y, openReq t.dev o = false) ∧ t.dev.kv.walks.any (fun v => v.d == x) = false ∧ SameOutsideHeaders s t := by
  obtain ⟨hends, hspares, hclosed⟩ := endRecorded_ended (ordersOf s.dev y) 0x74 (some (dPart y.bytes)) (8, q) ha
  exact gives_of_ends rfl hx hset hends fun _ _ _ => ⟨⟨rfl, rfl, rfl⟩, hclosed, hspares.no_walk hnone, hspares.bytes⟩

include hset in
/-- A walk that starts takes a lock (R256). -/
theorem pageWalkStart_gives {w : Fin 2} {c : Nat} (hx : walkStart x w.val s.dev = walkStarted x c w.val q s.dev) :
    Gives (.pageWalkStart x w) s fun t => SameOutside s t ∧ (getKv t.dev q).locks = (getKv s.dev q).locks + 1 ∧
      t.dev.kv.walks = s.dev.kv.walks ++ [{ d := x, unit := (c, w.val), seq := q }] ∧
      (getCluster t.dev c).walks = (getCluster s.dev c).walks + 1 ∧ t.dev.reqs = s.dev.reqs ∧ t.dev.mem = s.dev.mem := by
  refine gives_of_settled rfl hx (hset.of_same rfl rfl rfl rfl rfl rfl rfl rfl) ⟨⟨rfl, rfl, rfl⟩, ?_, rfl, ?_, rfl, rfl⟩
  · exact congrArg KvSeq.locks (getKv_modKv_self q (fun k => { k with locks := k.locks + 1 }) s.dev)
  · exact congrArg Cluster.walks (getCluster_modCluster_self c (fun z => { z with walks := z.walks + 1 }) s.dev)

include hset ha in
/-- A walk that ends well: its translations stand, and its cluster counts its lookups (R255). -/
theorem pageWalkEnd_gives {poisoned : Bool} {pages : List (Nat × Nat)} (hx : walkEnd x poisoned s.dev = translated x pages (walked v q r s.dev)) :
    Gives (.pageWalkEnd x poisoned) s fun t => SameOutside s t ∧
      t.dev.kv.walks = s.dev.kv.walks.map (fun z => if z.d = x then { z with pages := some pages } else z) ∧
      getCluster t.dev v.unit.1 = lookedUp v.unit.2 r.2.2.1.1 r.2.2.1.2 r.2.2.2 (getCluster s.dev v.unit.1) ∧
      t.dev.reqs = s.dev.reqs ∧ t.dev.err = s.dev.err ∧ t.dev.mem = s.dev.mem := by
  obtain ⟨_, _, hframe⟩ := walked_frame (v := v) (q := q) r ha
  rw [hframe] at hx
  exact gives_of_settled rfl hx (hset.of_same rfl rfl rfl rfl rfl rfl rfl rfl)
    ⟨⟨rfl, rfl, rfl⟩, rfl, getCluster_modCluster_self v.unit.1 _ s.dev, rfl, rfl, rfl⟩

include ha in
theorem walked_looked : ∃ cl, Looked cl s.dev (walked v q r s.dev) ∧
    (tabGet cl v.unit.1 {}).failed = (getCluster s.dev v.unit.1).failed := by
  obtain ⟨mv, k, hframe⟩ := walked_frame (v := v) (q := q) r ha
  exact ⟨_, ⟨mv, k, _, _, _, _, hframe, rfl, rfl⟩,
    (congrArg Cluster.failed (getCluster_modCluster_self v.unit.1 (lookedUp v.unit.2 r.2.2.1.1 r.2.2.1.2 r.2.2.2) s.dev)).trans rfl⟩

end

/-- Settles O39: a walk starts or its requests end; it ends with the translations that it looked up, or fails. -/
theorem pageWalksLockAndCheck : Obligations.PageWalksLockAndCheck := by
  intro s x y q layer ps hset ha hy hw
  constructor
  · intro w hrun hrel hwait hedits hlocks hnone hmuz
    have hx := walkStart_eq hy hw hrun hrel hwait hedits hlocks hnone hmuz
    exact ⟨fun hover => pageWalkStart_over_gives hset ha (hx.trans (if_pos hover)) hnone,
      fun hover => pageWalkStart_gives hset (hx.trans (if_neg (by simp [hover])))⟩
  · intro v hv r poisoned
    have hx := walkEnd_eq ha hy hw hv (r := r) rfl poisoned
    have hpages : r.1 = true → r.2.1 = ps.map (fun p => (p, (ptEntry s.dev q layer p).frame * 4096)) :=
      walkPages_translations ps _ (0, 0) []
    clear_value r
    refine ⟨fun hok hwhole => ?_, fun hbad => ?_⟩
    · rw [if_neg (by rcases hwhole with h | h <;> simp [h]), if_neg (by simp [hok])] at hx
      obtain ⟨t, he, hout, hwalks, hcluster, hreqs, herr, hmem⟩ := pageWalkEnd_gives hset ha hx
      exact ⟨t, he, hout, hwalks, hpages hok, congrArg Cluster.hits hcluster, congrArg Cluster.misses hcluster, hreqs, herr, hmem⟩
    · obtain ⟨cl, hlooked, hfailed⟩ := walked_looked (v := v) (q := q) (r := r) ha
      by_cases hlost : (r.1 && poisoned && r.2.2.1.2 != 0) = true
      · exact gives_of_walkFail rfl (hx.trans (if_pos hlost)) hset ha (entryLost_looked hlooked q layer ps) hfailed
      · have hcheck : (!r.1) = true := by
          rcases hbad with h | ⟨hp, hm⟩
          · simp [h]
          · simpa [hp, hm] using hlost
        exact gives_of_walkFail rfl (hx.trans ((if_neg hlost).trans (if_pos hcheck))) hset ha hlooked hfailed

end Sys2Proof.Machine
end

section
/-! PROOFS. The page table as memory holds it: what writing its header and the entries that differ changes (R254, Tables 11.3, 11.4). -/

namespace Sys2Proof.Machine

/-! ### Keys and tables -/

theorem mem_dedup {α : Type} [DecidableEq α] {x : α} {l : List α} : x ∈ dedup l ↔ x ∈ l := by
  have step : ∀ (l a : List α), x ∈ l.foldl (fun a y => if y ∈ a then a else a ++ [y]) a ↔ x ∈ a ∨ x ∈ l := by
    intro l
    induction l with
    | nil => simp
    | cons y r ih =>
      intro a
      rw [List.foldl_cons, ih]
      by_cases hy : y ∈ a
      · rw [if_pos hy, List.mem_cons]
        have : x = y → x ∈ a := fun h => h ▸ hy
        tauto
      · rw [if_neg hy, List.mem_append, List.mem_singleton, List.mem_cons, or_assoc]
  simpa [dedup] using step l []

/-- A number that a table does not list reads as the default. -/
theorem tabGet_of_not_listed {α : Type} {t : Tab α} {k : Nat} (h : k ∉ t.cells.map (fun c => c.1)) (x : α) : tabGet t k x = x := by
  have hnone : ∀ l : List (Nat × α), k ∉ l.map (fun c => c.1) → lookupKey k l = none := by
    intro l
    induction l with
    | nil => exact fun _ => rfl
    | cons c r ih =>
      intro hk
      rw [List.map_cons, List.mem_cons, not_or] at hk
      rw [lookupKey, if_neg hk.1, ih hk.2]
  rw [tabGet, tabGet?, hnone t.cells h, Option.getD_none]

/-! ### Writes of one entry after another -/

theorem memRead_congr {m m' : Mem} {a n : Nat} (h : ∀ b, a ≤ b → b < a + n → memByte m b = memByte m' b) : memRead m a n = memRead m' a n :=
  List.map_congr_left fun i hi => h _ (Nat.le_add_right a i) (Nat.add_lt_add_left (List.mem_range.mp hi) a)

/-- A write of the class that table writes belong to. -/
def putBytes (a : Nat) (b : Bytes) (d : Dev) : Dev := countTraffic a 1 true (memStore a b d)

theorem putBytes_frame (a : Nat) (b : Bytes) (d : Dev) : ∃ x k, putBytes a b d =
    { d with mem := cleanGranules (wholeGranules a b.length) (memWrite d.mem a b), mov := { d.mov with ddr := x }, freeCtr := k } := by
  unfold putBytes countTraffic withChecks
  split
  · split <;> exact ⟨_, _, rfl⟩
  · exact ⟨_, _, rfl⟩

theorem putBytes_memWork (a : Nat) (b : Bytes) (d : Dev) : MemWork d (putBytes a b d) := by
  obtain ⟨x, k, h⟩ := putBytes_frame a b d
  exact ⟨_, x, k, h⟩

section
variable {a : Nat} {b : Bytes} {d : Dev} (h : d.mem.wf = true)
include h

theorem putBytes_wf : (putBytes a b d).mem.wf = true := by
  obtain ⟨_, _, he⟩ := putBytes_frame a b d
  rw [he]
  exact memWrite_wf b d.mem a h

theorem memRead_putBytes : memRead (putBytes a b d).mem a b.length = b := by
  obtain ⟨_, _, he⟩ := putBytes_frame a b d
  rw [he]
  exact (memRead_memWrite h a le_rfl).trans (List.take_length ..)

theorem memByte_putBytes_out {k : Nat} (hk : k < a ∨ a + b.length ≤ k) : memByte (putBytes a b d).mem k = memByte d.mem k := by
  obtain ⟨_, _, he⟩ := putBytes_frame a b d
  rw [he]
  exact memByte_memWrite_out b d.mem a k h hk

end

/-- Entries of 16 bytes written one after the other: each reads as written, and every other byte as before. -/
theorem foldl_putBytes (base : Nat) (val : Nat → Bytes) (hval : ∀ j, (val j).length = 16) (ks : List Nat) : ∀ d : Dev, d.mem.wf = true →
    MemWork d (ks.foldl (fun e j => putBytes (base + 16 * j) (val j) e) d) ∧
      (∀ j ∈ ks, memRead (ks.foldl (fun e j => putBytes (base + 16 * j) (val j) e) d).mem (base + 16 * j) 16 = val j) ∧
      ∀ b, (∀ j ∈ ks, b < base + 16 * j ∨ base + 16 * j + 16 ≤ b) →
        memByte (ks.foldl (fun e j => putBytes (base + 16 * j) (val j) e) d).mem b = memByte d.mem b := by
  induction ks with
  | nil => exact fun d _ => ⟨.refl d, by simp, fun _ _ => rfl⟩
  | cons k r ih =>
    intro d hw
    obtain ⟨hwork, hread, hother⟩ := ih (putBytes (base + 16 * k) (val k) d) (putBytes_wf hw)
    rw [List.foldl_cons]
    refine ⟨(putBytes_memWork _ _ d).trans hwork, fun j hj => ?_, fun b hb => ?_⟩
    · by_cases hjr : j ∈ r
      · exact hread j hjr
      · obtain rfl : j = k := (List.mem_cons.mp hj).resolve_right hjr
        refine (memRead_congr fun b hlo hhi => hother b fun i hi => ?_).trans (hval j ▸ memRead_putBytes hw)
        have : i ≠ j := fun h => hjr (h ▸ hi)
        omega
    · exact (hother b fun j hj => hb j (List.mem_cons_of_mem k hj)).trans (memByte_putBytes_out hw (by rw [hval]; exact hb k List.mem_cons_self))

/-! ### The table -/

theorem tableHeader_length (r : KvRec) (k : KvSeq) : (tableHeader r k).length = 64 := by simp [tableHeader, le_length, zeros]

theorem entryBytes_length (e : PtEntry) : (entryBytes e).length = 16 := by simp [entryBytes, le_length, zeros]

/-- Memory `m` holds the header of a table and those of its entries that differ from an earlier table; every other byte is as in `m0`. -/
structure TableHeld (img : Image) (r : KvRec) (old : Tab PtEntry) (k : KvSeq) (m0 m : Mem) : Prop where
  header : memRead m (tableAt img r) 64 = tableHeader r k
  entry : ∀ j, tabGet old j {} ≠ tabGet k.entries j {} → memRead m (entryAddr img r j) 16 = entryBytes (tabGet k.entries j {})
  other : ∀ b, (b < tableAt img r ∨ tableAt img r + 64 ≤ b) ∧
    (∀ j, tabGet old j {} ≠ tabGet k.entries j {} → b < entryAddr img r j ∨ entryAddr img r j + 16 ≤ b) → memByte m b = memByte m0 b

/-- Numbers of the entries in which two tables differ. -/
def changedKeys (old new : Tab PtEntry) : List Nat :=
  (dedup ((old.cells ++ new.cells).map (fun c => c.1))).filter (fun k => tabGet old k {} != tabGet new k {})

theorem mem_changedKeys {old new : Tab PtEntry} {j : Nat} : j ∈ changedKeys old new ↔ tabGet old j {} ≠ tabGet new j {} := by
  rw [changedKeys, List.mem_filter, mem_dedup, bne_iff_ne, List.map_append, List.mem_append, and_iff_right_iff_imp]
  intro h
  by_contra hj
  rw [not_or] at hj
  exact h ((tabGet_of_not_listed hj.1 {}).trans (tabGet_of_not_listed hj.2 {}).symm)

theorem writeTable_eq (q : Nat) (old : Tab PtEntry) (d : Dev) : writeTable q old d =
    (changedKeys old (getKv d q).entries).foldl
      (fun e j => putBytes (tableAt d.img (kvRecOf d.img q) + 64 + 16 * j) (entryBytes (tabGet (getKv d q).entries j {})) e)
      (putBytes (tableAt d.img (kvRecOf d.img q)) (tableHeader (kvRecOf d.img q) (getKv d q)) d) := rfl

theorem writeTable_held (q : Nat) (old : Tab PtEntry) {d : Dev} (hw : d.mem.wf = true) : MemWork d (writeTable q old d) ∧
    TableHeld d.img (kvRecOf d.img q) old (getKv d q) d.mem (writeTable q old d).mem := by
  have hlen := tableHeader_length (kvRecOf d.img q) (getKv d q)
  have hhead := memRead_putBytes (a := tableAt d.img (kvRecOf d.img q)) (b := tableHeader (kvRecOf d.img q) (getKv d q)) hw
  obtain ⟨hwork, hread, hother⟩ := foldl_putBytes (tableAt d.img (kvRecOf d.img q) + 64) (fun j => entryBytes (tabGet (getKv d q).entries j {}))
    (fun j => entryBytes_length _) (changedKeys old (getKv d q).entries)
    (putBytes (tableAt d.img (kvRecOf d.img q)) (tableHeader (kvRecOf d.img q) (getKv d q)) d) (putBytes_wf hw)
  rw [hlen] at hhead
  rw [writeTable_eq]
  refine ⟨(putBytes_memWork _ _ d).trans hwork, ?_, fun j hj => hread j (mem_changedKeys.mpr hj), fun b hb => ?_⟩
  · exact (memRead_congr fun b _ hhi => hother b fun j _ => by omega).trans hhead
  · exact (hother b fun j hj => hb.2 j (mem_changedKeys.mp hj)).trans (memByte_putBytes_out hw (hlen.symm ▸ hb.1))

end Sys2Proof.Machine
end

section
/-! PROOFS. Edits of page tables: what each kind changes, and its application as one step (R253, R257, R262, R336, Tables 11.3 to 11.5).
Settles O41. -/

namespace Sys2Proof.Machine

/-! ### Pages that go back to their pool (R336) -/

theorem returnPage_eq (pool k part : Nat) {d : Dev} (h : d.err.armed = none) : returnPage pool k part d =
    { d with kv := { d.kv with pools := tabMod d.kv.pools pool {} (fun x => { held := tabDrop x.held k }) } } :=
  tap_calm _ _ _ _ _ h

/-- Pages that go back change the pools alone. -/
theorem foldl_returnPage (pool part : Nat) (l : List (Nat × PtEntry)) : ∀ d : Dev, d.err.armed = none → ∃ pools,
    l.foldl (fun e c => match pageAt e.img pool (c.2.frame * 4096) with | some k => returnPage pool k part e | none => e) d =
      { d with kv := { d.kv with pools := pools } } := by
  induction l with
  | nil => exact fun _ _ => ⟨_, rfl⟩
  | cons c r ih =>
    intro d h
    rw [List.foldl_cons]
    split
    · rw [returnPage_eq _ _ _ h]
      exact ih _ h
    · exact ih d h

/-! ### What an edit changes -/

/-- What an edit changes before the table is written: its sequence but for the generation and the edits that wait, the pools, pages that
it clears, the count of free values. -/
structure Edited (q : Nat) (d e : Dev) : Prop where
  frame : ∃ sq pools m k, e = { d with kv := { d.kv with seqs := sq, pools := pools }, mem := m, freeCtr := k }
  gen : (getKv e q).gen = (getKv d q).gen
  edits : (getKv e q).edits = (getKv d q).edits
  others : ∀ j, j ≠ q → getKv e j = getKv d j

theorem Edited.trans {q : Nat} {a b c : Dev} (h : Edited q a b) (g : Edited q b c) : Edited q a c where
  frame := by
    obtain ⟨_, _, _, _, rfl⟩ := h.frame
    obtain ⟨_, _, _, _, rfl⟩ := g.frame
    exact ⟨_, _, _, _, rfl⟩
  gen := g.gen.trans h.gen
  edits := g.edits.trans h.edits
  others j hj := (g.others j hj).trans (h.others j hj)

theorem modKv_edited {q : Nat} {f : KvSeq → KvSeq} (d : Dev) (hg : ∀ k, (f k).gen = k.gen) (he : ∀ k, (f k).edits = k.edits) :
    Edited q d (modKv q f d) where
  frame := ⟨_, _, _, _, rfl⟩
  gen := by rw [getKv_modKv_self, hg]
  edits := by rw [getKv_modKv_self, he]
  others j hj := getKv_modKv_ne hj f d

theorem editFill_edited (q layer first n : Nat) (d : Dev) : Edited q d (editFill q layer first n d) :=
  modKv_edited d (fun _ => rfl) fun _ => rfl

theorem length_editFill (q layer first n : Nat) (d : Dev) :
    (getKv (editFill q layer first n d) q).length = max (getKv d q).length (first + n) := by
  rw [editFill, getKv_modKv_self]

theorem dropPages_edited (q : Nat) (cleared : Bool) (f : PtEntry → Bool) {d : Dev} (h : d.err.armed = none) :
    Edited q d (dropPages q cleared f d) ∧ (dropPages q cleared f d).mem = d.mem := by
  unfold dropPages
  extract_lets r gone d1
  obtain ⟨pools, hd⟩ : ∃ pools, d1 = { d with kv := { d.kv with pools := pools } } := foldl_returnPage r.pool r.part gone d h
  have h1 : Edited q d d1 := hd ▸ ⟨⟨_, _, _, _, rfl⟩, rfl, rfl, fun _ _ => rfl⟩
  have hmem : d1.mem = d.mem := by rw [hd]
  exact ⟨h1.trans (modKv_edited d1 (fun _ => rfl) fun _ => rfl), hmem⟩

theorem editTruncate_edited (q n : Nat) {d : Dev} (h : d.err.armed = none) :
    Edited q d (editTruncate q n d) ∧ (editTruncate q n d).mem = d.mem := by
  unfold editTruncate
  extract_lets n d1
  obtain ⟨h1, hmem⟩ : Edited q d d1 ∧ d1.mem = d.mem := dropPages_edited q false _ h
  exact ⟨h1.trans (modKv_edited d1 (fun _ => rfl) fun _ => rfl), hmem⟩

theorem length_editTruncate (q n : Nat) (d : Dev) : (getKv (editTruncate q n d) q).length = min n (getKv d q).length := by
  rw [editTruncate, getKv_modKv_self]

theorem editRelease_edited (q : Nat) {d : Dev} (h : d.err.armed = none) : Edited q d (editRelease q d) ∧ (editRelease q d).mem = d.mem := by
  obtain ⟨h1, hmem⟩ := dropPages_edited q true (fun _ => true) h
  exact ⟨h1.trans (modKv_edited _ (fun _ => rfl) fun _ => rfl), hmem⟩

theorem getKv_editRelease (q : Nat) (d : Dev) : (getKv (editRelease q d) q).length = 0 ∧ (getKv (editRelease q d) q).opened = false ∧
    (getKv (editRelease q d) q).entries = {} := by
  rw [editRelease, getKv_modKv_self]
  exact ⟨rfl, rfl, rfl⟩

/-! ### A page is allocated (R253, R336) -/

/-- Bytes of a page of the pool that a sequence draws on. -/
def poolPageBytes (img : Image) (r : KvRec) : Nat :=
  pageBytes (poolRec img r.pool).format (poolRec img r.pool).kvHeads (poolRec img r.pool).headDim

/-- Page `page` of a pool is held by a partition, from its floor or from the shared part; which page it is was a free value. -/
def takePage (pool page part : Nat) (shared : Bool) (d : Dev) : Dev :=
  { d with freeCtr := d.freeCtr + 1, kv := { d.kv with
    pools := tabMod d.kv.pools pool {} (fun x => { held := tabSet x.held page (part, shared) }) } }

/-- The device once a page of its pool is allocated to logical page p of a layer of a sequence: the pool holds it, it is cleared, and the
entry names it. -/
def allocated (q layer p page : Nat) (shared : Bool) (d : Dev) : Dev :=
  let r := kvRecOf d.img q
  let a := poolPageAddr d.img r.pool page
  modKv q (fun k => { k with pages := k.pages + 1 })
    (putEntry q layer p a (clearPage a (poolPageBytes d.img r) (takePage r.pool page r.part shared d)))

theorem editAllocate_eq {q layer p : Nat} {shared : Bool} {d : Dev} (h : d.err.armed = none)
    (hring : isRing (kvRecOf d.img q) = false ∨ p < (kvRecOf d.img q).tablePages)
    (hsource : pageSource d (kvRecOf d.img q).pool (kvRecOf d.img q).part = some shared)
    (hfrozen : frozen d 3 (kvRecOf d.img q).pool = false) (hfree : freePages d (kvRecOf d.img q).pool ≠ []) :
    ∃ page ∈ freePages d (kvRecOf d.img q).pool, editAllocate q layer p d = some (allocated q layer p page shared d) := by
  have hlen : 0 < (freePages d (kvRecOf d.img q).pool).length := List.length_pos_iff.mpr hfree
  have hidx := Nat.mod_lt (Config.freeNat d.freeCtr) hlen
  refine ⟨(freePages d (kvRecOf d.img q).pool).getD (Config.freeNat d.freeCtr % (freePages d (kvRecOf d.img q).pool).length) 0, ?_, ?_⟩
  · rw [List.getD_eq_getElem _ _ hidx]
    exact List.getElem_mem hidx
  · have hnew : ¬(isRing (kvRecOf d.img q) = true ∧ (kvRecOf d.img q).tablePages ≤ p ∧ (ptEntry d q layer p).valid = true) := by
      rintro ⟨hr, hp, -⟩
      rcases hring with h | h
      · simp [h] at hr
      · omega
    unfold editAllocate
    dsimp only
    rw [if_neg hnew, hsource, hfrozen]
    obtain ⟨k, rest, hcons⟩ := List.exists_cons_of_ne_nil hfree
    generalize freePages d (kvRecOf d.img q).pool = free at *
    subst hcons
    dsimp only
    rw [tap_calm _ _ _ _ _ (by exact h)]
    rfl

theorem allocated_edited (q layer p page : Nat) (shared : Bool) (d : Dev) : Edited q d (allocated q layer p page shared d) := by
  unfold allocated
  extract_lets r a
  have hcleared : Edited q d (clearPage a (poolPageBytes d.img r) (takePage r.pool page r.part shared d)) :=
    ⟨⟨_, _, _, _, rfl⟩, rfl, rfl, fun _ _ => rfl⟩
  have hput : Edited q d (putEntry q layer p a (clearPage a (poolPageBytes d.img r) (takePage r.pool page r.part shared d))) :=
    hcleared.trans (modKv_edited _ (fun _ => rfl) fun _ => rfl)
  exact hput.trans (modKv_edited _ (fun _ => rfl) fun _ => rfl)

theorem mem_allocated (q layer p page : Nat) (shared : Bool) (d : Dev) : (allocated q layer p page shared d).mem =
    memLose d.mem (poolPageAddr d.img (kvRecOf d.img q).pool page) (poolPageBytes d.img (kvRecOf d.img q)) := rfl

theorem tabGet_entries_allocated (q layer p page : Nat) (shared : Bool) (d : Dev) :
    tabGet (getKv (allocated q layer p page shared d) q).entries (entryKey (kvRecOf d.img q) layer p) {} =
      { frame := poolPageAddr d.img (kvRecOf d.img q).pool page / 4096, valid := true, fill := 0, part := (kvRecOf d.img q).part,
        check := p % 256, first := 64 * p } := by
  unfold allocated putEntry
  dsimp only
  rw [getKv_modKv_self, getKv_modKv_self]
  exact tabGet_tabSet_self _ _ _ _

theorem held_allocated (q layer p page : Nat) (shared : Bool) (d : Dev) :
    tabGet? (tabGet (allocated q layer p page shared d).kv.pools (kvRecOf d.img q).pool {}).held page =
      some ((kvRecOf d.img q).part, shared) := by
  have hpool := tabGet_tabMod_self d.kv.pools (kvRecOf d.img q).pool {} {}
    (fun x => { held := tabSet x.held page ((kvRecOf d.img q).part, shared) })
  exact (congrArg (fun x => tabGet? x.held page) hpool).trans (tabGet?_tabSet_self _ _ _)

/-! ### The oldest edit is applied (R257) -/

/-- A table without its oldest edit, the others being `rest`. -/
def popEdit (q : Nat) (rest : List Edit) (d : Dev) : Dev := modKv q (fun k => { k with edits := rest }) d

theorem getKv_popEdit_self (q : Nat) (rest : List Edit) (d : Dev) : getKv (popEdit q rest d) q = { getKv d q with edits := rest } :=
  getKv_modKv_self q (fun k => { k with edits := rest }) d

theorem length_popEdit (q : Nat) (rest : List Edit) (d : Dev) : (getKv (popEdit q rest d) q).length = (getKv d q).length := by
  rw [getKv_popEdit_self]

section
variable {d d1 : Dev} {q : Nat} {e : Edit} {rest : List Edit}

theorem editApply_of_locked (waited : Nat) (he : (getKv d q).edits = e :: rest) (hl : (getKv d q).locks ≠ 0) : editApply q waited d = d := by
  obtain ⟨n, hn⟩ := Nat.exists_eq_succ_of_ne_zero hl
  unfold editApply
  rw [he, hn]
  rfl

theorem editApply_of_applied (waited : Nat) (he : (getKv d q).edits = e :: rest) (hl : (getKv d q).locks = 0)
    (hd : applyEdit q e (popEdit q rest d) = some d1) :
    editApply q waited d = { d1 with kv := { d1.kv with editWait := w32 (max d1.kv.editWait.toNat waited) } } := by
  unfold popEdit at hd
  simp only [editApply, he, hl, hd]

end

/-! ### What an applied edit leaves -/

/-- An entry of a sequence's table differs in t from what it is in s. -/
def entryChanged (q : Nat) (s t : State) (j : Nat) : Prop :=
  tabGet (getKv s.dev q).entries j {} ≠ tabGet (getKv t.dev q).entries j {}

/-- An address outside the header of a sequence's table and outside the entries that change. -/
def outsideTable (q : Nat) (s t : State) (b : Nat) : Prop :=
  (b < tableAt s.dev.img (kvRecOf s.dev.img q) ∨ tableAt s.dev.img (kvRecOf s.dev.img q) + 64 ≤ b) ∧
    ∀ j, entryChanged q s t j → b < entryAddr s.dev.img (kvRecOf s.dev.img q) j ∨ entryAddr s.dev.img (kvRecOf s.dev.img q) j + 16 ≤ b

/-- An edit of a sequence's table has been applied, the edits `rest` still waiting (R257). -/
def EditApplied (q : Nat) (rest : List Edit) (s t : State) : Prop :=
  SameOutside s t ∧ (getKv t.dev q).edits = rest ∧ (getKv t.dev q).gen = (getKv s.dev q).gen + 1 ∧ t.dev.kv.edits = s.dev.kv.edits + 1 ∧
    (∀ j, j ≠ q → getKv t.dev j = getKv s.dev j) ∧ t.dev.reqs = s.dev.reqs ∧
    memRead t.dev.mem (tableAt s.dev.img (kvRecOf s.dev.img q)) 64 = tableHeader (kvRecOf s.dev.img q) (getKv t.dev q) ∧
    (∀ j, entryChanged q s t j → memRead t.dev.mem (entryAddr s.dev.img (kvRecOf s.dev.img q) j) 16 =
      entryBytes (tabGet (getKv t.dev q).entries j {}))

section
variable {s : State} {q : Fin 256} {e : Edit} {rest : List Edit} {waited : Nat} {x : Dev}

/-- An edit whose change of the device is `x` is applied: the table of `x` with its new generation is in memory, which else is that of
`x`. -/
theorem editApply_gives (hset : Settled s) (hedits : (getKv s.dev q.val).edits = e :: rest) (hlocks : (getKv s.dev q.val).locks = 0)
    (hx : applyEdit q.val e (popEdit q.val rest s.dev) =
      some (writeTable q.val (getKv (popEdit q.val rest s.dev) q.val).entries (bumpEdit q.val x)))
    (hedited : Edited q.val (popEdit q.val rest s.dev) x) (hw : x.mem.wf = true) :
    Gives (.editApply q waited) s fun t => EditApplied q.val rest s t ∧
      getKv t.dev q.val = { getKv x q.val with gen := (getKv x q.val).gen + 1 } ∧ t.dev.kv.pools = x.kv.pools ∧ t.dev.img = s.dev.img ∧
      ∀ b, outsideTable q.val s t b → memByte t.dev.mem b = memByte x.mem b := by
  rw [getKv_popEdit_self] at hx
  have happly := editApply_of_applied waited hedits hlocks hx
  obtain ⟨⟨sq, pools, m, k, hframe⟩, hgen, hrest, hothers⟩ := hedited
  rw [getKv_popEdit_self] at hgen hrest
  have hself := getKv_modKv_self q.val (fun k => { k with gen := k.gen + 1 }) x
  have himg : x.img = s.dev.img := hframe ▸ rfl
  have hreqs : x.reqs = s.dev.reqs := hframe ▸ rfl
  have hcount : x.kv.edits = s.dev.kv.edits := hframe ▸ rfl
  have hxset : Settled { s with dev := x } := hframe ▸ hset.of_same rfl rfl rfl rfl rfl rfl rfl rfl
  obtain ⟨⟨m', y, k', hwritten⟩, hheader, hentry, hother⟩ := writeTable_held q.val (getKv s.dev q.val).entries (d := bumpEdit q.val x) hw
  have hmem : (writeTable q.val (getKv s.dev q.val).entries (bumpEdit q.val x)).mem = m' := congrArg Dev.mem hwritten
  have hbump : (bumpEdit q.val x).img = s.dev.img := himg
  rw [hmem, hbump] at hheader hentry hother
  rw [hwritten] at happly
  refine gives_of_settled rfl happly (hxset.of_same rfl rfl rfl rfl rfl rfl rfl rfl)
    ⟨⟨⟨rfl, rfl, rfl⟩, ?_, ?_, congrArg (· + 1) hcount, fun j hj => ?_, hreqs, hheader, hentry⟩, hself, rfl, himg, hother⟩
  · exact (congrArg KvSeq.edits hself).trans hrest
  · exact (congrArg KvSeq.gen hself).trans (congrArg (· + 1) hgen)
  · exact (getKv_modKv_ne hj _ x).trans ((hothers j hj).trans (getKv_modKv_ne hj _ s.dev))

end

/-- Settles O41: the oldest edit changes its table as its kind says, and the table is written into memory. -/
theorem editsApplyAsOneStep : Obligations.EditsApplyAsOneStep := by
  intro s q e rest waited hset ha hedits hw k r img changed outside after only
  have hpopped : (popEdit q.val rest s.dev).err.armed = none := ha
  refine ⟨fun hl => exec_of_same rfl (editApply_of_locked waited hedits hl) hset, fun hl => ⟨?fill, ?truncate, ?release, ?allocate⟩⟩
  case fill =>
    rintro layer first n rfl
    obtain ⟨t, hx, happlied, hkv, -, -, hother⟩ := editApply_gives (waited := waited) hset hedits hl rfl (editFill_edited ..) hw
    refine ⟨t, hx, happlied, hother, ?_⟩
    rw [hkv, length_editFill, length_popEdit]
  case truncate =>
    rintro n rfl
    obtain ⟨hedited, hmem⟩ := editTruncate_edited q.val n hpopped
    obtain ⟨t, hx, happlied, hkv, -, -, hother⟩ := editApply_gives (waited := waited) hset hedits hl rfl hedited (hmem ▸ hw)
    refine ⟨t, hx, happlied, fun b hb => (hother b hb).trans (by rw [hmem]; rfl), ?_⟩
    rw [hkv, length_editTruncate, length_popEdit]
  case release =>
    rintro rfl
    obtain ⟨hedited, hmem⟩ := editRelease_edited q.val hpopped
    obtain ⟨t, hx, happlied, hkv, -, -, hother⟩ := editApply_gives (waited := waited) hset hedits hl rfl hedited (hmem ▸ hw)
    refine ⟨t, hx, happlied, fun b hb => (hother b hb).trans (by rw [hmem]; rfl), ?_⟩
    rw [hkv]
    exact getKv_editRelease q.val (popEdit q.val rest s.dev)
  case allocate =>
    rintro layer p o shared rfl hring hsource hfrozen hfree pool n
    obtain ⟨page, hpage, halloc⟩ := editAllocate_eq (layer := layer) hpopped hring hsource hfrozen hfree
    have hx : applyEdit q.val (.allocate layer p o) (popEdit q.val rest s.dev) = _ := congrArg (Option.map _) halloc
    have hentry := tabGet_entries_allocated q.val layer p page shared (popEdit q.val rest s.dev)
    have hheld := held_allocated q.val layer p page shared (popEdit q.val rest s.dev)
    obtain ⟨t, hx, happlied, hkv, hpools, himg, hother⟩ := editApply_gives (waited := waited) hset hedits hl hx
      (allocated_edited q.val layer p page shared _) (memLose_wf _ _ _ hw)
    have hbyte (b : Nat) (hb : outside t b) : memByte t.dev.mem b =
        if poolPageAddr img r.pool page ≤ b ∧ b < poolPageAddr img r.pool page + n then 0 else memByte s.dev.mem b :=
      (hother b hb).trans (memByte_memLose s.dev.mem _ n b)
    refine ⟨t, hx, happlied, page, hpage, ?_, ?_, fun i hi hb => ?_, fun b hb hout => ?_⟩
    · rw [hpools]
      exact hheld
    · rw [ptEntry, himg, hkv]
      exact hentry
    · rw [hbyte _ hb, if_pos (by omega)]
    · rw [hbyte b hout, if_neg (by omega)]

end Sys2Proof.Machine
end

section
/-! PROOFS. A direct write to a page table that another table overlaps (R254, R258). Refutes O40. -/

namespace Sys2Proof.Machine

/-- Sequences 0 and 1 of partition 0, whose record entries place their tables at one address: no accepted image has such records. -/
def overlapImage : Image where
  parts := [{ part := 0 }]
  regions := [{ id := 1, base := 0x100000, pages := 16 }]
  kvs := [{ seq := 0, layers := 1, tablePages := 4, region := 1 }, { seq := 1, layers := 1, tablePages := 4, region := 1 }]

/-- A running device in which a walk holds a lock on the table of sequence 1 and none on that of sequence 0, and session 0 is partition
0's. -/
def overlapState : State :=
  let d := State.reset.dev
  { State.reset with dev := { d with
    boot := { d.boot with step := .running, phase := 9, accepted := true }
    power := { d.power with clusters := 15, sup := true, isp := true, perk := true }
    img := overlapImage
    host := { d.host with sessions := ⟨[(0, { opened := true })]⟩ }
    kv := { seqs := ⟨[(1, { locks := 1 })]⟩ } } }

theorem overlapState_settled : Settled overlapState := ⟨rfl, rfl, rfl⟩

/-- The cause with which a partition stands stopped after a command. -/
def causeAfter (p : Nat) : Result → Nat
  | .next t => (getPart t.dev p).cause
  | _ => 0

/-- The address that both tables hold counts as one of sequence 0, whose table is not locked. -/
theorem directWrite_overlap_cause : causeAfter 0 (exec (.pageTableDirectWrite 0x70 0 1) overlapState) = 0x40 := by decide +kernel

/-- Refutes O40: which table a direct write reaches is decided by its address, so where two tables overlap, the lock count that decides the
cause need not be that of the sequence named: here sequence 1's table is locked, and the cause is 0x40. Nothing in the statement keeps two
tables apart, as acceptance does. -/
theorem not_tableEditsQueue : ¬ Obligations.TableEditsQueue := by
  intro h
  obtain ⟨-, -, -, hdirect⟩ := h overlapState overlapState_settled rfl
  obtain ⟨t, hx, -, -, -, hcause, -⟩ := hdirect 0x70 0 1 (by decide) (by decide) (by decide) (by decide)
  have hmodel := directWrite_overlap_cause
  rw [hx] at hmodel
  exact absurd (hmodel.symm.trans hcause) (by decide)

end Sys2Proof.Machine
end

section
/-! PROOFS. What the ends of descriptors and of requests leave of the movers and of the partitions (R73, R306, R307, R340). -/

namespace Sys2Proof.Machine

/-- The movers with what they hold, and the partitions. -/
def carrySide (d : Dev) : Moving × Tab Part := (d.mov, d.sched.parts)

@[simp] theorem carrySide_update (d : Dev) (boot : Boot) (img : Image) (err : Err) (flash : Flash) (tiers : Tab Tier) (reqs : List Req)
    (nextOrder : Nat) (audio : Audio) (cam : Camera) (units : Tab Unit_) (clusters : Tab Cluster) (cats : Tab Cat) (seqs : Tab Seq)
    (blks : Tab Blk) (kv : Kv) (mem : Mem) (host : HostPort) (power : Power) (age : Age) (latches : Tab (List Word)) (freeCtr : Nat) :
    carrySide ⟨boot, img, err, flash, tiers, reqs, nextOrder, audio, cam, units, clusters, cats, seqs, blks, kv, mem, d.mov, d.sched,
      host, power, age, latches, freeCtr⟩ = carrySide d := rfl

@[simp] theorem foldl_carrySide {α : Type} (f : Dev → α → Dev) (h : ∀ d x, carrySide (f d x) = carrySide d) (l : List α) :
    ∀ d : Dev, carrySide (l.foldl f d) = carrySide d := by
  induction l with
  | nil => exact fun _ => rfl
  | cons x r ih => exact fun d => (ih _).trans (h d x)

@[simp] theorem recordAt_carrySide (c : Nat) (p : Option Nat) (k : Nat × Nat) (a : Option Nat) (j : Bool) (d : Dev) :
    carrySide (recordAt c p k a j d) = carrySide d := by
  obtain ⟨_, _, _, h⟩ := recordAt_frame c p k a j d
  rw [h]
  rfl

@[simp] theorem record_carrySide (c : Nat) (p : Option Nat) (k : Nat × Nat) (d : Dev) : carrySide (record c p k d) = carrySide d :=
  recordAt_carrySide c p k none false d

@[simp] theorem tap_carrySide (pool inst kind part : Nat) (d : Dev) : carrySide (tap pool inst kind part d) = carrySide d := by
  obtain ⟨_, _, _, _, _, h⟩ := tap_taps pool inst kind part d
  rw [h]
  rfl

@[simp] theorem pump_carrySide (d : Dev) : carrySide (pump d) = carrySide d := by
  obtain ⟨_, _, ⟨_, _, _, _, _, _, _, rfl⟩, ⟨_, _, _, _, _, _, _, h⟩, -⟩ := pump_frame d
  rw [h]
  rfl

@[simp] theorem dropWalk_carrySide (x : DescId) (d : Dev) : carrySide (dropWalk x d) = carrySide d := by
  obtain ⟨_, h⟩ := dropWalk_frame x d
  rw [h]
  rfl

@[simp] theorem freeStrand_carrySide (x : DescId) (k : Nat) (d : Dev) : carrySide (freeStrand x k d) = carrySide d := by simp [freeStrand]

@[simp] theorem retire_carrySide (x : DescId) (d : Dev) : carrySide (retire x d) = carrySide d := by
  unfold retire
  split
  · rfl
  · extract_lets d1 d2 d3 pool d4
    have h2 : carrySide d2 = carrySide d := by simp [d2, d1, apply_ite carrySide]
    have h4 : carrySide d4 = carrySide d := by
      refine Eq.trans (b := carrySide d3) rfl ?_
      unfold d3
      split <;> exact h2
    split
    · exact h4
    · exact (tap_carrySide _ _ _ _ d4).trans h4

@[simp] theorem noteSlices_carrySide (b pos : Nat) (ss : List Nat) (d : Dev) : carrySide (noteSlices b pos ss d) = carrySide d := by
  unfold noteSlices
  dsimp only
  split <;> rfl

@[simp] theorem settleChunks_carrySide (b : Nat) (d : Dev) : carrySide (settleChunks b d) = carrySide d := by
  unfold settleChunks
  dsimp only
  split <;> rfl

@[simp] theorem cancelInst_carrySide (g i : Nat) (d : Dev) : carrySide (cancelInst g i d).1 = carrySide d := by
  unfold cancelInst
  extract_lets d0 xs orphans d1 d2
  have h0 : carrySide d0 = carrySide d := by simp [d0, skipScans, apply_ite carrySide]
  have h1 : carrySide d1 = carrySide d := (foldl_carrySide _ (fun e y => retire_carrySide y.id e) xs d0).trans h0
  exact h1

@[simp] theorem endOne_carrySide (r : Req) (cause : Nat) (orphaned : Bool) (d : Dev) : carrySide (endOne r cause orphaned d).1 = carrySide d := by
  unfold endOne
  extract_lets tells d1 d2 d3 gone audio d4
  have h2 : carrySide d2 = carrySide d := by
    unfold d2
    split <;> rfl
  have h3 : carrySide d3 = carrySide d := by
    unfold d3
    split <;> exact h2
  split
  · exact h3
  · split
    · exact h3
    · split
      · exact (cancelInst_carrySide _ _ d4).trans h3
      · exact h3
    · exact h3

@[simp] theorem endMany_carrySide (n : Nat) (l : List (Nat × Nat × Bool)) (d : Dev) : carrySide (endMany n l d) = carrySide d := by
  fun_induction endMany n l d with
  | case1 => rfl
  | case2 => rfl
  | case3 _ _ _ _ _ _ _ ih => exact ih
  | case4 d n o c b rest r hr e ih => rw [ih, endOne_carrySide]

@[simp] theorem endReqs_carrySide (os : List Nat) (cause : Nat) (d : Dev) : carrySide (endReqs os cause d) = carrySide d := by simp [endReqs]

@[simp] theorem endBoth_carrySide (own orphans : List Nat) (cause : Nat) (d : Dev) : carrySide (endBoth own orphans cause d) = carrySide d := by
  simp [endBoth]

@[simp] theorem truncateBack_carrySide (o : Nat) (d : Dev) : carrySide (truncateBack o d) = carrySide d := by
  unfold truncateBack
  split
  · refine foldl_carrySide _ (fun e k => ?_) _ d
    rfl
  · rfl

@[simp] theorem failDesc_carrySide (x : DescId) (cause : Nat) (d : Dev) : carrySide (failDesc x cause d) = carrySide d := by
  unfold failDesc
  split
  · rfl
  · simp [apply_ite carrySide, apply_ite Prod.fst]

/-! ### Bytes outside the headers of state blocks -/

theorem endBoth_spares (own orphans : List Nat) (cause : Nat) (d : Dev) : Spares d (endBoth own orphans cause d) :=
  (endMany_spares _ _ d).trans (pump_spares _)

theorem truncateBack_spares (o : Nat) (d : Dev) : Spares d (truncateBack o d) := by
  unfold truncateBack
  split
  next r _ =>
    obtain ⟨_, h⟩ := foldl_modKv_seqs (fun k : Nat × Nat => k.1) (fun k q => { q with edits := q.edits ++ [.truncate k.2] }) r.kvBefore d
    rw [h]
    exact .of_same rfl
  · exact .refl d

theorem failDesc_spares (x : DescId) (cause : Nat) (d : Dev) : Spares d (failDesc x cause d) := by
  unfold failDesc
  split
  · exact .refl d
  next y _ =>
    extract_lets own orphans d0 d1 c
    have h0 : Spares d d0 := by
      unfold d0
      split
      · refine foldl_spares (fun e o => ?_) own d
        split
        · exact truncateBack_spares o e
        · exact .refl e
      · exact .refl d
    have h1 : Spares d d1 := h0.trans (retire_spares x d0)
    have hc : Spares d1 c.1 := by
      unfold c
      split
      · exact .refl d1
      · exact cancelInst_spares _ _ d1
    exact h1.trans (hc.trans (endBoth_spares _ _ _ _))

/-- A live descriptor that fails has retired and its requests have ended. -/
theorem failDesc_ended {x : DescId} {y : Desc} (cause : Nat) {d : Dev} (h : d.err.armed = none) (hy : desc? d x = some y) :
    Ended (ordersOf d y) d (failDesc x cause d) := by
  obtain ⟨hends, -, hclosed⟩ := failDesc_frame cause h hy
  exact ⟨hends, failDesc_spares x cause d, hclosed⟩

end Sys2Proof.Machine
end

section
/-! PROOFS. What the discard of tiles, the stop of a partition and a muzzle leave as it was: the marks of partitions, the bytes outside the
headers of state blocks, what nothing is due from (R152, R258, R324 to R326, Tables 6.4 and 13.6). -/

namespace Sys2Proof.Machine

/-! ### What such work leaves -/

/-- What nothing is due from, what tells where blocks lie, and the bytes of memory. -/
def boundedPart (d : Dev) : (Image × Boot × Power × Tab TxPort) × Option (Nat × Nat × Nat × Nat) × Tab Blk × List Host.Cell :=
  ((d.img, d.boot, d.power, d.host.tx), d.sched.tripped, d.blks, d.mem.cells)

/-- Nothing is due that was not, no block goes elsewhere, and no byte outside the headers of blocks changes. -/
structure Bounded (d e : Dev) : Prop where
  boot : e.boot = d.boot
  power : e.power = d.power
  tripped : e.sched.tripped = d.sched.tripped
  armed : e.err.armed = d.err.armed
  isp : ispWanted d = true → ispWanted e = true
  addr : ∀ k, blkAddr e k = blkAddr d k
  bytes : ∀ a, (∀ k, a < blkAddr d k ∨ blkAddr d k + 64 ≤ a) → memByte e.mem a = memByte d.mem a

theorem Bounded.refl (d : Dev) : Bounded d d := ⟨rfl, rfl, rfl, rfl, id, fun _ => rfl, fun _ _ => rfl⟩

theorem Bounded.trans {a b c : Dev} (h : Bounded a b) (g : Bounded b c) : Bounded a c where
  boot := g.boot.trans h.boot
  power := g.power.trans h.power
  tripped := g.tripped.trans h.tripped
  armed := g.armed.trans h.armed
  isp hi := g.isp (h.isp hi)
  addr k := (g.addr k).trans (h.addr k)
  bytes x hx := (g.bytes x fun k => h.addr k ▸ hx k).trans (h.bytes x hx)

theorem Bounded.of_same {d e : Dev} (h : boundedPart e = boundedPart d) (ha : e.err.armed = d.err.armed) : Bounded d e := by
  simp only [boundedPart, Prod.mk.injEq] at h
  obtain ⟨⟨hi, hb, hp, hx⟩, ht, hk, hm⟩ := h
  refine ⟨hb, hp, ht, ha, ?_, fun k => ?_, fun a _ => by rw [memByte, hm]; rfl⟩
  · simp [ispWanted, cameraAlwaysOn, forwarding, getTx, hi, hb, hp, hx]
  · unfold blkAddr blkAt blkCore getBlk
    rw [hi, hk]

theorem Bounded.of_ends {d e : Dev} (h : Ends d e) (g : Spares d e) : Bounded d e :=
  ⟨h.boot, h.power, h.tripped, h.armed, h.isp, g.addr, g.bytes⟩

theorem Bounded.quiet {d e : Dev} (h : Bounded d e) (hq : Quiet d) : Quiet e :=
  hq.mono h.tripped (congrArg Boot.romDue h.boot) (congrArg Power.isp h.power) h.isp

/-- The stop of a partition with its cause, its reset, and its muzzled masters. -/
def marksOf (x : Part) : Bool × Nat × Bool × List Nat := (x.stopped, x.cause, x.resetting, x.muzzled)

/-- What stands of each partition. -/
def partMarks (d : Dev) (p : Nat) : Bool × Nat × Bool × List Nat := marksOf (getPart d p)

/-- `Bounded`, with the marks of every partition. -/
structure Confined (d e : Dev) : Prop extends Bounded d e where
  marks : ∀ p, partMarks e p = partMarks d p

theorem Confined.refl (d : Dev) : Confined d d := ⟨.refl d, fun _ => rfl⟩

theorem Confined.trans {a b c : Dev} (h : Confined a b) (g : Confined b c) : Confined a c :=
  ⟨h.toBounded.trans g.toBounded, fun p => (g.marks p).trans (h.marks p)⟩

theorem partMarks_of_parts {d e : Dev} (h : e.sched.parts = d.sched.parts) (p : Nat) : partMarks e p = partMarks d p := by
  rw [partMarks, getPart, h]
  rfl

theorem Confined.of_same {d e : Dev} (h : boundedPart e = boundedPart d) (ha : e.err.armed = d.err.armed)
    (hp : e.sched.parts = d.sched.parts) : Confined d e := ⟨.of_same h ha, partMarks_of_parts hp⟩

theorem Confined.of_ends {d e : Dev} (h : Ends d e) (g : Spares d e) (hc : carrySide e = carrySide d) : Confined d e :=
  ⟨.of_ends h g, partMarks_of_parts (congrArg Prod.snd hc)⟩

theorem units_confined (us : Tab Unit_) (d : Dev) : Confined d { d with units := us } := .of_same rfl rfl rfl

theorem UnitWork.confined {d e : Dev} (h : UnitWork d e) : Confined d e := by
  obtain ⟨_, _, _, _, _, rfl, ha⟩ := h
  exact .of_same rfl ha rfl

theorem foldl_confined {α : Type} {f : Dev → α → Dev} (h : ∀ d x, d.err.armed = none → Confined d (f d x)) (l : List α) :
    ∀ d : Dev, d.err.armed = none → Confined d (l.foldl f d) := by
  induction l with
  | nil => exact fun d _ => .refl d
  | cons x r ih => exact fun d hd => (h d x hd).trans (ih _ ((h d x hd).armed.trans hd))

theorem getPart_modPart_self (p : Nat) (f : Part → Part) (d : Dev) : getPart (modPart p f d) p = f (getPart d p) := tabGet_tabMod_self _ _ _ _ _

theorem getPart_modPart_ne {p q : Nat} (h : q ≠ p) (f : Part → Part) (d : Dev) : getPart (modPart p f d) q = getPart d q :=
  tabGet_tabMod_ne _ _ _ _ _ _ h

theorem modPart_bounded (p : Nat) (f : Part → Part) (d : Dev) : Bounded d (modPart p f d) := .of_same rfl rfl

/-- A change of a partition that leaves its marks. -/
theorem modPart_confined {p : Nat} {f : Part → Part} {d : Dev} (h : marksOf (f (getPart d p)) = marksOf (getPart d p)) :
    Confined d (modPart p f d) := by
  refine ⟨modPart_bounded p f d, fun q => ?_⟩
  by_cases hq : q = p
  · subst hq
    exact (congrArg marksOf (getPart_modPart_self q f d)).trans h
  · exact congrArg marksOf (getPart_modPart_ne hq f d)

theorem recordAt_confined (c : Nat) (p : Option Nat) (k : Nat × Nat) (a : Option Nat) (j : Bool) (d : Dev) :
    Confined d (recordAt c p k a j d) := (recordAt_unitWork c p k a j d).1.confined

/-! ### Tiles are discarded (Table 6.4) -/

theorem chargeTile_confined (u p n : Nat) (d : Dev) : Confined d (chargeTile u p n d) := by
  unfold chargeTile
  extract_lets c now q d1
  have h0 : Confined d (modCluster c (fun k => { k with charge := tabMod k.charge p 0 (fun x => x + n) }) d) := .of_same rfl rfl rfl
  have h1 : Confined d d1 := h0.trans (modPart_confined rfl)
  split
  · exact h1.trans ((modPart_confined rfl).trans (recordAt_confined _ _ _ _ _ _))
  · exact h1

theorem endWait_confined (u n : Nat) (d : Dev) : Confined d (endWait u n d) := by
  unfold endWait
  split
  · exact .of_same rfl rfl rfl
  · exact .refl d

theorem endWork_confined (u : Nat) (t : Tile) (d : Dev) : Confined d (endWork u t d) := by
  unfold endWork chargeLost
  extract_lets e c1 c2 total
  have hdrawn : Confined d c2.2 := (((lostWork_frame u t d).2.1.trans (draw_unitWork _)).trans (draw_unitWork _)).confined
  exact hdrawn.trans ((chargeTile_confined _ _ _ _).trans (endWait_confined _ _ _))

theorem poisonDest_confined (x : DescId) (pages : List (Nat × Nat)) (d : Dev) : Confined d (poisonDest x pages d) := by
  unfold poisonDest
  dsimp only
  split <;> exact .of_same rfl rfl rfl

theorem retire_confined (x : DescId) {d : Dev} (h : d.err.armed = none) : Confined d (retire x d) :=
  .of_ends (retire_retires x h).1.toEnds (retire_spares x d) (retire_carrySide x d)

theorem endReqs_confined (os : List Nat) (cause : Nat) {d : Dev} (h : d.err.armed = none) : Confined d (endReqs os cause d) :=
  .of_ends (endReqs_ends os cause h).1 (endReqs_spares os cause d) (endReqs_carrySide os cause d)

theorem pump_confined {d : Dev} (h : d.err.armed = none) : Confined d (pump d) :=
  .of_ends (pump_ends h) (pump_spares d) (pump_carrySide d)

theorem failDesc_confined (x : DescId) (cause : Nat) {d : Dev} (h : d.err.armed = none) : Confined d (failDesc x cause d) := by
  cases hx : desc? d x with
  | none => rw [show failDesc x cause d = d by simp only [failDesc, hx]]; exact .refl d
  | some y => exact .of_ends (failDesc_ended cause h hx).toEnds (failDesc_spares x cause d) (failDesc_carrySide x cause d)

theorem discardDesc_confined (x : DescId) (cause : Option Nat) {d : Dev} (h : d.err.armed = none) : Confined d (discardDesc x cause d) := by
  have hr := retire_confined x h
  unfold discardDesc
  split
  next y c _ =>
    exact hr.trans (.of_ends (endBoth_frame [] _ c (hr.armed.trans h)).1 (endBoth_spares _ _ _ _) (endBoth_carrySide _ _ _ _))
  · exact hr

theorem discardTile_confined (u : Nat) (cause : Option Nat) {d : Dev} (h : d.err.armed = none) : Confined d (discardTile u cause d) := by
  unfold discardTile
  split
  · exact .refl d
  next t _ =>
    extract_lets d1 d2
    have h1 : Confined d d1 := (endWork_confined u t d).trans (modUnit_unitWork _ _ _).confined
    have h2 : Confined d d2 := by
      unfold d2
      split
      · exact h1.trans (poisonDest_confined _ _ d1)
      · exact h1
    have h3 : Confined d (clearTile u d2) := h2.trans (modUnit_unitWork _ _ _).confined
    exact h3.trans (discardDesc_confined _ _ (h3.armed.trans h))

theorem discardPart_confined (p : Nat) (cause : Option Nat) {d : Dev} (h : d.err.armed = none) : Confined d (discardPart p cause d) := by
  refine foldl_confined (fun e u he => ?_) _ d h
  split
  · exact discardTile_confined u cause he
  · exact .refl e

/-! ### A partition stops and is reset (R325, R326, Table 13.6) -/

/-- The tags of a master return; with nothing armed no checker acts on it. -/
theorem returnTags_of_calm (master : Nat) (keep : Tag → Bool) {d : Dev} (h : d.err.armed = none) : returnTags master keep d =
    { d with mov := { d.mov with tags := d.mov.tags.filter (fun t => t.master != master || keep t) } } := by
  unfold returnTags
  dsimp only
  rw [foldl_tap_of_calm (fun t : Tag => (1, t.row, 1, t.part)) _ h]

theorem keepXfers_confined (keep : Xfer → Bool) (n : Nat) {d : Dev} (h : d.err.armed = none) : Confined d (keepXfers keep n d) := by
  unfold keepXfers
  extract_lets stays e
  rw [returnTags_of_calm _ _ (show e.err.armed = none from h)]
  exact .of_same rfl rfl rfl

theorem cancelKv_confined (p : Nat) (d : Dev) : Confined d (cancelKv p d) := by
  obtain ⟨_, h⟩ := foldl_modKv_seqs id (fun _ k => { k with edits := [], locks := 0 }) (kvsOf d.img p) d
  unfold cancelKv
  dsimp only [id] at h ⊢
  rw [h]
  exact .of_same rfl rfl rfl

theorem closeSession_confined (n : Nat) (d : Dev) : Confined d (closeSession n d) := .of_same rfl rfl rfl

/-- The reset of a partition begins: of all that stands, its mark alone is new. -/
theorem resetStart_confined (p : Nat) {d : Dev} (h : d.err.armed = none) :
    Confined (modPart p (fun x => { x with resetting := true }) d) (resetStart p d) := by
  unfold resetStart
  split
  next hr => exact ⟨.of_same rfl rfl, fun q => ((modPart_confined (by simp [marksOf, hr])).marks q).symm⟩
  · extract_lets cause d0 d1 d2 d3 gone d4 d5 d7 open_
    have h0 : Confined (modPart p (fun x => { x with resetting := true }) d) (modPart p (fun x => { x with resetting := true }) d0) := by
      unfold d0
      split
      · obtain ⟨_, _, hrec⟩ := record_frame 0x41 (some p) (0, 0) d
        rw [hrec]
        exact .of_same rfl (errRecord_armed ..) rfl
      · exact .refl _
    have a0 := h0.armed.trans h
    have h1 : Confined _ d1 := h0.trans (discardPart_confined p none a0)
    have h2 : Confined _ d2 := h1.trans (cancelKv_confined p d1)
    have h3 : Confined _ d3 := h2.trans (foldl_confined (fun e n he => keepXfers_confined (fun x => x.part != p) n he) (List.range 4) d2 (h2.armed.trans h))
    have h4 : Confined _ d4 := h3.trans (endReqs_confined (ordersOfPart d3 p) cause (h3.armed.trans h))
    have h5 : Confined _ d5 := h4.trans (foldl_confined (fun e x he => retire_confined x he) gone d4 (h4.armed.trans h))
    have h7 : Confined _ d7 := h5.trans (units_confined _ d5)
    have h8 := h7.trans (foldl_confined (fun e n _ => closeSession_confined n e) open_ d7 (h7.armed.trans h))
    exact h8.trans (pump_confined (h8.armed.trans h))

/-- A partition that runs stops with a cause; its muzzled masters stay so. -/
theorem stopPart_stops {p cause : Nat} {d : Dev} (h : d.err.armed = none) (hs : (getPart d p).stopped = false)
    (hr : (getPart d p).resetting = false) : Bounded d (stopPart p cause d) ∧
      ∃ r, partMarks (stopPart p cause d) p = (true, cause, r, (getPart d p).muzzled) := by
  unfold stopPart
  rw [if_neg (by simp [hs, hr])]
  extract_lets d1 d3
  have h1 : Bounded d d1 := modPart_bounded _ _ _
  have h3 : Confined d1 d3 := endReqs_confined _ _ (h1.armed.trans h)
  have hmarks : partMarks d3 p = (true, cause, false, (getPart d p).muzzled) :=
    (h3.marks p).trans ((congrArg marksOf (getPart_modPart_self p _ d)).trans (by rw [marksOf, hr]))
  split
  · have h4 := resetStart_confined p (h3.armed.trans (h1.armed.trans h))
    refine ⟨h1.trans (h3.toBounded.trans ((modPart_bounded _ _ _).trans h4.toBounded)), true, ?_⟩
    simp only [partMarks, marksOf, Prod.mk.injEq] at hmarks
    obtain ⟨hstop, hcause, -, hmuzzled⟩ := hmarks
    rw [h4.marks, partMarks, getPart_modPart_self, marksOf, hstop, hcause, hmuzzled]
  · exact ⟨h1.trans h3.toBounded, false, hmarks⟩

/-! ### A master is muzzled (R258, R324) -/

theorem dropFrame_confined (k : Nat) (d : Dev) : Confined d (dropFrame k d) := by
  unfold dropFrame
  extract_lets pipe1 d1
  have h1 : Confined d (modCam (fun c => { c with dropped := c.dropped + (if pipe1 then 1 else 0) }) d1) := .of_same rfl rfl rfl
  exact h1.trans (recordAt_confined _ _ _ _ _ _)

theorem dropWalk_confined (x : DescId) (d : Dev) : Confined d (dropWalk x d) := by
  obtain ⟨_, h⟩ := dropWalk_frame x d
  rw [h]
  exact .of_same rfl rfl rfl

theorem muzzleMaster_confined (m p : Nat) {d : Dev} (h : d.err.armed = none) : Confined d (muzzleMaster m p d) := by
  unfold muzzleMaster
  split
  · exact .of_same rfl rfl rfl
  · split
    · exact keepXfers_confined _ _ h
    · split
      · exact (foldl_confined (fun e _ _ => dropFrame_confined _ e) _ d h).trans (.of_same rfl rfl rfl)
      · split
        · exact foldl_confined (fun e w _ => dropWalk_confined w.d e) _ d h
        · exact .refl d

theorem discardMuzzled_confined (m p cause : Nat) (table : Bool) {d : Dev} (h : d.err.armed = none) :
    Confined d (discardMuzzled m p cause table d) := by
  unfold discardMuzzled
  split
  · exact discardPart_confined p _ h
  · split
    · exact discardTile_confined m _ h
    · exact .refl d

/-- A muzzle of a master that works for a running partition: the master is muzzled, the partition stops with the cause. -/
theorem muzzle_stops (m cause : Nat) (addr : Option Nat) (table : Bool) {p : Nat} {d : Dev} (h : d.err.armed = none)
    (hs : (getPart d p).stopped = false) (hr : (getPart d p).resetting = false) : Bounded d (muzzle m p cause addr table d) ∧
      (getPart (muzzle m p cause addr table d) p).muzzled.contains m = true ∧ (getPart (muzzle m p cause addr table d) p).stopped = true ∧
      (getPart (muzzle m p cause addr table d) p).cause = cause := by
  unfold muzzle
  extract_lets fresh d1 d2 d3
  have h2 : Confined d d2 := (recordAt_confined cause (some p) (4, m) addr false d).trans (.of_same rfl rfl rfl)
  have h3 : Bounded d d3 := h2.toBounded.trans (modPart_bounded _ _ _)
  have a3 := h3.armed.trans h
  have hdiscard := discardMuzzled_confined m p cause table a3
  have h5 := hdiscard.trans (muzzleMaster_confined m p (hdiscard.armed.trans a3))
  generalize muzzleMaster m p (discardMuzzled m p cause table d3) = d5 at h5
  have hp3 : getPart d3 p = { getPart d2 p with muzzled := if fresh then (getPart d2 p).muzzled ++ [m] else (getPart d2 p).muzzled } :=
    getPart_modPart_self p _ d2
  have h2p := h2.marks p
  have h5p := h5.marks p
  simp only [partMarks, marksOf, hp3, Prod.mk.injEq] at h2p h5p
  obtain ⟨hs2, -, hr2, hm2⟩ := h2p
  obtain ⟨hs5, -, hr5, hm5⟩ := h5p
  obtain ⟨hstop, r, hmarks⟩ := stopPart_stops (cause := cause) (h5.armed.trans a3) (hs5.trans (hs2.trans hs)) (hr5.trans (hr2.trans hr))
  simp only [partMarks, marksOf, Prod.mk.injEq] at hmarks
  obtain ⟨hstopped, hcause, -, hmuzzled⟩ := hmarks
  refine ⟨h3.trans (h5.toBounded.trans hstop), ?_, hstopped, hcause⟩
  rw [hmuzzled, hm5, hm2]
  by_cases hf : (getPart d p).muzzled.contains m = true <;> simp_all [fresh]

end Sys2Proof.Machine
end

section
/-! PROOFS. The granules in flight of a stream mover: what their tags, their traffic and their round trips change (R285, R287, R289). -/

namespace Sys2Proof.Machine

/-- A mover as it was, but for what is in flight of its first transfer, its longest round trip and its highest count of tags. -/
def KeptMover (x y : Mover) : Prop := ∃ i r t, y = { x with issued := i, rtMax := r, tagsHigh := t }

theorem KeptMover.refl (x : Mover) : KeptMover x x := ⟨_, _, _, rfl⟩

theorem KeptMover.trans {x y z : Mover} (h : KeptMover x y) (g : KeptMover y z) : KeptMover x z := by
  obtain ⟨_, _, _, rfl⟩ := h
  obtain ⟨_, _, _, rfl⟩ := g
  exact ⟨_, _, _, rfl⟩

theorem KeptMover.fields {x y : Mover} (h : KeptMover x y) :
    y.queue = x.queue ∧ y.xfers = x.xfers ∧ y.granules = x.granules ∧ y.poisoned = x.poisoned := by
  obtain ⟨_, _, _, rfl⟩ := h
  exact ⟨rfl, rfl, rfl, rfl⟩

theorem modMover_bounded (n : Nat) (f : Mover → Mover) (d : Dev) : Bounded d (modMover n f d) := .of_same rfl rfl

/-- What granules in flight change of a device: tags, traffic of the DRAM, what movers note, the count of free values. -/
def FlightWork (d e : Dev) : Prop := (∃ mv k, e = { d with mov := mv, freeCtr := k }) ∧ ∀ j, KeptMover (getMover d j) (getMover e j)

theorem FlightWork.trans {a b c : Dev} (h : FlightWork a b) (g : FlightWork b c) : FlightWork a c := by
  obtain ⟨⟨_, _, rfl⟩, ha⟩ := h
  obtain ⟨⟨_, _, rfl⟩, hb⟩ := g
  exact ⟨⟨_, _, rfl⟩, fun j => (ha j).trans (hb j)⟩

theorem FlightWork.armed {d e : Dev} (h : FlightWork d e) : e.err.armed = d.err.armed := by
  obtain ⟨⟨_, _, rfl⟩, -⟩ := h
  rfl

theorem FlightWork.mem {d e : Dev} (h : FlightWork d e) : e.mem = d.mem := by
  obtain ⟨⟨_, _, rfl⟩, -⟩ := h
  rfl

theorem FlightWork.confined {d e : Dev} (h : FlightWork d e) : Confined d e := by
  obtain ⟨⟨_, _, rfl⟩, -⟩ := h
  exact .of_same rfl rfl rfl

/-- Work that touches no mover. -/
theorem flightWork_of_movers {d e : Dev} (h : ∃ mv k, e = { d with mov := mv, freeCtr := k }) (hm : e.mov.movers = d.mov.movers) : FlightWork d e := by
  refine ⟨h, fun j => ?_⟩
  rw [getMover, getMover, hm]
  exact .refl _

theorem FlightWork.refl (d : Dev) : FlightWork d d := flightWork_of_movers ⟨_, _, rfl⟩ rfl

/-- Work that touches one mover, in what is in flight and what it notes. -/
theorem flightWork_of_mover {n : Nat} {d e : Dev} (h : ∃ mv k, e = { d with mov := mv, freeCtr := k })
    (hn : KeptMover (getMover d n) (getMover e n)) (hne : ∀ j, j ≠ n → getMover e j = getMover d j) : FlightWork d e := by
  refine ⟨h, fun j => ?_⟩
  by_cases hj : j = n
  · exact hj ▸ hn
  · exact hne j hj ▸ .refl _

theorem modMover_flightWork {n : Nat} {f : Mover → Mover} (d : Dev) (hf : ∀ x, KeptMover x (f x)) : FlightWork d (modMover n f d) :=
  flightWork_of_mover ⟨_, _, rfl⟩ (getMover_modMover_self n f d ▸ hf _) fun _ hj => getMover_modMover_ne hj f d

theorem modDdr_flightWork (f : Ddr → Ddr) (d : Dev) : FlightWork d (modDdr f d) := flightWork_of_movers ⟨_, _, rfl⟩ rfl

theorem draw_flightWork (d : Dev) : FlightWork d (draw d).2 := flightWork_of_movers ⟨_, _, rfl⟩ rfl

theorem noteTags_flightWork (row n : Nat) (d : Dev) : FlightWork d (noteTags row n d) := by
  unfold noteTags
  split
  · exact flightWork_of_movers ⟨_, _, rfl⟩ rfl
  · split
    · exact flightWork_of_movers ⟨_, _, rfl⟩ rfl
    · exact modMover_flightWork d fun _ => ⟨_, _, _, rfl⟩

theorem takeTag_flightWork {master p n a : Nat} {write : Bool} {d e : Dev} (h : d.err.armed = none) (he : takeTag master p n a write d = some e) :
    FlightWork d e := by
  unfold takeTag at he
  split at he
  · obtain rfl := Option.some.inj he
    exact .refl d
  · split at he
    · obtain rfl := Option.some.inj he
      exact .refl d
    · obtain ⟨sh, -, rfl⟩ := Option.map_eq_some_iff.mp he
      dsimp only
      rw [tap_calm _ _ _ _ d h]
      exact (flightWork_of_movers ⟨_, _, rfl⟩ rfl).trans (noteTags_flightWork _ _ _)

/-- A mover that issues a granule (R285). -/
theorem issueGranule_flightWork {n : Nat} {x : Xfer} {d e : Dev} (h : d.err.armed = none) (he : issueGranule n x d = some e) : FlightWork d e := by
  unfold issueGranule at he
  dsimp only at he
  obtain ⟨e2, h2, rfl⟩ := Option.map_eq_some_iff.mp he
  obtain ⟨e1, h1, h2⟩ := Option.bind_eq_some_iff.mp h2
  have hread : FlightWork d e1 := by
    split at h1
    · exact takeTag_flightWork h h1
    · obtain rfl := Option.some.inj h1
      exact .refl d
  have hwrite : FlightWork e1 e2 := by
    split at h2
    · obtain rfl := Option.some.inj h2
      exact .refl e1
    · exact takeTag_flightWork (hread.armed.trans h) h2
  exact hread.trans (hwrite.trans (modMover_flightWork e2 fun _ => ⟨_, _, _, rfl⟩))

theorem issueAhead_flightWork (n : Nat) (x : Xfer) (k : Nat) : ∀ d : Dev, d.err.armed = none → FlightWork d (issueAhead n x k d) := by
  induction k with
  | zero => exact fun d _ => .refl d
  | succ k ih =>
    intro d h
    unfold issueAhead
    split
    · exact .refl d
    · split
      next e he =>
        have hw := issueGranule_flightWork h he
        exact hw.trans (ih e (hw.armed.trans h))
      · exact .refl d

theorem countTraffic_flightWork (a granules : Nat) (write : Bool) (d : Dev) : FlightWork d (countTraffic a granules write d) := by
  unfold countTraffic withChecks
  split
  · split <;> exact flightWork_of_movers ⟨_, _, rfl⟩ rfl
  · exact .refl d

theorem roundTripOf_flightWork (a n rt : Nat) (d : Dev) : FlightWork d (roundTripOf a n rt d) := by
  unfold roundTripOf
  split
  · exact flightWork_of_movers ⟨_, _, rfl⟩ rfl
  · split
    · exact modMover_flightWork d fun _ => ⟨_, _, _, rfl⟩
    · exact .refl d

/-- A transfer goes on at the head of its mover's queue. -/
theorem flyOn_flightWork (n : Nat) (x : Xfer) {d : Dev} (h : d.err.armed = none) :
    FlightWork (modMover n (fun m => { m with queue := x :: m.queue.drop 1 }) d) (flyOn n x d) := by
  unfold flyOn
  extract_lets left d1 c
  have h1 : FlightWork (modMover n (fun m => { m with queue := x :: m.queue.drop 1 }) d) d1 := by
    refine FlightWork.trans (b := modMover n (fun m => { m with issued := left, queue := x :: m.queue.drop 1 }) d) (flightWork_of_mover (n := n)
      ⟨_, _, rfl⟩ ?_ fun j hj => (getMover_modMover_ne hj _ d).trans (getMover_modMover_ne hj _ d).symm) ?_
    · rw [getMover_modMover_self, getMover_modMover_self]
      exact ⟨_, _, _, rfl⟩
    unfold d1
    rw [returnTags_of_calm _ _ (show (modMover n _ d).err.armed = none from h)]
    exact flightWork_of_movers ⟨_, _, rfl⟩ rfl
  split
  · exact h1
  · have h2 := h1.trans (draw_flightWork d1)
    exact h2.trans (issueAhead_flightWork n x _ _ (h2.armed.trans h))

/-- The mover's first transfer goes, with the tags of what is in flight of it. -/
theorem popXfer_frame (n : Nat) {d : Dev} (h : d.err.armed = none) : ∃ us mv, popXfer n d = { d with units := us, mov := mv } ∧
    tabGet mv.movers n {} = { getMover d n with queue := (getMover d n).queue.drop 1, issued := 0 } ∧ ∀ g ∈ mv.tags, g.master ≠ 0x1C + n := by
  unfold popXfer
  rw [returnTags_of_calm _ _ (show (modMover n _ d).err.armed = none from h)]
  exact ⟨_, _, rfl, getMover_modMover_self n _ d, fun g hg => by simpa using (List.mem_filter.mp hg).2⟩

theorem popXfer_confined (n : Nat) {d : Dev} (h : d.err.armed = none) : Confined d (popXfer n d) := by
  obtain ⟨_, _, he, -⟩ := popXfer_frame n h
  rw [he]
  exact .of_same rfl rfl rfl

end Sys2Proof.Machine
end

section
/-! PROOFS. A granule of a transfer is moved, ends its transfer at a fault, or is denied (R86, R285, R287, R297, R298, R323, R324).
Settles O42. -/

namespace Sys2Proof.Machine

/-! ### The granule in memory (R297, R298) -/

section
variable {x : Xfer} {m : Mem}

/-- The bytes that a transfer to memory writes next. -/
def granuleData (x : Xfer) (m : Mem) : Bytes := if x.mode = 2 then zeros 64 else memRead m (xferSrc x x.done) 64

/-- A transfer reads a poisoned granule next. -/
def granuleDirty (x : Xfer) (m : Mem) : Bool := x.mode != 2 && poisonedAt m (xferSrc x x.done)

/-- Memory once a transfer has written its next granule: the mark of the granule read is that of the granule written. -/
def granuleMem (x : Xfer) (m : Mem) : Mem :=
  let written := cleanGranules (wholeGranules (xferDst x x.done) 64) (memWrite m (xferDst x x.done) (granuleData x m))
  if granuleDirty x m then poisonGranules (granulesOf (xferDst x x.done) 64) written else written

theorem granuleData_length (x : Xfer) (m : Mem) : (granuleData x m).length = 64 := by
  unfold granuleData
  split <;> simp [zeros, memRead]

theorem memByte_granuleMem (x : Xfer) (m : Mem) (a : Nat) :
    memByte (granuleMem x m) a = memByte (memWrite m (xferDst x x.done) (granuleData x m)) a := by
  unfold granuleMem
  dsimp only
  split <;> rfl

theorem memRead_granuleMem (hw : m.wf = true) : memRead (granuleMem x m) (xferDst x x.done) 64 = granuleData x m := by
  have hlen := granuleData_length x m
  rw [memRead_congr fun b _ _ => memByte_granuleMem x m b, memRead_memWrite hw _ hlen.ge, ← hlen, List.take_length]

theorem memByte_granuleMem_out {a : Nat} (ha : a < xferDst x x.done ∨ xferDst x x.done + 64 ≤ a) : memByte (granuleMem x m) a = memByte m a :=
  (memByte_granuleMem x m a).trans (memByte_memWrite_outside _ _ _ (by rwa [granuleData_length]))

theorem poisonedAt_granuleMem (h : xferDst x x.done % 64 = 0) : poisonedAt (granuleMem x m) (xferDst x x.done) = granuleDirty x m := by
  have hwhole : xferDst x x.done / 64 ∈ wholeGranules (xferDst x x.done) 64 := mem_wholeGranules.mpr (by omega)
  unfold granuleMem poisonedAt
  dsimp only
  split
  next hd =>
    rw [hd, List.contains_iff_mem, mem_poisonGranules]
    exact .inl (List.mem_of_mem_filter hwhole)
  next hd =>
    rw [Bool.eq_false_iff.mpr hd, ← Bool.not_eq_true, List.contains_iff_mem, mem_cleanGranules]
    exact fun hc => hc.2 hwhole

end

/-! ### What a mover does with the granule at its head -/

section
variable {d : Dev} {n : Nat} {x : Xfer} {rest : List Xfer}

/-- The granule at the head of a mover is in flight, or may be issued. -/
def Flies (d : Dev) (n : Nat) (x : Xfer) : Prop := (getMover d n).issued ≠ 0 ∨ (issueGranule n x d).isSome = true

/-- A mover that has its tags moves the granule at its head. -/
theorem granuleDone_of_flies (ha : d.err.armed = none) (hl : live d = true) (hm : isMuzzled d (0x1C + n) = false)
    (hq : (getMover d n).queue = x :: rest) (hf : Flies d n x) :
    ∃ e, FlightWork d e ∧ ∀ fault rt held, granuleDone n fault rt held d = moveGranule n x fault rt held e := by
  have heq (e : Dev) (he : (if (getMover d n).issued = 0 then issueGranule n x d else some d) = some e) (fault rt held : Nat) :
      granuleDone n fault rt held d = moveGranule n x fault rt held e := by
    simp [granuleDone, hq, hl, hm, he]
  by_cases hi : (getMover d n).issued = 0
  · obtain ⟨e, he⟩ := Option.isSome_iff_exists.mp (hf.resolve_left fun h => h hi)
    exact ⟨e, issueGranule_flightWork ha he, heq e (by rw [if_pos hi, he])⟩
  · exact ⟨d, .refl d, heq d (if_neg hi)⟩

/-- A mover that finds no tag waits (R287). -/
theorem granuleDone_of_waits (hl : live d = true) (hm : isMuzzled d (0x1C + n) = false)
    (hq : (getMover d n).queue = x :: rest) (hf : ¬ Flies d n x) (fault rt held : Nat) : granuleDone n fault rt held d = d := by
  simp only [Flies, not_or, not_not] at hf
  obtain ⟨hi, hnone⟩ := hf
  have hnone : issueGranule n x d = none := by simpa using hnone
  simp [granuleDone, hq, hl, hm, hi, hnone]

/-- The partition of a transfer may read and write the granules that it touches next. -/
def granuleAllowed (d : Dev) (x : Xfer) : Bool :=
  (!readsMem d.img x || mayRead d x.part (xferSrc x x.done)) && (x.load.isSome || mayWrite d x.part (xferDst x x.done))

theorem not_denied (h : granuleAllowed d x = true) : ¬ (!granuleAllowed d x) = true := by simp [h]

/-- The device once the accesses of a granule are counted. -/
def accessed (n : Nat) (x : Xfer) (rt held : Nat) (d : Dev) : Dev :=
  let dr := if readsMem d.img x then roundTripOf (xferSrc x x.done) n rt (countTraffic (xferSrc x x.done) 1 false d) else d
  modDdr (fun c => { c with held := addW c.held held }) (if x.load.isSome then dr else countTraffic (xferDst x x.done) 1 true dr)

theorem accessed_flightWork (n : Nat) (x : Xfer) (rt held : Nat) (d : Dev) : FlightWork d (accessed n x rt held d) := by
  unfold accessed
  extract_lets dr
  have hr : FlightWork d dr := by
    unfold dr
    split
    · exact (countTraffic_flightWork _ _ _ d).trans (roundTripOf_flightWork _ _ _ _)
    · exact .refl d
  split
  · exact hr.trans (modDdr_flightWork _ dr)
  · exact hr.trans ((countTraffic_flightWork _ _ _ dr).trans (modDdr_flightWork _ _))

theorem granuleFault_tagParity (d : Dev) (n a : Nat) : granuleFault d n a 4 = (4, false) := by simp [granuleFault]

theorem granuleFault_of_calm (h : d.err.armed = none) (n a : Nat) : granuleFault d n a 0 = (0, false) := by
  simp [granuleFault, armedOn, h]

/-- An access to the pre-roll buffer or to a pre-roll tile ends the transfer (R86). -/
theorem moveGranule_preroll (h : granuleAllowed d x = true) (rt held : Nat) :
    moveGranule n x 5 rt held d = endXfer n x 0x45 (record 0x45 (some x.part) (4, 0x1C + n) d) := by
  unfold moveGranule
  extract_lets s t reads
  exact (if_neg (not_denied h)).trans (if_pos rfl)

/-- A tag parity error ends the transfer. -/
theorem moveGranule_tagParity (h : granuleAllowed d x = true) (hr : readsMem d.img x = true) (rt held : Nat) :
    moveGranule n x 4 rt held d = endXfer n x 0x25 (recordAt 0x25 (some x.part) (4, 0x1C + n) none false (accessed n x rt held d)) := by
  unfold moveGranule
  extract_lets s t reads f d0 dr d1 d2 e code d3 dirty data d5 k d6
  have hf : f = (4, false) := (if_pos hr).trans (granuleFault_tagParity d n s)
  have h0 : d0 = d := if_neg (by simp [hf])
  have h2 : d2 = accessed n x rt held d := by
    unfold d2 d1 dr
    rw [h0]
    rfl
  refine (if_neg (not_denied h)).trans ?_
  rw [if_neg (by decide), hf, if_pos rfl, h2]

/-- The device once a granule is written, with its mark. -/
def granuleWritten (n : Nat) (x : Xfer) (d : Dev) : Dev :=
  let good := memStore (xferDst x x.done) (granuleData x d.mem) d
  if granuleDirty x d.mem then poisonRange (xferDst x x.done) 64 (modMover n (fun m => { m with poisoned := m.poisoned + 1 }) good) else good

/-- The device once a granule is written and counted. -/
def granuleStored (n : Nat) (x : Xfer) (d : Dev) : Dev := modMover n (fun m => { m with granules := m.granules + 1 }) (granuleWritten n x d)

/-- A granule that meets no fault is written; it is the last of its transfer, or the transfer goes on (R285). -/
theorem moveGranule_stored (h : granuleAllowed d x = true) (ha : d.err.armed = none) (hl : x.load = none) (rt held : Nat) :
    moveGranule n x 0 rt held d = if x.rowGranules * x.rows ≤ nextGranule d.mem x
      then completeXfer n x (granuleStored n x (accessed n x rt held d))
      else flyOn n { x with done := nextGranule d.mem x } (granuleStored n x (accessed n x rt held d)) := by
  have hmem : (accessed n x rt held d).mem = d.mem := (accessed_flightWork n x rt held d).mem
  unfold moveGranule
  extract_lets s t reads f d0 dr d1 d2 e code d3 dirty data d5 k d6
  have hf : f = (0, false) := by simp [f, granuleFault_of_calm ha]
  have h0 : d0 = d := if_neg (by simp [hf])
  have h2 : d2 = accessed n x rt held d := by
    unfold d2 d1 dr
    rw [h0]
    rfl
  have h3 : d3 = accessed n x rt held d := by simp [d3, hf, h2]
  have hdirty : dirty = granuleDirty x (accessed n x rt held d).mem := by
    simp [dirty, hf, reads, readsMem, readsBlob, hl, granuleDirty, hmem, s]
  have hdata : data = granuleData x (accessed n x rt held d).mem := by
    simp [data, h3, xferData, hl, granuleData]
  have h6 : d6 = granuleStored n x (accessed n x rt held d) := by
    simp only [d6, d5, hl, hdirty, hdata, h3]
    rfl
  refine (if_neg (not_denied h)).trans ?_
  rw [if_neg (by decide), hf, if_neg (by decide), if_neg (by simp [hl]), h6]

theorem granuleWritten_frame (n : Nat) (x : Xfer) (d : Dev) : ∃ mv, granuleWritten n x d = { d with mem := granuleMem x d.mem, mov := mv } ∧
    tabGet mv.movers n {} = { getMover d n with poisoned := (getMover d n).poisoned + if granuleDirty x d.mem then 1 else 0 } := by
  have hgood : memStore (xferDst x x.done) (granuleData x d.mem) d =
      { d with mem := cleanGranules (wholeGranules (xferDst x x.done) 64) (memWrite d.mem (xferDst x x.done) (granuleData x d.mem)) } := by
    rw [memStore, granuleData_length]
  unfold granuleWritten granuleMem
  rw [hgood]
  dsimp only
  split
  · exact ⟨_, rfl, getMover_modMover_self n _ _⟩
  · exact ⟨_, rfl, by simp [getMover]⟩

theorem granuleStored_frame (n : Nat) (x : Xfer) (d : Dev) : ∃ mv, granuleStored n x d = { d with mem := granuleMem x d.mem, mov := mv } ∧
    tabGet mv.movers n {} = { getMover d n with granules := (getMover d n).granules + 1
                                                poisoned := (getMover d n).poisoned + if granuleDirty x d.mem then 1 else 0 } := by
  obtain ⟨mv, he, hm⟩ := granuleWritten_frame n x d
  rw [granuleStored, he]
  exact ⟨_, rfl, (getMover_modMover_self n _ _).trans (congrArg (fun m : Mover => { m with granules := m.granules + 1 }) hm)⟩

theorem FlightWork.allowed {e : Dev} (h : FlightWork d e) (x : Xfer) : granuleAllowed e x = granuleAllowed d x := by
  obtain ⟨⟨_, _, rfl⟩, -⟩ := h
  rfl

theorem readsMem_of_no_load (hl : x.load = none) (img : Image) : readsMem img x = (x.mode != 2) := by simp [readsMem, readsBlob, hl]

theorem granuleAllowed_iff (hl : x.load = none) : granuleAllowed d x = true ↔
    (x.mode = 2 ∨ mayRead d x.part (xferSrc x x.done) = true) ∧ mayWrite d x.part (xferDst x x.done) = true := by
  simp [granuleAllowed, readsMem_of_no_load hl, hl]

theorem granuleAllowed_of_load {k : Nat × Nat} (hl : x.load = some k)
    (h : x.mode = 2 ∨ mayRead d x.part (xferSrc x x.done) = true ∨ readsBlob d.img x = true) : granuleAllowed d x = true := by
  obtain h | h | h := h <;> simp [granuleAllowed, readsMem, hl, h]

/-- A granule moves: memory is written, its mover counts it, and it is the last of its transfer or not. -/
theorem granuleDone_moved (ha : d.err.armed = none) (hl : live d = true) (hm : isMuzzled d (0x1C + n) = false)
    (hq : (getMover d n).queue = x :: rest) (hf : Flies d n x) (hload : x.load = none) (hok : granuleAllowed d x = true) (rt held : Nat) :
    ∃ e, (∃ mv k, e = { d with mem := granuleMem x d.mem, mov := mv, freeCtr := k }) ∧
      KeptMover { getMover d n with granules := (getMover d n).granules + 1
                                    poisoned := (getMover d n).poisoned + if granuleDirty x d.mem then 1 else 0 } (getMover e n) ∧
      granuleDone n 0 rt held d = if x.rowGranules * x.rows ≤ nextGranule d.mem x then completeXfer n x e
        else flyOn n { x with done := nextGranule d.mem x } e := by
  obtain ⟨d1, h1, heq⟩ := granuleDone_of_flies ha hl hm hq hf
  have h2 := h1.trans (accessed_flightWork n x rt held d1)
  have hmove := moveGranule_stored (n := n) ((h1.allowed x).trans hok) (h1.armed.trans ha) hload rt held
  generalize accessed n x rt held d1 = d2 at h2 hmove
  obtain ⟨mv, hstored, hmover⟩ := granuleStored_frame n x d2
  refine ⟨granuleStored n x d2, ?_, ?_, (heq 0 rt held).trans (h1.mem ▸ hmove)⟩
  · obtain ⟨⟨_, _, rfl⟩, -⟩ := h2
    exact ⟨_, _, hstored⟩
  · obtain ⟨_, _, _, hk⟩ := h2.2 n
    rw [(congrArg (getMover · n) hstored).trans hmover, hk, h2.mem]
    exact ⟨_, _, _, rfl⟩

/-- A transfer that is complete: it has left its mover with its tags, its descriptor has retired, memory is as it was (R285). -/
theorem completeXfer_frame (h : d.err.armed = none) (hload : x.load = none) : Confined d (completeXfer n x d) ∧
    (completeXfer n x d).mem = d.mem ∧ (∀ g ∈ (completeXfer n x d).mov.tags, g.master ≠ 0x1C + n) ∧
    getMover (completeXfer n x d) n = { getMover d n with queue := (getMover d n).queue.drop 1, issued := 0, xfers := (getMover d n).xfers + 1 } ∧
    ∀ i, x.d = some i → desc? (completeXfer n x d) i = none := by
  obtain ⟨us, mv, hpop, hmover, htags⟩ := popXfer_frame n (d := modMover n (fun m => { m with xfers := m.xfers + 1 }) d) h
  rw [getMover_modMover_self] at hmover
  unfold completeXfer
  rw [hpop]
  extract_lets d1
  have h1 : Confined d d1 := .of_same rfl rfl rfl
  split
  next i hd =>
    obtain ⟨⟨_, _, hsig⟩, -⟩ := signalOwn_frame i (descBytes d1 i) d1
    rw [hsig]
    generalize hd2 : ({ d1 with sched := { d1.sched with cells := _, remote := _ } } : Dev) = d2
    have h2 : Confined d1 d2 := hd2 ▸ .of_same rfl rfl rfl
    have a2 : d2.err.armed = none := h2.armed.trans h
    obtain ⟨hretire, hgone⟩ := retire_retires i a2
    have hr := retire_confined i a2
    have hp := pump_retires (hr.armed.trans a2)
    have hmov : (pump (retire i d2)).mov = mv :=
      (congrArg Prod.fst ((pump_carrySide _).trans (retire_carrySide i d2))).trans (hd2 ▸ rfl)
    refine ⟨h1.trans (h2.trans (hr.trans (pump_confined (hr.armed.trans a2)))), ?_, fun g hg => htags g (hmov ▸ hg), ?_, fun j hj => ?_⟩
    · exact hp.bytes.trans (hretire.bytes.trans (hd2 ▸ rfl))
    · exact (congrArg (fun m => tabGet m.movers n {}) hmov).trans hmover
    · obtain rfl := Option.some.inj (hd.symm.trans hj)
      exact hp.gone i hgone
  next hd hl => exact absurd hl (by simp [hload])
  next => exact ⟨h1, rfl, htags, hmover, fun i hi => by simp_all⟩

/-! ### A transfer that ends, a load, a granule that is denied -/

theorem endXfer_confined (n : Nat) (x : Xfer) (cause : Nat) (h : d.err.armed = none) : Confined d (endXfer n x cause d) := by
  have hp := popXfer_confined n h
  unfold endXfer
  split
  · exact hp.trans (failDesc_confined _ cause (hp.armed.trans h))
  · exact hp

theorem endXfer_mover (n : Nat) (x : Xfer) (cause : Nat) (h : d.err.armed = none) :
    getMover (endXfer n x cause d) n = { getMover d n with queue := (getMover d n).queue.drop 1, issued := 0 } := by
  obtain ⟨_, mv, hpop, hmover, -⟩ := popXfer_frame n h
  unfold endXfer
  rw [hpop]
  split
  next i _ =>
    refine (congrArg (fun c : Moving × Tab Part => tabGet c.1.movers n {}) (failDesc_carrySide i cause _)).trans ?_
    exact hmover
  · exact hmover

/-- The requests that a transfer works for end with it. -/
theorem endXfer_closed (n : Nat) (cause : Nat) (h : d.err.armed = none) {i : DescId} {y : Desc} (hx : x.d = some i) (hy : desc? d i = some y) :
    ∀ o ∈ ordersOf d y, openReq (endXfer n x cause d) o = false := by
  obtain ⟨us, mv, hpop, -⟩ := popXfer_frame n h
  simp only [endXfer, hx, hpop]
  exact (failDesc_ended (d := { d with units := us, mov := mv }) cause h hy).none_open

/-- What a load of a codebook bank may change of a device: its units, movers and DRAM, the count of free values. -/
def LoadWork (d e : Dev) : Prop := ∃ us mv k, e = { d with units := us, mov := mv, freeCtr := k }

theorem LoadWork.trans {a b c : Dev} (h : LoadWork a b) (g : LoadWork b c) : LoadWork a c := by
  obtain ⟨_, _, _, rfl⟩ := h
  obtain ⟨_, _, _, rfl⟩ := g
  exact ⟨_, _, _, rfl⟩

theorem FlightWork.loadWork {e : Dev} (h : FlightWork d e) : LoadWork d e := by
  obtain ⟨⟨_, _, rfl⟩, -⟩ := h
  exact ⟨_, _, _, rfl⟩

theorem LoadWork.armed {e : Dev} (h : LoadWork d e) : e.err.armed = d.err.armed := by
  obtain ⟨_, _, _, rfl⟩ := h
  rfl

theorem popXfer_loadWork (n : Nat) (h : d.err.armed = none) : LoadWork d (popXfer n d) := by
  obtain ⟨_, _, he, -⟩ := popXfer_frame n h
  exact ⟨_, _, _, he⟩

theorem flyOn_loadWork (n : Nat) (x : Xfer) (h : d.err.armed = none) : LoadWork d (flyOn n x d) :=
  LoadWork.trans ⟨_, _, _, rfl⟩ (flyOn_flightWork n x h).loadWork

/-- A granule of a load of the device's own goes into a bank (R169). -/
theorem moveGranule_load {k : Nat × Nat} (h : granuleAllowed d x = true) (ha : d.err.armed = none) (hload : x.load = some k) (hd : x.d = none)
    (rt held : Nat) : LoadWork d (moveGranule n x 0 rt held d) := by
  unfold moveGranule
  extract_lets s t reads f d0 dr d1 d2 e code d3 dirty data d5 m d6
  have hf : f = (0, false) := by simp [f, granuleFault_of_calm ha]
  have h0 : d0 = d := if_neg (by simp [hf])
  have h2 : d2 = accessed n x rt held d := by
    unfold d2 d1 dr
    rw [h0]
    rfl
  have h3 : LoadWork d d3 := by
    rw [show d3 = accessed n x rt held d by simp [d3, hf, h2]]
    exact (accessed_flightWork n x rt held d).loadWork
  have a3 := h3.armed.trans ha
  have h5 : LoadWork d d5 := by
    simp only [d5, hload]
    split
    · exact h3.trans (popXfer_loadWork n a3)
    · exact h3.trans ⟨_, _, _, rfl⟩
  have h6 : LoadWork d d6 := h5.trans ⟨_, _, _, rfl⟩
  have hcomplete : LoadWork d (completeXfer n x d6) := by
    have h7 : LoadWork d (modMover n (fun z => { z with xfers := z.xfers + 1 }) d6) := h6.trans ⟨_, _, _, rfl⟩
    simp only [completeXfer, hd, hload]
    exact (h7.trans (popXfer_loadWork n (h7.armed.trans ha))).trans ⟨_, _, _, rfl⟩
  split
  next hc => exact absurd hc (not_denied h)
  split
  next hc => exact absurd hc (by decide)
  split
  next hc => exact absurd hc (by simp [hf])
  split
  · exact h5
  · split
    · exact hcomplete
    · exact h6.trans (flyOn_loadWork n _ (h6.armed.trans ha))

theorem countDirect_confined (p a : Nat) (d : Dev) : Confined d (countDirect p a d) := by
  unfold countDirect
  split
  · split
    · exact .of_same rfl rfl rfl
    · exact .refl d
  · exact .refl d

/-- The cause of a denied granule of a transfer (R258, R324). -/
def deniedCause (d : Dev) (x : Xfer) : Nat :=
  if x.mode ≠ 2 ∧ mayRead d x.part (xferSrc x x.done) = false then 0x40 else writeCause d (xferDst x x.done)

/-- A granule that is denied: the transfer ends, and its mover is muzzled. -/
theorem moveGranule_denied (h : granuleAllowed d x = false) (ha : d.err.armed = none) (hload : x.load = none) (fault rt held : Nat) :
    ∃ e addr table, Confined d e ∧ moveGranule n x fault rt held d = muzzle (0x1C + n) x.part (deniedCause d x) addr table e := by
  unfold moveGranule
  extract_lets s t reads f d0 dr d1 d2 e code d3 dirty data d5 m d6
  have hdenied : (!((!reads || mayRead d x.part s) && (x.load.isSome || mayWrite d x.part t))) = true := by
    change (!granuleAllowed d x) = true
    simp [h]
  have hreads : (reads && !mayRead d x.part s) = true ↔ x.mode ≠ 2 ∧ mayRead d x.part s = false := by
    simp [reads, readsMem_of_no_load hload]
  rw [if_pos hdenied]
  unfold deniedCause
  split
  next hr =>
    rw [if_pos (hreads.mp hr)]
    exact ⟨_, _, _, endXfer_confined n x 0x40 ha, rfl⟩
  next hr =>
    rw [if_neg fun hc => hr (hreads.mpr hc)]
    have hc := countDirect_confined x.part t d
    exact ⟨_, _, _, hc.trans (endXfer_confined n x _ (hc.armed.trans ha)), rfl⟩

end

/-! ### The command -/

section
variable {s : State} {n : Fin 4} {x : Xfer} {rest : List Xfer} {rt held : Nat}

theorem exec_transferGranuleDone {fault : Nat} (hf : fault < 6) : exec (.transferGranuleDone n fault rt held) s =
    devStep (granuleDone n.val fault rt held) s := unlessWf_of_wf (i := .transferGranuleDone n fault rt held) (decide_eq_true hf)

/-- What a command leaves that keeps what nothing is due from. -/
theorem gives_of_bounded {i : Instr} {f : Dev → Dev} {d e : Dev} {P : State → Prop} (hx : exec i s = devStep f s) (hf : f s.dev = e) (hq : Quiet d)
    (hb : Bounded d e) (hP : ∀ a b p, P { s with dev := { e with power := { e.power with sup := a, isp := b, perk := p } } }) : Gives i s P :=
  gives_of_quiet (hx.trans (by rw [devStep, hf])) (hb.quiet hq) hP

/-- What O42 says of a granule that has moved. -/
def GranuleMoved (n : Fin 4) (x : Xfer) (s t : State) : Prop :=
  SameOutside s t ∧ memRead t.dev.mem (xferDst x x.done) 64 = granuleData x s.dev.mem ∧ SameBytesOutside (xferDst x x.done) 64 s t ∧
    poisonedAt t.dev.mem (xferDst x x.done) = granuleDirty x s.dev.mem ∧
    (getMover t.dev n.val).poisoned = (getMover s.dev n.val).poisoned + (if granuleDirty x s.dev.mem then 1 else 0) ∧
    (getMover t.dev n.val).granules = (getMover s.dev n.val).granules + 1

theorem granuleMoved_of_mem {t : State} (hout : SameOutside s t) (hmem : t.dev.mem = granuleMem x s.dev.mem) (hw : s.dev.mem.wf = true)
    (hdst : xferDst x x.done % 64 = 0)
    (hp : (getMover t.dev n.val).poisoned = (getMover s.dev n.val).poisoned + (if granuleDirty x s.dev.mem then 1 else 0))
    (hg : (getMover t.dev n.val).granules = (getMover s.dev n.val).granules + 1) : GranuleMoved n x s t := by
  refine ⟨hout, ?_, fun b hb => ?_, ?_, hp, hg⟩
  · rw [hmem, memRead_granuleMem hw]
  · rw [hmem, memByte_granuleMem_out hb]
  · rw [hmem, poisonedAt_granuleMem hdst]

variable (hset : Settled s) (ha : s.dev.err.armed = none) (hl : live s.dev = true) (hm : isMuzzled s.dev (0x1C + n.val) = false)
  (hq : (getMover s.dev n.val).queue = x :: rest) (hf : Flies s.dev n.val x)

include hset hl hm hq in
/-- A mover that finds no tag waits (R287). -/
theorem transferGranuleDone_waits (hnone : ¬ Flies s.dev n.val x) (fault : Nat) : exec (.transferGranuleDone n fault rt held) s = .next s := by
  by_cases hlt : fault < 6
  · exact exec_of_same (exec_transferGranuleDone hlt) (granuleDone_of_waits hl hm hq hnone fault rt held) hset
  · exact if_neg (by simp [Instr.wf, hlt])

include hset ha hl hm hq hf in
/-- A granule that is not its transfer's last (R285). -/
theorem transferGranuleDone_goesOn (hload : x.load = none) (hok : granuleAllowed s.dev x = true) (hw : s.dev.mem.wf = true)
    (hdst : xferDst x x.done % 64 = 0) (hk : nextGranule s.dev.mem x < x.rowGranules * x.rows) :
    Gives (.transferGranuleDone n 0 rt held) s fun t => GranuleMoved n x s t ∧
      (getMover t.dev n.val).queue = { x with done := nextGranule s.dev.mem x } :: rest ∧
      (getMover t.dev n.val).xfers = (getMover s.dev n.val).xfers ∧ t.dev.reqs = s.dev.reqs := by
  obtain ⟨e, ⟨mv, k, he⟩, hkept, heq⟩ := granuleDone_moved ha hl hm hq hf hload hok rt held
  rw [if_neg (by omega)] at heq
  have hquiet : Quiet e := he ▸ hset.quiet.mono rfl rfl rfl id
  have hfly := flyOn_flightWork n.val { x with done := nextGranule s.dev.mem x } (show e.err.armed = none from he ▸ ha)
  generalize flyOn n.val { x with done := nextGranule s.dev.mem x } e = e' at hfly heq
  obtain ⟨hqueue, hxfers, hgranules, hpoisoned⟩ := (hfly.2 n.val).fields
  rw [getMover_modMover_self] at hqueue hxfers hgranules hpoisoned
  obtain ⟨kqueue, kxfers, kgranules, kpoisoned⟩ := hkept.fields
  have hsame : e'.mem = granuleMem x s.dev.mem ∧ e'.reqs = s.dev.reqs := by
    obtain ⟨⟨_, _, rfl⟩, -⟩ := hfly
    exact he ▸ ⟨rfl, rfl⟩
  refine gives_of_bounded (exec_transferGranuleDone (by decide)) heq hquiet ((modMover_bounded _ _ e).trans hfly.confined.toBounded) fun a b p =>
    ⟨granuleMoved_of_mem ⟨rfl, rfl, rfl⟩ hsame.1 hw hdst (hpoisoned.trans kpoisoned) (hgranules.trans kgranules), ?_, hxfers.trans kxfers, hsame.2⟩
  exact hqueue.trans (congrArg (_ :: ·) (kqueue ▸ congrArg (List.drop 1) hq))

include hset ha hl hm hq hf in
/-- A transfer's last granule (R285). -/
theorem transferGranuleDone_completes (hload : x.load = none) (hok : granuleAllowed s.dev x = true) (hw : s.dev.mem.wf = true)
    (hdst : xferDst x x.done % 64 = 0) (hk : x.rowGranules * x.rows ≤ nextGranule s.dev.mem x) :
    Gives (.transferGranuleDone n 0 rt held) s fun t => GranuleMoved n x s t ∧ (getMover t.dev n.val).queue = rest ∧
      (getMover t.dev n.val).xfers = (getMover s.dev n.val).xfers + 1 ∧ (∀ g ∈ t.dev.mov.tags, g.master ≠ 0x1C + n.val) ∧
      ∀ i, x.d = some i → desc? t.dev i = none := by
  obtain ⟨e, ⟨mv, k, he⟩, hkept, heq⟩ := granuleDone_moved ha hl hm hq hf hload hok rt held
  rw [if_pos hk] at heq
  have hquiet : Quiet e := he ▸ hset.quiet.mono rfl rfl rfl id
  obtain ⟨hconf, hmem, htags, hmover, hgone⟩ := completeXfer_frame (n := n.val) (show e.err.armed = none from he ▸ ha) hload
  obtain ⟨kqueue, kxfers, kgranules, kpoisoned⟩ := hkept.fields
  refine gives_of_bounded (exec_transferGranuleDone (by decide)) heq hquiet hconf.toBounded fun a b p =>
    ⟨granuleMoved_of_mem ⟨rfl, rfl, rfl⟩ (hmem.trans (he ▸ rfl)) hw hdst ((congrArg Mover.poisoned hmover).trans kpoisoned)
      ((congrArg Mover.granules hmover).trans kgranules), ?_, (congrArg Mover.xfers hmover).trans (congrArg (· + 1) kxfers), htags, hgone⟩
  exact (congrArg Mover.queue hmover).trans (kqueue ▸ congrArg (List.drop 1) hq)

/-- What O42 says of a transfer that ends at a fault. -/
def TransferEnded (n : Fin 4) (x : Xfer) (rest : List Xfer) (s t : State) : Prop :=
  SameOutside s t ∧ (getMover t.dev n.val).queue = rest ∧ SameOutsideHeaders s t ∧
    (getPart t.dev x.part).muzzled = (getPart s.dev x.part).muzzled ∧
    ∀ i y, x.d = some i → desc? s.dev i = some y → ∀ o ∈ ordersOf s.dev y, openReq t.dev o = false

/-- The record of a mover's fault, after what flew. -/
theorem faultRecorded_frame {d e : Dev} (h : FlightWork d e) (code p j : Nat) : ∃ er i m mv k,
    recordAt code (some p) (4, j) none false e =
      { d with err := er, host := { d.host with ibis := i, ibiMerged := m }, mov := mv, freeCtr := k } ∧
    er.armed = d.err.armed ∧ (tabGet mv.movers n.val {}).queue = (getMover d n.val).queue := by
  have hqueue := (h.2 n.val).fields.1
  obtain ⟨⟨mv, k, rfl⟩, -⟩ := h
  obtain ⟨er, i, m, he⟩ := recordAt_frame code (some p) (4, j) none false { d with mov := mv, freeCtr := k }
  have harmed := (recordAt_confined code (some p) (4, j) none false { d with mov := mv, freeCtr := k }).armed
  rw [he] at harmed
  exact ⟨er, i, m, mv, k, he, harmed, hqueue⟩

include hset ha hl hm hq hf in
/-- A fault ends its transfer: an access to the pre-roll buffer, or a tag parity error (R86, R285). -/
theorem transferGranuleDone_ends (hload : x.load = none) (hok : granuleAllowed s.dev x = true) {fault : Nat}
    (hfault : fault = 5 ∨ fault = 4 ∧ x.mode ≠ 2) : Gives (.transferGranuleDone n fault rt held) s (TransferEnded n x rest s) := by
  obtain ⟨d1, h1, heq⟩ := granuleDone_of_flies ha hl hm hq hf
  have hok1 := (h1.allowed x).trans hok
  have hends : ∃ c d2, FlightWork s.dev d2 ∧ moveGranule n.val x fault rt held d1 =
      endXfer n.val x c (recordAt c (some x.part) (4, 0x1C + n.val) none false d2) := by
    obtain rfl | ⟨rfl, hmode⟩ := hfault
    · exact ⟨_, _, h1, moveGranule_preroll hok1 rt held⟩
    · exact ⟨_, _, h1.trans (accessed_flightWork ..), moveGranule_tagParity hok1 ((readsMem_of_no_load hload _).trans (by simpa using hmode)) rt held⟩
  obtain ⟨c, d2, h2, hmove⟩ := hends
  obtain ⟨er, i, m, mv, k, he, harmed, hqueue⟩ := faultRecorded_frame (n := n) h2 c x.part (0x1C + n.val)
  generalize recordAt c (some x.part) (4, 0x1C + n.val) none false d2 = e at he hmove
  have ae : e.err.armed = none := he ▸ harmed.trans ha
  have hbe : Confined s.dev e := he ▸ .of_same rfl harmed rfl
  have hc := hbe.trans (endXfer_confined n.val x c ae)
  have hmuzzled := hc.marks x.part
  simp only [partMarks, marksOf, Prod.mk.injEq] at hmuzzled
  obtain ⟨-, -, -, hmuzzled⟩ := hmuzzled
  refine gives_of_bounded (exec_transferGranuleDone (by omega)) ((heq fault rt held).trans hmove) hset.quiet hc.toBounded fun a b p =>
    ⟨⟨rfl, rfl, rfl⟩, ?_, hc.bytes, hmuzzled, fun i y hx hy => ?_⟩
  · have hfirst : (getMover e n.val).queue = x :: rest := by
      subst he
      exact hqueue.trans hq
    exact (congrArg Mover.queue (endXfer_mover n.val x c ae)).trans (congrArg (List.drop 1) hfirst)
  · subst he
    exact endXfer_closed n.val c ae hx hy

include hset ha hl hm hq hf in
/-- A granule of a load of a bank writes no memory (R169). -/
theorem transferGranuleDone_loads {k : Nat × Nat} (hload : x.load = some k) (hd : x.d = none) (hok : granuleAllowed s.dev x = true) :
    Gives (.transferGranuleDone n 0 rt held) s fun t => SameOutside s t ∧ t.dev.mem = s.dev.mem ∧ t.dev.reqs = s.dev.reqs := by
  obtain ⟨d1, h1, heq⟩ := granuleDone_of_flies ha hl hm hq hf
  obtain ⟨us, mv, j, he⟩ := h1.loadWork.trans (moveGranule_load (n := n.val) ((h1.allowed x).trans hok) (h1.armed.trans ha) hload hd rt held)
  exact gives_of_settled (exec_transferGranuleDone (by decide)) ((heq 0 rt held).trans he) (hset.of_same rfl rfl rfl rfl rfl rfl rfl rfl)
    ⟨⟨rfl, rfl, rfl⟩, rfl, rfl⟩

include hset ha hl hm hq hf in
/-- A granule that is denied muzzles its mover and stops its partition (R323, R324). -/
theorem transferGranuleDone_denied (hload : x.load = none) (hok : granuleAllowed s.dev x = false) (hrun : running s.dev x.part = true) :
    Gives (.transferGranuleDone n 0 rt held) s fun t => SameOutside s t ∧ (getPart t.dev x.part).muzzled.contains (0x1C + n.val) = true ∧
      (getPart t.dev x.part).stopped = true ∧ (getPart t.dev x.part).cause = deniedCause s.dev x ∧ SameOutsideHeaders s t := by
  obtain ⟨d1, h1, heq⟩ := granuleDone_of_flies ha hl hm hq hf
  obtain ⟨e, addr, table, h2, hmove⟩ := moveGranule_denied (n := n.val) ((h1.allowed x).trans hok) (h1.armed.trans ha) hload 0 rt held
  have hcause : deniedCause d1 x = deniedCause s.dev x := by
    obtain ⟨⟨_, _, rfl⟩, -⟩ := h1
    rfl
  have hc := h1.confined.trans h2
  have hmarks := hc.marks x.part
  simp only [partMarks, marksOf, Prod.mk.injEq] at hmarks
  obtain ⟨hs, -, hr, -⟩ := hmarks
  simp only [running, Bool.and_eq_true, Bool.not_eq_true'] at hrun
  obtain ⟨⟨-, hruns⟩, hresets⟩ := hrun
  obtain ⟨hb, hmuzzled, hstopped, hstop⟩ := muzzle_stops (0x1C + n.val) (deniedCause d1 x) addr table (hc.armed.trans ha)
    (hs.trans hruns) (hr.trans hresets)
  have hbound := hc.toBounded.trans hb
  exact gives_of_bounded (exec_transferGranuleDone (by decide)) ((heq 0 rt held).trans hmove) hset.quiet hbound fun a b p =>
    ⟨⟨rfl, rfl, rfl⟩, hmuzzled, hstopped, hstop.trans hcause, hbound.bytes⟩

end

/-- Settles O42: by what a mover does with the granule at its head, a granule is moved with its mark, waits, ends its transfer or is denied. -/
theorem transfersMoveOneGranule : Obligations.TransfersMoveOneGranule := by
  intro s n x rest rt held hset ha hl hm hq src dst ok flies
  have allowed (hload : x.load = none) (hok : ok) : granuleAllowed s.dev x = true := (granuleAllowed_iff hload).mpr hok
  refine ⟨fun hnone fault => transferGranuleDone_waits hset hl hm hq hnone fault, fun hf hok hload hw hdst => ⟨fun hk => ?_, fun hk => ?_⟩,
    fun hf hok hload fault hmem hfault => ?_, fun k hload hd hf hread => ?_, fun hnot hf hload hrun => ?_⟩
  · exact transferGranuleDone_goesOn hset ha hl hm hq hf hload (allowed hload hok) hw hdst hk
  · exact transferGranuleDone_completes hset ha hl hm hq hf hload (allowed hload hok) hw hdst hk
  · refine transferGranuleDone_ends hset ha hl hm hq hf hload (allowed hload hok) ?_
    have hcode : fault = 4 ∨ fault = 5 := by simpa using hmem
    omega
  · exact transferGranuleDone_loads hset ha hl hm hq hf hload hd (granuleAllowed_of_load hload hread)
  · exact transferGranuleDone_denied hset ha hl hm hq hf hload (Bool.eq_false_iff.mpr fun h => hnot ((granuleAllowed_iff hload).mp h)) hrun

end Sys2Proof.Machine
end

section
/-! PROOFS. A layer of a weight window whose transfer trips the checker of the DRAM tags under an injection (R287, R291, R333, R446).
Refutes O43. -/

namespace Sys2Proof.Machine

/-- Weight window 0 of partition 0: one layer of one granule, from DRAM into the stacked store. -/
def tappedImage : Image where
  parts := [{ part := 0 }]
  regions := [{ id := 1, base := 0x1000000000, pages := 1 }, { id := 2, base := 0x100000, pages := 1 }]
  windows := [{ window := 0, depth := 2, layers := 1, windowRegion := 1, slotBytes := 4096, sourceRegion := 2, entries := [⟨0, 64⟩] }]

/-- A running device that loads the layer, its memory empty, with an injection armed on the checker of the DRAM read tags: class 7, pool 1,
row 0, mode 0. -/
def tappedState : State :=
  let d := State.reset.dev
  { State.reset with dev := { d with
    boot := { d.boot with step := .running, phase := 9, accepted := true, reached := true }
    power := { d.power with clusters := 15, dram := true, sup := true, isp := true, perk := true }
    img := tappedImage
    mov := { wins := ⟨[(0, { loading := some 0 })]⟩ }
    err := { d.err with armed := some (0x7100, 0) } } }

theorem tappedState_settled : Settled tappedState := ⟨rfl, rfl, rfl⟩

/-- The layer that stands in a slot of a window after a command. -/
def slotAfter (w k : Nat) : Result → Option Nat
  | .next t => tabGet? (getWin t.dev w).slots k
  | _ => none

/-- The violation halts the device, which loses its windows. -/
theorem windowLayerPresent_tapped_slot : slotAfter 0 0 (exec (.windowLayerPresent 0 0) tappedState) = none := by decide +kernel

/-- Refutes O43: its clause on a layer that is present leaves open what injection is armed. One on the checker of the DRAM tags acts as the
loader's transfer takes its tag (R446); the violation is of DEVICE severity, the device halts, and the layer is not in its slot. -/
theorem not_windowsSignalsAndScrub : ¬ Obligations.WindowsSignalsAndScrub := by
  intro h
  obtain ⟨-, hpresent⟩ := h.1 tappedState 0 (tappedImage.windows.headD {}) tappedState_settled rfl
  obtain ⟨t, hx, -, -, -, hslot, -⟩ := hpresent 0 0 rfl (by decide) (by decide)
  have hmodel := windowLayerPresent_tapped_slot
  rw [hx] at hmodel
  exact absurd (hmodel.symm.trans hslot) (by decide)

end Sys2Proof.Machine
end
